-- ==== Sys2Proof/Word.lean ====
section
/-! DEFINITION. The word types of the ZK1 (R4) and their plainest readings. -/

namespace Sys2Proof

/-- The 64-bit memory word and general register (R4). -/
abbrev Word := BitVec 64

/-- The 8-bit byte (R4). -/
abbrev Byte := BitVec 8

/-- One 32-bit vector lane (R13). -/
abbrev Lane := BitVec 32

/-- One 40-bit accumulator lane (R13). -/
abbrev Acc := BitVec 40

/-- A 32-bit TCB reference (R34). -/
abbrev TcbRef := BitVec 32

/-- Bits [lo+len-1:lo] of a number, as a number (R3). -/
def bits (w lo len : Nat) : Nat := w / 2 ^ lo % 2 ^ len

/-- Bit i of a number. -/
def bit (w i : Nat) : Bool := w / 2 ^ i % 2 == 1

/-- A Bool as the number 0 or 1. -/
def b2n (b : Bool) : Nat := if b then 1 else 0

/-- sext(x, n) of R10, as an integer. -/
def sextInt (x n : Nat) : Int := if x / 2 ^ (n - 1) % 2 = 1 then (x : Int) - 2 ^ n else x

/-- wrap64 of R10. -/
def wrap64 (x : Int) : Word := BitVec.ofInt 64 x

end Sys2Proof
end

