-- ==== Sys2Proof/Payload.lean ====
section
/-! DEFINITION. What the hardware's own events carry: the kinds of request that travel to a home (R234),
the packets of Relay (R333), the messages of Pacer (R316 to R320) and the header of a control frame (R324). -/

namespace Sys2Proof

/-- Causes of a trap (R285). -/
inductive Cause where
  | illegal | regwin | align | page | rights | object | vown | accown | ring | trap | svc | machine
deriving DecidableEq, Repr, Inhabited

/-- Atomic operations, in the order of `sub` (R140). -/
inductive AtomOp where
  | add | fadd | min | max | minn | maxn | and | or | xor | swp | cas | cadd
deriving DecidableEq, Repr, Inhabited

/-- Atomic widths, in the order of their codes (R71). -/
inductive AtomW where
  | d | s32 | n32 | f32
deriving DecidableEq, Repr, Inhabited

/-- What a request asks of its home (R234, R137, R140, R148, R216). `size` is in bytes. -/
inductive HomeOp where
  | load (size : Nat)
  | store (size : Nat)
  | atomic (op : AtomOp) (w : AtomW)
  | ldfe | ldff | stfe | stf | sete | feq
  | arrive | hwait | htest
  | cwait | cread
  | fill
  /-- the dirty bytes of an L1 line (R234) -/
  | wback
  /-- `PREF` at `.die` and `.mod` (R143) -/
  | touch
  /-- `DISCARD`, `FLUSH` and `INVAL` of a line whose home lies in the scope (R143, R248) -/
  | discard | flush | inval
deriving DecidableEq, Repr, Inhabited

/-- What a home answers: a value, an error response with its cause, a NACK, or that the request was
deferred or held without an answer yet. -/
inductive HomeAns where
  | ok (v : Word)
  | line (data : BitVec 1024) (fe bad : BitVec 16) (poison : BitVec 2)
  | err (c : Cause)
  | nack
deriving DecidableEq, Repr, Inhabited

/-- A fault met by an engine or a failed mark of a tag (R214, R226). -/
inductive EngCause where
  | bounds | page | rights | machine
deriving DecidableEq, Repr, Inhabited

/-- The header of a control frame that the performing of a command depends on (R324): the endpoint
(0 A, 1 B), the sequence number, and the signature that follows the body as one number. -/
structure CtlHdr where
  ep : Nat
  seq : Nat
  sig : Nat := 0
  /-- the body's length as the header gives it -/
  len : Nat := 0
  /-- the body has another length than its command takes, or an op that its command does not have -/
  illFormed : Bool := false
deriving DecidableEq, Repr, Inhabited

/-- An epoch message of the Pacer leader (R316). `pend` is the pending ceiling P with its effective time E. -/
structure EpochMsg where
  group : Nat
  epoch : Nat
  ceiling : Nat
  pend : Option (Nat × Nat)
  hard : Bool
  leader : Nat
  members : List Nat
deriving DecidableEq, Repr, Inhabited

/-- A packet of Relay beside its route word (R254, R330, R333): what one module asks of another or answers. -/
inductive RelayBody where
  /-- an access at an address of the target chip; `id` names it at its source, `who` its thread in the layout of `REGION` -/
  | request (srcChip id region scope : Nat) (who : Word) (op : HomeOp) (addr v1 v2 : Word)
  /-- the answer to the request `id` of the receiving chip -/
  | answer (id : Nat) (ans : HomeAns)
  /-- the request `id` stands deferred at its home, for which its thread parks (R138, R216) -/
  | deferred (id : Nat)
  /-- the source takes its deferred request back (R33, R232) -/
  | withdraw (srcChip id : Nat)
  /-- a unit of `PUSH.x` for the export window (R222) -/
  | push (srcChip id region : Nat) (who addr : Word) (data : List Word)
  /-- the answer to the push `id`: the offset of the first faulting byte of a refused unit -/
  | pushAnswer (id : Nat) (err : Option Nat)
  /-- a donation (R283): its 64 B image as eight words, and the target object -/
  | donation (srcChip id tregion tobj : Nat) (image : List Word)
  /-- its answer, a status of R157 -/
  | donationAnswer (id status : Nat)
  /-- an epoch message (R316) -/
  | epoch (m : EpochMsg)
  /-- a member's heartbeat or proposal (R320): chip, group, proposal, epoch held, its time -/
  | heartbeat (chip group proposal epoch time : Nat)
  /-- an announcement: a falling proposal and its bite time (R317), or a hard one and its drop time (R318) -/
  | announce (chip group proposal bite : Nat) (hard : Bool)
  /-- the leader's rejection of an announcement (R317) -/
  | reject (group : Nat)
  /-- a join or a leave (R320) -/
  | join (chip group proposal : Nat)
  | leave (chip group : Nat)
  /-- a billing packet: charges in nJ of one region (R314) -/
  | billing (region nj : Nat)
deriving DecidableEq, Repr, Inhabited

/-- A packet with its route word (R333): target chip in [11:0], tregion in [27:12]. -/
structure RelayPkt where
  target : Nat
  tregion : Nat
  body : RelayBody
deriving DecidableEq, Repr, Inhabited

/-- An external input of a replayed region (R336). -/
inductive ExtInput where
  | exwr (exno off : Nat) (data : List Byte)
  | relay (pkt : RelayPkt)
  | pacer (m : EpochMsg)
deriving DecidableEq, Repr, Inhabited

/-- Where a line is held (R234, R253): an L1, an instruction cache, a slice bank of L2, the MSC. -/
inductive CacheLevel where
  | l1 (core : Nat) | icache (core : Nat) | l2 | msc
deriving DecidableEq, Repr, Inhabited

/-- Whom a hot line's withdraw is sent to (R263): a helper slice, or the NI of a tile. -/
inductive Holder where
  | helper (slice : Nat) | ni (tile : Nat)
deriving DecidableEq, Repr, Inhabited

end Sys2Proof
end

