-- ==== Sys2Proof/Syntax.lean ====
section
/-! DEFINITION. The instructions and the hardware's own indivisible steps of spec/opcode_table.json: one constructor a
row. The rows of the opcode map (chapter 05) carry the fields of their encoding as numbers; the
others are the events that the chapters describe (chapter 95) and carry what names the event. Field names are the
table's; register fields are numbers of registers, `scope`, `ord`, `w`, `ty` are codes of R19, R70 and R71. The
constructors without fields stand last. -/

namespace Sys2Proof

/-- One row of spec/opcode_table.json each. -/
inductive Instr where
  /-- ADD (R102). Writes the 64-bit wrapped sum of two general registers. -/
  | add (d a b : Nat)
  /-- SUB (R102). Writes the 64-bit wrapped difference of two general registers. -/
  | sub (d a b : Nat)
  /-- MUL (R102). Writes the low 64 bits of the product. -/
  | mul (d a b : Nat)
  /-- MULH (R102). Writes bits 127:64 of the signed product. -/
  | mulh (d a b : Nat)
  /-- MULHN (R102). Writes bits 127:64 of the unsigned product. -/
  | mulhn (d a b : Nat)
  /-- DIV (R102). Starts a signed division whose quotient is written 40 cycles later. -/
  | div (d a b : Nat)
  /-- DIVN (R102). Starts an unsigned division whose quotient is written 40 cycles later. -/
  | divn (d a b : Nat)
  /-- REM (R102). Starts a signed remainder whose result is written 40 cycles later. -/
  | rem (d a b : Nat)
  /-- REMN (R102). Starts an unsigned remainder whose result is written 40 cycles later. -/
  | remn (d a b : Nat)
  /-- MIN (R102). Writes the signed minimum of two registers. -/
  | min (d a b : Nat)
  /-- MAX (R102). Writes the signed maximum of two registers. -/
  | max (d a b : Nat)
  /-- MINN (R102). Writes the unsigned minimum of two registers. -/
  | minn (d a b : Nat)
  /-- MAXN (R102). Writes the unsigned maximum of two registers. -/
  | maxn (d a b : Nat)
  /-- ABS (R102). Writes the wrapped absolute value of a register. -/
  | abs (d a : Nat)
  /-- AND (R103). Writes the bitwise AND of two registers. -/
  | and (d a b : Nat)
  /-- OR (R103). Writes the bitwise OR of two registers. -/
  | or (d a b : Nat)
  /-- XOR (R103). Writes the bitwise XOR of two registers. -/
  | xor (d a b : Nat)
  /-- ANDN (R103). Writes a AND NOT b. -/
  | andn (d a b : Nat)
  /-- ORN (R103). Writes a OR NOT b. -/
  | orn (d a b : Nat)
  /-- XNOR (R103). Writes NOT (a XOR b). -/
  | xnor (d a b : Nat)
  /-- SHL (R104). Shifts a left by b[7:0], giving 0 at or above 64. -/
  | shl (d a b : Nat)
  /-- SHR (R104). Shifts a logically right by b[7:0]. -/
  | shr (d a b : Nat)
  /-- SAR (R104). Shifts a arithmetically right by b[7:0]. -/
  | sar (d a b : Nat)
  /-- ROL (R104). Rotates a left by b[7:0] mod 64. -/
  | rol (d a b : Nat)
  /-- ROR (R104). Rotates a right by b[7:0] mod 64. -/
  | ror (d a b : Nat)
  /-- POPC (R105). Writes the number of 1 bits in a. -/
  | popc (d a : Nat)
  /-- CLZ (R105). Writes the count of leading zeros of a. -/
  | clz (d a : Nat)
  /-- CTZ (R105). Writes the count of trailing zeros of a. -/
  | ctz (d a : Nat)
  /-- BREV (R105). Writes a with its bit order reversed. -/
  | brev (d a : Nat)
  /-- BSWAP (R105). Writes a with its byte order reversed. -/
  | bswap (d a : Nat)
  /-- BEXT (R105). Extracts the bits of a selected by mask b into the low bits. -/
  | bext (d a b : Nat)
  /-- BDEP (R105). Deposits the low bits of a at the positions set in mask b. -/
  | bdep (d a b : Nat)
  /-- SEXT_S8 (R105). Sign-extends a[7:0]. -/
  | sextS8 (d a : Nat)
  /-- SEXT_S16 (R105). Sign-extends a[15:0]. -/
  | sextS16 (d a : Nat)
  /-- SEXT_S32 (R105). Sign-extends a[31:0]. -/
  | sextS32 (d a : Nat)
  /-- ZEXT_N8 (R105). Zero-extends a[7:0]. -/
  | zextN8 (d a : Nat)
  /-- ZEXT_N16 (R105). Zero-extends a[15:0]. -/
  | zextN16 (d a : Nat)
  /-- ZEXT_N32 (R105). Zero-extends a[31:0]. -/
  | zextN32 (d a : Nat)
  /-- PADD (R107). Adds packed 8- or 16-bit sub-elements modulo their width. -/
  | padd (d a b w : Nat)
  /-- PSUB (R107). Subtracts packed sub-elements modulo their width. -/
  | psub (d a b w : Nat)
  /-- PADDS_S (R107). Adds packed sub-elements with signed saturation. -/
  | paddsS (d a b w : Nat)
  /-- PADDS_N (R107). Adds packed sub-elements with unsigned saturation. -/
  | paddsN (d a b w : Nat)
  /-- PSUBS_S (R107). Subtracts packed sub-elements with signed saturation. -/
  | psubsS (d a b w : Nat)
  /-- PSUBS_N (R107). Subtracts packed sub-elements with unsigned saturation. -/
  | psubsN (d a b w : Nat)
  /-- PMIN (R107). Writes the signed minimum of each packed sub-element pair. -/
  | pmin (d a b w : Nat)
  /-- PMAX (R107). Writes the signed maximum of each packed sub-element pair. -/
  | pmax (d a b w : Nat)
  /-- PMINN (R107). Writes the unsigned minimum of each packed sub-element pair. -/
  | pminn (d a b w : Nat)
  /-- PMAXN (R107). Writes the unsigned maximum of each packed sub-element pair. -/
  | pmaxn (d a b w : Nat)
  /-- PSHL (R107). Shifts each packed sub-element left by b[7:0]. -/
  | pshl (d a b w : Nat)
  /-- PSHR (R107). Shifts each packed sub-element logically right by b[7:0]. -/
  | pshr (d a b w : Nat)
  /-- PSAR (R107). Shifts each packed sub-element arithmetically right by b[7:0]. -/
  | psar (d a b w : Nat)
  /-- PSHL_V (R107). Shifts each packed sub-element left by the matching sub-element of b. -/
  | pshlV (d a b w : Nat)
  /-- PSHR_V (R107). Shifts each packed sub-element logically right by the matching sub-element of b. -/
  | pshrV (d a b w : Nat)
  /-- PSAR_V (R107). Shifts each packed sub-element arithmetically right by the matching sub-element of b. -/
  | psarV (d a b w : Nat)
  /-- PCMP (R108). Writes all-ones in each packed sub-element where the condition holds. -/
  | pcmp (d a b c w : Nat)
  /-- MOV (R109). Copies a general register. -/
  | mov (d a : Nat)
  /-- PMOV_TO_G (R113). Writes the predicate word into a general register with bit 15 set. -/
  | pmovToG (d : Nat)
  /-- PMOV_TO_PW (R113). Writes a[14:0] into predicates p0 to p14. -/
  | pmovToPw (a : Nat)
  /-- SEL (R110). Selects a or b by a possibly negated predicate. -/
  | sel (d a b n k : Nat)
  /-- ADDI (R103). Adds a sign-extended 12-bit immediate. -/
  | addi (d a i : Nat)
  /-- ANDI (R103). ANDs with a sign-extended 12-bit immediate. -/
  | andi (d a i : Nat)
  /-- ORI (R103). ORs with a zero-extended 12-bit immediate. -/
  | ori (d a i : Nat)
  /-- XORI (R103). XORs with a zero-extended 12-bit immediate. -/
  | xori (d a i : Nat)
  /-- SHLI (R104). Shifts left by an immediate amount 0 to 255. -/
  | shli (d a n : Nat)
  /-- SHRI (R104). Shifts logically right by an immediate amount. -/
  | shri (d a n : Nat)
  /-- SARI (R104). Shifts arithmetically right by an immediate amount. -/
  | sari (d a n : Nat)
  /-- RORI (R104). Rotates right by an immediate amount. -/
  | rori (d a n : Nat)
  /-- BFX (R106). Extracts and zero-extends a bit field. -/
  | bfx (d a p l : Nat)
  /-- BFI (R106). Inserts the low bits of a into a field of the destination. -/
  | bfi (d a p l : Nat)
  /-- LIM (R109). Loads a sign-extended 19-bit immediate. -/
  | lim (d i : Nat)
  /-- LIM_H (R109). Replaces one 16-bit half of the destination with an immediate. -/
  | limH (d k h : Nat)
  /-- ADDPC (R109). Writes the instruction's address plus a signed byte offset. -/
  | addpc (d i : Nat)
  /-- CMP (R111). Compares two registers at a width and writes a predicate. -/
  | cmp (p c a b s : Nat)
  /-- CMPI (R112). Compares a register with an 11-bit immediate and writes a predicate. -/
  | cmpi (p c a i : Nat)
  /-- PLOG (R113). Combines two predicates by a logic operation. -/
  | plog (p c x y : Nat)
  /-- B (R114). Branches PC-relative when the possibly negated predicate holds. -/
  | b (n p o : Nat)
  /-- J (R114). Jumps PC-relative. -/
  | j (o : Nat)
  /-- CALL (R114). Writes the return address to g2 and jumps PC-relative. -/
  | call (o : Nat)
  /-- CALLR (R115). Calls the address in a register, trapping ALIGN if misaligned. -/
  | callr (a : Nat)
  /-- JR (R115). Jumps to the address in a register. -/
  | jr (a : Nat)
  /-- OBJSET (R127). Writes an object-table entry from a 64 B image and waits until cached copies are dropped. -/
  | objset (a b : Nat)
  /-- MFS (R122). Reads a system register into a general register. -/
  | mfs (d s : Nat)
  /-- MTS (R122). Writes a general register to a system register that has no row of its own. -/
  | mts (d s : Nat)
  /-- MTS_PORTMAP (R55). Writes PORTMAP after checking reserved bits, duplicate registers, window and queue ownership. -/
  | mtsPortmap (d : Nat)
  /-- MTS_VL (R161). Writes vl, clamped to 64, and clears shr when bit 15 is written as 1. -/
  | mtsVl (d : Nat)
  /-- MTS_FPSTAT (R93). Waits for earlier vector instructions, then writes FPSTAT. -/
  | mtsFpstat (d : Nat)
  /-- MTS_RNDSEED (R93). Waits for earlier vector instructions, then writes RNDSEED. -/
  | mtsRndseed (d : Nat)
  /-- MTS_CARVE (R120). From a system slot, changes the core's cache/scratchpad split as one event. -/
  | mtsCarve (d : Nat)
  /-- MTS_LANDN (R120). From a system slot, sets the number of landing slots, a raise waiting for the slots to empty. -/
  | mtsLandn (d : Nat)
  /-- TRAP (R123). Halts the thread with cause TRAP and delivers a fault record. -/
  | trap (c : Nat)
  /-- SVC (R123). Halts the thread for an unassigned service code and resumes it with g3 all ones. -/
  | svc (c : Nat)
  /-- ERET (R124). Consumes a pending fault record, releases and resumes the thread it names. -/
  | eret (d : Nat)
  /-- HINT (R67). Executes as NOP whatever its bits hold; NOP is HINT #0. -/
  | hint (h i n : Nat)
  /-- LD_D (R134). Loads a 64-bit word, optionally migrating the strand with .go. -/
  | ldD (t b g o : Nat)
  /-- ST_D (R134). Stores a 64-bit word, optionally migrating the strand with .go. -/
  | stD (t b g o : Nat)
  /-- LD (R134). Loads and extends a typed element at an immediate offset. -/
  | ld (t b i y : Nat)
  /-- LDX (R134). Loads and extends a typed element at a scaled register index. -/
  | ldx (t b x y : Nat)
  /-- ST (R134). Stores a typed element at an immediate offset. -/
  | st (t b i y : Nat)
  /-- STX (R134). Stores a typed element at a scaled register index. -/
  | stx (t b x y : Nat)
  /-- LDM (R136). Loads n consecutive words into consecutive registers from element XPROG onward. -/
  | ldm (d a n : Nat)
  /-- STM (R136). Stores n consecutive registers to consecutive words from element XPROG onward. -/
  | stm (d a n : Nat)
  /-- LDFE (R137). Waits at the home until the word is full, reads it and sets it empty, acquiring. -/
  | ldfe (t b s o : Nat)
  /-- LDFF (R137). Waits at the home until the word is full and reads it, acquiring. -/
  | ldff (t b s o : Nat)
  /-- STFE (R137). Releases, waits until the word is empty, writes it and sets it full. -/
  | stfe (t b s o : Nat)
  /-- STF (R137). Releases, writes the word and sets it full without waiting. -/
  | stf (t b s o : Nat)
  /-- SETE (R137). Sets a memory word's full/empty bit empty. -/
  | sete (b s o : Nat)
  /-- FEQ (R137). Reads whether a memory word is full. -/
  | feq (t b s o : Nat)
  /-- LDFE_STRAND (R137). Waits until a register is full, copies it and sets it empty. -/
  | ldfeStrand (t b : Nat)
  /-- LDFF_STRAND (R137). Waits until a register is full and copies it. -/
  | ldffStrand (t b : Nat)
  /-- SETE_STRAND (R137). Sets a register's full/empty bit empty. -/
  | seteStrand (t : Nat)
  /-- FEQ_STRAND (R137). Reads whether a register is full. -/
  | feqStrand (t b : Nat)
  /-- FENCE (R142). Waits for UNACK to drain, then releases and acquires at the scope. -/
  | fence (s : Nat)
  /-- DISCARD (R143). Drops copies of a line within the scope without writeback. -/
  | discard (b s o : Nat)
  /-- FLUSH (R143). Writes dirty copies of a line within the scope to the next level. -/
  | flush (b s o : Nat)
  /-- INVAL (R143). Flushes and drops copies of a line within the scope, including instruction caches. -/
  | inval (b s o : Nat)
  /-- PREF (R143). Requests a line into the cache of the scope's level. -/
  | pref (b s o : Nat)
  /-- TLBINV_PAGE (R128). Releases and drops the region's translations of one page within the scope. -/
  | tlbinvPage (b s : Nat)
  /-- TLBINV_REGION (R128). Releases and drops all the region's translations within the scope. -/
  | tlbinvRegion (s : Nat)
  /-- HOP (R146). Migrates the strand to the core that owns the address. -/
  | hop (b o : Nat)
  /-- SENDR (R144). Releases and sends a value into a register of a thread on another slot. -/
  | sendr (t b s r : Nat)
  /-- ARRIVE (R148). Releases and arrives at a hurdle, returning the phase. -/
  | arrive (t b s o : Nat)
  /-- ARRIVE_RELAXED (R148). Arrives at a hurdle without a release. -/
  | arriveRelaxed (t b s o : Nat)
  /-- HWAIT (R148). Waits at the home until the hurdle passes the observed phase, then acquires. -/
  | hwait (t b s o : Nat)
  /-- HTEST (R148). Reads the hurdle's phase and acquires. -/
  | htest (t b s o : Nat)
  /-- PUBF (R150). Releases at module scope and records a pending publication of up to four tiles. -/
  | pubf (a : Nat)
  /-- SYNC (R47). Continues if the join count is 0, otherwise suspends the task at the join TCB. -/
  | sync (a : Nat)
  /-- TCBNEW (R154). Allocates and writes a TCB at the local hub from a 64 B image. -/
  | tcbnew (d a : Nat)
  /-- TCBSUCC (R155). Makes one TCB a successor of another. -/
  | tcbsucc (a b : Nat)
  /-- TCBPRED (R156). Adds a signed adjustment to a TCB's count. -/
  | tcbpred (a b : Nat)
  /-- SPAWN (R151). Pushes a continuation record and jumps to the child. -/
  | spawn (d i : Nat)
  /-- WAITT (R213). Waits until all named tags are set, then dequeues and acquires them. -/
  | waitt (a : Nat)
  /-- WAITA (R213). Waits until any named tag is set, acquiring without dequeuing. -/
  | waita (a : Nat)
  /-- TFIRST (R213). Writes the lowest set tag number, or 64. -/
  | tfirst (d : Nat)
  /-- TCLR (R213). Dequeues the named tags that are set without waiting. -/
  | tclr (a : Nat)
  /-- CWAIT (R216). Waits at the home until a counter reaches a value, then acquires. -/
  | cwait (a b : Nat)
  /-- CREAD (R216). Reads a counter word and acquires. -/
  | cread (d a : Nat)
  /-- RDPACE (R217). Writes the value of PACE. -/
  | rdpace (d : Nat)
  /-- VCLAIM (R167). Claims the core's vector context and negotiates lanes. -/
  | vclaim (q g : Nat)
  /-- REPF (R169). Opens a repeat frame that captures and replays a vector body N times. -/
  | repf (s l g : Nat)
  /-- VLD (R170). Loads consecutive elements into a vector register. -/
  | vld (d a g w : Nat)
  /-- VLDS (R170). Loads strided elements into a vector register. -/
  | vlds (d a b g w : Nat)
  /-- VLDX (R170). Loads indexed elements into a vector register. -/
  | vldx (d a b g w : Nat)
  /-- VLD_POSTINC (R170). Loads consecutive elements and advances the base register. -/
  | vldPostinc (d a g w : Nat)
  /-- VST (R170). Stores a vector register to consecutive elements. -/
  | vst (d a g w : Nat)
  /-- VSTS (R170). Stores a vector register to strided elements. -/
  | vsts (d a b g w : Nat)
  /-- VSTX (R170). Stores a vector register to indexed elements. -/
  | vstx (d a b g w : Nat)
  /-- VST_POSTINC (R170). Stores consecutive elements and advances the base register. -/
  | vstPostinc (d a g w : Nat)
  /-- VBCAST (R171). Broadcasts a general register into active lanes. -/
  | vbcast (d b g : Nat)
  /-- VMOVG (R171). Moves one lane into a general register as a pending write. -/
  | vmovg (d a l : Nat)
  /-- VMOVL (R171). Moves a general register into one lane. -/
  | vmovl (d b l : Nat)
  /-- VIOTA (R171). Writes to each active lane the count of active lanes below it. -/
  | viota (d g : Nat)
  /-- VFADD (R172). Adds f32 lanes. -/
  | vfadd (d a b g : Nat)
  /-- VFSUB (R172). Subtracts f32 lanes. -/
  | vfsub (d a b g : Nat)
  /-- VFMUL (R172). Multiplies f32 lanes. -/
  | vfmul (d a b g : Nat)
  /-- VFMA (R172). Fused multiply-add of f32 lanes into the destination. -/
  | vfma (d a b g : Nat)
  /-- VFNMA (R172). Fused negated multiply-add of f32 lanes. -/
  | vfnma (d a b g : Nat)
  /-- VFMIN (R172). minimumNumber of f32 lanes. -/
  | vfmin (d a b g : Nat)
  /-- VFMAX (R172). maximumNumber of f32 lanes. -/
  | vfmax (d a b g : Nat)
  /-- VFABS (R172). Clears the sign of f32 lanes. -/
  | vfabs (d a g : Nat)
  /-- VFNEG (R172). Inverts the sign of f32 lanes. -/
  | vfneg (d a g : Nat)
  /-- VFCMP (R173). Compares f32 lanes and writes a mask to a general register. -/
  | vfcmp (d a b g c : Nat)
  /-- VADD (R174). Adds 32-bit lanes. -/
  | vadd (d a b g : Nat)
  /-- VSUB (R174). Subtracts 32-bit lanes. -/
  | vsub (d a b g : Nat)
  /-- VMUL (R174). Multiplies 32-bit lanes. -/
  | vmul (d a b g : Nat)
  /-- VMULH (R174). High half of the signed lane product. -/
  | vmulh (d a b g : Nat)
  /-- VMULHN (R174). High half of the unsigned lane product. -/
  | vmulhn (d a b g : Nat)
  /-- VAND (R174). Bitwise AND of lanes. -/
  | vand (d a b g : Nat)
  /-- VOR (R174). Bitwise OR of lanes. -/
  | vor (d a b g : Nat)
  /-- VXOR (R174). Bitwise XOR of lanes. -/
  | vxor (d a b g : Nat)
  /-- VANDN (R174). Lane x AND NOT y. -/
  | vandn (d a b g : Nat)
  /-- VSHL (R174). Shifts lanes left. -/
  | vshl (d a b g : Nat)
  /-- VSHR (R174). Shifts lanes logically right. -/
  | vshr (d a b g : Nat)
  /-- VSAR (R174). Shifts lanes arithmetically right. -/
  | vsar (d a b g : Nat)
  /-- VROL (R174). Rotates lanes left. -/
  | vrol (d a b g : Nat)
  /-- VMIN (R174). Signed minimum of lanes. -/
  | vmin (d a b g : Nat)
  /-- VMAX (R174). Signed maximum of lanes. -/
  | vmax (d a b g : Nat)
  /-- VMINN (R174). Unsigned minimum of lanes. -/
  | vminn (d a b g : Nat)
  /-- VMAXN (R174). Unsigned maximum of lanes. -/
  | vmaxn (d a b g : Nat)
  /-- VSEL (R176). Selects each lane below n from va or vb by the mask. -/
  | vsel (d a b g : Nat)
  /-- VPADD (R175). Adds packed 8- or 16-bit sub-elements within lanes. -/
  | vpadd (d a b g w : Nat)
  /-- VPSHL (R175). Shifts packed sub-elements left within lanes. -/
  | vpshl (d a b g w : Nat)
  /-- VPSHR (R175). Shifts packed sub-elements logically right within lanes. -/
  | vpshr (d a b g w : Nat)
  /-- VCMP (R177). Compares 32-bit lanes and writes a mask to a general register. -/
  | vcmp (d a b g c : Nat)
  /-- VCVT (R178). Converts lanes to or from f32 with a rounding and optional saturation. -/
  | vcvt (d a x t g r s : Nat)
  /-- VEXP2 (R179). Correctly rounded base-2 exponential of lanes. -/
  | vexp2 (d a g : Nat)
  /-- VLOG2 (R179). Correctly rounded base-2 logarithm of lanes. -/
  | vlog2 (d a g : Nat)
  /-- VRCP (R179). Correctly rounded reciprocal of lanes. -/
  | vrcp (d a g : Nat)
  /-- VRSQ (R179). Correctly rounded reciprocal square root of lanes. -/
  | vrsq (d a g : Nat)
  /-- VSQRT (R179). Correctly rounded square root of lanes. -/
  | vsqrt (d a g : Nat)
  /-- VTANH (R179). Correctly rounded hyperbolic tangent of lanes. -/
  | vtanh (d a g : Nat)
  /-- VREDADD_F32 (R180). Tree-sums active f32 lanes into a general register. -/
  | vredaddF32 (d a g : Nat)
  /-- VREDADD_S32 (R180). Sums active lanes modulo 2^32 into a general register. -/
  | vredaddS32 (d a g : Nat)
  /-- VREDMIN_F32 (R180). minimumNumber over active f32 lanes. -/
  | vredminF32 (d a g : Nat)
  /-- VREDMIN_S32 (R180). Signed minimum over active lanes. -/
  | vredminS32 (d a g : Nat)
  /-- VREDMIN_N32 (R180). Unsigned minimum over active lanes. -/
  | vredminN32 (d a g : Nat)
  /-- VREDMAX_F32 (R180). maximumNumber over active f32 lanes. -/
  | vredmaxF32 (d a g : Nat)
  /-- VREDMAX_S32 (R180). Signed maximum over active lanes. -/
  | vredmaxS32 (d a g : Nat)
  /-- VREDMAX_N32 (R180). Unsigned maximum over active lanes. -/
  | vredmaxN32 (d a g : Nat)
  /-- VPERM (R181). Permutes lanes by an index vector. -/
  | vperm (d a b g : Nat)
  /-- VSLIDE (R181). Slides lanes by a signed general-register amount. -/
  | vslide (d a b g : Nat)
  /-- VCOMPRESS (R181). Packs the mask-selected lanes to the bottom of the destination. -/
  | vcompress (d a g : Nat)
  /-- VEXPAND (R181). Spreads consecutive source lanes into the mask-selected lanes. -/
  | vexpand (d a g : Nat)
  /-- AADD (R140). Atomic add at the home returning the old value. -/
  | aadd (a b c scope ord w : Nat)
  /-- AFADD (R140). Atomic f32 add at the home returning the old value. -/
  | afadd (a b c scope ord w : Nat)
  /-- AMIN (R140). Atomic signed minimum. -/
  | amin (a b c scope ord w : Nat)
  /-- AMAX (R140). Atomic signed maximum. -/
  | amax (a b c scope ord w : Nat)
  /-- AMINN (R140). Atomic unsigned minimum. -/
  | aminn (a b c scope ord w : Nat)
  /-- AMAXN (R140). Atomic unsigned maximum. -/
  | amaxn (a b c scope ord w : Nat)
  /-- AAND (R140). Atomic AND. -/
  | aand (a b c scope ord w : Nat)
  /-- AOR (R140). Atomic OR. -/
  | aor (a b c scope ord w : Nat)
  /-- AXOR (R140). Atomic XOR. -/
  | axor (a b c scope ord w : Nat)
  /-- ASWP (R140). Atomic swap. -/
  | aswp (a b c scope ord w : Nat)
  /-- ACAS (R140). Atomic compare-and-swap using a register pair. -/
  | acas (a b c scope ord w : Nat)
  /-- CADD (R140). Saturating counter add on a 64-bit word. -/
  | cadd (a b c scope ord w : Nat)
  /-- FETCH (R221). Starts a stride-engine copy from global memory into own scratchpad. -/
  | fetch (a b c tag scope : Nat) (cnt : Bool)
  /-- PUSH (R221). Starts a copy from own scratchpad to a scratchpad of this module. -/
  | push (a b c tag scope : Nat) (cnt : Bool)
  /-- PUSH_X (R330). Starts a copy into another chip's export window through an export object. -/
  | pushX (obj a b c tag scope : Nat) (cnt : Bool)
  /-- PUSHM (R223). Starts a multicast copy to every member of an address group. -/
  | pushm (obj a b c tag scope : Nat) (cnt : Bool)
  /-- STOREB (R221). Starts a copy from own scratchpad to global memory. -/
  | storeb (a b c tag scope : Nat) (cnt : Bool)
  /-- GATHER (R226). Starts a Vault gather of indexed tensor elements into scratchpad. -/
  | gather (obj a b c tag scope : Nat) (t cnt : Bool)
  /-- SCATTER (R228). Starts a Vault scatter, or scatter-add, of scratchpad elements. -/
  | scatter (obj a b c tag scope : Nat) (t add cnt : Bool)
  /-- FABRED (R231). Starts a fabric reduction of bf16 values across an address group. -/
  | fabred (obj a b c tag scope : Nat) (cnt : Bool)
  /-- DONATE (R157). Sends a TCB image to another module's donation queue. -/
  | donate (obj a b tag scope : Nat) (cnt : Bool)
  /-- MCLAIM_CLAIM (R188). Claims the core's matrix unit, clearing state for a new region. -/
  | mclaimClaim (a : Nat)
  /-- MCLAIM_RELEASE (R188). Waits for the dispatch queue to empty and releases the matrix claim. -/
  | mclaimRelease (a : Nat)
  /-- LDW (R195). Queues a load of weights into the shadow plane. -/
  | ldw (obj a ty : Nat)
  /-- MMA (R196). Queues a block multiply-accumulate into accumulator arrays. -/
  | mma (obj a b c ty : Nat) (z : Bool)
  /-- MCHAIN (R198). Queues a multiply-accumulate that consumes a chained stream. -/
  | mchain (b c ty : Nat) (z : Bool)
  /-- MUNCHAIN (R199). Cancels unstarted chained operations and east bits in the queue. -/
  | munchain (a : Nat)
  /-- MOVA (R200). Moves a converted accumulator row into a vector register. -/
  | mova (v b c : Nat)
  /-- MSTA (R201). Stores an accumulator block to a tensor. -/
  | msta (obj a b c : Nat)
  /-- MLDA (R201). Loads an accumulator block from a tensor. -/
  | mlda (obj a b c : Nat)
  /-- MZERO (R201). Sets an accumulator array to +0. -/
  | mzero (c : Nat)
  /-- MSEL (R202). Chooses the k best rows per column and writes bitmaps and lists. -/
  | msel (a b c : Nat)
  /-- MSCALE (R197). Queues a setting of the microscaling record. -/
  | mscale (a b ty : Nat)
  /-- MSTAT (R204). Waits for queued operations and reads, optionally clearing, the matrix status. -/
  | mstat (a op : Nat)
  /-- DIVIDE_COMPLETE (R101). Forty cycles after a divide issues, its result is written and the thread is ready. -/
  | divideComplete (k : Nat)
  /-- REPLY_ARRIVAL (R131). A load, atomic or full/empty reply lands and writes its destination, or traps on an error response. -/
  | replyArrival (id : Nat)
  /-- REMOTE_STORE_ACK (R28). A remote store's acknowledgement or error response decrements UNACK and records a failing store. -/
  | remoteStoreAck (id : Nat)
  /-- HOME_ACCESS (R234). A request arrives at its home and is performed there. -/
  | homeAccess (id : Nat)
  /-- NACK_RECEIVED (R139). A refused request's NACK arrives, and the source resends or parks. -/
  | nackReceived (id : Nat)
  /-- RETRY_PARK_EXPIRY (R139). After PARKINT cycles parked for NACKs, the request is resent. -/
  | retryParkExpiry (k : Nat)
  /-- PARK_TIMEOUT (R126). PARKINT cycles after a PARK, the thread becomes ready. -/
  | parkTimeout (k : Nat)
  /-- SCOPE_MISS_RETURN (R243). A request returned at a scope edge counts a scope-miss and is re-issued at the widened scope. -/
  | scopeMissReturn (id : Nat)
  /-- OMEGA_COMBINE (R256). Two relaxed adds meeting at a switch are combined into one request with a split record. -/
  | omegaCombine (id0 id1 : Nat)
  /-- COMBINED_REPLY_SPLIT (R256). A reply reaching the paired return switch is split between the two sources. -/
  | combinedReplySplit (id : Nat)
  /-- BANK_MISS_FILL (R259). A slice bank's miss fill from the MSC completes and the locked request is performed. -/
  | bankMissFill (line : Nat)
  /-- CONFLICT_QUEUE_SERVE (R259). When a line lock frees, the oldest queued request for that line is taken. -/
  | conflictQueueServe (line : Nat)
  /-- HOT_WINDOW_END (R261). At the end of a 4,096-cycle window, fit candidate lines become hot and the table clears. -/
  | hotWindowEnd (bank : Nat)
  /-- HOT_REPLICA_ACK (R262). Once helpers acknowledge replicas, the home sends redirect entries to the tile NIs. -/
  | hotReplicaAck (line : Nat)
  /-- REDIRECT_INSTALL (R262). An NI installs a redirect entry, replacing its earliest entry when full. -/
  | redirectInstall (tile line : Nat)
  /-- HOT_LINE_RECALL (R263). The home starts a recall of a hot line before a write, discard or eviction. -/
  | hotLineRecall (line : Nat)
  /-- RECALL_WITHDRAW (R263). A helper or NI drops its replica or redirect and acknowledges. -/
  | recallWithdraw (line : Nat) (who : Holder)
  /-- RECALL_COMPLETE (R263). All withdrawals are acknowledged; the line is no longer hot and the waiting access is performed. -/
  | recallComplete (line : Nat)
  /-- HELPER_EVICT_REPORT (R263). A helper reports it must evict its replica, starting a recall. -/
  | helperEvictReport (line slice : Nat)
  /-- REDIRECT_DRAIN (R264). An NI that dropped a redirect sends the waiting write once its redirected reads are answered. -/
  | redirectDrain (id : Nat)
  /-- BRIDGE_FLIT_RECEIVE (R265). A transom bridge receiver accepts a flit and delivers whole packets in order. -/
  | bridgeFlitReceive (dir : Nat)
  /-- BRIDGE_ACK_RECEIVE (R265). A cumulative acknowledgement frees flits from the sender's replay buffer. -/
  | bridgeAckReceive (dir n : Nat)
  /-- BRIDGE_RETRAIN (R266). A CRC failure or lost lane discards flits and starts a retrain. -/
  | bridgeRetrain (dir : Nat)
  /-- BRIDGE_RETRAIN_DONE (R266). After retraining, the receiver reports its last flit and the sender replays. -/
  | bridgeRetrainDone (dir : Nat)
  /-- BRIDGE_FAIL_TIMEOUT (R266). A link not retrained within 1 ms is declared failed and its requests receive error responses. -/
  | bridgeFailTimeout (dir : Nat)
  /-- RELAY_FRAME_RECEIVE (R333). A Relay frame arrives and its packets are forwarded or delivered. -/
  | relayFrameReceive (port : Nat) (frame : Nat) (pkts : List RelayPkt)
  /-- RELAY_PORT_TIMEOUT (R333). A Relay port that does not recover within 1 ms is removed from every route mask. -/
  | relayPortTimeout (port : Nat)
  /-- SENDR_DELIVERY (R144). A SENDR arrives at the target core and writes the register, or answers NACK or error. -/
  | sendrDelivery (id : Nat)
  /-- HUB_ALLOCATE (R276). A hub serves a core with an allocatable slot from pinned lists and ready queues. -/
  | hubAllocate (core : Nat)
  /-- STEAL_SWEEP (R50). An active steal engine probes cores and hubs in order and claims the first fitting record. -/
  | stealSweep (core : Nat)
  /-- STEAL_REST_EXPIRY (R50). 256 cycles after a fruitless sweep, the engine sweeps again. -/
  | stealRestExpiry (core : Nat)
  /-- STEAL_HUB_ACK (R49). The join hub's increment or refusal arrives; the record leaves or the claim is removed. -/
  | stealHubAck (core : Nat)
  /-- STEAL_ARRIVAL (R49). Stolen tiles and record land at the thief, which starts the thread. -/
  | stealArrival (core : Nat)
  /-- TCB_DECREMENT (R36). A decrement reaches a TCB's hub and may make it READY. -/
  | tcbDecrement (key : Nat) (requester : Word)
  /-- TASK_RETIRE (R38). After the retirement release completes, successors are decremented and the TCB freed. -/
  | taskRetire (key : Nat) (requester : Word)
  /-- DEQUE_REFILL_ARRIVAL (R46). A spilled deque entry returns on chip and the waiting pop completes. -/
  | dequeRefillArrival (k : Nat)
  /-- MIGRATION_ARRIVAL (R54). A migration message arrives and lands, queues or bounces. -/
  | migrationArrival (id : Nat)
  /-- LANDING_QUEUE_TAKE (R54). A queued arrival takes a landing slot when one frees. -/
  | landingQueueTake (core : Nat)
  /-- LANDING_ACK (R53). The landing acknowledgement frees the held departing slot. -/
  | landingAck (id : Nat)
  /-- BOUNCE_RETURN (R54). A bounced message refills the held slot and the access is performed remotely. -/
  | bounceReturn (id : Nat)
  /-- LANDN_RAISE_COMPLETE (R120). A raised LANDN completes once its landing slots are empty. -/
  | landnRaiseComplete (core : Nat)
  /-- VECTOR_STEP (R163). The sequencer starts the next step of a vector instruction once its sources are produced. -/
  | vectorStep (core : Nat)
  /-- VECTOR_PENDING_WRITE (R164). A vector instruction's pending general-register write lands and sets it full. -/
  | vectorPendingWrite (core : Nat)
  /-- VECTOR_ELEMENT_REPLY (R166). A vector element reply or acknowledgement lands; a fault stops the sequencer and traps the owner. -/
  | vectorElementReply (id : Nat)
  /-- MATRIX_ARRAY_SELECT (R194). A free array selects the next core's ready MMA or MCHAIN and starts it. -/
  | matrixArraySelect (tile : Nat)
  /-- MATRIX_OP_START (R193). A queued LDW, SWPW, MSCALE or zero-size operation starts when its conditions hold. -/
  | matrixOpStart (core : Nat)
  /-- MATRIX_OP_RETIRE (R193). A queued matrix operation completes and its queue entry frees. -/
  | matrixOpRetire (core : Nat)
  /-- ACC_ACCESS_ATTEMPT (R200). An accumulator access is attempted once overlapping queued operations have retired. -/
  | accAccessAttempt (core : Nat)
  /-- ENGINE_COMPLETE (R212). An asynchronous operation completes: writes, record, release, counter add, tag set. -/
  | engineComplete (id : Nat)
  /-- STRIDE_SPILL_RETURN (R220). A spilled stride command returns to a freed on-chip entry. -/
  | strideSpillReturn (tile : Nat)
  /-- PUSHM_MEMBER_ACK (R223). A PUSHM member acknowledges its bytes and counter add. -/
  | pushmMemberAck (id member : Nat)
  /-- PUSH_X_TIMEOUT (R222). A .x target that does not answer within 1 ms fails the copy with RIGHTS. -/
  | pushXTimeout (id : Nat)
  /-- FABRED_RANK_TIMEOUT (R231). A rank that does not answer within 1 ms is counted absent. -/
  | fabredRankTimeout (id rank : Nat)
  /-- DONATE_ANSWER (R157). The target's answer to a donation arrives and the status word and tag are written. -/
  | donateAnswer (id status : Nat)
  /-- DONATE_TIMEOUT (R283). No answer within 1 ms gives status PEER_ABSENT. -/
  | donateTimeout (id : Nat)
  /-- DONATION_RECEIVE (R283). A donation arrives at the target region manager and is refused, found full or queued. -/
  | donationReceive (srcChip id tregion tobj : Nat) (image : List Word)
  /-- DONATION_DRAIN (R283). The region manager creates a READY TCB from a queued image when the hub has a free TCB. -/
  | donationDrain (region obj : Nat)
  /-- HANDLER_OWED_START (R290). An owed handler task is created when a TCB of the template's hub frees. -/
  | handlerOwedStart (cluster : Nat)
  /-- EVENT_DELIVERY (R292). An event record is written to a region's event queue or dropped and counted. -/
  | eventDelivery (region code : Nat) (w1 w2 : Word)
  /-- PREEMPT_DECISION (R278). The region manager chooses pre-emption victims for a needy region. -/
  | preemptDecision (cluster : Nat)
  /-- PREEMPT_REQUEST_ARRIVAL (R296). A pre-emption request reaches the core and the victim halts at a boundary. -/
  | preemptRequestArrival (k : Nat)
  /-- PREEMPT_SAVE_COMPLETE (R296). The save image is complete and the slot is freed, leaving a resume entry. -/
  | preemptSaveComplete (k : Nat)
  /-- THREAD_RESTORE (R299). A saved thread is restored into a slot of its core and continues. -/
  | threadRestore (image : Nat)
  /-- THREAD_STALE (R280). A thread parked for 262,144 cycles becomes stale. -/
  | threadStale (k : Nat)
  /-- TRANSLATION_WALK (R302). A TLB miss starts a page-table walk at the tile walkers. -/
  | translationWalk (id : Nat)
  /-- WALK_COMPLETE (R302). A walk ends by installing a leaf with A set, or by faulting. -/
  | walkComplete (id : Nat)
  /-- LEVEL_CHANGE (R311). At a 64-cycle boundary a tile changes level and its clock stops to settle. -/
  | levelChange (tile : Nat)
  /-- CLOCK_RESTART (R311). The settled tile clock restarts at the same cycle number. -/
  | clockRestart (tile : Nat)
  /-- SHUTTER_UPDATE (R312). At each 64-cycle boundary the power controller chooses the shuttered positions. -/
  | shutterUpdate (core count : Nat)
  /-- BILLING_RECEIVE (R314). A billing packet adds its charges to region energy counters. -/
  | billingReceive (region nj : Nat)
  /-- PACER_EPOCH_RECEIVE (R316). A member adopts an epoch message and delivers PACE_CHANGE events. -/
  | pacerEpochReceive (m : EpochMsg)
  /-- PACER_ANNOUNCE (R317). A member announces a falling proposal with a bite time to the leader. -/
  | pacerAnnounce (level bite : Nat)
  /-- LEADER_ANNOUNCE_HANDLE (R317). The leader issues a lowering epoch or rejects a late announcement. -/
  | leaderAnnounceHandle (chip level bite : Nat) (hard : Bool)
  /-- HARD_DROP (R318). On an emergency a member drops its ceiling at once and sends a hard announcement. -/
  | hardDrop (level : Nat)
  /-- LEADER_RAISE (R319). The leader issues a raise of two levels when every proposal and the dwell allow. -/
  | leaderRaise (lead : Nat)
  /-- PROPOSAL_CHANGE (R320). A member sends a changed proposal to the leader at once. -/
  | proposalChange (level : Nat)
  /-- MEMBER_SILENCE (R320). A member silent for 1 ms is removed and collective regions receive GROUP_MEMBER_LOST. -/
  | memberSilence (chip : Nat)
  /-- SLACK_WINDOW_END (R321). At each 1 ms window end the slack level moves by at most one. -/
  | slackWindowEnd
  /-- LAUNCH (R271). Control command that launches a root region from a descriptor. -/
  | launch (h : CtlHdr) (desc flags capBase capLen : Nat)
  /-- MEMRD (R325). Control command that reads physical memory at the homes. -/
  | memrd (h : CtlHdr) (addr len : Nat)
  /-- MEMWR (R325). Control command that writes physical memory and releases at module scope. -/
  | memwr (h : CtlHdr) (addr : Nat) (data : List Byte)
  /-- EXRD (R330). Control command that reads through an export window. -/
  | exrd (h : CtlHdr) (exno off len : Nat)
  /-- EXWR (R330). Control command that writes through an export window. -/
  | exwr (h : CtlHdr) (exno off : Nat) (data : List Byte)
  /-- REGCTL_HALT (R325). Control command that halts a region as an unhandled fault would. -/
  | regctlHalt (h : CtlHdr) (region : Nat)
  /-- REGCTL_RESUME (R293). Control command that resumes a halted region. -/
  | regctlResume (h : CtlHdr) (region : Nat)
  /-- REGCTL_END (R293). Control command that ends a halted region and frees its threads and TCBs. -/
  | regctlEnd (h : CtlHdr) (region : Nat)
  /-- SETOBJ (R325). Control command that writes an object entry as a system-slot OBJSET. -/
  | setobj (h : CtlHdr) (region index : Nat) (image : List Word)
  /-- LOGRD (R295). Control command that returns the device error log and its count. -/
  | logrd (h : CtlHdr)
  /-- ENERGYRD (R315). Control command that returns a region's energy counter and acct. -/
  | energyrd (h : CtlHdr) (region : Nat)
  /-- HKRD (R343). Control command that returns a housekeeping word. -/
  | hkrd (h : CtlHdr) (off : Nat)
  /-- SEMTAKE (R327). Control command that test-and-sets CTLSEM. -/
  | semtake (h : CtlHdr)
  /-- SEMGIVE (R327). Control command that clears CTLSEM for its holder. -/
  | semgive (h : CtlHdr)
  /-- KEYLOAD_CLEAR (R338). Control command that writes back, drops and empties a key slot. -/
  | keyloadClear (h : CtlHdr) (slot : Nat)
  /-- KEYLOAD_LOAD (R338). Control command that unwraps and loads a key pair into an empty slot. -/
  | keyloadLoad (h : CtlHdr) (slot owner : Nat) (wrapped : List Byte)
  /-- FWUPD (R325). Control command that stages a firmware image chunk. -/
  | fwupd (h : CtlHdr) (chunk : List Byte)
  /-- RESET (R325). Control command that fully resets the module. -/
  | reset (h : CtlHdr)
  /-- SETCHIP (R325). Control command that writes MODID while no region is live. -/
  | setchip (h : CtlHdr) (chip : Nat)
  /-- GROUP_JOIN (R320). Control command that joins or creates a Pacer group. -/
  | groupJoin (h : CtlHdr) (group : Nat)
  /-- GROUP_LEAVE (R320). Control command that leaves a Pacer group gracefully. -/
  | groupLeave (h : CtlHdr) (group : Nat)
  /-- ROUTE (R333). Control command that writes a Relay route mask. -/
  | route (h : CtlHdr) (chip mask : Nat)
  /-- WQCFG (R325). Control command that sets a Wicket queue's egress destination. -/
  | wqcfg (h : CtlHdr) (queue addr port : Nat)
  /-- CAPRD (R335). Control command that reads a capture buffer. -/
  | caprd (h : CtlHdr) (region off len : Nat)
  /-- ATTEST (R337). Control command that returns a signed attestation report. -/
  | attest (h : CtlHdr) (nonce : List Byte)
  /-- CONTROL_BADCMD (R325). A control frame with an unassigned command code is answered BADCMD. -/
  | controlBadcmd (h : CtlHdr) (code : Nat)
  /-- WICKET_EGRESS (R332). When header and verdict of the head entry are full, a frame or notice is sent and the entry emptied. -/
  | wicketEgress (queue : Nat)
  /-- REPLAY_HELD_ACCESS (R336). An early replayed access held at its home is performed when its recorded turn comes. -/
  | replayHeldAccess (id : Nat)
  /-- DISCOVERY_FLOOD_RECEIVE (R344). A router forwards the first copy of a discovery round and its position answers. -/
  | discoveryFloodReceive (core round : Nat)
  /-- DISCOVERY_ANSWER (R344). A discovery answer arrives; the 4,096th writes the live map and numbering. -/
  | discoveryAnswer (core round : Nat)
  /-- RELAY_LINK_RETRAIN (R333). A lost or corrupted frame on a Relay link discards the later frames and starts the link's replay, as R266 does for a bridge. -/
  | relayLinkRetrain (port : Nat)
  /-- RELAY_LINK_RETRAIN_DONE (R333). A Relay link recovers, the receiver reports its last accepted frame and the sender replays the later frames in order. -/
  | relayLinkRetrainDone (port : Nat)
  /-- LINE_EVICTION (R308). A cache evicts a line and writes back its dirty bytes; a sector with an uncorrectable word is written with a poisoned code and logged as kind 5. -/
  | lineEviction (level : CacheLevel) (line : Nat)
  /-- PATROL_SCRUB (R306). The device's patrol scrubbing reads and corrects stored words, counts corrected errors in ECCCNT and charges the work to region 0. -/
  | patrolScrub (place : Nat)
  /-- REPLAY_EXTERNAL_INPUT (R336). During replay, a recorded external input (EXWR data, Relay arrival or Pacer change) is supplied to the region from the capture buffer. -/
  | replayExternalInput (region : Nat) (input : ExtInput)
  /-- RET (R115). Jumps to the address in g2. -/
  | ret
  /-- SVC_SET_CARVE (R123). Asks the region manager to set CARVE of the issuing core. -/
  | svcSetCarve
  /-- SVC_SET_VGROUP (R123). Asks the region manager to set VGROUP of the issuing core. -/
  | svcSetVgroup
  /-- SVC_SET_LANDN (R123). Asks the region manager to set LANDN of the issuing core. -/
  | svcSetLandn
  /-- SVC_SET_ACCMAP (R187). Asks the region manager to set ACCMAP, clearing arrays that change owner. -/
  | svcSetAccmap
  /-- SVC_LAUNCH (R270). Launches a child region from a descriptor and resumes with its status. -/
  | svcLaunch
  /-- YIELD (R125). Keeps the thread ready but stops it borrowing until its own position. -/
  | yield
  /-- PARK (R126). Parks the thread until PARKINT, a tag, a SENDR or a restore ends the wait. -/
  | park
  /-- DONE (R47). Pops a continuation, decrements the steal link's join, or retires the task. -/
  | done
  /-- VFREE (R168). Waits for vector work, returns the lane groups and ends ownership. -/
  | vfree
  /-- VWAIT (R168). Waits for earlier vector instructions, then renegotiates lanes. -/
  | vwait
  /-- SWPW (R195). Queues an exchange of stationary and shadow planes. -/
  | swpw
  /-- BILLING_SEND (R314). At least every 10 µs, charges for other modules' regions are sent in billing packets. -/
  | billingSend
  /-- PACER_CEILING_APPLY (R316). At time E every member sets its ceiling to the pending value. -/
  | pacerCeilingApply
  /-- ANNOUNCE_REJECTED (R317). A rejected member makes a hard drop. -/
  | announceRejected
  /-- PACER_HEARTBEAT (R320). Every 50 µs a member sends its proposal and epoch, also slewing the timebase. -/
  | pacerHeartbeat
  /-- LEADER_SILENCE (R320). A leader silent for 1 ms is replaced by the next lowest chip id. -/
  | leaderSilence
  /-- FOREIGN_FRAME (R324). A frame from a source other than the two endpoints is dropped and counted in HKDROP. -/
  | foreignFrame
  /-- CTLSEM_TIMEOUT (R327). A holder silent for 1 s loses CTLSEM. -/
  | ctlsemTimeout
  /-- POWER_ON_RESET (R339). Reset starts boot: firmware verification and release of core (0,0) of Q0. -/
  | powerOnReset
  /-- DISCOVERY_TIMEOUT (R344). Discovery incomplete after 1 ms stops boot at stage 1 with a kind-6 log entry. -/
  | discoveryTimeout
deriving DecidableEq, Repr, Inhabited

end Sys2Proof
end

