-- ==== Sys2Proof/WellFormed.lean ====
section
/-! DEFINITION. When an instruction is well formed: every field within the width its encoding gives it, and every code among
the values of chapter 05 and of the chapter that owns the instruction (R63 step 2). A hardware event is well formed when the
units it names exist. -/

namespace Sys2Proof

/-- The system registers of R66. -/
def assignedSys (s : Nat) : Bool :=
  (1 ≤ s && s ≤ 12) || (16 ≤ s && s ≤ 20) || (32 ≤ s && s ≤ 36) || (48 ≤ s && s ≤ 50)

/-- The system registers whose `MTS` has a row of its own: `PORTMAP`, `FPSTAT`, `RNDSEED`, `VL`, `CARVE`, `LANDN`. -/
def ownSys (s : Nat) : Bool := s == 3 || s == 6 || s == 7 || s == 8 || s == 32 || s == 34

/-- The codes of `SVC` that have a row of their own (R123, R270). -/
def ownSvc (c : Nat) : Bool := c == 1 || c == 2 || c == 3 || c == 4 || c == 256

/-- The type codes of a store in major 0x1A (R64). -/
def storeType (y : Nat) : Bool := y == 1 || y == 3 || y == 5 || y == 6

/-- The scope codes of the cache forms (R143). -/
def cacheScope (s : Nat) : Bool := 1 ≤ s && s ≤ 5

/-- The scope codes of `TLBINV` (R128). -/
def tlbScope (s : Nat) : Bool := 2 ≤ s && s ≤ 5

/-- Whether an instruction is well formed. -/
def wellFormed : Instr → Bool
  | .add d a b => d < 128 && a < 128 && b < 128
  | .sub d a b => d < 128 && a < 128 && b < 128
  | .mul d a b => d < 128 && a < 128 && b < 128
  | .mulh d a b => d < 128 && a < 128 && b < 128
  | .mulhn d a b => d < 128 && a < 128 && b < 128
  | .div d a b => d < 128 && a < 128 && b < 128
  | .divn d a b => d < 128 && a < 128 && b < 128
  | .rem d a b => d < 128 && a < 128 && b < 128
  | .remn d a b => d < 128 && a < 128 && b < 128
  | .min d a b => d < 128 && a < 128 && b < 128
  | .max d a b => d < 128 && a < 128 && b < 128
  | .minn d a b => d < 128 && a < 128 && b < 128
  | .maxn d a b => d < 128 && a < 128 && b < 128
  | .abs d a => d < 128 && a < 128
  | .and d a b => d < 128 && a < 128 && b < 128
  | .or d a b => d < 128 && a < 128 && b < 128
  | .xor d a b => d < 128 && a < 128 && b < 128
  | .andn d a b => d < 128 && a < 128 && b < 128
  | .orn d a b => d < 128 && a < 128 && b < 128
  | .xnor d a b => d < 128 && a < 128 && b < 128
  | .shl d a b => d < 128 && a < 128 && b < 128
  | .shr d a b => d < 128 && a < 128 && b < 128
  | .sar d a b => d < 128 && a < 128 && b < 128
  | .rol d a b => d < 128 && a < 128 && b < 128
  | .ror d a b => d < 128 && a < 128 && b < 128
  | .popc d a => d < 128 && a < 128
  | .clz d a => d < 128 && a < 128
  | .ctz d a => d < 128 && a < 128
  | .brev d a => d < 128 && a < 128
  | .bswap d a => d < 128 && a < 128
  | .bext d a b => d < 128 && a < 128 && b < 128
  | .bdep d a b => d < 128 && a < 128 && b < 128
  | .sextS8 d a => d < 128 && a < 128
  | .sextS16 d a => d < 128 && a < 128
  | .sextS32 d a => d < 128 && a < 128
  | .zextN8 d a => d < 128 && a < 128
  | .zextN16 d a => d < 128 && a < 128
  | .zextN32 d a => d < 128 && a < 128
  | .padd d a b w => d < 128 && a < 128 && b < 128 && w < 2
  | .psub d a b w => d < 128 && a < 128 && b < 128 && w < 2
  | .paddsS d a b w => d < 128 && a < 128 && b < 128 && w < 2
  | .paddsN d a b w => d < 128 && a < 128 && b < 128 && w < 2
  | .psubsS d a b w => d < 128 && a < 128 && b < 128 && w < 2
  | .psubsN d a b w => d < 128 && a < 128 && b < 128 && w < 2
  | .pmin d a b w => d < 128 && a < 128 && b < 128 && w < 2
  | .pmax d a b w => d < 128 && a < 128 && b < 128 && w < 2
  | .pminn d a b w => d < 128 && a < 128 && b < 128 && w < 2
  | .pmaxn d a b w => d < 128 && a < 128 && b < 128 && w < 2
  | .pshl d a b w => d < 128 && a < 128 && b < 128 && w < 2
  | .pshr d a b w => d < 128 && a < 128 && b < 128 && w < 2
  | .psar d a b w => d < 128 && a < 128 && b < 128 && w < 2
  | .pshlV d a b w => d < 128 && a < 128 && b < 128 && w < 2
  | .pshrV d a b w => d < 128 && a < 128 && b < 128 && w < 2
  | .psarV d a b w => d < 128 && a < 128 && b < 128 && w < 2
  | .pcmp d a b c w => d < 128 && a < 128 && b < 128 && c < 16 && w < 2 && c < 6
  | .mov d a => d < 128 && a < 128
  | .pmovToG d => d < 128
  | .pmovToPw a => a < 128
  | .sel d a b n k => d < 128 && a < 128 && b < 128 && n < 2 && k < 16
  | .addi d a i => d < 128 && a < 128 && i < 4096
  | .andi d a i => d < 128 && a < 128 && i < 4096
  | .ori d a i => d < 128 && a < 128 && i < 4096
  | .xori d a i => d < 128 && a < 128 && i < 4096
  | .shli d a n => d < 128 && a < 128 && n < 256
  | .shri d a n => d < 128 && a < 128 && n < 256
  | .sari d a n => d < 128 && a < 128 && n < 256
  | .rori d a n => d < 128 && a < 128 && n < 256
  | .bfx d a p l => d < 128 && a < 128 && p < 64 && l < 64 && p + l < 64
  | .bfi d a p l => d < 128 && a < 128 && p < 64 && l < 64 && p + l < 64
  | .lim d i => d < 128 && i < 524288
  | .limH d k h => d < 128 && k < 4 && h < 65536
  | .addpc d i => d < 128 && i < 524288
  | .cmp p c a b s => p < 16 && c < 16 && a < 128 && b < 128 && s < 4 && c < 12
  | .cmpi p c a i => p < 16 && c < 16 && a < 128 && i < 2048 && c < 12
  | .plog p c x y => p < 16 && c < 8 && x < 16 && y < 16
  | .b n p o => n < 2 && p < 16 && o < 2097152 && !(n == 1 && p == 15)
  | .j o => o < 67108864
  | .call o => o < 67108864
  | .callr a => a < 128
  | .jr a => a < 128
  | .ret => true
  | .objset a b => a < 128 && b < 128
  | .mfs d s => d < 128 && s < 4096 && assignedSys s
  | .mts d s => d < 128 && s < 4096 && assignedSys s && !ownSys s
  | .mtsPortmap d => d < 128
  | .mtsVl d => d < 128
  | .mtsFpstat d => d < 128
  | .mtsRndseed d => d < 128
  | .mtsCarve d => d < 128
  | .mtsLandn d => d < 128
  | .trap c => c < 4096
  | .svc c => c < 4096 && !ownSvc c
  | .svcSetCarve => true
  | .svcSetVgroup => true
  | .svcSetLandn => true
  | .svcSetAccmap => true
  | .svcLaunch => true
  | .eret d => d < 128
  | .yield => true
  | .park => true
  | .hint h i n => h < 128 && i < 4096 && n < 64
  | .ldD t b g o => t < 128 && b < 128 && g < 2 && o < 512
  | .stD t b g o => t < 128 && b < 128 && g < 2 && o < 512
  | .ld t b i y => t < 128 && b < 128 && i < 128 && y < 8 && y < 7
  | .ldx t b x y => t < 128 && b < 128 && x < 128 && y < 8 && y < 7
  | .st t b i y => t < 128 && b < 128 && i < 128 && y < 8 && storeType y
  | .stx t b x y => t < 128 && b < 128 && x < 128 && y < 8 && storeType y
  | .ldm d a n => d < 128 && a < 128 && n < 128 && d + n < 128 && !(d ≤ a && a ≤ d + n)
  | .stm d a n => d < 128 && a < 128 && n < 128 && d + n < 128
  | .ldfe t b s o => t < 128 && b < 128 && s < 8 && o < 64 && 0 < s
  | .ldff t b s o => t < 128 && b < 128 && s < 8 && o < 64 && 0 < s
  | .stfe t b s o => t < 128 && b < 128 && s < 8 && o < 64 && 0 < s
  | .stf t b s o => t < 128 && b < 128 && s < 8 && o < 64 && 0 < s
  | .sete b s o => b < 128 && s < 8 && o < 64 && 0 < s
  | .feq t b s o => t < 128 && b < 128 && s < 8 && o < 64 && 0 < s
  | .ldfeStrand t b => t < 128 && b < 128
  | .ldffStrand t b => t < 128 && b < 128
  | .seteStrand t => t < 128
  | .feqStrand t b => t < 128 && b < 128
  | .fence s => s < 8 && 0 < s
  | .discard b s o => b < 128 && s < 8 && o < 512 && cacheScope s
  | .flush b s o => b < 128 && s < 8 && o < 512 && cacheScope s
  | .inval b s o => b < 128 && s < 8 && o < 512 && cacheScope s
  | .pref b s o => b < 128 && s < 8 && o < 512 && cacheScope s
  | .tlbinvPage b s => b < 128 && s < 8 && tlbScope s
  | .tlbinvRegion s => s < 8 && tlbScope s
  | .hop b o => b < 128 && o < 512
  | .sendr t b s r => t < 128 && b < 128 && s < 8 && r < 128 && 0 < s
  | .arrive t b s o => t < 128 && b < 128 && s < 8 && o < 64 && 0 < s
  | .arriveRelaxed t b s o => t < 128 && b < 128 && s < 8 && o < 64 && 0 < s
  | .hwait t b s o => t < 128 && b < 128 && s < 8 && o < 64 && 0 < s
  | .htest t b s o => t < 128 && b < 128 && s < 8 && o < 64 && 0 < s
  | .pubf a => a < 128
  | .sync a => a < 128
  | .done => true
  | .tcbnew d a => d < 128 && a < 128
  | .tcbsucc a b => a < 128 && b < 128
  | .tcbpred a b => a < 128 && b < 128
  | .spawn d i => d < 128 && i < 524288
  | .waitt a => a < 128
  | .waita a => a < 128
  | .tfirst d => d < 128
  | .tclr a => a < 128
  | .cwait a b => a < 128 && b < 128
  | .cread d a => d < 128 && a < 128
  | .rdpace d => d < 128
  | .vclaim q g => q < 128 && g < 128 && 0 < q && q < 65
  | .vfree => true
  | .repf s l g => s < 32 && l < 16 && g < 128
  | .vwait => true
  | .vld d a g w => d < 32 && a < 32 && g < 128 && w < 4 && w < 3
  | .vlds d a b g w => d < 32 && a < 32 && b < 32 && g < 128 && w < 4 && w < 3
  | .vldx d a b g w => d < 32 && a < 32 && b < 32 && g < 128 && w < 4 && w < 3
  | .vldPostinc d a g w => d < 32 && a < 32 && g < 128 && w < 4 && w < 3
  | .vst d a g w => d < 32 && a < 32 && g < 128 && w < 4 && w < 3
  | .vsts d a b g w => d < 32 && a < 32 && b < 32 && g < 128 && w < 4 && w < 3
  | .vstx d a b g w => d < 32 && a < 32 && b < 32 && g < 128 && w < 4 && w < 3
  | .vstPostinc d a g w => d < 32 && a < 32 && g < 128 && w < 4 && w < 3
  | .vbcast d b g => d < 32 && b < 32 && g < 128
  | .vmovg d a l => d < 32 && a < 32 && l < 64
  | .vmovl d b l => d < 32 && b < 32 && l < 64
  | .viota d g => d < 32 && g < 128
  | .vfadd d a b g => d < 32 && a < 32 && b < 32 && g < 128
  | .vfsub d a b g => d < 32 && a < 32 && b < 32 && g < 128
  | .vfmul d a b g => d < 32 && a < 32 && b < 32 && g < 128
  | .vfma d a b g => d < 32 && a < 32 && b < 32 && g < 128
  | .vfnma d a b g => d < 32 && a < 32 && b < 32 && g < 128
  | .vfmin d a b g => d < 32 && a < 32 && b < 32 && g < 128
  | .vfmax d a b g => d < 32 && a < 32 && b < 32 && g < 128
  | .vfabs d a g => d < 32 && a < 32 && g < 128
  | .vfneg d a g => d < 32 && a < 32 && g < 128
  | .vfcmp d a b g c => d < 32 && a < 32 && b < 32 && g < 128 && c < 8
  | .vadd d a b g => d < 32 && a < 32 && b < 32 && g < 128
  | .vsub d a b g => d < 32 && a < 32 && b < 32 && g < 128
  | .vmul d a b g => d < 32 && a < 32 && b < 32 && g < 128
  | .vmulh d a b g => d < 32 && a < 32 && b < 32 && g < 128
  | .vmulhn d a b g => d < 32 && a < 32 && b < 32 && g < 128
  | .vand d a b g => d < 32 && a < 32 && b < 32 && g < 128
  | .vor d a b g => d < 32 && a < 32 && b < 32 && g < 128
  | .vxor d a b g => d < 32 && a < 32 && b < 32 && g < 128
  | .vandn d a b g => d < 32 && a < 32 && b < 32 && g < 128
  | .vshl d a b g => d < 32 && a < 32 && b < 32 && g < 128
  | .vshr d a b g => d < 32 && a < 32 && b < 32 && g < 128
  | .vsar d a b g => d < 32 && a < 32 && b < 32 && g < 128
  | .vrol d a b g => d < 32 && a < 32 && b < 32 && g < 128
  | .vmin d a b g => d < 32 && a < 32 && b < 32 && g < 128
  | .vmax d a b g => d < 32 && a < 32 && b < 32 && g < 128
  | .vminn d a b g => d < 32 && a < 32 && b < 32 && g < 128
  | .vmaxn d a b g => d < 32 && a < 32 && b < 32 && g < 128
  | .vsel d a b g => d < 32 && a < 32 && b < 32 && g < 128
  | .vpadd d a b g w => d < 32 && a < 32 && b < 32 && g < 128 && w < 2
  | .vpshl d a b g w => d < 32 && a < 32 && b < 32 && g < 128 && w < 2
  | .vpshr d a b g w => d < 32 && a < 32 && b < 32 && g < 128 && w < 2
  | .vcmp d a b g c => d < 32 && a < 32 && b < 32 && g < 128 && c < 16 && c < 6
  | .vcvt d a x t g r s => d < 32 && a < 32 && x < 2 && t < 16 && g < 128 && r < 8 && s < 2 && t < 11 && r < 6
  | .vexp2 d a g => d < 32 && a < 32 && g < 128
  | .vlog2 d a g => d < 32 && a < 32 && g < 128
  | .vrcp d a g => d < 32 && a < 32 && g < 128
  | .vrsq d a g => d < 32 && a < 32 && g < 128
  | .vsqrt d a g => d < 32 && a < 32 && g < 128
  | .vtanh d a g => d < 32 && a < 32 && g < 128
  | .vredaddF32 d a g => d < 32 && a < 32 && g < 128
  | .vredaddS32 d a g => d < 32 && a < 32 && g < 128
  | .vredminF32 d a g => d < 32 && a < 32 && g < 128
  | .vredminS32 d a g => d < 32 && a < 32 && g < 128
  | .vredminN32 d a g => d < 32 && a < 32 && g < 128
  | .vredmaxF32 d a g => d < 32 && a < 32 && g < 128
  | .vredmaxS32 d a g => d < 32 && a < 32 && g < 128
  | .vredmaxN32 d a g => d < 32 && a < 32 && g < 128
  | .vperm d a b g => d < 32 && a < 32 && b < 32 && g < 128
  | .vslide d a b g => d < 32 && a < 32 && b < 32 && g < 128
  | .vcompress d a g => d < 32 && a < 32 && g < 128
  | .vexpand d a g => d < 32 && a < 32 && g < 128
  | .aadd a b c scope ord w => a < 128 && b < 128 && c < 128 && scope < 8 && ord < 4 && 0 < scope && (w < 3)
  | .afadd a b c scope ord w => a < 128 && b < 128 && c < 128 && scope < 8 && ord < 4 && 0 < scope && (w == 3)
  | .amin a b c scope ord w => a < 128 && b < 128 && c < 128 && scope < 8 && ord < 4 && 0 < scope && (w < 2)
  | .amax a b c scope ord w => a < 128 && b < 128 && c < 128 && scope < 8 && ord < 4 && 0 < scope && (w < 2)
  | .aminn a b c scope ord w => a < 128 && b < 128 && c < 128 && scope < 8 && ord < 4 && 0 < scope && (w == 0 || w == 2)
  | .amaxn a b c scope ord w => a < 128 && b < 128 && c < 128 && scope < 8 && ord < 4 && 0 < scope && (w == 0 || w == 2)
  | .aand a b c scope ord w => a < 128 && b < 128 && c < 128 && scope < 8 && ord < 4 && 0 < scope && (w < 3)
  | .aor a b c scope ord w => a < 128 && b < 128 && c < 128 && scope < 8 && ord < 4 && 0 < scope && (w < 3)
  | .axor a b c scope ord w => a < 128 && b < 128 && c < 128 && scope < 8 && ord < 4 && 0 < scope && (w < 3)
  | .aswp a b c scope ord w => a < 128 && b < 128 && c < 128 && scope < 8 && ord < 4 && 0 < scope && (w < 3)
  | .acas a b c scope ord w => a < 128 && b < 128 && c < 128 && scope < 8 && ord < 4 && 0 < scope && (w < 3) && c < 127
  | .cadd a b c scope ord w => a < 128 && b < 128 && c < 128 && scope < 8 && ord < 4 && 0 < scope && (w < 3)
  | .fetch a b c tag scope _ => a < 128 && b < 128 && c < 128 && tag < 64 && scope < 8 && 0 < scope
  | .push a b c tag scope _ => a < 128 && b < 128 && c < 128 && tag < 64 && scope < 8 && 0 < scope
  | .pushX obj a b c tag scope _ => obj < 65536 && a < 128 && b < 128 && c < 128 && tag < 64 && scope < 8 && 0 < scope
  | .pushm obj a b c tag scope _ => obj < 65536 && a < 128 && b < 128 && c < 128 && tag < 64 && scope < 8 && 0 < scope
  | .storeb a b c tag scope _ => a < 128 && b < 128 && c < 128 && tag < 64 && scope < 8 && 0 < scope
  | .gather obj a b c tag scope _ _ => obj < 65536 && a < 128 && b < 128 && c < 128 && tag < 64 && scope < 8 && 0 < scope
  | .scatter obj a b c tag scope _ _ _ => obj < 65536 && a < 128 && b < 128 && c < 128 && tag < 64 && scope < 8 && 0 < scope
  | .fabred obj a b c tag scope _ => obj < 65536 && a < 128 && b < 128 && c < 128 && tag < 64 && scope < 8 && 0 < scope
  | .donate obj a b tag scope _ => obj < 65536 && a < 128 && b < 128 && tag < 64 && scope < 8 && 0 < scope
  | .mclaimClaim a => a < 128
  | .mclaimRelease a => a < 128
  | .ldw obj a ty => obj < 65536 && a < 128 && ty < 7
  | .swpw => true
  | .mma obj a b c ty _ => obj < 65536 && a < 128 && b < 128 && ty < 7 && c < 8
  | .mchain b c ty _ => b < 128 && ty < 7 && c < 8
  | .munchain a => a < 128
  | .mova v b c => v < 32 && b < 128 && c < 8
  | .msta obj a b c => obj < 65536 && a < 128 && b < 128 && c < 8
  | .mlda obj a b c => obj < 65536 && a < 128 && b < 128 && c < 8
  | .mzero c => c < 8
  | .msel a b c => a < 128 && b < 128 && c < 8
  | .mscale a b ty => a < 128 && b < 128 && (ty == 2 || ty == 3 || ty == 4)
  | .mstat a op => a < 128 && op < 2
  | .divideComplete k => k < 262144
  | .replyArrival _ => true
  | .remoteStoreAck _ => true
  | .homeAccess _ => true
  | .nackReceived _ => true
  | .retryParkExpiry k => k < 262144
  | .parkTimeout k => k < 262144
  | .scopeMissReturn _ => true
  | .omegaCombine _ _ => true
  | .combinedReplySplit _ => true
  | .bankMissFill _ => true
  | .conflictQueueServe _ => true
  | .hotWindowEnd bank => bank < 4096
  | .hotReplicaAck _ => true
  | .redirectInstall tile _ => tile < 1024
  | .hotLineRecall _ => true
  | .recallWithdraw _ _ => true
  | .recallComplete _ => true
  | .helperEvictReport _ slice => slice < 1024
  | .redirectDrain _ => true
  | .bridgeFlitReceive dir => dir < 8
  | .bridgeAckReceive dir _ => dir < 8
  | .bridgeRetrain dir => dir < 8
  | .bridgeRetrainDone dir => dir < 8
  | .bridgeFailTimeout dir => dir < 8
  | .relayFrameReceive port _ _ => port < 16
  | .relayPortTimeout port => port < 16
  | .sendrDelivery _ => true
  | .hubAllocate core => core < 4096
  | .stealSweep core => core < 4096
  | .stealRestExpiry core => core < 4096
  | .stealHubAck core => core < 4096
  | .stealArrival core => core < 4096
  | .tcbDecrement key _ => key < 131072
  | .taskRetire key _ => key < 131072
  | .dequeRefillArrival k => k < 262144
  | .migrationArrival _ => true
  | .landingQueueTake core => core < 4096
  | .landingAck _ => true
  | .bounceReturn _ => true
  | .landnRaiseComplete core => core < 4096
  | .vectorStep core => core < 4096
  | .vectorPendingWrite core => core < 4096
  | .vectorElementReply _ => true
  | .matrixArraySelect tile => tile < 1024
  | .matrixOpStart core => core < 4096
  | .matrixOpRetire core => core < 4096
  | .accAccessAttempt core => core < 4096
  | .engineComplete _ => true
  | .strideSpillReturn tile => tile < 1024
  | .pushmMemberAck _ _ => true
  | .pushXTimeout _ => true
  | .fabredRankTimeout _ _ => true
  | .donateAnswer _ _ => true
  | .donateTimeout _ => true
  | .donationReceive srcChip _ tregion _ _ => srcChip < 4096 && tregion < 65536
  | .donationDrain region _ => region < 65536
  | .handlerOwedStart cluster => cluster < 256
  | .eventDelivery region _ _ _ => region < 65536
  | .preemptDecision cluster => cluster < 256
  | .preemptRequestArrival k => k < 262144
  | .preemptSaveComplete k => k < 262144
  | .threadRestore _ => true
  | .threadStale k => k < 262144
  | .translationWalk _ => true
  | .walkComplete _ => true
  | .levelChange tile => tile < 1024
  | .clockRestart tile => tile < 1024
  | .shutterUpdate core _ => core < 4096
  | .billingSend => true
  | .billingReceive region _ => region < 65536
  | .pacerEpochReceive _ => true
  | .pacerCeilingApply => true
  | .pacerAnnounce level _ => level < 31
  | .leaderAnnounceHandle chip level _ _ => chip < 4096 && level < 31
  | .announceRejected => true
  | .hardDrop level => level < 31
  | .leaderRaise _ => true
  | .pacerHeartbeat => true
  | .proposalChange level => level < 31
  | .memberSilence chip => chip < 4096
  | .leaderSilence => true
  | .slackWindowEnd => true
  | .launch _ _ _ _ _ => true
  | .memrd _ _ _ => true
  | .memwr _ _ _ => true
  | .exrd _ _ _ _ => true
  | .exwr _ _ _ _ => true
  | .regctlHalt _ region => region < 65536
  | .regctlResume _ region => region < 65536
  | .regctlEnd _ region => region < 65536
  | .setobj _ region _ _ => region < 65536
  | .logrd _ => true
  | .energyrd _ region => region < 65536
  | .hkrd _ _ => true
  | .semtake _ => true
  | .semgive _ => true
  | .keyloadClear _ _ => true
  | .keyloadLoad _ _ _ _ => true
  | .fwupd _ _ => true
  | .reset _ => true
  | .setchip _ _ => true
  | .groupJoin _ group => group < 2 ^ 32
  | .groupLeave _ group => group < 2 ^ 32
  | .route _ _ _ => true
  | .wqcfg _ _ addr port => addr < 2 ^ 128 && port < 65536
  | .caprd _ region _ _ => region < 65536
  | .attest _ _ => true
  | .controlBadcmd _ _ => true
  | .foreignFrame => true
  | .ctlsemTimeout => true
  | .wicketEgress _ => true
  | .replayHeldAccess _ => true
  | .powerOnReset => true
  | .discoveryFloodReceive core _ => core < 4096
  | .discoveryAnswer core _ => core < 4096
  | .discoveryTimeout => true
  | .relayLinkRetrain port => port < 16
  | .relayLinkRetrainDone port => port < 16
  | .lineEviction _ _ => true
  | .patrolScrub _ => true
  | .replayExternalInput region _ => region < 65536

end Sys2Proof
end

