-- ==== Sys2Proof/Decode.lean ====
section
/-! DEFINITION. The decoder, total on any bytes, and the encoder, both written from the formats and maps of chapter 05
(R59 to R71). A word that is no instruction is rejected with the reason R63 gives; every such rejection is the cause ILLEGAL. -/

namespace Sys2Proof

/-- Why a word is no instruction (R63 step 2). -/
inductive DecErr where
  /-- the word is all zeros -/
  | allZeros
  /-- the word is all ones -/
  | allOnes
  /-- the major is unassigned -/
  | majorUnassigned
  /-- the fn, sub or operation code is unassigned -/
  | fnUnassigned
  /-- a field marked unused or reserved is nonzero -/
  | unusedField
  /-- a code lies outside its allowed values -/
  | badCode
  /-- fewer bytes than the instruction has -/
  | truncated
deriving DecidableEq, Repr

/-- The instruction, if its unused fields (their sum) are 0. -/
def use (unused : Nat) (i : Instr) : Except DecErr Instr := if unused = 0 then .ok i else .error .unusedField

/-- Major 0x01 (R64, R68). -/
def decodeM01 (w : Nat) : Except DecErr Instr :=
  match bits w 0 5 with
  | 0 => use (0) (.add (bits w 19 7) (bits w 12 7) (bits w 5 7))
  | 1 => use (0) (.sub (bits w 19 7) (bits w 12 7) (bits w 5 7))
  | 2 => use (0) (.mul (bits w 19 7) (bits w 12 7) (bits w 5 7))
  | 3 => use (0) (.mulh (bits w 19 7) (bits w 12 7) (bits w 5 7))
  | 4 => use (0) (.mulhn (bits w 19 7) (bits w 12 7) (bits w 5 7))
  | 5 => use (0) (.div (bits w 19 7) (bits w 12 7) (bits w 5 7))
  | 6 => use (0) (.divn (bits w 19 7) (bits w 12 7) (bits w 5 7))
  | 7 => use (0) (.rem (bits w 19 7) (bits w 12 7) (bits w 5 7))
  | 8 => use (0) (.remn (bits w 19 7) (bits w 12 7) (bits w 5 7))
  | 9 => use (0) (.min (bits w 19 7) (bits w 12 7) (bits w 5 7))
  | 10 => use (0) (.max (bits w 19 7) (bits w 12 7) (bits w 5 7))
  | 11 => use (0) (.minn (bits w 19 7) (bits w 12 7) (bits w 5 7))
  | 12 => use (0) (.maxn (bits w 19 7) (bits w 12 7) (bits w 5 7))
  | 13 => use (bits w 5 7) (.abs (bits w 19 7) (bits w 12 7))
  | 14 => use (0) (.and (bits w 19 7) (bits w 12 7) (bits w 5 7))
  | 15 => use (0) (.or (bits w 19 7) (bits w 12 7) (bits w 5 7))
  | 16 => use (0) (.xor (bits w 19 7) (bits w 12 7) (bits w 5 7))
  | 17 => use (0) (.andn (bits w 19 7) (bits w 12 7) (bits w 5 7))
  | 18 => use (0) (.orn (bits w 19 7) (bits w 12 7) (bits w 5 7))
  | 19 => use (0) (.xnor (bits w 19 7) (bits w 12 7) (bits w 5 7))
  | 20 => use (0) (.shl (bits w 19 7) (bits w 12 7) (bits w 5 7))
  | 21 => use (0) (.shr (bits w 19 7) (bits w 12 7) (bits w 5 7))
  | 22 => use (0) (.sar (bits w 19 7) (bits w 12 7) (bits w 5 7))
  | 23 => use (0) (.rol (bits w 19 7) (bits w 12 7) (bits w 5 7))
  | 24 => use (0) (.ror (bits w 19 7) (bits w 12 7) (bits w 5 7))
  | _ => .error .fnUnassigned

/-- Major 0x02 (R64, R68). -/
def decodeM02 (w : Nat) : Except DecErr Instr :=
  match bits w 0 5 with
  | 0 => use (bits w 5 7) (.popc (bits w 19 7) (bits w 12 7))
  | 1 => use (bits w 5 7) (.clz (bits w 19 7) (bits w 12 7))
  | 2 => use (bits w 5 7) (.ctz (bits w 19 7) (bits w 12 7))
  | 3 => use (bits w 5 7) (.brev (bits w 19 7) (bits w 12 7))
  | 4 => use (bits w 5 7) (.bswap (bits w 19 7) (bits w 12 7))
  | 5 => use (0) (.bext (bits w 19 7) (bits w 12 7) (bits w 5 7))
  | 6 => use (0) (.bdep (bits w 19 7) (bits w 12 7) (bits w 5 7))
  | 7 => use (bits w 5 7) (.sextS8 (bits w 19 7) (bits w 12 7))
  | 8 => use (bits w 5 7) (.sextS16 (bits w 19 7) (bits w 12 7))
  | 9 => use (bits w 5 7) (.sextS32 (bits w 19 7) (bits w 12 7))
  | 10 => use (bits w 5 7) (.zextN8 (bits w 19 7) (bits w 12 7))
  | 11 => use (bits w 5 7) (.zextN16 (bits w 19 7) (bits w 12 7))
  | 12 => use (bits w 5 7) (.zextN32 (bits w 19 7) (bits w 12 7))
  | _ => .error .fnUnassigned

/-- Major 0x03 (R64, R68). -/
def decodeM03 (w : Nat) : Except DecErr Instr :=
  match bits w 1 4 with
  | 0 => use (0) (.padd (bits w 19 7) (bits w 12 7) (bits w 5 7) (bits w 0 1))
  | 1 => use (0) (.psub (bits w 19 7) (bits w 12 7) (bits w 5 7) (bits w 0 1))
  | 2 => use (0) (.paddsS (bits w 19 7) (bits w 12 7) (bits w 5 7) (bits w 0 1))
  | 3 => use (0) (.paddsN (bits w 19 7) (bits w 12 7) (bits w 5 7) (bits w 0 1))
  | 4 => use (0) (.psubsS (bits w 19 7) (bits w 12 7) (bits w 5 7) (bits w 0 1))
  | 5 => use (0) (.psubsN (bits w 19 7) (bits w 12 7) (bits w 5 7) (bits w 0 1))
  | 6 => use (0) (.pmin (bits w 19 7) (bits w 12 7) (bits w 5 7) (bits w 0 1))
  | 7 => use (0) (.pmax (bits w 19 7) (bits w 12 7) (bits w 5 7) (bits w 0 1))
  | 8 => use (0) (.pminn (bits w 19 7) (bits w 12 7) (bits w 5 7) (bits w 0 1))
  | 9 => use (0) (.pmaxn (bits w 19 7) (bits w 12 7) (bits w 5 7) (bits w 0 1))
  | 10 => use (0) (.pshl (bits w 19 7) (bits w 12 7) (bits w 5 7) (bits w 0 1))
  | 11 => use (0) (.pshr (bits w 19 7) (bits w 12 7) (bits w 5 7) (bits w 0 1))
  | 12 => use (0) (.psar (bits w 19 7) (bits w 12 7) (bits w 5 7) (bits w 0 1))
  | 13 => use (0) (.pshlV (bits w 19 7) (bits w 12 7) (bits w 5 7) (bits w 0 1))
  | 14 => use (0) (.pshrV (bits w 19 7) (bits w 12 7) (bits w 5 7) (bits w 0 1))
  | 15 => use (0) (.psarV (bits w 19 7) (bits w 12 7) (bits w 5 7) (bits w 0 1))
  | _ => .error .fnUnassigned

/-- Major 0x04 (R64, R68). -/
def decodeM04 (w : Nat) : Except DecErr Instr :=
  match bits w 0 5 with
  | 12 => use (bits w 5 7) (.mov (bits w 19 7) (bits w 12 7))
  | 13 => use (bits w 5 14) (.pmovToG (bits w 19 7))
  | 14 => use (bits w 5 7 + bits w 19 7) (.pmovToPw (bits w 12 7))
  | _ => if bits w 0 5 < 12 then use (0) (.pcmp (bits w 19 7) (bits w 12 7) (bits w 5 7) (bits w 1 4) (bits w 0 1)) else .error .fnUnassigned

/-- Major 0x05 (R64, R68). -/
def decodeM05 (w : Nat) : Except DecErr Instr :=
  use (0) (.sel (bits w 19 7) (bits w 12 7) (bits w 5 7) (bits w 4 1) (bits w 0 4))

/-- Major 0x06 (R64, R68). -/
def decodeM06 (w : Nat) : Except DecErr Instr :=
  use (0) (.addi (bits w 19 7) (bits w 12 7) (bits w 0 12))

/-- Major 0x07 (R64, R68). -/
def decodeM07 (w : Nat) : Except DecErr Instr :=
  use (0) (.andi (bits w 19 7) (bits w 12 7) (bits w 0 12))

/-- Major 0x08 (R64, R68). -/
def decodeM08 (w : Nat) : Except DecErr Instr :=
  use (0) (.ori (bits w 19 7) (bits w 12 7) (bits w 0 12))

/-- Major 0x09 (R64, R68). -/
def decodeM09 (w : Nat) : Except DecErr Instr :=
  use (0) (.xori (bits w 19 7) (bits w 12 7) (bits w 0 12))

/-- Major 0x0A (R64, R68). -/
def decodeM0A (w : Nat) : Except DecErr Instr :=
  match bits w 8 4 with
  | 0 => use (0) (.shli (bits w 19 7) (bits w 12 7) (bits w 0 8))
  | 1 => use (0) (.shri (bits w 19 7) (bits w 12 7) (bits w 0 8))
  | 2 => use (0) (.sari (bits w 19 7) (bits w 12 7) (bits w 0 8))
  | 3 => use (0) (.rori (bits w 19 7) (bits w 12 7) (bits w 0 8))
  | _ => .error .fnUnassigned

/-- Major 0x0B (R64, R68). -/
def decodeM0B (w : Nat) : Except DecErr Instr :=
  use (0) (.bfx (bits w 19 7) (bits w 12 7) (bits w 6 6) (bits w 0 6))

/-- Major 0x0C (R64, R68). -/
def decodeM0C (w : Nat) : Except DecErr Instr :=
  use (0) (.bfi (bits w 19 7) (bits w 12 7) (bits w 6 6) (bits w 0 6))

/-- Major 0x0D (R64, R68). -/
def decodeM0D (w : Nat) : Except DecErr Instr :=
  use (0) (.lim (bits w 19 7) (bits w 0 19))

/-- Major 0x0E (R64, R68). -/
def decodeM0E (w : Nat) : Except DecErr Instr :=
  use (bits w 18 1) (.limH (bits w 19 7) (bits w 16 2) (bits w 0 16))

/-- Major 0x0F (R64, R68). -/
def decodeM0F (w : Nat) : Except DecErr Instr :=
  use (0) (.addpc (bits w 19 7) (bits w 0 19))

/-- Major 0x10 (R64, R68). -/
def decodeM10 (w : Nat) : Except DecErr Instr :=
  use (bits w 2 2) (.cmp (bits w 22 4) (bits w 18 4) (bits w 11 7) (bits w 4 7) (bits w 0 2))

/-- Major 0x11 (R64, R68). -/
def decodeM11 (w : Nat) : Except DecErr Instr :=
  use (0) (.cmpi (bits w 22 4) (bits w 18 4) (bits w 11 7) (bits w 0 11))

/-- Major 0x12 (R64, R68). -/
def decodeM12 (w : Nat) : Except DecErr Instr :=
  use (bits w 0 4 + bits w 8 3 + bits w 15 3 + bits w 21 1) (.plog (bits w 22 4) (bits w 18 3) (bits w 11 4) (bits w 4 4))

/-- Major 0x13 (R64, R68). -/
def decodeM13 (w : Nat) : Except DecErr Instr :=
  use (0) (.b (bits w 25 1) (bits w 21 4) (bits w 0 21))

/-- Major 0x14 (R64, R68). -/
def decodeM14 (w : Nat) : Except DecErr Instr :=
  use (0) (.j (bits w 0 26))

/-- Major 0x15 (R64, R68). -/
def decodeM15 (w : Nat) : Except DecErr Instr :=
  use (0) (.call (bits w 0 26))

/-- Major 0x16 (R64, R68). -/
def decodeM16 (w : Nat) : Except DecErr Instr :=
  match bits w 0 5 with
  | 0 => use (bits w 5 7 + bits w 19 7) (.callr (bits w 12 7))
  | 1 => use (bits w 5 7 + bits w 19 7) (.jr (bits w 12 7))
  | 2 => use (bits w 5 21) (.ret)
  | 3 => use (bits w 19 7) (.objset (bits w 12 7) (bits w 5 7))
  | _ => .error .fnUnassigned

/-- Major 0x17 (R64, R68). -/
def decodeM17 (w : Nat) : Except DecErr Instr :=
  match bits w 0 7 with
  | 0 => use (0) (.mfs (bits w 19 7) (bits w 7 12))
  | 1 =>
    match bits w 7 12 with
    | 3 => use 0 (.mtsPortmap (bits w 19 7))
    | 6 => use 0 (.mtsFpstat (bits w 19 7))
    | 7 => use 0 (.mtsRndseed (bits w 19 7))
    | 8 => use 0 (.mtsVl (bits w 19 7))
    | 32 => use 0 (.mtsCarve (bits w 19 7))
    | 34 => use 0 (.mtsLandn (bits w 19 7))
    | _ => use (0) (.mts (bits w 19 7) (bits w 7 12))
  | 2 => use (bits w 19 7) (.trap (bits w 7 12))
  | 3 =>
    match bits w 7 12 with
    | 1 => use (bits w 19 7) .svcSetCarve
    | 2 => use (bits w 19 7) .svcSetVgroup
    | 3 => use (bits w 19 7) .svcSetLandn
    | 4 => use (bits w 19 7) .svcSetAccmap
    | 256 => use (bits w 19 7) .svcLaunch
    | _ => use (bits w 19 7) (.svc (bits w 7 12))
  | 4 => use (bits w 7 12) (.eret (bits w 19 7))
  | 5 => use (bits w 7 19) (.yield)
  | 6 => use (bits w 7 19) (.park)
  | _ => if bits w 6 1 = 1 then use (0) (.hint (bits w 19 7) (bits w 7 12) (bits w 0 6)) else .error .fnUnassigned

/-- Major 0x18 (R64, R68). -/
def decodeM18 (w : Nat) : Except DecErr Instr :=
  use (bits w 10 2) (.ldD (bits w 19 7) (bits w 12 7) (bits w 9 1) (bits w 0 9))

/-- Major 0x19 (R64, R68). -/
def decodeM19 (w : Nat) : Except DecErr Instr :=
  use (bits w 10 2) (.stD (bits w 19 7) (bits w 12 7) (bits w 9 1) (bits w 0 9))

/-- Major 0x1A (R64, R68). -/
def decodeM1A (w : Nat) : Except DecErr Instr :=
  match bits w 3 2 with
  | 1 => use (0) (.ld (bits w 19 7) (bits w 12 7) (bits w 5 7) (bits w 0 3))
  | 0 => use (0) (.ldx (bits w 19 7) (bits w 12 7) (bits w 5 7) (bits w 0 3))
  | 3 => use (0) (.st (bits w 19 7) (bits w 12 7) (bits w 5 7) (bits w 0 3))
  | 2 => use (0) (.stx (bits w 19 7) (bits w 12 7) (bits w 5 7) (bits w 0 3))
  | _ => .error .fnUnassigned

/-- Major 0x1B (R64, R68). -/
def decodeM1B (w : Nat) : Except DecErr Instr :=
  match bits w 0 5 with
  | 0 => use (0) (.ldm (bits w 19 7) (bits w 12 7) (bits w 5 7))
  | 1 => use (0) (.stm (bits w 19 7) (bits w 12 7) (bits w 5 7))
  | _ => .error .fnUnassigned

/-- Major 0x1C (R64, R68). -/
def decodeM1C (w : Nat) : Except DecErr Instr :=
  match bits w 6 3 with
  | 0 => if bits w 9 3 = 0 then use (bits w 0 6 + bits w 9 3) (.ldfeStrand (bits w 19 7) (bits w 12 7)) else use (0) (.ldfe (bits w 19 7) (bits w 12 7) (bits w 9 3) (bits w 0 6))
  | 1 => if bits w 9 3 = 0 then use (bits w 0 6 + bits w 9 3) (.ldffStrand (bits w 19 7) (bits w 12 7)) else use (0) (.ldff (bits w 19 7) (bits w 12 7) (bits w 9 3) (bits w 0 6))
  | 2 => use (0) (.stfe (bits w 19 7) (bits w 12 7) (bits w 9 3) (bits w 0 6))
  | 3 => use (0) (.stf (bits w 19 7) (bits w 12 7) (bits w 9 3) (bits w 0 6))
  | 4 => if bits w 9 3 = 0 then use (bits w 0 6 + bits w 9 10) (.seteStrand (bits w 19 7)) else use (bits w 19 7) (.sete (bits w 12 7) (bits w 9 3) (bits w 0 6))
  | 5 => if bits w 9 3 = 0 then use (bits w 0 6 + bits w 9 3) (.feqStrand (bits w 19 7) (bits w 12 7)) else use (0) (.feq (bits w 19 7) (bits w 12 7) (bits w 9 3) (bits w 0 6))
  | _ => .error .fnUnassigned

/-- Major 0x1D (R64, R68). -/
def decodeM1D (w : Nat) : Except DecErr Instr :=
  match bits w 19 7 with
  | 0 => use (bits w 0 9 + bits w 12 7) (.fence (bits w 9 3))
  | 1 => use (0) (.discard (bits w 12 7) (bits w 9 3) (bits w 0 9))
  | 2 => use (0) (.flush (bits w 12 7) (bits w 9 3) (bits w 0 9))
  | 3 => use (0) (.inval (bits w 12 7) (bits w 9 3) (bits w 0 9))
  | 4 => use (0) (.pref (bits w 12 7) (bits w 9 3) (bits w 0 9))
  | 5 => if bits w 0 1 = 0 then use (bits w 1 8) (.tlbinvPage (bits w 12 7) (bits w 9 3))
    else use (bits w 1 8 + bits w 12 7) (.tlbinvRegion (bits w 9 3))
  | 6 => use (bits w 9 3) (.hop (bits w 12 7) (bits w 0 9))
  | _ => .error .fnUnassigned

/-- Major 0x1E (R64, R68). -/
def decodeM1E (w : Nat) : Except DecErr Instr :=
  use (bits w 7 2) (.sendr (bits w 19 7) (bits w 12 7) (bits w 9 3) (bits w 0 7))

/-- Major 0x1F (R64, R68). -/
def decodeM1F (w : Nat) : Except DecErr Instr :=
  match bits w 6 3 with
  | 0 => use (0) (.arrive (bits w 19 7) (bits w 12 7) (bits w 9 3) (bits w 0 6))
  | 1 => use (0) (.arriveRelaxed (bits w 19 7) (bits w 12 7) (bits w 9 3) (bits w 0 6))
  | 2 => use (0) (.hwait (bits w 19 7) (bits w 12 7) (bits w 9 3) (bits w 0 6))
  | 3 => use (0) (.htest (bits w 19 7) (bits w 12 7) (bits w 9 3) (bits w 0 6))
  | _ => .error .fnUnassigned

/-- Major 0x20 (R64, R68). -/
def decodeM20 (w : Nat) : Except DecErr Instr :=
  match bits w 0 5 with
  | 0 => use (bits w 5 7 + bits w 19 7) (.pubf (bits w 12 7))
  | 1 => use (bits w 5 7 + bits w 19 7) (.sync (bits w 12 7))
  | 2 => use (bits w 5 21) (.done)
  | 3 => use (bits w 5 7) (.tcbnew (bits w 19 7) (bits w 12 7))
  | 4 => use (bits w 19 7) (.tcbsucc (bits w 12 7) (bits w 5 7))
  | 5 => use (bits w 19 7) (.tcbpred (bits w 12 7) (bits w 5 7))
  | _ => .error .fnUnassigned

/-- Major 0x21 (R64, R68). -/
def decodeM21 (w : Nat) : Except DecErr Instr :=
  use (0) (.spawn (bits w 19 7) (bits w 0 19))

/-- Major 0x22 (R64, R68). -/
def decodeM22 (w : Nat) : Except DecErr Instr :=
  match bits w 0 5 with
  | 0 => use (bits w 5 7 + bits w 19 7) (.waitt (bits w 12 7))
  | 1 => use (bits w 5 7 + bits w 19 7) (.waita (bits w 12 7))
  | 2 => use (bits w 5 14) (.tfirst (bits w 19 7))
  | 3 => use (bits w 5 7 + bits w 19 7) (.tclr (bits w 12 7))
  | 4 => use (bits w 19 7) (.cwait (bits w 12 7) (bits w 5 7))
  | 5 => use (bits w 5 7) (.cread (bits w 19 7) (bits w 12 7))
  | 6 => use (bits w 5 14) (.rdpace (bits w 19 7))
  | _ => .error .fnUnassigned

/-- Major 0x28 (R64, R68). -/
def decodeM28 (w : Nat) : Except DecErr Instr :=
  match bits w 0 4 with
  | 0 => use (bits w 18 8) (.vclaim (bits w 11 7) (bits w 4 7))
  | 1 => use (bits w 4 22) (.vfree)
  | 2 => use (bits w 20 6) (.repf (bits w 15 5) (bits w 11 4) (bits w 4 7))
  | 3 => use (bits w 4 22) (.vwait)
  | _ => .error .fnUnassigned

/-- Major 0x29 (R64, R68). -/
def decodeM29 (w : Nat) : Except DecErr Instr :=
  match bits w 2 2 with
  | 0 => use (bits w 11 5) (.vld (bits w 21 5) (bits w 16 5) (bits w 4 7) (bits w 0 2))
  | 1 => use (0) (.vlds (bits w 21 5) (bits w 16 5) (bits w 11 5) (bits w 4 7) (bits w 0 2))
  | 2 => use (0) (.vldx (bits w 21 5) (bits w 16 5) (bits w 11 5) (bits w 4 7) (bits w 0 2))
  | 3 => use (bits w 11 5) (.vldPostinc (bits w 21 5) (bits w 16 5) (bits w 4 7) (bits w 0 2))
  | _ => .error .fnUnassigned

/-- Major 0x2A (R64, R68). -/
def decodeM2A (w : Nat) : Except DecErr Instr :=
  match bits w 2 2 with
  | 0 => use (bits w 11 5) (.vst (bits w 21 5) (bits w 16 5) (bits w 4 7) (bits w 0 2))
  | 1 => use (0) (.vsts (bits w 21 5) (bits w 16 5) (bits w 11 5) (bits w 4 7) (bits w 0 2))
  | 2 => use (0) (.vstx (bits w 21 5) (bits w 16 5) (bits w 11 5) (bits w 4 7) (bits w 0 2))
  | 3 => use (bits w 11 5) (.vstPostinc (bits w 21 5) (bits w 16 5) (bits w 4 7) (bits w 0 2))
  | _ => .error .fnUnassigned

/-- Major 0x2B (R64, R68). -/
def decodeM2B (w : Nat) : Except DecErr Instr :=
  match bits w 0 4 with
  | 0 => use (bits w 16 5) (.vbcast (bits w 21 5) (bits w 11 5) (bits w 4 7))
  | 1 => use (bits w 10 6) (.vmovg (bits w 21 5) (bits w 16 5) (bits w 4 6))
  | 2 => use (bits w 10 1 + bits w 16 5) (.vmovl (bits w 21 5) (bits w 11 5) (bits w 4 6))
  | 3 => use (bits w 11 10) (.viota (bits w 21 5) (bits w 4 7))
  | _ => .error .fnUnassigned

/-- Major 0x2C (R64, R68). -/
def decodeM2C (w : Nat) : Except DecErr Instr :=
  match bits w 0 4 with
  | 0 => use (0) (.vfadd (bits w 21 5) (bits w 16 5) (bits w 11 5) (bits w 4 7))
  | 1 => use (0) (.vfsub (bits w 21 5) (bits w 16 5) (bits w 11 5) (bits w 4 7))
  | 2 => use (0) (.vfmul (bits w 21 5) (bits w 16 5) (bits w 11 5) (bits w 4 7))
  | 3 => use (0) (.vfma (bits w 21 5) (bits w 16 5) (bits w 11 5) (bits w 4 7))
  | 4 => use (0) (.vfnma (bits w 21 5) (bits w 16 5) (bits w 11 5) (bits w 4 7))
  | 5 => use (0) (.vfmin (bits w 21 5) (bits w 16 5) (bits w 11 5) (bits w 4 7))
  | 6 => use (0) (.vfmax (bits w 21 5) (bits w 16 5) (bits w 11 5) (bits w 4 7))
  | 7 => use (bits w 11 5) (.vfabs (bits w 21 5) (bits w 16 5) (bits w 4 7))
  | 8 => use (bits w 11 5) (.vfneg (bits w 21 5) (bits w 16 5) (bits w 4 7))
  | _ => .error .fnUnassigned

/-- Major 0x2D (R64, R68). -/
def decodeM2D (w : Nat) : Except DecErr Instr :=
  match bits w 3 1 with
  | 0 => use (0) (.vfcmp (bits w 21 5) (bits w 16 5) (bits w 11 5) (bits w 4 7) (bits w 0 3))
  | _ => .error .fnUnassigned

/-- Major 0x2E (R64, R68). -/
def decodeM2E (w : Nat) : Except DecErr Instr :=
  match bits w 0 4 with
  | 0 => use (0) (.vadd (bits w 21 5) (bits w 16 5) (bits w 11 5) (bits w 4 7))
  | 1 => use (0) (.vsub (bits w 21 5) (bits w 16 5) (bits w 11 5) (bits w 4 7))
  | 2 => use (0) (.vmul (bits w 21 5) (bits w 16 5) (bits w 11 5) (bits w 4 7))
  | 3 => use (0) (.vmulh (bits w 21 5) (bits w 16 5) (bits w 11 5) (bits w 4 7))
  | 4 => use (0) (.vmulhn (bits w 21 5) (bits w 16 5) (bits w 11 5) (bits w 4 7))
  | 5 => use (0) (.vand (bits w 21 5) (bits w 16 5) (bits w 11 5) (bits w 4 7))
  | 6 => use (0) (.vor (bits w 21 5) (bits w 16 5) (bits w 11 5) (bits w 4 7))
  | 7 => use (0) (.vxor (bits w 21 5) (bits w 16 5) (bits w 11 5) (bits w 4 7))
  | 8 => use (0) (.vandn (bits w 21 5) (bits w 16 5) (bits w 11 5) (bits w 4 7))
  | 9 => use (0) (.vshl (bits w 21 5) (bits w 16 5) (bits w 11 5) (bits w 4 7))
  | 10 => use (0) (.vshr (bits w 21 5) (bits w 16 5) (bits w 11 5) (bits w 4 7))
  | 11 => use (0) (.vsar (bits w 21 5) (bits w 16 5) (bits w 11 5) (bits w 4 7))
  | 12 => use (0) (.vrol (bits w 21 5) (bits w 16 5) (bits w 11 5) (bits w 4 7))
  | 13 => use (0) (.vmin (bits w 21 5) (bits w 16 5) (bits w 11 5) (bits w 4 7))
  | 14 => use (0) (.vmax (bits w 21 5) (bits w 16 5) (bits w 11 5) (bits w 4 7))
  | 15 => use (0) (.vminn (bits w 21 5) (bits w 16 5) (bits w 11 5) (bits w 4 7))
  | _ => .error .fnUnassigned

/-- Major 0x2F (R64, R68). -/
def decodeM2F (w : Nat) : Except DecErr Instr :=
  match bits w 0 4 with
  | 0 => use (0) (.vmaxn (bits w 21 5) (bits w 16 5) (bits w 11 5) (bits w 4 7))
  | 1 => use (0) (.vsel (bits w 21 5) (bits w 16 5) (bits w 11 5) (bits w 4 7))
  | 2 => use (0) (.vpadd (bits w 21 5) (bits w 16 5) (bits w 11 5) (bits w 4 7) (bits w 0 1))
  | 3 => use (0) (.vpadd (bits w 21 5) (bits w 16 5) (bits w 11 5) (bits w 4 7) (bits w 0 1))
  | 4 => use (0) (.vpshl (bits w 21 5) (bits w 16 5) (bits w 11 5) (bits w 4 7) (bits w 0 1))
  | 5 => use (0) (.vpshl (bits w 21 5) (bits w 16 5) (bits w 11 5) (bits w 4 7) (bits w 0 1))
  | 6 => use (0) (.vpshr (bits w 21 5) (bits w 16 5) (bits w 11 5) (bits w 4 7) (bits w 0 1))
  | 7 => use (0) (.vpshr (bits w 21 5) (bits w 16 5) (bits w 11 5) (bits w 4 7) (bits w 0 1))
  | _ => .error .fnUnassigned

/-- Major 0x30 (R64, R68). -/
def decodeM30 (w : Nat) : Except DecErr Instr :=
  use (0) (.vcmp (bits w 21 5) (bits w 16 5) (bits w 11 5) (bits w 4 7) (bits w 0 4))

/-- Major 0x31 (R64, R68). -/
def decodeM31 (w : Nat) : Except DecErr Instr :=
  use (0) (.vcvt (bits w 21 5) (bits w 16 5) (bits w 15 1) (bits w 11 4) (bits w 4 7) (bits w 1 3) (bits w 0 1))

/-- Major 0x32 (R64, R68). -/
def decodeM32 (w : Nat) : Except DecErr Instr :=
  match bits w 0 4 with
  | 0 => use (bits w 11 5) (.vexp2 (bits w 21 5) (bits w 16 5) (bits w 4 7))
  | 1 => use (bits w 11 5) (.vlog2 (bits w 21 5) (bits w 16 5) (bits w 4 7))
  | 2 => use (bits w 11 5) (.vrcp (bits w 21 5) (bits w 16 5) (bits w 4 7))
  | 3 => use (bits w 11 5) (.vrsq (bits w 21 5) (bits w 16 5) (bits w 4 7))
  | 4 => use (bits w 11 5) (.vsqrt (bits w 21 5) (bits w 16 5) (bits w 4 7))
  | 5 => use (bits w 11 5) (.vtanh (bits w 21 5) (bits w 16 5) (bits w 4 7))
  | _ => .error .fnUnassigned

/-- Major 0x33 (R64, R68). -/
def decodeM33 (w : Nat) : Except DecErr Instr :=
  match bits w 0 4 with
  | 0 => use (bits w 11 5) (.vredaddF32 (bits w 21 5) (bits w 16 5) (bits w 4 7))
  | 1 => use (bits w 11 5) (.vredaddS32 (bits w 21 5) (bits w 16 5) (bits w 4 7))
  | 2 => use (bits w 11 5) (.vredminF32 (bits w 21 5) (bits w 16 5) (bits w 4 7))
  | 3 => use (bits w 11 5) (.vredminS32 (bits w 21 5) (bits w 16 5) (bits w 4 7))
  | 4 => use (bits w 11 5) (.vredminN32 (bits w 21 5) (bits w 16 5) (bits w 4 7))
  | 5 => use (bits w 11 5) (.vredmaxF32 (bits w 21 5) (bits w 16 5) (bits w 4 7))
  | 6 => use (bits w 11 5) (.vredmaxS32 (bits w 21 5) (bits w 16 5) (bits w 4 7))
  | 7 => use (bits w 11 5) (.vredmaxN32 (bits w 21 5) (bits w 16 5) (bits w 4 7))
  | _ => .error .fnUnassigned

/-- Major 0x34 (R64, R68). -/
def decodeM34 (w : Nat) : Except DecErr Instr :=
  match bits w 0 4 with
  | 0 => use (0) (.vperm (bits w 21 5) (bits w 16 5) (bits w 11 5) (bits w 4 7))
  | 1 => use (0) (.vslide (bits w 21 5) (bits w 16 5) (bits w 11 5) (bits w 4 7))
  | 2 => use (bits w 11 5) (.vcompress (bits w 21 5) (bits w 16 5) (bits w 4 7))
  | 3 => use (bits w 11 5) (.vexpand (bits w 21 5) (bits w 16 5) (bits w 4 7))
  | _ => .error .fnUnassigned

/-- Major 0x38, the atomics (R70, R140). -/
def decodeM38 (w x : Nat) : Except DecErr Instr :=
  match bits w 0 5 with
  | 0 => use (bits x 16 16 + bits x 10 6 + bits x 4 3) (.aadd (bits w 19 7) (bits w 12 7) (bits w 5 7) (bits x 7 3) (bits x 0 2) (bits x 2 2))
  | 1 => use (bits x 16 16 + bits x 10 6 + bits x 4 3) (.afadd (bits w 19 7) (bits w 12 7) (bits w 5 7) (bits x 7 3) (bits x 0 2) (bits x 2 2))
  | 2 => use (bits x 16 16 + bits x 10 6 + bits x 4 3) (.amin (bits w 19 7) (bits w 12 7) (bits w 5 7) (bits x 7 3) (bits x 0 2) (bits x 2 2))
  | 3 => use (bits x 16 16 + bits x 10 6 + bits x 4 3) (.amax (bits w 19 7) (bits w 12 7) (bits w 5 7) (bits x 7 3) (bits x 0 2) (bits x 2 2))
  | 4 => use (bits x 16 16 + bits x 10 6 + bits x 4 3) (.aminn (bits w 19 7) (bits w 12 7) (bits w 5 7) (bits x 7 3) (bits x 0 2) (bits x 2 2))
  | 5 => use (bits x 16 16 + bits x 10 6 + bits x 4 3) (.amaxn (bits w 19 7) (bits w 12 7) (bits w 5 7) (bits x 7 3) (bits x 0 2) (bits x 2 2))
  | 6 => use (bits x 16 16 + bits x 10 6 + bits x 4 3) (.aand (bits w 19 7) (bits w 12 7) (bits w 5 7) (bits x 7 3) (bits x 0 2) (bits x 2 2))
  | 7 => use (bits x 16 16 + bits x 10 6 + bits x 4 3) (.aor (bits w 19 7) (bits w 12 7) (bits w 5 7) (bits x 7 3) (bits x 0 2) (bits x 2 2))
  | 8 => use (bits x 16 16 + bits x 10 6 + bits x 4 3) (.axor (bits w 19 7) (bits w 12 7) (bits w 5 7) (bits x 7 3) (bits x 0 2) (bits x 2 2))
  | 9 => use (bits x 16 16 + bits x 10 6 + bits x 4 3) (.aswp (bits w 19 7) (bits w 12 7) (bits w 5 7) (bits x 7 3) (bits x 0 2) (bits x 2 2))
  | 10 => use (bits x 16 16 + bits x 10 6 + bits x 4 3) (.acas (bits w 19 7) (bits w 12 7) (bits w 5 7) (bits x 7 3) (bits x 0 2) (bits x 2 2))
  | 11 => use (bits x 16 16 + bits x 10 6 + bits x 4 3) (.cadd (bits w 19 7) (bits w 12 7) (bits w 5 7) (bits x 7 3) (bits x 0 2) (bits x 2 2))
  | _ => .error .fnUnassigned

/-- Major 0x39, the engines (R70, R218, R157). -/
def decodeM39 (w x : Nat) : Except DecErr Instr :=
  match bits w 0 5 with
  | 0 => use (bits x 16 16 + bits x 3 4 + bits x 0 2) (.fetch (bits w 19 7) (bits w 12 7) (bits w 5 7) (bits x 10 6) (bits x 7 3) (bit x 2))
  | 1 => if bits x 3 1 = 0 then use (bits x 16 16 + bits x 4 3 + bits x 0 2) (.push (bits w 19 7) (bits w 12 7) (bits w 5 7) (bits x 10 6) (bits x 7 3) (bit x 2))
    else use (bits x 4 3 + bits x 0 2) (.pushX (bits x 16 16) (bits w 19 7) (bits w 12 7) (bits w 5 7) (bits x 10 6) (bits x 7 3) (bit x 2))
  | 2 => use (bits x 3 4 + bits x 0 2) (.pushm (bits x 16 16) (bits w 19 7) (bits w 12 7) (bits w 5 7) (bits x 10 6) (bits x 7 3) (bit x 2))
  | 3 => use (bits x 16 16 + bits x 3 4 + bits x 0 2) (.storeb (bits w 19 7) (bits w 12 7) (bits w 5 7) (bits x 10 6) (bits x 7 3) (bit x 2))
  | 4 => use (bits x 3 4 + bits x 1 1) (.gather (bits x 16 16) (bits w 19 7) (bits w 12 7) (bits w 5 7) (bits x 10 6) (bits x 7 3) (bit x 0) (bit x 2))
  | 5 => use (bits x 3 4) (.scatter (bits x 16 16) (bits w 19 7) (bits w 12 7) (bits w 5 7) (bits x 10 6) (bits x 7 3) (bit x 0) (bit x 1) (bit x 2))
  | 6 => use (bits x 3 4 + bits x 0 2) (.fabred (bits x 16 16) (bits w 19 7) (bits w 12 7) (bits w 5 7) (bits x 10 6) (bits x 7 3) (bit x 2))
  | 7 => use (bits w 5 7 + bits x 3 4 + bits x 0 2) (.donate (bits x 16 16) (bits w 19 7) (bits w 12 7) (bits x 10 6) (bits x 7 3) (bit x 2))
  | _ => .error .fnUnassigned

/-- Major 0x3A, the matrix unit (R70, R189). -/
def decodeM3A (w x : Nat) : Except DecErr Instr :=
  match bits w 0 5 with
  | 0 =>
    match bits w 12 7 with
    | 0 => use (bits w 5 7 + bits x 16 16 + bits x 4 12 + bits x 1 3 + bits x 0 1) (.mclaimRelease (bits w 19 7))
    | 1 => use (bits w 5 7 + bits x 16 16 + bits x 4 12 + bits x 1 3 + bits x 0 1) (.mclaimClaim (bits w 19 7))
    | _ => .error .badCode
  | 1 => use (bits w 12 7 + bits w 5 7 + bits x 4 12 + bits x 0 1) (.ldw (bits x 16 16) (bits w 19 7) (bits x 1 3))
  | 2 => use (bits w 19 7 + bits w 12 7 + bits w 5 7 + bits x 16 16 + bits x 4 12 + bits x 1 3 + bits x 0 1) .swpw
  | 3 => use (bits x 4 12) (.mma (bits x 16 16) (bits w 19 7) (bits w 12 7) (bits w 5 7) (bits x 1 3) (bit x 0))
  | 4 => use (bits w 19 7 + bits x 16 16 + bits x 4 12) (.mchain (bits w 12 7) (bits w 5 7) (bits x 1 3) (bit x 0))
  | 5 => use (bits w 12 7 + bits w 5 7 + bits x 16 16 + bits x 4 12 + bits x 1 3 + bits x 0 1) (.munchain (bits w 19 7))
  | 6 => use (bits x 16 16 + bits x 4 12 + bits x 1 3 + bits x 0 1) (.mova (bits w 19 7) (bits w 12 7) (bits w 5 7))
  | 7 => use (bits x 4 12 + bits x 1 3 + bits x 0 1) (.msta (bits x 16 16) (bits w 19 7) (bits w 12 7) (bits w 5 7))
  | 8 => use (bits x 4 12 + bits x 1 3 + bits x 0 1) (.mlda (bits x 16 16) (bits w 19 7) (bits w 12 7) (bits w 5 7))
  | 9 => use (bits w 19 7 + bits w 12 7 + bits x 16 16 + bits x 4 12 + bits x 1 3 + bits x 0 1) (.mzero (bits w 5 7))
  | 10 => use (bits x 16 16 + bits x 4 12 + bits x 1 3 + bits x 0 1) (.msel (bits w 19 7) (bits w 12 7) (bits w 5 7))
  | 11 => use (bits w 5 7 + bits x 16 16 + bits x 4 12 + bits x 0 1) (.mscale (bits w 19 7) (bits w 12 7) (bits x 1 3))
  | 12 => use (bits w 5 7 + bits x 16 16 + bits x 4 12 + bits x 1 3 + bits x 0 1) (.mstat (bits w 19 7) (bits w 12 7))
  | _ => .error .fnUnassigned

/-- The major decides how the rest is read (R59, R64, R68, R70); `w` is word 0, `x` is word 1 of a wide instruction. -/
def decodeMajor (w x : Nat) : Except DecErr Instr :=
  match bits w 26 6 with
  | 1 => decodeM01 w
  | 2 => decodeM02 w
  | 3 => decodeM03 w
  | 4 => decodeM04 w
  | 5 => decodeM05 w
  | 6 => decodeM06 w
  | 7 => decodeM07 w
  | 8 => decodeM08 w
  | 9 => decodeM09 w
  | 10 => decodeM0A w
  | 11 => decodeM0B w
  | 12 => decodeM0C w
  | 13 => decodeM0D w
  | 14 => decodeM0E w
  | 15 => decodeM0F w
  | 16 => decodeM10 w
  | 17 => decodeM11 w
  | 18 => decodeM12 w
  | 19 => decodeM13 w
  | 20 => decodeM14 w
  | 21 => decodeM15 w
  | 22 => decodeM16 w
  | 23 => decodeM17 w
  | 24 => decodeM18 w
  | 25 => decodeM19 w
  | 26 => decodeM1A w
  | 27 => decodeM1B w
  | 28 => decodeM1C w
  | 29 => decodeM1D w
  | 30 => decodeM1E w
  | 31 => decodeM1F w
  | 32 => decodeM20 w
  | 33 => decodeM21 w
  | 34 => decodeM22 w
  | 40 => decodeM28 w
  | 41 => decodeM29 w
  | 42 => decodeM2A w
  | 43 => decodeM2B w
  | 44 => decodeM2C w
  | 45 => decodeM2D w
  | 46 => decodeM2E w
  | 47 => decodeM2F w
  | 48 => decodeM30 w
  | 49 => decodeM31 w
  | 50 => decodeM32 w
  | 51 => decodeM33 w
  | 52 => decodeM34 w
  | 56 => decodeM38 w x
  | 57 => decodeM39 w x
  | 58 => decodeM3A w x
  | _ => .error .majorUnassigned

/-- Majors 0x38 to 0x3F are wide (R59). -/
def isWide (w : Nat) : Bool := 56 ≤ bits w 26 6

/-- The instruction of word 0 `w` and, for a wide major, word 1 `x` (R63 step 2). -/
def decode (w x : Nat) : Except DecErr Instr :=
  if w = 0 then .error .allZeros
  else if w = 4294967295 then .error .allOnes
  else
    match decodeMajor w x with
    | .ok i => if wellFormed i then .ok i else .error .badCode
    | .error e => .error e

/-- The number that little-endian bytes hold (R3). -/
def leNat : List Byte → Nat
  | [] => 0
  | b :: r => b.toNat + 256 * leNat r

/-- The low `n` bytes of a number, lowest first (R3). -/
def leBytes : Nat → Nat → List Byte
  | 0, _ => []
  | n + 1, v => BitVec.ofNat 8 v :: leBytes n (v / 256)

/-- The instruction at the head of a list of bytes and the bytes after it (R59). -/
def decodeBytes (l : List Byte) : Except DecErr (Instr × List Byte) :=
  let w := leNat (l.take 4)
  if l.length < 4 then .error .truncated
  else if isWide w then
    if l.length < 8 then .error .truncated
    else (decode w (leNat ((l.drop 4).take 4))).map (·, l.drop 8)
  else (decode w 0).map (·, l.drop 4)

/-- The instruction the decoder reads from a table word (bit 0 is the least significant bit of word 0). -/
def decodeTableWord (nbits w : Nat) : Option Instr :=
  match decodeBytes (leBytes 8 (w % 2 ^ nbits)) with
  | .ok (i, _) => some i
  | .error _ => none

/-- The two words of a wide instruction (R60). -/
def word0 (major a b c sub w1 : Nat) : List Nat := [major * 67108864 + a * 524288 + b * 4096 + c * 32 + sub, w1]

/-- The words of a well-formed instruction (R60 to R71); a hardware event has none. -/
def encode : Instr → List Nat
  | .add d a b => [67108864 + d * 524288 + a * 4096 + b * 32]
  | .sub d a b => [67108865 + d * 524288 + a * 4096 + b * 32]
  | .mul d a b => [67108866 + d * 524288 + a * 4096 + b * 32]
  | .mulh d a b => [67108867 + d * 524288 + a * 4096 + b * 32]
  | .mulhn d a b => [67108868 + d * 524288 + a * 4096 + b * 32]
  | .div d a b => [67108869 + d * 524288 + a * 4096 + b * 32]
  | .divn d a b => [67108870 + d * 524288 + a * 4096 + b * 32]
  | .rem d a b => [67108871 + d * 524288 + a * 4096 + b * 32]
  | .remn d a b => [67108872 + d * 524288 + a * 4096 + b * 32]
  | .min d a b => [67108873 + d * 524288 + a * 4096 + b * 32]
  | .max d a b => [67108874 + d * 524288 + a * 4096 + b * 32]
  | .minn d a b => [67108875 + d * 524288 + a * 4096 + b * 32]
  | .maxn d a b => [67108876 + d * 524288 + a * 4096 + b * 32]
  | .abs d a => [67108877 + d * 524288 + a * 4096]
  | .and d a b => [67108878 + d * 524288 + a * 4096 + b * 32]
  | .or d a b => [67108879 + d * 524288 + a * 4096 + b * 32]
  | .xor d a b => [67108880 + d * 524288 + a * 4096 + b * 32]
  | .andn d a b => [67108881 + d * 524288 + a * 4096 + b * 32]
  | .orn d a b => [67108882 + d * 524288 + a * 4096 + b * 32]
  | .xnor d a b => [67108883 + d * 524288 + a * 4096 + b * 32]
  | .shl d a b => [67108884 + d * 524288 + a * 4096 + b * 32]
  | .shr d a b => [67108885 + d * 524288 + a * 4096 + b * 32]
  | .sar d a b => [67108886 + d * 524288 + a * 4096 + b * 32]
  | .rol d a b => [67108887 + d * 524288 + a * 4096 + b * 32]
  | .ror d a b => [67108888 + d * 524288 + a * 4096 + b * 32]
  | .popc d a => [134217728 + d * 524288 + a * 4096]
  | .clz d a => [134217729 + d * 524288 + a * 4096]
  | .ctz d a => [134217730 + d * 524288 + a * 4096]
  | .brev d a => [134217731 + d * 524288 + a * 4096]
  | .bswap d a => [134217732 + d * 524288 + a * 4096]
  | .bext d a b => [134217733 + d * 524288 + a * 4096 + b * 32]
  | .bdep d a b => [134217734 + d * 524288 + a * 4096 + b * 32]
  | .sextS8 d a => [134217735 + d * 524288 + a * 4096]
  | .sextS16 d a => [134217736 + d * 524288 + a * 4096]
  | .sextS32 d a => [134217737 + d * 524288 + a * 4096]
  | .zextN8 d a => [134217738 + d * 524288 + a * 4096]
  | .zextN16 d a => [134217739 + d * 524288 + a * 4096]
  | .zextN32 d a => [134217740 + d * 524288 + a * 4096]
  | .padd d a b w => [201326592 + d * 524288 + a * 4096 + b * 32 + w]
  | .psub d a b w => [201326594 + d * 524288 + a * 4096 + b * 32 + w]
  | .paddsS d a b w => [201326596 + d * 524288 + a * 4096 + b * 32 + w]
  | .paddsN d a b w => [201326598 + d * 524288 + a * 4096 + b * 32 + w]
  | .psubsS d a b w => [201326600 + d * 524288 + a * 4096 + b * 32 + w]
  | .psubsN d a b w => [201326602 + d * 524288 + a * 4096 + b * 32 + w]
  | .pmin d a b w => [201326604 + d * 524288 + a * 4096 + b * 32 + w]
  | .pmax d a b w => [201326606 + d * 524288 + a * 4096 + b * 32 + w]
  | .pminn d a b w => [201326608 + d * 524288 + a * 4096 + b * 32 + w]
  | .pmaxn d a b w => [201326610 + d * 524288 + a * 4096 + b * 32 + w]
  | .pshl d a b w => [201326612 + d * 524288 + a * 4096 + b * 32 + w]
  | .pshr d a b w => [201326614 + d * 524288 + a * 4096 + b * 32 + w]
  | .psar d a b w => [201326616 + d * 524288 + a * 4096 + b * 32 + w]
  | .pshlV d a b w => [201326618 + d * 524288 + a * 4096 + b * 32 + w]
  | .pshrV d a b w => [201326620 + d * 524288 + a * 4096 + b * 32 + w]
  | .psarV d a b w => [201326622 + d * 524288 + a * 4096 + b * 32 + w]
  | .pcmp d a b c w => [268435456 + d * 524288 + a * 4096 + b * 32 + c * 2 + w]
  | .mov d a => [268435468 + d * 524288 + a * 4096]
  | .pmovToG d => [268435469 + d * 524288]
  | .pmovToPw a => [268435470 + a * 4096]
  | .sel d a b n k => [335544320 + d * 524288 + a * 4096 + b * 32 + n * 16 + k]
  | .addi d a i => [402653184 + d * 524288 + a * 4096 + i]
  | .andi d a i => [469762048 + d * 524288 + a * 4096 + i]
  | .ori d a i => [536870912 + d * 524288 + a * 4096 + i]
  | .xori d a i => [603979776 + d * 524288 + a * 4096 + i]
  | .shli d a n => [671088640 + d * 524288 + a * 4096 + n]
  | .shri d a n => [671088896 + d * 524288 + a * 4096 + n]
  | .sari d a n => [671089152 + d * 524288 + a * 4096 + n]
  | .rori d a n => [671089408 + d * 524288 + a * 4096 + n]
  | .bfx d a p l => [738197504 + d * 524288 + a * 4096 + p * 64 + l]
  | .bfi d a p l => [805306368 + d * 524288 + a * 4096 + p * 64 + l]
  | .lim d i => [872415232 + d * 524288 + i]
  | .limH d k h => [939524096 + d * 524288 + k * 65536 + h]
  | .addpc d i => [1006632960 + d * 524288 + i]
  | .cmp p c a b s => [1073741824 + p * 4194304 + c * 262144 + a * 2048 + b * 16 + s]
  | .cmpi p c a i => [1140850688 + p * 4194304 + c * 262144 + a * 2048 + i]
  | .plog p c x y => [1207959552 + p * 4194304 + c * 262144 + x * 2048 + y * 16]
  | .b n p o => [1275068416 + n * 33554432 + p * 2097152 + o]
  | .j o => [1342177280 + o]
  | .call o => [1409286144 + o]
  | .callr a => [1476395008 + a * 4096]
  | .jr a => [1476395009 + a * 4096]
  | .ret => [1476395010]
  | .objset a b => [1476395011 + a * 4096 + b * 32]
  | .mfs d s => [1543503872 + d * 524288 + s * 128]
  | .mts d s => [1543503873 + d * 524288 + s * 128]
  | .mtsPortmap d => [1543504257 + d * 524288]
  | .mtsVl d => [1543504897 + d * 524288]
  | .mtsFpstat d => [1543504641 + d * 524288]
  | .mtsRndseed d => [1543504769 + d * 524288]
  | .mtsCarve d => [1543507969 + d * 524288]
  | .mtsLandn d => [1543508225 + d * 524288]
  | .trap c => [1543503874 + c * 128]
  | .svc c => [1543503875 + c * 128]
  | .svcSetCarve => [1543504003]
  | .svcSetVgroup => [1543504131]
  | .svcSetLandn => [1543504259]
  | .svcSetAccmap => [1543504387]
  | .svcLaunch => [1543536643]
  | .eret d => [1543503876 + d * 524288]
  | .yield => [1543503877]
  | .park => [1543503878]
  | .hint h i n => [1543503936 + h * 524288 + i * 128 + n]
  | .ldD t b g o => [1610612736 + t * 524288 + b * 4096 + g * 512 + o]
  | .stD t b g o => [1677721600 + t * 524288 + b * 4096 + g * 512 + o]
  | .ld t b i y => [1744830472 + t * 524288 + b * 4096 + i * 32 + y]
  | .ldx t b x y => [1744830464 + t * 524288 + b * 4096 + x * 32 + y]
  | .st t b i y => [1744830488 + t * 524288 + b * 4096 + i * 32 + y]
  | .stx t b x y => [1744830480 + t * 524288 + b * 4096 + x * 32 + y]
  | .ldm d a n => [1811939328 + d * 524288 + a * 4096 + n * 32]
  | .stm d a n => [1811939329 + d * 524288 + a * 4096 + n * 32]
  | .ldfe t b s o => [1879048192 + t * 524288 + b * 4096 + s * 512 + o]
  | .ldff t b s o => [1879048256 + t * 524288 + b * 4096 + s * 512 + o]
  | .stfe t b s o => [1879048320 + t * 524288 + b * 4096 + s * 512 + o]
  | .stf t b s o => [1879048384 + t * 524288 + b * 4096 + s * 512 + o]
  | .sete b s o => [1879048448 + b * 4096 + s * 512 + o]
  | .feq t b s o => [1879048512 + t * 524288 + b * 4096 + s * 512 + o]
  | .ldfeStrand t b => [1879048192 + t * 524288 + b * 4096]
  | .ldffStrand t b => [1879048256 + t * 524288 + b * 4096]
  | .seteStrand t => [1879048448 + t * 524288]
  | .feqStrand t b => [1879048512 + t * 524288 + b * 4096]
  | .fence s => [1946157056 + s * 512]
  | .discard b s o => [1946681344 + b * 4096 + s * 512 + o]
  | .flush b s o => [1947205632 + b * 4096 + s * 512 + o]
  | .inval b s o => [1947729920 + b * 4096 + s * 512 + o]
  | .pref b s o => [1948254208 + b * 4096 + s * 512 + o]
  | .tlbinvPage b s => [1948778496 + b * 4096 + s * 512]
  | .tlbinvRegion s => [1948778497 + s * 512]
  | .hop b o => [1949302784 + b * 4096 + o]
  | .sendr t b s r => [2013265920 + t * 524288 + b * 4096 + s * 512 + r]
  | .arrive t b s o => [2080374784 + t * 524288 + b * 4096 + s * 512 + o]
  | .arriveRelaxed t b s o => [2080374848 + t * 524288 + b * 4096 + s * 512 + o]
  | .hwait t b s o => [2080374912 + t * 524288 + b * 4096 + s * 512 + o]
  | .htest t b s o => [2080374976 + t * 524288 + b * 4096 + s * 512 + o]
  | .pubf a => [2147483648 + a * 4096]
  | .sync a => [2147483649 + a * 4096]
  | .done => [2147483650]
  | .tcbnew d a => [2147483651 + d * 524288 + a * 4096]
  | .tcbsucc a b => [2147483652 + a * 4096 + b * 32]
  | .tcbpred a b => [2147483653 + a * 4096 + b * 32]
  | .spawn d i => [2214592512 + d * 524288 + i]
  | .waitt a => [2281701376 + a * 4096]
  | .waita a => [2281701377 + a * 4096]
  | .tfirst d => [2281701378 + d * 524288]
  | .tclr a => [2281701379 + a * 4096]
  | .cwait a b => [2281701380 + a * 4096 + b * 32]
  | .cread d a => [2281701381 + d * 524288 + a * 4096]
  | .rdpace d => [2281701382 + d * 524288]
  | .vclaim q g => [2684354560 + q * 2048 + g * 16]
  | .vfree => [2684354561]
  | .repf s l g => [2684354562 + s * 32768 + l * 2048 + g * 16]
  | .vwait => [2684354563]
  | .vld d a g w => [2751463424 + d * 2097152 + a * 65536 + g * 16 + w]
  | .vlds d a b g w => [2751463428 + d * 2097152 + a * 65536 + b * 2048 + g * 16 + w]
  | .vldx d a b g w => [2751463432 + d * 2097152 + a * 65536 + b * 2048 + g * 16 + w]
  | .vldPostinc d a g w => [2751463436 + d * 2097152 + a * 65536 + g * 16 + w]
  | .vst d a g w => [2818572288 + d * 2097152 + a * 65536 + g * 16 + w]
  | .vsts d a b g w => [2818572292 + d * 2097152 + a * 65536 + b * 2048 + g * 16 + w]
  | .vstx d a b g w => [2818572296 + d * 2097152 + a * 65536 + b * 2048 + g * 16 + w]
  | .vstPostinc d a g w => [2818572300 + d * 2097152 + a * 65536 + g * 16 + w]
  | .vbcast d b g => [2885681152 + d * 2097152 + b * 2048 + g * 16]
  | .vmovg d a l => [2885681153 + d * 2097152 + a * 65536 + l * 16]
  | .vmovl d b l => [2885681154 + d * 2097152 + b * 2048 + l * 16]
  | .viota d g => [2885681155 + d * 2097152 + g * 16]
  | .vfadd d a b g => [2952790016 + d * 2097152 + a * 65536 + b * 2048 + g * 16]
  | .vfsub d a b g => [2952790017 + d * 2097152 + a * 65536 + b * 2048 + g * 16]
  | .vfmul d a b g => [2952790018 + d * 2097152 + a * 65536 + b * 2048 + g * 16]
  | .vfma d a b g => [2952790019 + d * 2097152 + a * 65536 + b * 2048 + g * 16]
  | .vfnma d a b g => [2952790020 + d * 2097152 + a * 65536 + b * 2048 + g * 16]
  | .vfmin d a b g => [2952790021 + d * 2097152 + a * 65536 + b * 2048 + g * 16]
  | .vfmax d a b g => [2952790022 + d * 2097152 + a * 65536 + b * 2048 + g * 16]
  | .vfabs d a g => [2952790023 + d * 2097152 + a * 65536 + g * 16]
  | .vfneg d a g => [2952790024 + d * 2097152 + a * 65536 + g * 16]
  | .vfcmp d a b g c => [3019898880 + d * 2097152 + a * 65536 + b * 2048 + g * 16 + c]
  | .vadd d a b g => [3087007744 + d * 2097152 + a * 65536 + b * 2048 + g * 16]
  | .vsub d a b g => [3087007745 + d * 2097152 + a * 65536 + b * 2048 + g * 16]
  | .vmul d a b g => [3087007746 + d * 2097152 + a * 65536 + b * 2048 + g * 16]
  | .vmulh d a b g => [3087007747 + d * 2097152 + a * 65536 + b * 2048 + g * 16]
  | .vmulhn d a b g => [3087007748 + d * 2097152 + a * 65536 + b * 2048 + g * 16]
  | .vand d a b g => [3087007749 + d * 2097152 + a * 65536 + b * 2048 + g * 16]
  | .vor d a b g => [3087007750 + d * 2097152 + a * 65536 + b * 2048 + g * 16]
  | .vxor d a b g => [3087007751 + d * 2097152 + a * 65536 + b * 2048 + g * 16]
  | .vandn d a b g => [3087007752 + d * 2097152 + a * 65536 + b * 2048 + g * 16]
  | .vshl d a b g => [3087007753 + d * 2097152 + a * 65536 + b * 2048 + g * 16]
  | .vshr d a b g => [3087007754 + d * 2097152 + a * 65536 + b * 2048 + g * 16]
  | .vsar d a b g => [3087007755 + d * 2097152 + a * 65536 + b * 2048 + g * 16]
  | .vrol d a b g => [3087007756 + d * 2097152 + a * 65536 + b * 2048 + g * 16]
  | .vmin d a b g => [3087007757 + d * 2097152 + a * 65536 + b * 2048 + g * 16]
  | .vmax d a b g => [3087007758 + d * 2097152 + a * 65536 + b * 2048 + g * 16]
  | .vminn d a b g => [3087007759 + d * 2097152 + a * 65536 + b * 2048 + g * 16]
  | .vmaxn d a b g => [3154116608 + d * 2097152 + a * 65536 + b * 2048 + g * 16]
  | .vsel d a b g => [3154116609 + d * 2097152 + a * 65536 + b * 2048 + g * 16]
  | .vpadd d a b g w => [3154116610 + d * 2097152 + a * 65536 + b * 2048 + g * 16 + w]
  | .vpshl d a b g w => [3154116612 + d * 2097152 + a * 65536 + b * 2048 + g * 16 + w]
  | .vpshr d a b g w => [3154116614 + d * 2097152 + a * 65536 + b * 2048 + g * 16 + w]
  | .vcmp d a b g c => [3221225472 + d * 2097152 + a * 65536 + b * 2048 + g * 16 + c]
  | .vcvt d a x t g r s => [3288334336 + d * 2097152 + a * 65536 + x * 32768 + t * 2048 + g * 16 + r * 2 + s]
  | .vexp2 d a g => [3355443200 + d * 2097152 + a * 65536 + g * 16]
  | .vlog2 d a g => [3355443201 + d * 2097152 + a * 65536 + g * 16]
  | .vrcp d a g => [3355443202 + d * 2097152 + a * 65536 + g * 16]
  | .vrsq d a g => [3355443203 + d * 2097152 + a * 65536 + g * 16]
  | .vsqrt d a g => [3355443204 + d * 2097152 + a * 65536 + g * 16]
  | .vtanh d a g => [3355443205 + d * 2097152 + a * 65536 + g * 16]
  | .vredaddF32 d a g => [3422552064 + d * 2097152 + a * 65536 + g * 16]
  | .vredaddS32 d a g => [3422552065 + d * 2097152 + a * 65536 + g * 16]
  | .vredminF32 d a g => [3422552066 + d * 2097152 + a * 65536 + g * 16]
  | .vredminS32 d a g => [3422552067 + d * 2097152 + a * 65536 + g * 16]
  | .vredminN32 d a g => [3422552068 + d * 2097152 + a * 65536 + g * 16]
  | .vredmaxF32 d a g => [3422552069 + d * 2097152 + a * 65536 + g * 16]
  | .vredmaxS32 d a g => [3422552070 + d * 2097152 + a * 65536 + g * 16]
  | .vredmaxN32 d a g => [3422552071 + d * 2097152 + a * 65536 + g * 16]
  | .vperm d a b g => [3489660928 + d * 2097152 + a * 65536 + b * 2048 + g * 16]
  | .vslide d a b g => [3489660929 + d * 2097152 + a * 65536 + b * 2048 + g * 16]
  | .vcompress d a g => [3489660930 + d * 2097152 + a * 65536 + g * 16]
  | .vexpand d a g => [3489660931 + d * 2097152 + a * 65536 + g * 16]
  | .aadd a b c scope ord w => word0 56 a b c 0 (scope * 128 + w * 4 + ord)
  | .afadd a b c scope ord w => word0 56 a b c 1 (scope * 128 + w * 4 + ord)
  | .amin a b c scope ord w => word0 56 a b c 2 (scope * 128 + w * 4 + ord)
  | .amax a b c scope ord w => word0 56 a b c 3 (scope * 128 + w * 4 + ord)
  | .aminn a b c scope ord w => word0 56 a b c 4 (scope * 128 + w * 4 + ord)
  | .amaxn a b c scope ord w => word0 56 a b c 5 (scope * 128 + w * 4 + ord)
  | .aand a b c scope ord w => word0 56 a b c 6 (scope * 128 + w * 4 + ord)
  | .aor a b c scope ord w => word0 56 a b c 7 (scope * 128 + w * 4 + ord)
  | .axor a b c scope ord w => word0 56 a b c 8 (scope * 128 + w * 4 + ord)
  | .aswp a b c scope ord w => word0 56 a b c 9 (scope * 128 + w * 4 + ord)
  | .acas a b c scope ord w => word0 56 a b c 10 (scope * 128 + w * 4 + ord)
  | .cadd a b c scope ord w => word0 56 a b c 11 (scope * 128 + w * 4 + ord)
  | .fetch a b c tag scope cnt => word0 57 a b c 0 (tag * 1024 + scope * 128 + b2n cnt * 4)
  | .push a b c tag scope cnt => word0 57 a b c 1 (tag * 1024 + scope * 128 + b2n cnt * 4)
  | .pushX obj a b c tag scope cnt => word0 57 a b c 1 (obj * 65536 + tag * 1024 + scope * 128 + 8 + b2n cnt * 4)
  | .pushm obj a b c tag scope cnt => word0 57 a b c 2 (obj * 65536 + tag * 1024 + scope * 128 + b2n cnt * 4)
  | .storeb a b c tag scope cnt => word0 57 a b c 3 (tag * 1024 + scope * 128 + b2n cnt * 4)
  | .gather obj a b c tag scope t cnt => word0 57 a b c 4 (obj * 65536 + tag * 1024 + scope * 128 + b2n cnt * 4 + b2n t)
  | .scatter obj a b c tag scope t add cnt => word0 57 a b c 5 (obj * 65536 + tag * 1024 + scope * 128 + b2n cnt * 4 + b2n add * 2 + b2n t)
  | .fabred obj a b c tag scope cnt => word0 57 a b c 6 (obj * 65536 + tag * 1024 + scope * 128 + b2n cnt * 4)
  | .donate obj a b tag scope cnt => word0 57 a b 0 7 (obj * 65536 + tag * 1024 + scope * 128 + b2n cnt * 4)
  | .mclaimClaim a => word0 58 a 1 0 0 (0)
  | .mclaimRelease a => word0 58 a 0 0 0 (0)
  | .ldw obj a ty => word0 58 a 0 0 1 (obj * 65536 + ty * 2)
  | .swpw => word0 58 0 0 0 2 (0)
  | .mma obj a b c ty z => word0 58 a b c 3 (obj * 65536 + ty * 2 + b2n z)
  | .mchain b c ty z => word0 58 0 b c 4 (ty * 2 + b2n z)
  | .munchain a => word0 58 a 0 0 5 (0)
  | .mova v b c => word0 58 v b c 6 (0)
  | .msta obj a b c => word0 58 a b c 7 (obj * 65536)
  | .mlda obj a b c => word0 58 a b c 8 (obj * 65536)
  | .mzero c => word0 58 0 0 c 9 (0)
  | .msel a b c => word0 58 a b c 10 (0)
  | .mscale a b ty => word0 58 a b 0 11 (ty * 2)
  | .mstat a op => word0 58 a op 0 12 (0)
  | .divideComplete _ => []
  | .replyArrival _ => []
  | .remoteStoreAck _ => []
  | .homeAccess _ => []
  | .nackReceived _ => []
  | .retryParkExpiry _ => []
  | .parkTimeout _ => []
  | .scopeMissReturn _ => []
  | .omegaCombine _ _ => []
  | .combinedReplySplit _ => []
  | .bankMissFill _ => []
  | .conflictQueueServe _ => []
  | .hotWindowEnd _ => []
  | .hotReplicaAck _ => []
  | .redirectInstall _ _ => []
  | .hotLineRecall _ => []
  | .recallWithdraw _ _ => []
  | .recallComplete _ => []
  | .helperEvictReport _ _ => []
  | .redirectDrain _ => []
  | .bridgeFlitReceive _ => []
  | .bridgeAckReceive _ _ => []
  | .bridgeRetrain _ => []
  | .bridgeRetrainDone _ => []
  | .bridgeFailTimeout _ => []
  | .relayFrameReceive _ _ _ => []
  | .relayPortTimeout _ => []
  | .sendrDelivery _ => []
  | .hubAllocate _ => []
  | .stealSweep _ => []
  | .stealRestExpiry _ => []
  | .stealHubAck _ => []
  | .stealArrival _ => []
  | .tcbDecrement _ _ => []
  | .taskRetire _ _ => []
  | .dequeRefillArrival _ => []
  | .migrationArrival _ => []
  | .landingQueueTake _ => []
  | .landingAck _ => []
  | .bounceReturn _ => []
  | .landnRaiseComplete _ => []
  | .vectorStep _ => []
  | .vectorPendingWrite _ => []
  | .vectorElementReply _ => []
  | .matrixArraySelect _ => []
  | .matrixOpStart _ => []
  | .matrixOpRetire _ => []
  | .accAccessAttempt _ => []
  | .engineComplete _ => []
  | .strideSpillReturn _ => []
  | .pushmMemberAck _ _ => []
  | .pushXTimeout _ => []
  | .fabredRankTimeout _ _ => []
  | .donateAnswer _ _ => []
  | .donateTimeout _ => []
  | .donationReceive _ _ _ _ _ => []
  | .donationDrain _ _ => []
  | .handlerOwedStart _ => []
  | .eventDelivery _ _ _ _ => []
  | .preemptDecision _ => []
  | .preemptRequestArrival _ => []
  | .preemptSaveComplete _ => []
  | .threadRestore _ => []
  | .threadStale _ => []
  | .translationWalk _ => []
  | .walkComplete _ => []
  | .levelChange _ => []
  | .clockRestart _ => []
  | .shutterUpdate _ _ => []
  | .billingSend => []
  | .billingReceive _ _ => []
  | .pacerEpochReceive _ => []
  | .pacerCeilingApply => []
  | .pacerAnnounce _ _ => []
  | .leaderAnnounceHandle _ _ _ _ => []
  | .announceRejected => []
  | .hardDrop _ => []
  | .leaderRaise _ => []
  | .pacerHeartbeat => []
  | .proposalChange _ => []
  | .memberSilence _ => []
  | .leaderSilence => []
  | .slackWindowEnd => []
  | .launch _ _ _ _ _ => []
  | .memrd _ _ _ => []
  | .memwr _ _ _ => []
  | .exrd _ _ _ _ => []
  | .exwr _ _ _ _ => []
  | .regctlHalt _ _ => []
  | .regctlResume _ _ => []
  | .regctlEnd _ _ => []
  | .setobj _ _ _ _ => []
  | .logrd _ => []
  | .energyrd _ _ => []
  | .hkrd _ _ => []
  | .semtake _ => []
  | .semgive _ => []
  | .keyloadClear _ _ => []
  | .keyloadLoad _ _ _ _ => []
  | .fwupd _ _ => []
  | .reset _ => []
  | .setchip _ _ => []
  | .groupJoin _ _ => []
  | .groupLeave _ _ => []
  | .route _ _ _ => []
  | .wqcfg _ _ _ _ => []
  | .caprd _ _ _ _ => []
  | .attest _ _ => []
  | .controlBadcmd _ _ => []
  | .foreignFrame => []
  | .ctlsemTimeout => []
  | .wicketEgress _ => []
  | .replayHeldAccess _ => []
  | .powerOnReset => []
  | .discoveryFloodReceive _ _ => []
  | .discoveryAnswer _ _ => []
  | .discoveryTimeout => []
  | .relayLinkRetrain _ => []
  | .relayLinkRetrainDone _ => []
  | .lineEviction _ _ => []
  | .patrolScrub _ => []
  | .replayExternalInput _ _ => []

/-- Whether an instruction is one of the program's, with words of its own. -/
def Instr.isWord (i : Instr) : Bool := encode i != []

/-- The length in bytes of an instruction (R59). -/
def Instr.len (i : Instr) : Nat := 4 * (encode i).length

/-- Word 0 of an instruction. -/
def Instr.w0 (i : Instr) : Nat := (encode i).headD 0

/-- Word 1 of a wide instruction, or 0. -/
def Instr.w1 (i : Instr) : Nat := (encode i).getD 1 0

end Sys2Proof
end

