-- ==== Sys2Proof/Config.lean ====
section
/-! DEFINITION. What the chapters leave open, as constants without a body: no proof can see a value of them, so a claim that
holds, holds whatever they are. A function of a counter is applied to the model's own `tick` (see State). -/

namespace Sys2Proof.Config

/-- Which of the events that may happen now happens next, applied to `tick` (R348: transit times are not specified). [DESIGN CHOICE, log 1] -/
opaque order : Nat → Nat

/-- Which of several cores whose cycle begins at one moment issues next, applied to `tick`. [DESIGN CHOICE, log 1] -/
opaque turn : Nat → Nat

/-- The steps that an event or an issue cycle may be delayed by others, finite and no more (R348), applied to the step at which it
was put on the agenda. [DESIGN CHOICE, log 1] -/
opaque transit : Nat → Nat

/-- The time that passes with an event, in the unit of `State.now`, applied to `tick` (R348); it never passes the next edge of a
running tile clock or the next value of `TIME` that an event waits for. [DESIGN CHOICE, log 2] -/
opaque elapsed : Nat → Nat

/-- The set of its bank, of 128, in which a line stands (R259). [DESIGN CHOICE, log 18] -/
opaque l2Set : Nat → Nat

/-- A free 64-bit value, applied to `tick`. [DESIGN CHOICE, log 9] -/
opaque freeWord : Nat → Word

/-- A free 64-bit value of several at one step, applied to `tick` and a number. [DESIGN CHOICE, log 9] -/
opaque freeWordAt : Nat → Nat → Word

/-- A free choice among places (bits of a word, members of a list), applied to `tick`. [DESIGN CHOICE, log 9] -/
opaque freeNat : Nat → Nat

/-- What a sector reads as when it was enciphered under one key load and is deciphered under another (R305): the key the
sector was written under, the key it is read under, its number and its plaintext. [DESIGN CHOICE, log 12] -/
opaque decipher : Nat → Nat → Nat → BitVec 512 → BitVec 512

/-- The nanoseconds for which the clock of a tile that has held no thread since reset stops for its first change of level, up to 2,000
(R311). [DESIGN CHOICE, log 46] -/
opaque firstStop : Nat

/-- The energy cost of issuing an instruction, by its word 0, in units of 2^-10 nJ (R314). [DESIGN CHOICE, log 14] -/
opaque costInstr : Nat → Nat

/-- The energy cost of a piece of other work, by its kind and `tick`, in units of 2^-10 nJ (R314, R315). [DESIGN CHOICE, log 14] -/
opaque costEvent : Nat → Nat → Nat

/-- The leader that a module finds when it joins a group, or none where the group has no live member (R320), by group
and `tick`. [DEDUCED, log 43] -/
opaque groupLeader : Nat → Nat → Option Nat

/-- Whether a signature verifies under the owner's key loaded in the device (Ed25519 over SHA-512, R12, R324): the frame's header
and body as numbers, and the signature. [DESIGN CHOICE, log 12] -/
opaque signatureOk : List Nat → Nat → Bool

/-- The hash of some numbers, as words of a report (SHA-512, R337). [DESIGN CHOICE, log 12] -/
opaque hash : List Nat → List Word

/-- Whether a firmware image is signed by the vendor's key (R337, R339). [DESIGN CHOICE, log 12] -/
opaque firmwareOk : List Byte → Bool

/-- Whether the staged chunks of a firmware image are rejected as they come (R326): the chapters do not give the image's format.
[DESIGN CHOICE, log 121] -/
opaque chunksRejected : List Byte → Bool

/-- The firmware image that stands in the module when it is first powered (R337). [DESIGN CHOICE, log 12] -/
opaque firmware : List Byte

/-- The key pair that a wrapped key holds, if the unwrapping accepts it (R338). [DESIGN CHOICE, log 12] -/
opaque unwrap : List Byte → Option Nat

/-- The physical address of the pool of save images, which the region manager reserves at boot (R297). [DESIGN CHOICE, log 128] -/
opaque imagePool : Nat

/-- The module's IPv6 address (R324, R347). [DESIGN CHOICE, log 12] -/
opaque moduleAddr : Nat

/-- The signature of an attestation report by the module's identity key, as words of it (R337). [DESIGN CHOICE, log 12] -/
opaque attestSig : List Word → List Word

/-- The configuration of a firmware image, which an attestation report covers beside the image (R337). The chapters give none of its contents.
[DESIGN CHOICE, log 12] -/
opaque firmwareConfig : List Byte → List Nat

/-- The 16 KiB image at scratchpad offset 0x1_0000 of core (0,0) of Q0 that the security controller places before it releases that core
(R345). [DEDUCED, log 10] -/
opaque bootImage : List Byte

/-- The retired positions that the in-field test finds at boot (R18, R339). [DESIGN CHOICE, log 12] -/
opaque retiredAtBoot : List Nat

end Sys2Proof.Config
end

