-- ==== Sys2Proof/Events.lean ====
section
/-! DEFINITION. The hardware's own events as the agenda of the state holds them: the event rows of Syntax.lean again, under
the same names and fields, and the moves of engines between them (a type of their own keeps the agenda apart from the program's instructions). -/

namespace Sys2Proof

/-- An event of the hardware or of the outside (chapter 95). -/
inductive Ev where
  /-- DIVIDE_COMPLETE (R101) -/
  | divideComplete (k : Nat)
  /-- REPLY_ARRIVAL (R131) -/
  | replyArrival (id : Nat)
  /-- REMOTE_STORE_ACK (R28) -/
  | remoteStoreAck (id : Nat)
  /-- HOME_ACCESS (R234) -/
  | homeAccess (id : Nat)
  /-- NACK_RECEIVED (R139) -/
  | nackReceived (id : Nat)
  /-- RETRY_PARK_EXPIRY (R139) -/
  | retryParkExpiry (k : Nat)
  /-- PARK_TIMEOUT (R126) -/
  | parkTimeout (k : Nat)
  /-- SCOPE_MISS_RETURN (R243) -/
  | scopeMissReturn (id : Nat)
  /-- OMEGA_COMBINE (R256) -/
  | omegaCombine (id0 id1 : Nat)
  /-- COMBINED_REPLY_SPLIT (R256) -/
  | combinedReplySplit (id : Nat)
  /-- BANK_MISS_FILL (R259) -/
  | bankMissFill (line : Nat)
  /-- CONFLICT_QUEUE_SERVE (R259) -/
  | conflictQueueServe (line : Nat)
  /-- HOT_WINDOW_END (R261) -/
  | hotWindowEnd (bank : Nat)
  /-- HOT_REPLICA_ACK (R262) -/
  | hotReplicaAck (line : Nat)
  /-- REDIRECT_INSTALL (R262) -/
  | redirectInstall (tile line : Nat)
  /-- HOT_LINE_RECALL (R263) -/
  | hotLineRecall (line : Nat)
  /-- RECALL_WITHDRAW (R263) -/
  | recallWithdraw (line : Nat) (who : Holder)
  /-- RECALL_COMPLETE (R263) -/
  | recallComplete (line : Nat)
  /-- HELPER_EVICT_REPORT (R263) -/
  | helperEvictReport (line slice : Nat)
  /-- REDIRECT_DRAIN (R264) -/
  | redirectDrain (id : Nat)
  /-- BRIDGE_FLIT_RECEIVE (R265) -/
  | bridgeFlitReceive (dir : Nat)
  /-- BRIDGE_ACK_RECEIVE (R265) -/
  | bridgeAckReceive (dir n : Nat)
  /-- BRIDGE_RETRAIN (R266) -/
  | bridgeRetrain (dir : Nat)
  /-- BRIDGE_RETRAIN_DONE (R266) -/
  | bridgeRetrainDone (dir : Nat)
  /-- BRIDGE_FAIL_TIMEOUT (R266) -/
  | bridgeFailTimeout (dir : Nat)
  /-- RELAY_FRAME_RECEIVE (R333) -/
  | relayFrameReceive (port : Nat) (frame : Nat) (pkts : List RelayPkt)
  /-- RELAY_PORT_TIMEOUT (R333) -/
  | relayPortTimeout (port : Nat)
  /-- SENDR_DELIVERY (R144) -/
  | sendrDelivery (id : Nat)
  /-- the answer of a register delivery on its way back: 0 done, 1 NACK, 2 error response, 3 error response of a failed
  bridge (R144, R266) -/
  | sendrAnswer (id ans : Nat)
  /-- the way of a migration crosses a failed bridge: part of MIGRATION_ARRIVAL (R266, R52) -/
  | migrationError (id : Nat)
  /-- a bank's miss arrives at the line's stack (R253): part of BANK_MISS_FILL -/
  | stackRead (line : Nat)
  /-- the link to a line's stack has failed: part of BANK_MISS_FILL (R266) -/
  | fillFailed (line : Nat)
  /-- a hot line is copied to its helpers (R262): part of HOT_WINDOW_END -/
  | hotCopy (line : Nat)
  /-- HUB_ALLOCATE (R276) -/
  | hubAllocate (core : Nat)
  /-- STEAL_SWEEP (R50) -/
  | stealSweep (core : Nat)
  /-- STEAL_REST_EXPIRY (R50) -/
  | stealRestExpiry (core : Nat)
  /-- STEAL_HUB_ACK (R49) -/
  | stealHubAck (core : Nat)
  /-- the way of a steal's claim crosses a failed bridge: part of STEAL_HUB_ACK (R266, R49) -/
  | stealRefused (core : Nat)
  /-- STEAL_ARRIVAL (R49) -/
  | stealArrival (core : Nat)
  /-- TCB_DECREMENT (R36) -/
  | tcbDecrement (key : Nat) (requester : Word)
  /-- TASK_RETIRE (R38) -/
  | taskRetire (key : Nat) (requester : Word)
  /-- a decrement of a retiring TCB's successor `i` performed at its hub: part of TASK_RETIRE (R38) -/
  | retireDec (key i ref : Nat) (requester : Word)
  /-- the hub of a retiring TCB goes on from successor `i`: part of TASK_RETIRE (R38) -/
  | retireStep (key i : Nat) (requester : Word)
  /-- the packet of an access made for a step that is put off reaches its home; its answer comes back; its way is cut (R257, R266) -/
  | visitHome (id : Nat)
  | visitDone (id : Nat)
  | visitCut (id : Nat)
  /-- the requests deferred at the words of a line are taken up again, as the dirty bytes of an L1 have come there (R138, R216, R236) -/
  | linePass (line : Nat)
  /-- a unit of a `PUSHM` reaches a die of its tree, and goes on to others (R346) -/
  | unitCast (id word die : Nat) (onward : List Nat)
  /-- the counter add that follows a member's bytes reaches the member (R223) -/
  | memberReached (id member : Nat)
  /-- the end of a packet that no event waits for -/
  | packetEnd
  /-- the other side of a port of Relay acknowledges frames (R333, R265) -/
  | relayAck (port : Nat)
  /-- DEQUE_REFILL_ARRIVAL (R46) -/
  | dequeRefillArrival (k : Nat)
  /-- MIGRATION_ARRIVAL (R54) -/
  | migrationArrival (id : Nat)
  /-- LANDING_QUEUE_TAKE (R54) -/
  | landingQueueTake (core : Nat)
  /-- LANDING_ACK (R53) -/
  | landingAck (id : Nat)
  /-- BOUNCE_RETURN (R54) -/
  | bounceReturn (id : Nat)
  /-- LANDN_RAISE_COMPLETE (R120) -/
  | landnRaiseComplete (core : Nat)
  /-- VECTOR_STEP (R163) -/
  | vectorStep (core : Nat)
  /-- VECTOR_PENDING_WRITE (R164) -/
  | vectorPendingWrite (core : Nat)
  /-- VECTOR_ELEMENT_REPLY (R166) -/
  | vectorElementReply (id : Nat)
  /-- MATRIX_ARRAY_SELECT (R194) -/
  | matrixArraySelect (tile : Nat)
  /-- MATRIX_OP_START (R193) -/
  | matrixOpStart (core : Nat)
  /-- MATRIX_OP_RETIRE (R193) -/
  | matrixOpRetire (core : Nat)
  /-- ACC_ACCESS_ATTEMPT (R200) -/
  | accAccessAttempt (core : Nat)
  /-- one move of an engine's operation: part of step 1 of R212, before ENGINE_COMPLETE -/
  | engineMove (id : Nat)
  /-- a packet of an engine's move, or its answer, arrives over the bridges at a die -/
  | engineTrip (id trip die : Nat)
  /-- ENGINE_COMPLETE (R212) -/
  | engineComplete (id : Nat)
  /-- STRIDE_SPILL_RETURN (R220) -/
  | strideSpillReturn (tile : Nat)
  /-- PUSHM_MEMBER_ACK (R223) -/
  | pushmMemberAck (id member : Nat)
  /-- PUSH_X_TIMEOUT (R222) -/
  | pushXTimeout (id : Nat)
  /-- FABRED_RANK_TIMEOUT (R231) -/
  | fabredRankTimeout (id rank : Nat)
  /-- DONATE_ANSWER (R157) -/
  | donateAnswer (id status : Nat)
  /-- DONATE_TIMEOUT (R283) -/
  | donateTimeout (id : Nat)
  /-- DONATION_RECEIVE (R283) -/
  | donationReceive (srcChip id tregion tobj : Nat) (image : List Word)
  /-- DONATION_DRAIN (R283) -/
  | donationDrain (region obj : Nat)
  /-- HANDLER_OWED_START (R290) -/
  | handlerOwedStart (cluster : Nat)
  /-- EVENT_DELIVERY (R292) -/
  | eventDelivery (region code : Nat) (w1 w2 : Word)
  /-- PREEMPT_DECISION (R278) -/
  | preemptDecision (cluster : Nat)
  /-- PREEMPT_REQUEST_ARRIVAL (R296) -/
  | preemptRequestArrival (k : Nat)
  /-- PREEMPT_SAVE_COMPLETE (R296) -/
  | preemptSaveComplete (k : Nat)
  /-- THREAD_RESTORE (R299) -/
  | threadRestore (image : Nat)
  /-- THREAD_STALE (R280) -/
  | threadStale (k : Nat)
  /-- TRANSLATION_WALK (R302) -/
  | translationWalk (id : Nat)
  /-- WALK_COMPLETE (R302) -/
  | walkComplete (id : Nat)
  /-- LEVEL_CHANGE (R311) -/
  | levelChange (tile : Nat)
  /-- CLOCK_RESTART (R311) -/
  | clockRestart (tile : Nat)
  /-- SHUTTER_UPDATE (R312) -/
  | shutterUpdate (core count : Nat)
  /-- BILLING_SEND (R314) -/
  | billingSend
  /-- BILLING_RECEIVE (R314) -/
  | billingReceive (region nj : Nat)
  /-- PACER_EPOCH_RECEIVE (R316) -/
  | pacerEpochReceive (m : EpochMsg)
  /-- PACER_CEILING_APPLY (R316) -/
  | pacerCeilingApply
  /-- PACER_ANNOUNCE (R317) -/
  | pacerAnnounce (level bite : Nat)
  /-- LEADER_ANNOUNCE_HANDLE (R317) -/
  | leaderAnnounceHandle (chip level bite : Nat) (hard : Bool)
  /-- ANNOUNCE_REJECTED (R317) -/
  | announceRejected
  /-- HARD_DROP (R318) -/
  | hardDrop (level : Nat)
  /-- LEADER_RAISE (R319) -/
  | leaderRaise (lead : Nat)
  /-- PACER_HEARTBEAT (R320) -/
  | pacerHeartbeat
  /-- PROPOSAL_CHANGE (R320) -/
  | proposalChange (level : Nat)
  /-- MEMBER_SILENCE (R320) -/
  | memberSilence (chip : Nat)
  /-- LEADER_SILENCE (R320) -/
  | leaderSilence
  /-- SLACK_WINDOW_END (R321) -/
  | slackWindowEnd
  /-- LAUNCH (R271) -/
  | launch (h : CtlHdr) (desc flags capBase capLen : Nat)
  /-- MEMRD (R325) -/
  | memrd (h : CtlHdr) (addr len : Nat)
  /-- MEMWR (R325) -/
  | memwr (h : CtlHdr) (addr : Nat) (data : List Byte)
  /-- EXRD (R330) -/
  | exrd (h : CtlHdr) (exno off len : Nat)
  /-- EXWR (R330) -/
  | exwr (h : CtlHdr) (exno off : Nat) (data : List Byte)
  /-- REGCTL_HALT (R325) -/
  | regctlHalt (h : CtlHdr) (region : Nat)
  /-- REGCTL_RESUME (R293) -/
  | regctlResume (h : CtlHdr) (region : Nat)
  /-- REGCTL_END (R293) -/
  | regctlEnd (h : CtlHdr) (region : Nat)
  /-- SETOBJ (R325) -/
  | setobj (h : CtlHdr) (region index : Nat) (image : List Word)
  /-- LOGRD (R295) -/
  | logrd (h : CtlHdr)
  /-- ENERGYRD (R315) -/
  | energyrd (h : CtlHdr) (region : Nat)
  /-- HKRD (R343) -/
  | hkrd (h : CtlHdr) (off : Nat)
  /-- SEMTAKE (R327) -/
  | semtake (h : CtlHdr)
  /-- SEMGIVE (R327) -/
  | semgive (h : CtlHdr)
  /-- KEYLOAD_CLEAR (R338) -/
  | keyloadClear (h : CtlHdr) (slot : Nat)
  /-- KEYLOAD_LOAD (R338) -/
  | keyloadLoad (h : CtlHdr) (slot owner : Nat) (wrapped : List Byte)
  /-- FWUPD (R325) -/
  | fwupd (h : CtlHdr) (chunk : List Byte)
  /-- RESET (R325) -/
  | reset (h : CtlHdr)
  /-- SETCHIP (R325) -/
  | setchip (h : CtlHdr) (chip : Nat)
  /-- GROUP_JOIN (R320) -/
  | groupJoin (h : CtlHdr) (group : Nat)
  /-- GROUP_LEAVE (R320) -/
  | groupLeave (h : CtlHdr) (group : Nat)
  /-- ROUTE (R333) -/
  | route (h : CtlHdr) (chip mask : Nat)
  /-- WQCFG (R325) -/
  | wqcfg (h : CtlHdr) (queue addr port : Nat)
  /-- CAPRD (R335) -/
  | caprd (h : CtlHdr) (region off len : Nat)
  /-- ATTEST (R337) -/
  | attest (h : CtlHdr) (nonce : List Byte)
  /-- CONTROL_BADCMD (R325) -/
  | controlBadcmd (h : CtlHdr) (code : Nat)
  /-- FOREIGN_FRAME (R324) -/
  | foreignFrame
  /-- CTLSEM_TIMEOUT (R327) -/
  | ctlsemTimeout
  /-- WICKET_EGRESS (R332) -/
  | wicketEgress (queue : Nat)
  /-- REPLAY_HELD_ACCESS (R336) -/
  | replayHeldAccess (id : Nat)
  /-- POWER_ON_RESET (R339) -/
  | powerOnReset
  /-- DISCOVERY_FLOOD_RECEIVE (R344) -/
  | discoveryFloodReceive (core round : Nat)
  /-- DISCOVERY_ANSWER (R344) -/
  | discoveryAnswer (core round : Nat)
  /-- DISCOVERY_TIMEOUT (R344) -/
  | discoveryTimeout
  /-- RELAY_LINK_RETRAIN (R333) -/
  | relayLinkRetrain (port : Nat)
  /-- RELAY_LINK_RETRAIN_DONE (R333) -/
  | relayLinkRetrainDone (port : Nat)
  /-- LINE_EVICTION (R308) -/
  | lineEviction (level : CacheLevel) (line : Nat)
  /-- PATROL_SCRUB (R306) -/
  | patrolScrub (place : Nat)
  /-- REPLAY_EXTERNAL_INPUT (R336) -/
  | replayExternalInput (region : Nat) (input : ExtInput)
deriving DecidableEq, Repr, Inhabited

end Sys2Proof
end

