-- ==== Sys2Proof/Machine/State.lean ====
section
/-! DEFINITION. The state of one ZK1-M module as plain data: every piece of state the chapters name.
Units are named by numbers. A core is 1,024 × die + 32 y + x (R16), which is also bits [43:32] of a partitioned address
(R23); a tile is 256 × die + tile number; a cluster is 64 × die + cluster number; a slot of the module is named by its key
64 × core + slot; a TCB by its key 512 × cluster + index, which is bits [16:0] of its reference (R34).
Tables list only what differs from the reset value of an entry (`Tab`). -/

namespace Sys2Proof.Machine

/-- Sparse data by number, keys strictly rising; an unlisted key holds its reset value. -/
abbrev Tab (α : Type) := List (Nat × α)

/-! ## Threads -/

/-- One register of a core's register file with its full/empty bit (R13, R132), and the pending mark of R164.
[DESIGN CHOICE, log 5] -/
structure Reg where
  val : Word := 0
  full : Bool := true
  pend : Bool := false
  /-- the scope at which the `SENDR` that delivered the value released (R144, R247); 0 for any other write -/
  sent : Nat := 0
deriving DecidableEq, Repr, Inhabited

/-- The states of a slot (R44, R53). -/
inductive SlotSt where
  | empty | held | ready | waiting | parked | matrixBusy | halted
deriving DecidableEq, Repr, Inhabited

/-- What a thread waits for before the instruction at its PC is issued again (R44, R56, R93, R126, R131, R133, R137,
R152, R163, R164, R193, R213, R220). -/
inductive Cond where
  | unackZero
  | unackRoom
  | vecQuiet
  | seqRoom
  | seqIdle
  | tagsAll (m : Word)
  | tagsAny (m : Word)
  | opsDone
  | ports (need : List (Nat × Nat)) (room : Option (Nat × Nat))
  | regFull (r : Nat)
  | landed (rs : List Nat)
  | walk (id : Nat)
  | mqIdle
  | mqRoom
  | engineRoom
  | claimed
  /-- the write-backs of the core's L1 are acknowledged (R238), or those of one line by cores within a scope (R143) -/
  | wbDone
  | lineDone (scope line : Nat) (inval : Bool)
  /-- the core's earlier requests to the home of a line are performed (R237) -/
  | ordered (line : Nat)
  /-- the core's earlier requests to a home are performed (R237) -/
  | homePast (unit : Nat)
  /-- a replayed home is at the turn of the thread's access (R336) -/
  | replayTurn (home : Nat)
  /-- the request that fills the instruction cache has been answered (R116) -/
  | fetched (id : Nat)
  | landnEmpty (n : Nat)
  /-- no raise of the core's `LANDN` is pending (R123) -/
  | landnFree
  | arraysFree (js : List Nat)
  /-- no element of a Vault operation within a scope is translated and not performed (R229) -/
  | elemsDone (scope : Nat)
  /-- a `VCLAIM` of a number of lanes, with its register, waits for the owner's earlier vector instructions (R167) -/
  | claimQuiet (q g : Nat)
  /-- what the instruction's own reads and writes found away has come: translations, lines at their homes, packets over bridges
  (R303, R259, R257) -/
  | asked (walks lines visits : List Nat)
deriving DecidableEq, Repr, Inhabited

/-- Why a slot that is not ready waits, with what the rest of its instruction needs. -/
inductive Wait where
  | none
  /-- the instruction at the PC is issued again once the condition holds -/
  | reissue (c : Cond)
  /-- the reply of a request is awaited (R131) -/
  | reply (id : Nat)
  /-- a divide result is written at a cycle (R101): destination, value, promised queue place -/
  | divide (d : Nat) (val : Word) (due : Nat) (place : Option Nat)
  /-- `PARK` until a cycle (R126) -/
  | park (due : Nat)
  /-- a NACKed request is sent again at a cycle (R139) -/
  | retry (id : Nat) (due : Nat)
  /-- the request is deferred at its home (R138) -/
  | deferred (id : Nat)
  /-- a spilled record is being refilled for a `DONE` (R46) -/
  | refill
  /-- the accumulator access of the core is not yet attempted (R200) -/
  | acc
  /-- `SVC #0x003` waits for its landing slots (R123) -/
  | svcLandn (n : Nat)
  /-- halted with a fault record: its queue number once written (R289) -/
  | record (n : Option Nat)
  /-- halted by the halt of its region (R33) -/
  | regionHalt
  /-- halted by pre-emption (R296); `rcd` with a record that was delivered or stays pending -/
  | preempt (rcd : Bool)
  /-- written in its slot by a restore that is not complete (R299) -/
  | restore
deriving DecidableEq, Repr, Inhabited

/-- The failed mark of a tag (R210, R214): the tag, the cause and address of the fault, and the operation's `sub`. -/
structure FailMark where
  tag : Nat
  cause : EngCause
  addr : Word
  sub : Nat
  /-- the level at which a walk failed (R286) -/
  level : Nat := 0
  /-- the step at which the operation failed (R294) -/
  age : Nat := 0
deriving DecidableEq, Repr, Inhabited

/-- A fault of work issued earlier, taken at the thread's next boundary (R294). -/
structure EarlierFault where
  cause : Cause
  xpc : Word
  xaddr : Word
  xprog : Word
  source : Nat
  level : Nat
  /-- the step at which it occurred (R294) -/
  age : Nat := 0
deriving DecidableEq, Repr, Inhabited

/-- One slot of a core: its thread's context (R41, R43, R44, R47, R48, R55, R92, R117, R118, R161, R210, R285).
[DESIGN CHOICE, log 4] -/
structure Slot where
  st : SlotSt := .empty
  wait : Wait := .none
  /-- while halted by its region's halt or by pre-emption: the state and the wait it goes back to (R293, R299) -/
  before : SlotSt := .ready
  bwait : Wait := .none
  pc : Word := 0
  /-- p0 to p14; p15 is constant true (R61) -/
  pw : BitVec 15 := 0
  region : Nat := 0
  /-- the window (R40): class and first register -/
  wclass : Nat := 0
  base : Nat := 0
  task : TcbRef := 0
  slink : TcbRef := 0
  /-- the slot number whose spill ring the thread keeps (R46), the ring's first entry, and for each spilled record, oldest
  first, when it was pushed; the claim mark of a steal on the oldest (R49) -/
  ring : Nat := 0
  ringHead : Nat := 0
  ringAges : List Nat := []
  ringClaimed : Bool := false
  /-- the tile descriptor of a pending publication (R47, R150) -/
  pub : Option Word := none
  portmap : Word := 0
  retry : BitVec 8 := 16
  parkint : BitVec 17 := 1024
  /-- rm in [9:8], the sticky flags in [5:0] (R92) -/
  fprm : BitVec 2 := 0
  fpflags : BitVec 6 := 0
  rndseed : Word := 0
  vl : Nat := 0
  shr : Bool := false
  /-- the lanes requested by the last `VCLAIM` (R167) -/
  vreq : Nat := 0
  tags : Word := 0
  inflight : Word := 0
  /-- the set tags whose operations wrote global memory (R245) -/
  gtags : Word := 0
  failed : List FailMark := []
  unack : Nat := 0
  /-- the earliest failing remote store (R28): its number, address and cause, and the step at which its answer came -/
  failStore : Option (Nat × Word × Cause) := none
  failAge : Nat := 0
  scopemiss : Nat := 0
  amig : Bool := false
  xpc : Word := 0
  xcause : Word := 0
  xaddr : Word := 0
  xprog : Word := 0
  xinfo : Word := 0
  /-- where a halted thread resumes (R288) -/
  resume : Word := 0
  opreq : BitVec 5 := 30
  /-- refusals met by the pending request (R139) -/
  nacks : Nat := 0
  earlier : List EarlierFault := []
  /-- the thread runs its region's handler task (R290) -/
  isHandler : Bool := false
  /-- `YIELD` has given up borrowing until the slot's own position (R125) -/
  noBorrow : Bool := false
  /-- the slot may next issue at this cycle: last(s) + 8 of R45 and R58; it belongs to the slot -/
  nextOk : Nat := 0
  /-- the cycle since which the thread is parked (R280) -/
  parkedSince : Nat := 0
  stale : Bool := false
  /-- the strand came back from a bounce: the access at its PC is performed remotely (R54) -/
  bounced : Bool := false
  /-- an `LDM` or `STM` is under way at element `XPROG` (R136): its middle is no instruction boundary -/
  mid : Bool := false
  /-- the L1 lines that the release under way writes back have requests below this number (R238) -/
  relMark : Option Nat := none
  /-- a `FENCE`, `FLUSH` or `INVAL` waits, which a halt lets complete (R158) -/
  completes : Bool := false
deriving DecidableEq, Repr, Inhabited

/-- A continuation record (R46). -/
structure Rec where
  slot : Nat := 0
  tiles : Nat := 0
  tvalid : Nat := 0
  pub : Bool := false
  wclass : Nat := 0
  region : Nat := 0
  task : TcbRef := 0
  join : TcbRef := 0
  fp : Word := 0
  pc : Word := 0
deriving DecidableEq, Repr, Inhabited

/-- An on-chip deque entry (R46, R49): the owner slot, the record, when it was pushed, and the claim mark of a steal. -/
structure DqEnt where
  owner : Nat
  rcd : Rec
  age : Nat := 0
  claimed : Bool := false
deriving DecidableEq, Repr, Inhabited

/-- A place of a hardware queue (R56): a word, or a promise to an earlier instruction. -/
inductive QPlace where
  | word (v : Word)
  | promised (ticket : Nat)
deriving DecidableEq, Repr, Inhabited

/-! ## Vector and matrix work -/

/-- A fault of an element that stops the sequencer (R166): iteration and lane, what a trap reports, and whether the trap
of the owner is already on its way. -/
structure VStop where
  iter : Nat
  lane : Nat
  cause : Cause
  addr : Word
  level : Nat := 0
  told : Bool := false
  /-- the step at which it occurred (R294) -/
  age : Nat := 0
deriving DecidableEq, Repr, Inhabited

/-- A captured vector instruction in the sequencer (R163, R169, R182): the instruction with the operands read at issue
and its progress. -/
structure SeqEnt where
  id : Nat
  ins : Instr
  slot : Nat
  pc : Word
  mask : Word
  vl : Nat
  rm : Nat
  x : Word := 0
  y : Word := 0
  /-- the next lane of a memory entry in its present iteration, and whether all its elements are sent -/
  lane : Nat := 0
  sent : Bool := false
  /-- elements (iteration, lane) sent and not yet answered, and the lowest that faulted -/
  pending : List (Nat × Nat) := []
  stop : Option VStop := none
deriving DecidableEq, Repr, Inhabited

/-- A repeat frame (R169): body length, stagger, count, the number of entries captured, the iteration and entry reached,
and the base registers advanced at capture with their former values. -/
structure Frame where
  slot : Nat
  pc : Word
  len : Nat
  stagger : Nat
  count : Nat
  captured : Nat := 0
  iter : Nat := 0
  ent : Nat := 0
  bases : List (Nat × Reg) := []
deriving DecidableEq, Repr, Inhabited

/-- A pending general-register write of the sequencer (R164). -/
structure VPend where
  slot : Nat
  reg : Nat
  val : Word
deriving DecidableEq, Repr, Inhabited

/-- The queued operations of the matrix unit (R193) with the operands captured at issue. -/
inductive MatKind where
  | ldw (ty : Nat) (ent : BitVec 512) (origin : Word)
  | swpw
  | mscale (ty : Nat) (atab wtab : Word)
  | mma (ty : Nat) (z : Bool) (ent : BitVec 512) (origin shape : Word) (east : Bool) (arrays : List Nat)
  | mchain (ty : Nat) (z : Bool) (shape : Word) (east : Bool) (arrays : List Nat)
deriving DecidableEq, Repr, Inhabited

/-- An entry of a core's dispatch queue (R185, R193): started, when its duration ends, rows done before a halt (R207). -/
structure MatOp where
  kind : MatKind
  slot : Nat
  /-- its number: sequencer entries and requests of a lower one were issued before it (R206) -/
  mark : Nat := 0
  started : Bool := false
  due : Nat := 0
  rowsDone : Nat := 0
deriving DecidableEq, Repr, Inhabited

/-- A scale record (R185, R197). -/
structure ScaleRec where
  enabled : Bool := false
  ty : Nat := 0
  atab : Word := 0
  wtab : Word := 0
deriving DecidableEq, Repr, Inhabited

/-- The stream of a chain buffer (R198): elements row by row as bit patterns, and the A scale bytes. -/
structure Stream where
  region : Nat
  sender : Nat
  ty : Nat
  m : Nat
  k : Nat
  elems : List Nat
  scales : Option (List Nat)
  complete : Bool
  /-- the operation that sends it, by its `mark` -/
  op : Nat := 0
deriving DecidableEq, Repr, Inhabited

/-- The accumulator accesses (R200) with the operands captured at issue. -/
inductive AccKind where
  | mova (v : Nat) (control : Word)
  | msta (ent : BitVec 512) (origin control : Word)
  | mlda (ent : BitVec 512) (origin control : Word)
  | mzero
  | msel (addr control : Word)
  | mstat (a : Nat) (clear : Bool)
deriving DecidableEq, Repr, Inhabited

/-- An accumulator access or `MSTAT` not yet attempted (R200, R204). -/
structure AccWait where
  kind : AccKind
  slot : Nat
  arrays : List Nat
deriving DecidableEq, Repr, Inhabited

/-- A migration message (R53). `access` holds the access of an auto-migration, which a bounce performs remotely. -/
structure MigMsg where
  id : Nat
  src : Nat
  target : Nat
  regs : List (Word × Bool)
  pc : Word
  pw : BitVec 15
  region : Nat
  fpstat : BitVec 10
  amig : Bool
  task : TcbRef
  slink : TcbRef
  hop : Bool
  /-- where the migrating instruction stands, and the address it names -/
  home : Word
  addr : Word
  /-- what the `SENDR`s that filled its registers released, register by register (R144, R247). [DEDUCED, log 110] -/
  sents : List Nat := []
  /-- the strand has landed, in which slot, or bounces -/
  landed : Bool := false
  at_ : Nat := 0
  bounce : Bool := false
  /-- a pre-emption awaits the strand where it lands or bounces to (R54, R296) -/
  preempt : Bool := false
deriving DecidableEq, Repr, Inhabited

/-- The phases of a steal at the thief (R49, R50). -/
inductive StealPh where
  | idle
  | resting (until_ : Nat)
  /-- a sweep in capture mode that has probed some cores, with those it has still to probe (R335) -/
  | probing (left : List Nat)
  /-- a record of the slot `victim` is claimed and the hub of its join TCB has not answered; `slot` is kept for it here -/
  | claimed (victim : Nat) (rcd : Rec) (slot : Nat)
  /-- the record has left the victim; its tiles travel -/
  | travelling (victim : Nat) (rcd : Rec) (slink : TcbRef) (slot : Nat)
deriving DecidableEq, Repr, Inhabited

/-- One core (R13, R40, R50, R54, R117, R120, R145, R159, R163, R185, R188). [DESIGN CHOICE, log 6; DESIGN CHOICE, log 7] -/
structure CoreRec where
  share : BitVec 2 := 1
  /-- the other members of `VGROUP`; the own bit reads 1 (R120) -/
  vgroup : BitVec 16 := 0
  landn : Nat := 0
  /-- a raise of `LANDN` that is not complete (R120) -/
  landnTo : Option Nat := none
  /-- the slot key of the thread that asked for it -/
  landnBy : Nat := 0
  stopIssue : Bool := false
  /-- bit 1 of the core control word as it was last written (R340); none while the core is as the boot leaves it -/
  released : Option Bool := none
  /-- positions shuttered by the power controller (R45, R312) -/
  shut : BitVec 64 := 0
  /-- on-chip deque entries, oldest first, and the pushes so far (R46) -/
  deque : List DqEnt := []
  pushes : Nat := 0
  landq : List MigMsg := []
  bounces : Nat := 0
  steal : StealPh := .idle
  /-- the last request to the hub took nothing (R50) -/
  refused : Bool := false
  vowner : Option Nat := none
  vlast : Option Nat := none
  seq : List SeqEnt := []
  frame : Option Frame := none
  vpend : List VPend := []
  mclaim : Option Nat := none
  mlast : Option Nat := none
  /-- input types of the stationary and the shadow plane (R185); none is type none -/
  stype : Option Nat := none
  htype : Option Nat := none
  scale : ScaleRec := {}
  /-- the sticky bits of the matrix status word (R205) at their positions -/
  mflags : BitVec 13 := 0
  mq : List MatOp := []
  acc : Option AccWait := none
deriving DecidableEq, Repr, Inhabited

/-- One tile (R13, R160, R186, R194, R198, R220, R310, R311). -/
structure TileRec where
  /-- holder of base groups 0 to 3, then of reserve groups 0 to 3 (R160) -/
  groups : List (Option Nat) := List.replicate 8 none
  /-- owner of each accumulator array (R186) -/
  accOwner : List (Option Nat) := [some 0, some 0, some 1, some 1, some 2, some 2, some 3, some 3]
  /-- the core whose operation occupies the array, and the core it last served (R194); before it has served any, core 3 counts as that.
  [DESIGN CHOICE, log 113] -/
  arrayBusy : Option Nat := none
  lastServed : Nat := 3
  chain : Option Stream := none
  /-- the operating level (R310, R322), whether the tile has held no thread since reset, at whose first multiple of 64 cycles the level
  then falls, the level of a change under way, and whether the clock stands for it (R311) -/
  level : Nat := 30
  fresh : Bool := true
  target : Option Nat := none
  stopped : Bool := false
  /-- the number of the cycle under way (R121), when it begins (as `State.now`), and the cores that have had it -/
  cycle : Nat := 0
  edge : Nat := 0
  turned : List Nat := []
deriving DecidableEq, Repr, Inhabited

/-! ## Tasks, regions, hubs -/

/-- A TCB (R35, R36): `state` is its code 0 to 4. `pin` holds the slot key of a pinned entry that has not started
(R275); `handlerOf` marks a handler task (R290). -/
structure Tcb where
  task : TcbRef := 0
  slink : TcbRef := 0
  ovf : Word := 0
  succ2 : TcbRef := 0
  succ1 : TcbRef := 0
  succ0 : TcbRef := 0
  fp : Word := 0
  pc : Word := 0
  count : BitVec 32 := 0
  region : Nat := 0
  rscope : Nat := 0
  wclass : Nat := 0
  prio : Nat := 0
  state : Nat := 0
  pin : Option Nat := none
  handlerOf : Bool := false
  /-- join counters whose task has retired become FREE when the count reaches 0 (R284) -/
  orphan : Bool := false
deriving DecidableEq, Repr, Inhabited

/-- An entry of a pinned list (R275, R279): a pinned task, or the resume entry of a save image. -/
structure PinEnt where
  core : Nat
  prio : Nat
  tcb : Option Nat
  image : Option Nat
deriving DecidableEq, Repr, Inhabited

/-- A cluster hub (R275, R276, R290). Before it has served a core, core 15 counts as served last. [DESIGN CHOICE, log 113] -/
structure HubRec where
  /-- READY task TCBs (prio, key) in order of arrival -/
  ready : List (Nat × Nat) := []
  pinned : List PinEnt := []
  lastServed : Nat := 15
  /-- regions whose handler start is owed -/
  owed : List Nat := []
deriving DecidableEq, Repr, Inhabited

/-- A live region with its effective values (R30, R31, R271, R273, R290, R314). -/
structure Region where
  coreset : BitVec 256
  evq : Word
  fltq : Word
  dqbase : Word
  scrbase : Nat
  acct : BitVec 32
  energy : Nat
  dqlog : Nat
  strq : Nat
  scrbytes : Nat
  minslots : Nat
  maxslots : Nat
  handler : TcbRef
  objcount : Nat
  objbase : Word
  ptroot : Nat
  /-- address of the own RCB, and the parent's id; a root has none -/
  rcb : Word
  parent : Option Nat
  prio : Nat
  fdom : Bool
  depth : Nat
  age : Nat
  halted : Bool := false
  held : Nat := 0
  handlerFlag : Bool := false
  /-- threads whose record waits for a consumed place in the fault queue, oldest first (R289): slot keys, or 2^20 + image -/
  recq : List Nat := []
  /-- the energy counter in nJ (R314) -/
  spent : Nat := 0
  collective : Bool := false
  capture : Bool := false
  replay : Bool := false
deriving DecidableEq, Repr, Inhabited

/-- The vector part of a save image (R297): registers at 64 v + lane, sequencer entries, frame, pending writes, lanes. -/
structure VSave where
  regs : List Lane
  seq : List SeqEnt
  frame : Option Frame
  vpend : List VPend
  lanes : Nat
deriving DecidableEq, Repr, Inhabited

/-- The matrix part of a save image (R297, R207). -/
structure MSave where
  splane : List Nat
  hplane : List Nat
  stype : Option Nat
  htype : Option Nat
  scale : ScaleRec
  mflags : BitVec 13
  mq : List MatOp
  /-- accumulator arrays of the core: number of the array and its 1,024 lanes -/
  accs : List (Nat × List Acc)
deriving DecidableEq, Repr, Inhabited

/-- The image of a saved thread (R297). -/
structure Image where
  id : Nat
  core : Nat
  /-- the slot key it was saved from -/
  origin : Nat
  slot : Slot
  regs : List Reg
  queues : List (Nat × List QPlace) := []
  deque : List DqEnt := []
  /-- the slot that its restore has been given, and whether the restore has written the registers, queues, deque entries and slot
  registers there (R299 step 2) -/
  into : Option Nat := none
  written : Bool := false
  vector : Option VSave := none
  matrix : Option MSave := none
deriving DecidableEq, Repr, Inhabited

/-- A line of a cache (R143, R234, R253, R305, R307): data, full/empty bits, dirty bytes, memory key, uncorrectable words. -/
structure Line where
  data : BitVec 1024 := 0
  fe : BitVec 16 := 0
  dirty : BitVec 128 := 0
  key : Nat := 0
  bad : BitVec 16 := 0
  /-- sectors stored with a check code that no data satisfies (R308) -/
  poison : BitVec 2 := 0
  /-- in an L1: the step at which the home gave the data -/
  since : Nat := 0
deriving DecidableEq, Repr, Inhabited

/-! ## Requests, engines and networks -/

/-- Where an answer goes: nowhere but `UNACK` (a remote store), a register of the source thread (with the place
promised in a hardware queue), a register range element, an element of a vector entry, a released hook of a walker. -/
inductive Dest where
  | ack
  | reg (r : Nat) (ext : Nat) (place : Option Nat)
  | elem (r : Nat)
  | discard
  | lane (core ent iter lane : Nat)
  /-- the L1 alone (`PREF`), the instruction cache of the source's core (R116), the end of a write-back -/
  | pref
  | ifetch
  | wrote
deriving DecidableEq, Repr, Inhabited

/-- A request in flight, deferred, queued or answered (R131, R138, R234, R254). -/
structure Req where
  id : Nat
  /-- the issuing thread's slot key, or none for another module's request, with its `REGION`-layout name -/
  src : Nat
  chip : Nat := 0
  who : Word := 0
  region : Nat
  op : HomeOp
  /-- the address presented and the place it names (none: another chip) -/
  addr : Word
  place : Nat
  v1 : Word := 0
  v2 : Word := 0
  scope : Nat := 0
  acq : Bool := false
  rel : Bool := false
  dest : Dest := .ack
  source : Nat := 2
  /-- memory key index of the leaf used (R304) -/
  key : Nat := 0
  /-- transom bridge directions still to cross (R17) -/
  hops : List Nat := []
  /-- the helper slice a redirect sends a read to (R262) -/
  via : Option Nat := none
  /-- the request is to be returned at the edge of its scope (R243) -/
  miss : Bool := false
  /-- the request waits in its NI for redirected reads (R264) -/
  drain : Bool := false
  /-- the request has taken the line lock and waits for a fill or a recall (R259, R263) -/
  locked : Bool := false
  /-- length of the instruction word, by which PC advances -/
  len : Nat := 4
  /-- the number of another module's request at its source (R254) -/
  rid : Nat := 0
  /-- the tregion carried by the route word of its frame (R330) -/
  tregion : Nat := 0
  /-- the target chip of a request that leaves the module -/
  away : Option Nat := none
  /-- the line of a fill has been purged meanwhile: the answer is not kept in the L1 (R235, R239) -/
  noFill : Bool := false
  /-- the line that a write-back carries (R234) -/
  line : Line := {}
  /-- the words that the instruction dequeued when the request was sent, by queue (R56, R33) -/
  took : List (Nat × Word) := []
  /-- the request followed a redirect (R262, R264) -/
  redirected : Bool := false
deriving DecidableEq, Repr, Inhabited

/-- An answer on its way back to its source (R131). -/
structure Rep where
  req : Req
  ans : HomeAns
  hops : List Nat := []
  /-- the step at which the home answered -/
  since : Nat := 0
deriving DecidableEq, Repr, Inhabited

/-- A split record of an omega switch (R256): the combined request and its two originals. -/
structure Split where
  id : Nat
  first : Req
  second : Req
deriving DecidableEq, Repr, Inhabited

/-- A register delivery of `SENDR` on its way (R144). -/
structure Sendr where
  id : Nat
  src : Nat
  target : Nat
  reg : Nat
  val : Word
  scope : Nat
  addr : Word
  /-- its place among what its core has sent, each time it is sent (R257) -/
  at_ : Nat := 0
deriving DecidableEq, Repr, Inhabited

/-- The asynchronous operations of major 0x39 (R218). -/
inductive EngKind where
  | fetch | push | pushX | pushM | storeB | gather | scatter | fabred | donate
deriving DecidableEq, Repr, Inhabited

/-- A failure in an engine's operation: the member, element or rank it concerns, its cause, the address it reports, and the
level of a failed walk (R222, R226, R231). -/
structure EngFail where
  idx : Nat
  cause : EngCause
  addr : Word
  level : Nat := 0
deriving DecidableEq, Repr, Inhabited

/-- One move of an operation in step 1 of R212, or a part of its later steps: a word of a member list, a word of the source, a unit to a
member, a unit to another module, an index, an element taken up, a piece of one that is read, a word of a list of ranks, a word of a
rank, the status word of a donation, the counter's add. -/
inductive EngMove where
  | member
  | src
  | unit (m : Nat)
  | away
  | index
  | elem (j : Nat)
  | piece (j p : Nat)
  | rank
  | ask (k w : Nat)
  | status
  | count
deriving DecidableEq, Repr, Inhabited

/-- A move whose packets cross transom bridges (R257): the dies they go to, those whose packet, or on the way back whose answer, has
not arrived. -/
structure EngTrip where
  id : Nat
  move : EngMove
  dies : List Nat
  left : List Nat
  back : Bool := false
deriving DecidableEq, Repr, Inhabited

/-- An element of a `GATHER` that is translated and not over (R226, R229): the place and the key of each of its pieces. -/
structure EngElem where
  idx : Nat
  places : List (Nat × Nat)
deriving DecidableEq, Repr, Inhabited

/-- An accepted or spilled operation of an engine with its captured operands and its progress (R212, R220 to R231, R157). -/
structure EngOp where
  id : Nat
  kind : EngKind
  slot : Nat
  /-- the thread has left its slot: the save image that holds its tags -/
  image : Option Nat := none
  tile : Nat
  region : Nat
  a : Word
  b : Word
  c : Word
  ent : BitVec 512
  tag : Nat
  scope : Nat
  t : Bool := false
  add : Bool := false
  cnt : Bool := false
  /-- with `.cnt`: the counter's address, but for `PUSHM` -/
  counter : Word := 0
  /-- spilled, in the entry of this index of its section of the stride ring (R220) -/
  spilled : Option Nat := none
  /-- destinations of a copy, or member addresses of a `FABRED`, as far as the list is read -/
  members : List Word := []
  /-- a word of the member list could not be read (R223) -/
  broken : Bool := false
  /-- words of the source, or indices, read so far; the word at which the source could not be read -/
  src : List Word := []
  srcBad : Option EngFail := none
  /-- words delivered to each member of a copy; members that have acknowledged -/
  moved : List Nat := []
  acks : List Nat := []
  /-- elements under way; pieces of them performed, as 1,024 × element + piece; elements that are over, and 0 once the status word of a
  donation is written -/
  begun : List EngElem := []
  pieces : List Nat := []
  ended : List Nat := []
  /-- moves on their way over bridges -/
  trips : List EngTrip := []
  /-- of a `PUSHM`: the units sent down the tree to a die, by their first word, and whether they have arrived there (R346) -/
  cast : List (Nat × Nat × Bool) := []
  /-- words of a `FABRED` read, by rank and number -/
  vals : List (Nat × Nat × Word) := []
  absent : List Nat := []
  /-- packets to other modules not answered: number, rank, word; `TIME` when the last was sent -/
  asked : List (Nat × Nat × Nat) := []
  sentAt : Nat := 0
  fails : List EngFail := []
  /-- the counter add met an error response (R227) -/
  cntFail : Bool := false
  /-- the answer of a donation; the image sent, as words -/
  status : Option Nat := none
  image8 : List Word := []
  /-- the narrowest scope that contains every home written (R20, R243) -/
  wide : Nat := 1
  /-- it wrote global memory (R245) -/
  wrote : Bool := false
  /-- the modules of Relay's membership table when it issued (R231) -/
  present : List Nat := []
  /-- steps 2 and 3 of R212 are made; the write-backs of the release in step 4, below a number, are awaited; the add is made or sent -/
  closing : Bool := false
  relMark : Option Nat := none
  counted : Bool := false
deriving DecidableEq, Repr, Inhabited

/-- A donation of another module that waits for the answer of the region manager (R283). -/
structure Donation where
  chip : Nat
  id : Nat
  tregion : Nat
  tobj : Nat
  image : List Word
deriving DecidableEq, Repr, Inhabited

/-- A packet between dies (R254): a request or a reply by its id, or another message, by the id of its parcel. -/
inductive PktRef where
  | req (id : Nat) | rep (id : Nat) | parcel (id : Nat)
deriving DecidableEq, Repr, Inhabited

/-- A message that crosses transom bridges before its event happens (R257): a register delivery, a migration, a steal, a message
between hubs, a fill from a stack of another die, an engine's access. `cls` is its virtual channel (R254). -/
structure Parcel where
  id : Nat
  ev : Ev
  hops : List Nat
  cls : Nat := 0
  bytes : Nat := 16
deriving DecidableEq, Repr, Inhabited

/-- A packet offered to a bridge: its virtual channel (0 requests, 1 replies, 2 push data) and its length (R254, R265). -/
structure Packet where
  ref : PktRef
  cls : Nat
  bytes : Nat
deriving DecidableEq, Repr, Inhabited

/-- What a flit of a bridge holds of a packet (R265): its first byte, its last byte, or neither. -/
structure FlitPart where
  ref : PktRef
  first : Bool
  last : Bool
deriving DecidableEq, Repr, Inhabited

/-- A flit with its sequence number (R265). -/
structure Flit where
  seq : Nat
  parts : List FlitPart
deriving DecidableEq, Repr, Inhabited

/-- The states of a link (R266, R333). -/
inductive LinkSt where
  | up | retraining (since : Nat) | failed
deriving DecidableEq, Repr, Inhabited

/-- One direction of a transom bridge (R265 to R268). The sender: the next number, packets offered, the packet of which a part
is sent with the bytes left, flits on the wire and unacknowledged. The receiver: the last number accepted, the last it may
acknowledge, and the packets delivered of flits after that one. -/
structure Bridge where
  next : Nat := 0
  offered : List Packet := []
  part : Option (Packet × Nat) := none
  wire : List Flit := []
  replay : List Flit := []
  accepted : Nat := 4095
  ackable : Nat := 4095
  delivered : List PktRef := []
  st : LinkSt := .up
deriving DecidableEq, Repr, Inhabited

/-- One Relay port (R333): frames sent and unacknowledged, frames that wait for the link to recover, the last frame number
accepted, the state. [DEDUCED, log 33] -/
structure Port where
  next : Nat := 0
  replay : List (Nat × List RelayPkt) := []
  held : List (Nat × List RelayPkt) := []
  accepted : Nat := 4095
  st : LinkSt := .up
deriving DecidableEq, Repr, Inhabited

/-- A frame that leaves the module: a Relay frame by its port, a Wicket frame, a control reply, firmware answers. -/
inductive OutFrame where
  | relay (port seq : Nat) (pkts : List RelayPkt)
  /-- a UDP datagram of the egress engine: the IPv6 address and port it comes from, those it goes to, and its bytes (R347) -/
  | udp (source dest : Nat × Nat) (payload : List Byte)
  | reply (ep seq status : Nat) (body : List Word)
  /-- the last frame number that a port's receiver has accepted, acknowledged as it comes and told again after a retrain (R333, R265, R266) -/
  | accepted (port seq : Nat)
deriving DecidableEq, Repr, Inhabited

/-! ## Caches and translation -/

/-- A candidate for hot-line replication (R261). -/
structure Cand where
  bank : Nat
  line : Nat
  reads : Nat
  tiles : List Nat
  /-- the key of the reads -/
  key : Nat := 0
  unfit : Bool := false
deriving DecidableEq, Repr, Inhabited

/-- A hot line (R262, R263): helpers that hold replicas, NIs with redirects, withdrawals not acknowledged. -/
structure Hot where
  line : Nat
  key : Nat := 0
  tiles : List Nat
  /-- the line has been copied to the helpers -/
  copied : Bool := false
  installed : List Nat := []
  acked : Bool := false
  recalling : Option (List Holder) := none
deriving DecidableEq, Repr, Inhabited

/-- A redirect entry of a tile NI (R262), oldest first in its table. -/
structure Redirect where
  tile : Nat
  line : Nat
  slice : Nat
deriving DecidableEq, Repr, Inhabited

/-- The caches (R234, R253, R259 to R264). -/
structure CacheSys where
  /-- L1 lines by core × 2^32 + line; `l2`, `msc` by line; instruction caches as `l1`, with the key of each line (R305) -/
  l1 : Tab Line := []
  l2 : Tab Line := []
  msc : Tab Line := []
  ic : Tab Line := []
  /-- requests that hold a line lock, and conflict-queue entries (line, request) in order of arrival -/
  locks : List (Nat × Nat) := []
  conflict : List (Nat × Nat) := []
  cands : List Cand := []
  hot : List Hot := []
  /-- replicas by slice × 2^32 + line -/
  replicas : Tab Line := []
  redirects : List Redirect := []
deriving DecidableEq, Repr, Inhabited

/-- A TLB entry (R303): `holder` is the core, or 4,096 + the tile; it is tagged with region and page size (level). -/
structure TlbEnt where
  holder : Nat
  region : Nat
  level : Nat
  page : Nat
  pte : Word
deriving DecidableEq, Repr, Inhabited

/-- The rights an access needs (R130, R301). -/
inductive Acc3 where
  | r | w | rw | x
deriving DecidableEq, Repr, Inhabited

/-- A pending translation of a tile (R303): the page walked, and whether a walker has taken it. -/
structure Walk where
  id : Nat
  tile : Nat
  core : Nat
  slot : Nat
  region : Nat
  va : Word
  need : Acc3
  source : Nat
  /-- `XPROG` of a trap by the walk: the element of an `LDM` or `STM` -/
  xprog : Word := 0
  /-- the address presented, where it is not the one walked: a window address (R330) -/
  shown : Option Word := none
  begun : Bool := false
  /-- a `TLBINV` dropped the entry while the walk ran (R128) -/
  stale : Bool := false
  /-- a sequencer, the stride engine or the Vault waits for it; the fault that it takes up when the walk has failed -/
  unit : Bool := false
  failed : Option (Cause × Nat) := none
deriving DecidableEq, Repr, Inhabited

/-! ## Power, Pacer, host -/

/-- Pacer state of the module (R316 to R323). -/
structure Pacer where
  group : Option Nat := none
  epoch : Nat := 0
  leader : Nat := 0
  members : List Nat := []
  /-- the group ceiling C, or the module's own limit outside a group -/
  ceiling : Nat := 30
  pend : Option (Nat × Nat) := none
  lastChange : Nat := 0
  hard : Bool := false
  /-- the own ceiling after a hard drop, until E arrives (R318) -/
  dropped : Option Nat := none
  /-- the time at which that ceiling ends at the earliest (R318) -/
  dropEnd : Nat := 0
  /-- the pair of pending ceiling and time last adopted (R316) -/
  adopted : Option (Nat × Nat) := none
  /-- the value announced and not yet answered (R317) -/
  announced : Option Nat := none
  limit : Nat := 30
  slack : Nat := 30
  proposals : Tab Nat := []
  lastHeard : Tab Nat := []
  /-- how far ahead each member's `TIME` was, in ns, at its last heartbeat (R334) -/
  offsets : Tab Int := []
  hardDrops : Nat := 0
  late : Nat := 0
  /-- members joining or leaving at the next epoch, kept by the leader -/
  joining : List Nat := []
  leaving : List Nat := []
  /-- the pending ceiling comes from a hard drop (R318) -/
  pendHard : Bool := false
  /-- bite times of the announcements that stand, kept by the leader (R317) -/
  bites : Tab Nat := []
  /-- the group whose leader has been asked to take this module in (R320) -/
  applied : Option Nat := none
  /-- cycles of the window in which a core held a thread of a collective region, and those without an issue (R321) -/
  winCycles : Nat := 0
  winIdle : Nat := 0
  /-- words 0 to 5 of the status page as last updated, and its members (R323) -/
  page : List Word := []
  pageMembers : List Nat := []
deriving DecidableEq, Repr, Inhabited

/-- A memory key slot (R304, R338): loaded with a key pair, named by its load, and its owning root region. -/
structure KeySlot where
  pair : Nat
  owner : Nat
deriving DecidableEq, Repr, Inhabited

/-- An entry of the device error log (R295). -/
structure LogEnt where
  source : Nat
  kind : Nat
  requester : Word
  address : Word
  time : Nat
deriving DecidableEq, Repr, Inhabited

/-- A record of a capture buffer (R335). -/
inductive CapRec where
  | access (home core slot count : Nat)
  /-- a value read by the thread of a core's slot -/
  | read (core slot : Nat) (v : Word)
  | input (i : ExtInput)
deriving DecidableEq, Repr, Inhabited

/-- A capture or replay of a region (R335, R336): its buffer and what it holds, or what is still to be replayed. -/
structure Capture where
  region : Nat
  base : Nat
  len : Nat
  recs : List CapRec := []
  used : Nat := 0
  full : Bool := false
  replay : Bool := false
  /-- the region has not ended -/
  live : Bool := true
  /-- the chip id and the retired positions at the capture (R336) -/
  chip : Nat := 0
  map : List Nat := []
deriving DecidableEq, Repr, Inhabited

/-- A control endpoint (R324): the last performed sequence number and the stored reply (status, body). -/
structure Endpoint where
  last : Nat := 0
  reply : Option (Nat × List Word) := none
deriving DecidableEq, Repr, Inhabited

/-- The I/O complex and the security and management controller (R324 to R347). -/
structure HostIf where
  epA : Endpoint := {}
  epB : Endpoint := {}
  /-- the holder of `CTLSEM`, and `TIME` of its last frame (R327) -/
  sem : Option Nat := none
  semSeen : Nat := 0
  hkdrop : Nat := 0
  modid : Nat := 0
  chipSet : Bool := false
  stage : Nat := 0
  /-- positions the in-field test has retired, in ascending order, and whether the live map is written (R18, R343) -/
  retired : List Nat := []
  mapped : Bool := false
  /-- the live cores in the order of their logical numbers (R339) -/
  logical : List Nat := []
  /-- discovery (R344): the round, positions that received it, the coordinates of those whose answers have arrived, those among them that
  answered with an error response, its start -/
  round : Nat := 0
  flooded : List Nat := []
  answered : List Nat := []
  refusals : List Nat := []
  discoveryBegan : Nat := 0
  ecccnt : Nat := 0
  capOvf : Bool := false
  keys : Tab KeySlot := []
  keyLoads : Nat := 0
  fwStaged : List Byte := []
  /-- a firmware image put into the store since the module was first powered (R337, R339) -/
  firmware : Option (List Byte) := none
  routes : Tab Nat := []
  wqcfg : Tab (Nat × Nat) := []
  /-- the egress count e of each Wicket queue (R332) -/
  egress : Tab Nat := []
  /-- export numbers registered: region and object index (R329) -/
  exports : Tab (Nat × Nat) := []
  /-- live Wicket bindings by 2 × queue + role: region, object index, partner (R331) -/
  bindings : Tab (Nat × Nat × Nat) := []
  /-- the creation counter of regions (R271) -/
  created : Nat := 0
  log : List LogEnt := []
  logCount : Nat := 0
  captures : List Capture := []
  /-- charges for other modules' regions: chip × 2^16 + region, in nJ (R314) -/
  bills : Tab Nat := []
  /-- the energy counter of region 0 in nJ (R315) -/
  spent0 : Nat := 0
  /-- when another module last answered for a region, which its charges may follow by 100 µs (R314, R315) -/
  farWork : Tab Nat := []
  lastBill : Nat := 0
deriving DecidableEq, Repr, Inhabited

/-- Who makes a step: the thread of a slot, or an event of the agenda. -/
inductive Worker where
  | thread (k : Nat)
  | event (e : Ev)
deriving DecidableEq, Repr, Inhabited

/-- Who makes a step, the die on which it stands, and the core and the tile whose TLBs serve it; where there is no tile it walks the page
tables itself (R303). -/
structure Work where
  who : Worker
  die : Option Nat := none
  core : Option Nat := none
  tile : Option Nat := none
deriving DecidableEq, Repr, Inhabited

/-- What a step finds away, for which it is put off: a walk; a line at its home, to be read or written (R259, R263); an access that
crosses bridges, with the bytes of its packets there and back (R254, R257). -/
inductive Ask where
  | walk (id : Nat)
  | line (line key : Nat) (write : Bool)
  | cross (from_ to_ place out back : Nat)
deriving DecidableEq, Repr, Inhabited

/-- The packets of an access that crosses bridges for a step that is put off (R254, R257): the request is on its way, the answer has
come, or a bridge of the way has failed (R266). -/
structure Visit where
  id : Nat
  who : Worker
  from_ : Nat
  to_ : Nat
  place : Nat
  back : Nat
  done : Bool := false
  failed : Bool := false
deriving DecidableEq, Repr, Inhabited

/-- When an event of the agenda may happen: at any time, or not before a cycle of a core or a value of `TIME`. -/
inductive When where
  | any
  | cycle (core : Nat) (n : Nat)
  | time (n : Nat)
deriving DecidableEq, Repr, Inhabited

/-- An event that is due to happen. -/
structure Due where
  ev : Ev
  at_ : When := .any
  /-- the step at which it was put on the agenda -/
  born : Nat := 0
deriving DecidableEq, Repr, Inhabited

/-- An event of a region on its way to the region's event queue, with `TIME` at the event (R292). -/
structure Told where
  region : Nat
  code : Nat
  w1 : Word
  w2 : Word
  time : Nat
deriving DecidableEq, Repr, Inhabited

/-- The module. The field `agenda` holds the events that are on their way; `tick` counts the model's steps, to which the
free values of Config are applied; `lastIssue` keeps one of them; `nextId` numbers requests and operations: these, and `work`,
`stalled`, `wants` and `visits`, are the model's own.
[DESIGN CHOICE, log 8] -/
structure State where
  /-- the slot key of the thread that issues (R45) -/
  cur : Nat := 64 * 0
  slots : Tab Slot := []
  regs : Tab Reg := []
  cores : Tab CoreRec := []
  /-- hardware queues by 8 × core + queue (R145) -/
  queues : Tab (List QPlace) := []
  /-- vector registers by 2,048 × core + 64 v + lane -/
  vregs : Tab Lane := []
  /-- accumulators by 1,024 × (8 × tile + array) + 32 row + lane -/
  accs : Tab Acc := []
  /-- weight planes by 2 × core + (0 stationary, 1 shadow): elements (k, n) at 32 k + n -/
  planes : Tab (List Nat) := []
  tiles : Tab TileRec := []
  hubs : Tab HubRec := []
  tcbs : Tab Tcb := []
  regions : Tab Region := []
  /-- bytes of HBM, scratchpads, hub words, Wicket entries and chip counters by place -/
  mem : List Host.Cell := []
  /-- word places whose full/empty bit differs from its reset value -/
  flips : List Nat := []
  /-- the key pair under which a sector of HBM is enciphered, by sector: 0 plaintext, else the pair + 1 (R305) -/
  hbmKey : Tab Nat := []
  /-- word places that hold a correctable, and an uncorrectable error (R306, R307) -/
  soft : List Nat := []
  dead : List Nat := []
  /-- sectors of HBM stored with a check code that no data satisfies (R308) -/
  poison : List Nat := []
  cache : CacheSys := {}
  tlb : List TlbEnt := []
  walks : List Walk := []
  reqs : List Req := []
  reps : List Rep := []
  /-- deferred requests in order of arrival (R138), and replayed accesses held at their home (R336) -/
  deferred : List Req := []
  heldReqs : List Req := []
  splits : List Split := []
  sendrs : List Sendr := []
  migs : List MigMsg := []
  parcels : List Parcel := []
  engs : List EngOp := []
  /-- receive rings of donation objects by 2^16 × region + object: the first entry, and the queued images in order (R283) -/
  rings : Tab (Nat × List (List Word)) := []
  /-- donations of other modules that have arrived and are not answered, oldest first (R283) -/
  donations : List Donation := []
  /-- events of regions on their way to their queues, oldest first (R292) -/
  told : List Told := []
  bridges : Tab Bridge := []
  /-- the widest scope of the releasing adds performed at a counter word, by place (R216) -/
  relScopes : Tab Nat := []
  /-- the remainder below 1 nJ, in 2^-10 nJ, that a unit carries for an accounting tag: 2^28 × unit + tag (R314) -/
  rems : Tab Nat := []
  ports : Tab Port := []
  images : List Image := []
  pacer : Pacer := {}
  host : HostIf := {}
  /-- the time since reset, and what had passed before it, in parts of a nanosecond in which every tile's cycle is a whole number
  (R7, R121): see `State.time` -/
  now : Nat := 0
  timeBefore : Nat := 0
  /-- by how much the module's rate has been held back in all, in the same unit (R334) -/
  lagged : Nat := 0
  /-- the step at which a core last had an issue cycle -/
  lastIssue : Nat := 0
  agenda : List Due := []
  /-- frames sent to the outside, oldest first -/
  out : List OutFrame := []
  nextId : Nat := 0
  tick : Nat := 0
  /-- within a step: who makes it, whether it has found something away, so that it is put off, and what -/
  work : Option Work := none
  stalled : Bool := false
  wants : List Ask := []
  /-- packets of accesses for which a step is put off -/
  visits : List Visit := []
deriving DecidableEq, Repr, Inhabited

/-- Reasons for which a step of the model ends without a next state. -/
inductive Fault where
  /-- Raised by the meaning of an event that cannot happen in this state (the request it names is not in
  flight). Safe: the hardware takes no such step, and Issue.lean drops the event. -/
  | notEnabled
  /-- Raised by the meaning of an instruction when `cur` names a slot without a ready thread. Safe: no core issues there. -/
  | noThread
deriving DecidableEq, Repr, Inhabited

/-- Reasons for which an instruction has no meaning in the model. -/
inductive Refusal where
  /-- Raised by an arm of exec whose instruction has no meaning yet. Safe: the run stops. -/
  | notModelled (mnemonic : String)
deriving DecidableEq, Repr, Inhabited

/-- The module right after reset: nothing runs, every table is at its reset values, boot stands at stage 0 and is to begin (R339, R341). -/
def State.reset : State := { agenda := [{ ev := .powerOnReset }] }

/-- What a step answers. -/
abbrev Out := Host.Outcome State Fault Refusal

end Sys2Proof.Machine
end

