-- ==== Sys2Proof/Machine/Base.lean ====
section
/-! DEFINITION. Tables, the numbering of units (R16, R23), the accessors of the state's tables, and the agenda. -/

namespace Sys2Proof.Machine

/-! ## Tables -/

/-- The entry of a key, if one is listed. -/
def find {α : Type} : Tab α → Nat → Option α
  | [], _ => none
  | (k, v) :: r, j => if j = k then some v else find r j

/-- The table with the entry of a key set. -/
def put {α : Type} : Tab α → Nat → α → Tab α
  | [], j, w => [(j, w)]
  | (k, v) :: r, j, w => if j = k then (j, w) :: r else if j < k then (j, w) :: (k, v) :: r else (k, v) :: put r j w

/-- The table without the entry of a key. -/
def del {α : Type} (t : Tab α) (j : Nat) : Tab α := t.filter fun p => p.1 != j

/-- A rising list of numbers with one added. -/
def insertNat : List Nat → Nat → List Nat
  | [], a => [a]
  | b :: r, a => if a < b then a :: b :: r else if a = b then b :: r else b :: insertNat r a

/-- The rising list with a number put in or taken out. -/
def setMember (l : List Nat) (a : Nat) (on : Bool) : List Nat := if on then insertNat l a else l.filter (· != a)

/-- The numbers from `lo` on, `n` of them. -/
def range' (lo : Nat) : Nat → List Nat
  | 0 => []
  | n + 1 => lo :: range' (lo + 1) n

/-- A list with its element `i` replaced. -/
def setAt {α : Type} : List α → Nat → α → List α
  | [], _, _ => []
  | _ :: r, 0, w => w :: r
  | v :: r, n + 1, w => v :: setAt r n w

/-! ## Numbering of units -/

/-- Die of a core (R16, R23). -/
def dieOf (core : Nat) : Nat := core / 1024
/-- Row of a core on its die. -/
def yOf (core : Nat) : Nat := core / 32 % 32
/-- Column of a core on its die. -/
def xOf (core : Nat) : Nat := core % 32
/-- The core at a die, row and column. -/
def coreAt (die y x : Nat) : Nat := 1024 * die + 32 * y + x
/-- Tile of a core, numbered 256 × die + tile number (R16). -/
def tileOf (core : Nat) : Nat := 256 * dieOf core + 16 * (yOf core / 2) + xOf core / 2
/-- Core in tile (R16). -/
def coreInTile (core : Nat) : Nat := 2 * (yOf core % 2) + xOf core % 2
/-- Cluster of a core, numbered 64 × die + cluster number (R16). -/
def clusterOf (core : Nat) : Nat := 64 * dieOf core + 8 * (yOf core / 4) + xOf core / 4
/-- Core index in its cluster (R16). -/
def coreIdx (core : Nat) : Nat := 4 * (yOf core % 4) + xOf core % 4
/-- Core `j` (0 to 3) of a tile. -/
def coreOfTile (tile j : Nat) : Nat := coreAt (tile / 256) (tile % 256 / 16 * 2 + j / 2) (tile % 16 * 2 + j % 2)
/-- Core with index `i` (0 to 15) of a cluster. -/
def coreOfCluster (cl i : Nat) : Nat := coreAt (cl / 64) (cl % 64 / 8 * 4 + i / 4) (cl % 8 * 4 + i % 4)
/-- Core of a slot key. -/
def coreOf (k : Nat) : Nat := k / 64
/-- Slot number of a slot key. -/
def slotNo (k : Nat) : Nat := k % 64
/-- The four cores of a tile in ascending core index. -/
def tileCores (tile : Nat) : List Nat := (range' 0 4).map (coreOfTile tile)
/-- The sixteen cores of a cluster in ascending core index. -/
def clusterCores (cl : Nat) : List Nat := (range' 0 16).map (coreOfCluster cl)

/-- The narrowest scope that contains a core, seen from core `c` (R19, R20). -/
def scopeTo (c k : Nat) : Nat :=
  if k = c then 1 else if tileOf k = tileOf c then 2 else if clusterOf k = clusterOf c then 3
  else if dieOf k = dieOf c then 4 else 5

/-- Whether a core lies within a scope taken from core `c` (R19). -/
def within (scope c k : Nat) : Bool := scopeTo c k ≤ scope

/-! ## Sources of requests -/

/-- The src of a request of another module. -/
def foreignSrc : Nat := 2 ^ 30

/-- The src of a request that stands for two combined ones (R256). -/
def splitSrc : Nat := 2 ^ 31

/-- The src of a request of a core's own units: write-backs of its L1, `PREF` (R143, R234). -/
def unitSrc (core : Nat) : Nat := 2 ^ 21 + core

/-- The core from which a request of this module comes. -/
def srcCore (src : Nat) : Nat := if src < 2 ^ 20 then coreOf src else src - 2 ^ 21

/-- Whether a request comes from a core of this module. -/
def ofCore (src : Nat) : Bool := src < 2 ^ 20 || (2 ^ 21 ≤ src && src < 2 ^ 21 + 4096)

/-! ## Accessors -/

/-- The slot of a key. -/
def State.slot (s : State) (k : Nat) : Slot := (find s.slots k).getD {}
/-- The state with a slot changed. -/
def State.modSlot (s : State) (k : Nat) (f : Slot → Slot) : State := { s with slots := put s.slots k (f (s.slot k)) }
/-- A core's record. -/
def State.core (s : State) (c : Nat) : CoreRec := (find s.cores c).getD {}
/-- The state with a core's record changed. -/
def State.modCore (s : State) (c : Nat) (f : CoreRec → CoreRec) : State := { s with cores := put s.cores c (f (s.core c)) }
/-- A tile's record. -/
def State.tile (s : State) (t : Nat) : TileRec := (find s.tiles t).getD {}
/-- The state with a tile's record changed. -/
def State.modTile (s : State) (t : Nat) (f : TileRec → TileRec) : State := { s with tiles := put s.tiles t (f (s.tile t)) }
/-- A cluster hub. -/
def State.hub (s : State) (c : Nat) : HubRec := (find s.hubs c).getD {}
/-- The state with a hub changed. -/
def State.modHub (s : State) (c : Nat) (f : HubRec → HubRec) : State := { s with hubs := put s.hubs c (f (s.hub c)) }
/-- The TCB of a key (R34). -/
def State.tcb (s : State) (k : Nat) : Tcb := (find s.tcbs k).getD {}
/-- The state with a TCB changed. -/
def State.modTcb (s : State) (k : Nat) (f : Tcb → Tcb) : State := { s with tcbs := put s.tcbs k (f (s.tcb k)) }
/-- A live region. -/
def State.region? (s : State) (r : Nat) : Option Region := find s.regions r
/-- The state with a live region changed. -/
def State.modRegion (s : State) (r : Nat) (f : Region → Region) : State :=
  match find s.regions r with
  | some v => { s with regions := put s.regions r (f v) }
  | none => s
/-- A register of a core's register file by its position (R13). -/
def State.rf (s : State) (core i : Nat) : Reg := (find s.regs (2048 * core + i)).getD {}
/-- The place that names a word of a core's register file for uncorrectable words: its place in the privileged window (R340). -/
def regPlace (core i : Nat) : Nat := 2 ^ 56 + core * 2 ^ 32 + 0x80000000 + 8 * i
/-- The state with a register of a register file set; an uncorrectable register becomes readable again (R307). -/
def State.setRf (s : State) (core i : Nat) (r : Reg) : State :=
  { s with regs := put s.regs (2048 * core + i) r, dead := s.dead.filter (· != regPlace core i), soft := s.soft.filter (· != regPlace core i) }
/-- A hardware queue of a core (R145). -/
def State.queue (s : State) (core q : Nat) : List QPlace := (find s.queues (8 * core + q)).getD []
/-- The state with a hardware queue set. -/
def State.setQueue (s : State) (core q : Nat) (l : List QPlace) : State := { s with queues := put s.queues (8 * core + q) l }
/-- Lane `i` of vector register `v` of a core (R13). -/
def State.lane (s : State) (core v i : Nat) : Lane := (find s.vregs (2048 * core + 64 * v + i)).getD 0
/-- The state with a lane set. -/
def State.setLane (s : State) (core v i : Nat) (x : Lane) : State :=
  { s with vregs := put s.vregs (2048 * core + 64 * v + i) x }
/-- Lane (row, column) of an accumulator array of a tile (R185). -/
def State.acc (s : State) (tile arr row col : Nat) : Acc := (find s.accs (1024 * (8 * tile + arr) + 32 * row + col)).getD 0
/-- The state with an accumulator lane set. -/
def State.setAcc (s : State) (tile arr row col : Nat) (x : Acc) : State :=
  { s with accs := put s.accs (1024 * (8 * tile + arr) + 32 * row + col) x }

/-- The registers of a window of class c (R40). -/
def windowSize (c : Nat) : Nat := [8, 16, 24, 32, 48, 64, 96, 128].getD c 128

/-- The number of registers of a slot's window. -/
def Slot.size (sl : Slot) : Nat := windowSize sl.wclass

/-- A strand is a thread of window class 2 (R41). -/
def Slot.strand (sl : Slot) : Bool := sl.wclass == 2

/-- General register r of the thread in a slot (R40). -/
def State.greg (s : State) (k r : Nat) : Reg := s.rf (coreOf k) ((s.slot k).base + r)

/-- The state with general register r of the thread in a slot set. -/
def State.setGreg (s : State) (k r : Nat) (v : Reg) : State := s.setRf (coreOf k) ((s.slot k).base + r) v

/-- The value of g(r) of the issuing thread. -/
def State.g (s : State) (r : Nat) : Word := (s.greg s.cur r).val

/-- g(r) := v for the issuing thread; the register becomes full (R100). -/
def State.setG (s : State) (r : Nat) (v : Word) : State := s.setGreg s.cur r { val := v }

/-- The slot of the issuing thread. -/
def State.me (s : State) : Slot := s.slot s.cur

/-- The core of the issuing thread. -/
def State.myCore (s : State) : Nat := coreOf s.cur

/-- The state with the issuing thread's slot changed. -/
def State.modMe (s : State) (f : Slot → Slot) : State := s.modSlot s.cur f

/-- Predicate k of a slot; p15 is constant true (R61). -/
def Slot.p (sl : Slot) (k : Nat) : Bool := if k = 15 then true else sl.pw.getLsbD k

/-- Predicate k := b; a write to p15 is discarded (R61). -/
def Slot.setP (sl : Slot) (k : Nat) (b : Bool) : Slot :=
  if k < 15 then
    { sl with pw := if b then sl.pw ||| ((1#15) <<< k) else sl.pw &&& ~~~((1#15) <<< k) }
  else sl

/-! ## Time and tile clocks (R7, R121) -/

/-- The parts of a nanosecond in which `State.now` counts: a common multiple of 20 to 50, so that the period of every level is
whole. -/
def nsUnit : Nat := 3099044504245996706400

/-- `TIME`: nanoseconds of the group timebase (R121). -/
def State.time (s : State) : Nat := (s.timeBefore + s.now - s.lagged) / nsUnit % 2 ^ 64

/-- The period of a tile clock at a level: 1 / (1.0 GHz + level × 50 MHz) (R7). -/
def period (level : Nat) : Nat := 20 * nsUnit / (20 + level)

/-- The cycles of a running clock that have begun and ended since its record was brought up to date. -/
def TileRec.missed (t : TileRec) (now : Nat) : Nat :=
  if t.stopped || now ≤ t.edge then 0 else (now - t.edge + period t.level - 1) / period t.level

/-- The cycles that a clock at its present level has counted up to a moment. -/
def TileRec.runTo (t : TileRec) (now : Nat) : TileRec :=
  { t with cycle := t.cycle + t.missed now, edge := t.edge + t.missed now * period t.level,
           turned := if t.missed now = 0 then t.turned else [] }

/-- A tile's record with its clock brought up to a moment: a tile on which nothing stands counts its idle cycles so (R121). One that has
held no thread since reset falls from level 30 to level 0 at cycle 64, for a stop of at most 2 µs (R310, R311). [DESIGN CHOICE, log 46] -/
def TileRec.upTo (t : TileRec) (now : Nat) : TileRec :=
  let first := t.edge + 64 * period t.level
  if t.fresh && t.cycle == 0 && first < now then
    { t.runTo first with level := 0, fresh := false, edge := first + Config.firstStop % 2001 * nsUnit }.runTo now
  else t.runTo now

/-- `CYCLE` of a core: the count of its tile's clock (R121). -/
def State.cycle (s : State) (core : Nat) : Nat := ((s.tile (tileOf core)).upTo s.now).cycle

/-! ## The agenda -/

/-- The state with an event on its way. -/
def State.later (s : State) (e : Ev) (w : When := .any) : State :=
  { s with agenda := s.agenda ++ [{ ev := e, at_ := w, born := s.tick }] }

/-- An event whose conditions do not hold yet (its sources are not produced, its time has not come) is still to come. -/
def stillDue (e : Ev) (s : State) : Out := .next (s.later e)

/-- The state with several events on their way. -/
def State.laters (s : State) (l : List Ev) : State :=
  { s with agenda := s.agenda ++ l.map fun e => { ev := e, born := s.tick } }

/-- The event that delivers a region's event to its queue. -/
def Told.event (e : Told) : Ev := .eventDelivery e.region e.code e.w1 e.w2

/-- The state with events of regions on their way to their queues (R292). -/
def State.tellAll (s : State) (l : List Told) : State := { s.laters (l.map Told.event) with told := s.told ++ l }

/-- The state with an event of a region, which happens now, on its way to the region's queue (R292). -/
def State.tell (s : State) (region code : Nat) (w1 w2 : Word) : State :=
  s.tellAll [{ region := region, code := code, w1 := w1, w2 := w2, time := s.time }]

/-- The state with an event asked for that looks at the state afresh: one such request on its way is enough. -/
def State.ask (s : State) (e : Ev) : State := if s.agenda.any (fun d => d.ev == e && d.at_ == .any) then s else s.later e

/-- The state with several such events asked for. -/
def State.askAll (s : State) (l : List Ev) : State := l.foldl State.ask s

/-- The next number for a request or an operation. -/
def State.fresh (s : State) : Nat × State := (s.nextId, { s with nextId := s.nextId + 1 })

/-- Pending condition waits of a slot end: the thread is ready (R44). -/
def Slot.wake (sl : Slot) : Slot := { sl with st := .ready, wait := .none }

/-- The names chip, die, y, x, slot and region of a thread, in the layout of `REGION` (R119). -/
def State.nameOf (s : State) (k : Nat) : Word :=
  BitVec.ofNat 64 (s.host.modid * 2 ^ 44 + coreOf k * 2 ^ 32 + slotNo k * 2 ^ 16 + (s.slot k).region)

/-- `WINDOW` of a slot (R119). -/
def windowWord (sl : Slot) : Word := BitVec.ofNat 64 (sl.wclass * 65536 + sl.base / 8 * 256 + sl.size)

/-- A system slot: slots 0 and 1 of core (0,0) of each die (R39). -/
def isSystem (k : Nat) : Bool := coreOf k % 1024 == 0 && slotNo k < 2

/-- Whether a core is released from reset (R339, R340): as its control word says, and before a write of that, core (0,0) of Q0 from discovery on
and every live core from stage 4 on. [DESIGN CHOICE, log 125] -/
def State.released (s : State) (core : Nat) : Bool :=
  match (s.core core).released with
  | some b => b
  | none => if core = 0 then 2 ≤ s.host.stage else s.host.stage == 4 && !s.host.retired.contains core

/-- Whether the in-field test has retired a core (R18). -/
def State.retired (s : State) (core : Nat) : Bool := s.host.retired.contains core

/-- A correctable error met in a stored word is corrected and counted (R306). -/
def State.correct (s : State) (w : Nat) : State :=
  if s.soft.contains w then { s with soft := s.soft.filter (· != w), host := { s.host with ecccnt := s.host.ecccnt + 1 } } else s

/-- An entry of the device error log (R295); the oldest of 64 is overwritten. -/
def State.logErr (s : State) (kind source : Nat) (who addr : Word) : State :=
  { s with host := { s.host with
      log := (if s.host.log.length < 64 then s.host.log else s.host.log.drop 1) ++
        [{ source := source, kind := kind, requester := who, address := addr, time := s.time }],
      logCount := s.host.logCount + 1 } }

/-- A sum held at 2^64 − 1 (R314, R140). -/
def sat64 (n : Nat) : Nat := if n < 2 ^ 64 then n else 2 ^ 64 - 1

/-- Energy in nJ added to a region's counter (R314); a region that is not live gives it to region 0 (R315). -/
def State.credit (s : State) (region nj : Nat) : State :=
  match (if region = 0 then none else find s.regions region) with
  | some r => { s with regions := put s.regions region { r with spent := sat64 (r.spent + nj) } }
  | none => { s with host := { s.host with spent0 := sat64 (s.host.spent0 + nj) } }

/-! The units that carry remainders (R314), as numbers: the homes as `homeUnit` counts them, a core with its sequencer, and the
others. -/

/-- A core, and its hub. -/
def coreWork (core : Nat) : Nat := 2 ^ 16 + core
def hubWork (cluster : Nat) : Nat := 2 ^ 17 + cluster

/-- The device: its region manager and firmware. -/
def deviceWork : Nat := 2 ^ 18

/-- A tile's engines of one kind, and its matrix array. -/
def engineWork (tile kind : Nat) : Nat := 2 ^ 19 + 4 * tile + kind
def arrayWork (tile : Nat) : Nat := 2 ^ 20 + tile

/-- The cost of a piece of work (R315): 1 an access, 2 a migration message, 3 scrubbing, 4 a steal push, 5 a save with its restore, 6 a clock
stop, 7 the leakage of a billing period, 8 housekeeping, 9 hot-line replication or recall, 10 ballast, 11 a service, 12 a launch,
14 a vector step, 15 a matrix operation. -/
def State.cost (s : State) (kind : Nat) : Nat := Config.costEvent kind s.tick

/-- Energy that a unit charges to an accounting tag, chip × 2^16 + region, in 2^-10 nJ (R314): whole nJ go to the region's counter, or for
another module's region into the next billing packet, and the unit carries the remainder. -/
def State.chargeTag (s : State) (unit tag amount : Nat) : State :=
  let key := unit * 2 ^ 28 + tag
  let sum := (find s.rems key).getD 0 + amount
  let nj := sum / 1024
  let s : State := { s with rems := put s.rems key (sum % 1024) }
  if tag / 65536 = s.host.modid then s.credit (tag % 65536) nj
  else { s with host := { s.host with bills := if nj = 0 then s.host.bills else put s.host.bills tag ((find s.host.bills tag).getD 0 + nj) } }

/-- Work at another module for a region is over; its charge comes within 100 µs of it (R314). -/
def State.farWorked (s : State) (region : Nat) : State := { s with host := { s.host with farWork := put s.host.farWork region s.time } }

/-- Energy that a unit charges to a region of this module. -/
def State.charge (s : State) (unit region amount : Nat) : State := s.chargeTag unit (s.host.modid * 65536 + region) amount

end Sys2Proof.Machine
end

