-- ==== Sys2Proof/Machine/Memory.lean ====
section
/-! DEFINITION. Memory: bytes and full/empty bits by place, the lines of L1, L2, MSC and HBM (R234, R253), memory keys
(R305), uncorrectable words (R307, R308), and translation (R300 to R304).

A place is a number: a physical address of HBM below 2^39; 2^56 + 2^32 × core + offset for a scratchpad, and for a hub word
with the core at the north-west corner of the cluster; 2^57 + block offset for the chip block (R24, R26, R252). -/

namespace Sys2Proof.Machine

/-! ## Bytes and full/empty bits -/

/-- What a byte reads as that nothing has written. [DESIGN CHOICE, log 3] -/
def emptyByte : Byte := 0

/-- The byte at a place of a memory list. -/
def readByte : List Host.Cell → Nat → Byte
  | [], _ => emptyByte
  | (a, b) :: r, p => if a = p then b else readByte r p

/-- Lists the byte at a place, in rising order. -/
def insertByte : List Host.Cell → Nat → Byte → List Host.Cell
  | [], p, b => [(p, b)]
  | (a, c) :: r, p, b => if p < a then (p, b) :: (a, c) :: r else if a = p then (p, b) :: r else (a, c) :: insertByte r p b

/-- The memory list with a byte written; the value an unlisted place reads as takes the entry out. -/
def writeByte (m : List Host.Cell) (p : Nat) (b : Byte) : List Host.Cell :=
  if b = emptyByte then m.filter (·.1 != p) else insertByte m p b

/-- The memory list with bytes written from a place on. -/
def writeBytes (m : List Host.Cell) (p : Nat) : List Byte → List Host.Cell
  | [] => m
  | b :: r => writeBytes (writeByte m p b) (p + 1) r

/-- The canonical form: places strictly rising, and no entry equal to what an unlisted place reads as. -/
def Memory.wf : List Host.Cell → Bool
  | [] => true
  | [(_, b)] => b != emptyByte
  | (a, b) :: (c, d) :: r => a < c && b != emptyByte && Memory.wf ((c, d) :: r)

/-- `n` bytes from a place on. -/
def readBytes (m : List Host.Cell) (p n : Nat) : List Byte := (range' p n).map (readByte m)

/-- The first place of scratchpads and hub words. -/
def corePlace (core off : Nat) : Nat := 2 ^ 56 + core * 2 ^ 32 + off

/-- The place of a hub word: the cluster's sixteen aliases share the north-west core's (R24). -/
def hubPlace (cl off : Nat) : Nat := corePlace (coreOfCluster cl 0) off

/-- The place of a byte of the own chip block (R26). -/
def chipPlace (off : Nat) : Nat := 2 ^ 57 + off

/-- Wicket queue entries (R26). -/
def isWicket (p : Nat) : Bool := 2 ^ 57 ≤ p && p < 2 ^ 57 + 2 ^ 20

/-- The full/empty bit of a word place at reset: full, and empty for the words of the Wicket queues (R331). -/
def feReset (w : Nat) : Bool := !isWicket w

/-- Whether a place is one of HBM (R252). -/
def isHbm (p : Nat) : Bool := p < 2 ^ 39

/-- The word place that holds a byte. -/
def wordOf (p : Nat) : Nat := p / 8 * 8

/-- The full/empty bit stored beside a word that no cache holds. -/
def State.feRaw (s : State) (w : Nat) : Bool := feReset w != s.flips.contains w

/-- The state with the stored full/empty bit of a word set. -/
def State.setFeRaw (s : State) (w : Nat) (full : Bool) : State := { s with flips := setMember s.flips w (full != feReset w) }

/-! ## Lines -/

/-- Bits [64 i + 63 : 64 i] of a line. -/
def Line.word (l : Line) (i : Nat) : Word := l.data.extractLsb' (64 * i) 64

/-- `len` bytes from byte `o` of a line, as a number. -/
def Line.num (l : Line) (o len : Nat) : Nat := bits l.data.toNat (8 * o) (8 * len)

/-- A block of bits put over a line's data. -/
def overlay (data : BitVec 1024) (o len v : Nat) : BitVec 1024 :=
  let m : BitVec 1024 := BitVec.ofNat 1024 (2 ^ (8 * len) - 1) <<< (8 * o)
  (data &&& ~~~m) ||| ((BitVec.ofNat 1024 v <<< (8 * o)) &&& m)

/-- The line with `len` bytes from byte `o` on replaced by those of a number, and marked dirty (R234). -/
def Line.write (l : Line) (o len v : Nat) : Line :=
  { l with data := overlay l.data o len v, dirty := l.dirty ||| (BitVec.ofNat 128 (2 ^ len - 1) <<< o) }

/-- The full/empty bit of word `i`. -/
def Line.full (l : Line) (i : Nat) : Bool := l.fe.getLsbD i

/-- The line with the full/empty bit of word `i` set; the word is marked dirty, so that a write-back carries it (R253). -/
def Line.setFe (l : Line) (i : Nat) (full : Bool) : Line :=
  { l with fe := if full then l.fe ||| ((1#16) <<< i) else l.fe &&& ~~~((1#16) <<< i),
           dirty := l.dirty ||| ((255#128) <<< (8 * i)) }

/-- Whether word `i` cannot be read (R307, R308). -/
def Line.badWord (l : Line) (i : Nat) : Bool := l.bad.getLsbD i || l.poison.getLsbD (i / 8)

/-- Whether a sector of the line holds an uncorrectable word. -/
def Line.badSector (l : Line) (h : Nat) : Bool := (range' (8 * h) 8).any l.badWord

/-- Whether a sector of the line has a dirty byte. -/
def Line.dirtySector (l : Line) (h : Nat) : Bool := (l.dirty.extractLsb' (64 * h) 64) != 0

/-- The pair in a key slot as HBM is marked with it: 0 for plaintext (R304). -/
def State.keyId (s : State) (key : Nat) : Nat :=
  if key = 0 then 0 else match find s.host.keys key with | some k => k.pair + 1 | none => 0

/-- A sector of HBM as it reads under a key (R305). -/
def State.hbmSector (s : State) (n key : Nat) : Nat :=
  let raw := leNat (readBytes s.mem (64 * n) 64)
  let k := (find s.hbmKey n).getD 0
  if k = s.keyId key then raw else (Config.decipher k (s.keyId key) n (BitVec.ofNat 512 raw)).toNat

/-- A line of HBM as it reads under a key. -/
def State.hbmLine (s : State) (line key : Nat) : Line :=
  { data := BitVec.ofNat 1024 (s.hbmSector (2 * line) key + s.hbmSector (2 * line + 1) key * 2 ^ 512)
    fe := BitVec.ofNat 16 (((range' 0 16).map fun i => b2n (s.feRaw (128 * line + 8 * i)) * 2 ^ i).foldl (· + ·) 0)
    key := key
    bad := BitVec.ofNat 16 (((range' 0 16).map fun i => b2n (s.dead.contains (128 * line + 8 * i)) * 2 ^ i).foldl (· + ·) 0)
    poison := BitVec.ofNat 2 (b2n (s.poison.contains (2 * line)) + 2 * b2n (s.poison.contains (2 * line + 1))) }

/-- The full/empty bits of a sector's words set from a number. -/
def State.setFes (s : State) (w : Nat) : Nat → Nat → State
  | 0, _ => s
  | n + 1, v => (s.setFeRaw w (v % 2 == 1)).setFes (w + 8) n (v / 2)

/-- One dirty sector of a line stored in HBM, enciphered under the line's key (R305); a sector that holds an uncorrectable
word is stored with a check code that no data satisfies, and logged as kind 5 (R308). -/
def State.storeSector (s : State) (line h : Nat) (l : Line) : State :=
  let n := 2 * line + h
  let s1 := { s with
    mem := writeBytes s.mem (64 * n) (leBytes 64 (l.num (64 * h) 64)),
    hbmKey := put s.hbmKey n (s.keyId l.key),
    dead := s.dead.filter fun w => w / 64 != n,
    poison := setMember s.poison n (l.badSector h) }
  let s2 := s1.setFes (64 * n) 8 (l.fe.toNat / 2 ^ (8 * h))
  if l.badSector h then s2.logErr 5 0 0 (BitVec.ofNat 64 (64 * n)) else s2

/-- The home bank of a physical address: die × 1,024 + slice × 4 + bank (R252). -/
def homeBank (pa : Nat) : Nat :=
  let l := pa / 128 % 2 ^ 32
  Nat.xor (Nat.xor (l % 4096) (l / 4096 % 4096)) (l / 2 ^ 24)

/-- The HBM stack of a line: the stacks interleave in units of 256 B (R253). Stacks 2q and 2q + 1 attach to die q (R15). -/
def stackOf (line : Nat) : Nat := line / 2 % 8

/-! ## Reads and writes that a step finds away (R17, R254, R257, R259, R263)

A unit that reads or writes words at their homes by itself makes its step as a whole, or puts it off: it waits for the lock of the line,
for queued requests to it, for a bank that takes nothing, for the line's fill, for a recall, and for its packets over bridges.
[DESIGN CHOICE, log 123] -/

/-- The number of the bridge direction between two facing dies (R17). -/
def bridgeDir (a b : Nat) : Nat :=
  (([(0, 1), (1, 0), (2, 3), (3, 2), (0, 2), (2, 0), (1, 3), (3, 1)] : List (Nat × Nat)).findIdx? (· == (a, b))).getD 0

/-- The bridges a packet crosses from die to die, first in X and then in Y (R17). -/
def bridgePath (a b : Nat) : List Nat :=
  let mid := a / 2 * 2 + b % 2
  (if a = mid then [] else [bridgeDir a mid]) ++ (if mid = b then [] else [bridgeDir mid b])

/-- A bridge direction. -/
def State.bridge (s : State) (d : Nat) : Bridge := (find s.bridges d).getD {}

/-- The hot line of a number. -/
def State.hotOf (s : State) (line : Nat) : Option Hot := s.cache.hot.find? (·.line == line)

/-- Whether the lock of a line is held (R259): by a request, or by a recall. -/
def State.lockHeld (s : State) (line : Nat) : Bool :=
  s.cache.locks.any (·.1 == line) || (match s.hotOf line with | some h => h.recalling.isSome | none => false)

/-- Whether the L2 holds a line under a key. -/
def State.l2Has (s : State) (line key : Nat) : Bool := (find s.cache.l2 line).elim false fun l => l.key == key

/-- Whether the conflict queue of a bank is full, so that the bank takes nothing from its slice port (R259). -/
def State.portShut (s : State) (bank : Nat) : Bool :=
  decide (16 ≤ (s.cache.conflict.filter fun p => homeBank (128 * p.1) == bank).length)

/-- Whether the way between a line's bank and its stack crosses a failed bridge (R253, R266). -/
def State.stackCut (s : State) (line : Nat) : Bool :=
  (bridgePath (homeBank (128 * line) / 1024) (stackOf line / 2)).any fun d => (s.bridge d).st == .failed

/-- Whether a line stands at its home for a unit's access: nothing holds its lock or queues for it, its bank takes requests, it is
filled under the key, and, for a write, it is not hot. -/
def State.lineReady (s : State) (line key : Nat) (write : Bool) : Bool :=
  !s.lockHeld line && !s.cache.conflict.any (·.1 == line) && !s.portShut (homeBank (128 * line)) && s.l2Has line key &&
    !(write && (s.hotOf line).isSome)

/-- The step is put off for something. -/
def State.putOff (s : State) (a : Ask) : State :=
  { s with stalled := true, wants := if s.wants.contains a then s.wants else s.wants ++ [a] }

/-- A line that a step reads or writes at its home; one whose way to its stack is cut is not waited for. -/
def State.unitLine (s : State) (line key : Nat) (write : Bool) : State :=
  if s.work.isNone || s.lineReady line key write || (!s.l2Has line key && s.stackCut line) then s else s.putOff (.line line key write)

/-- The packets of an access of the present step from a die to another. -/
def State.visit? (s : State) (from_ to_ place : Nat) : Option Visit :=
  s.work.bind fun w => s.visits.find? fun v => v.who == w.who && v.from_ == from_ && v.to_ == to_ && v.place == place

/-- An access of a step crosses the bridges between two dies, with a number of bytes there and back. -/
def State.crossing (s : State) (from_ to_ place out back : Nat) : State :=
  if from_ = to_ || s.work.isNone then s
  else
    match s.visit? from_ to_ place with
    | some v => if v.done || v.failed then s else s.putOff (.cross from_ to_ place out back)
    | none => s.putOff (.cross from_ to_ place out back)

/-- Whether the packets of an access have met a failed bridge (R266). -/
def State.crossCut (s : State) (from_ to_ place : Nat) : Bool := from_ != to_ && (s.visit? from_ to_ place).elim false Visit.failed

/-- A line that stays after its dirty bytes have been written back: a dirty sector that holds an uncorrectable word is one that no data
satisfies, here too (R308). -/
def Line.cleaned (l : Line) : Line :=
  { l with dirty := 0, poison := BitVec.ofNat 2 (((range' 0 2).map fun h =>
      b2n (l.poison.getLsbD h || (l.dirtySector h && l.badSector h)) * 2 ^ h).foldl (· + ·) 0) }

/-- The MSC's line written back to HBM; it stays valid and clean (R253). -/
def State.cleanMsc (s : State) (line : Nat) : State :=
  match find s.cache.msc line with
  | none => s
  | some l =>
    let s1 := if l.dirtySector 0 then s.storeSector line 0 l else s
    let s2 := if l.dirtySector 1 then s1.storeSector line 1 l else s1
    { s2 with cache := { s2.cache with msc := put s2.cache.msc line l.cleaned } }

/-- The MSC's line dropped without write-back. -/
def State.dropMsc (s : State) (line : Nat) : State := { s with cache := { s.cache with msc := del s.cache.msc line } }

/-- The lines that the 2,048 MiB of MSC before a stack hold (R15). -/
def mscLines : Nat := 2 ^ 24

/-- Room for a line in the MSC of its stack: a full one writes back and drops another line, of its choice (R15, R253). -/
def State.mscRoom (s : State) (line : Nat) : State :=
  let held := s.cache.msc.filter fun p => stackOf p.1 == stackOf line && p.1 != line
  if held.length < mscLines then s
  else
    let out := (held.map (·.1)).getD (Config.freeNat s.tick % held.length) 0
    (s.cleanMsc out).dropMsc out

/-- The MSC's line under a key: a line under another key is written back and dropped first (R305). -/
def State.fillMsc (s : State) (line key : Nat) : State :=
  match find s.cache.msc line with
  | some l =>
    if l.key = key then s
    else
      let s1 := (s.cleanMsc line).dropMsc line
      { s1 with cache := { s1.cache with msc := put s1.cache.msc line (s1.hbmLine line key) } }
  | none =>
    let s1 := s.mscRoom line
    { s1 with cache := { s1.cache with msc := put s1.cache.msc line (s1.hbmLine line key) } }

/-- Whether every byte of word `i` is dirty, so that a write-back replaces the whole word. -/
def Line.wholeWord (l : Line) (i : Nat) : Bool := l.dirty.extractLsb' (8 * i) 8 == 255

/-- Whether every byte of a sector is dirty. -/
def Line.wholeSector (l : Line) (h : Nat) : Bool := (range' (8 * h) 8).all l.wholeWord

/-- The dirty bytes of `l` over those of `m`, with the full/empty bits of the dirty words. A word of `m` that cannot be read is
readable again where `l` replaces all of it, and a sector where `l` replaces all of it (R307, R308); a dirty sector with an
uncorrectable word becomes one that no data satisfies (R308). -/
def mergeLine (m l : Line) : Line :=
  let mask : BitVec 1024 := BitVec.ofNat 1024 (((range' 0 128).map fun i => if l.dirty.getLsbD i then 255 * 2 ^ (8 * i) else 0).foldl (· + ·) 0)
  let wmask : BitVec 16 := BitVec.ofNat 16 (((range' 0 16).map fun i => if l.dirty.extractLsb' (8 * i) 8 = 0 then 0 else 2 ^ i).foldl (· + ·) 0)
  { m with
    data := (m.data &&& ~~~mask) ||| (l.data &&& mask)
    fe := (m.fe &&& ~~~wmask) ||| (l.fe &&& wmask)
    dirty := m.dirty ||| l.dirty
    bad := BitVec.ofNat 16 (((range' 0 16).map fun i => b2n (m.bad.getLsbD i && !l.wholeWord i) * 2 ^ i).foldl (· + ·) 0)
    poison := BitVec.ofNat 2 (((range' 0 2).map fun h =>
      b2n ((m.poison.getLsbD h && !l.wholeSector h) || (l.dirtySector h && l.badSector h)) * 2 ^ h).foldl (· + ·) 0) }

/-- The log entries of a write-back of dirty sectors that hold uncorrectable words (R308). -/
def State.logWriteBack (s : State) (line : Nat) (l : Line) : State :=
  let s1 := if l.dirtySector 0 && l.badSector 0 then s.logErr 5 0 0 (BitVec.ofNat 64 (128 * line)) else s
  if l.dirtySector 1 && l.badSector 1 then s1.logErr 5 0 0 (BitVec.ofNat 64 (128 * line + 64)) else s1

/-- The L2 line written back to the MSC, over the bridges where its stack stands at another die (R17); it stays valid and clean (R253). -/
def State.cleanL2 (s : State) (line : Nat) : State :=
  match find s.cache.l2 line with
  | none => s
  | some l =>
    if l.dirty = 0 then s
    else
      let s := s.crossing (homeBank (128 * line) / 1024) (stackOf line / 2) (128 * line) 160 16
      let s1 := s.fillMsc line l.key
      let m := (find s1.cache.msc line).getD {}
      let s2 := { s1 with cache := { s1.cache with
        msc := put s1.cache.msc line (mergeLine m l), l2 := put s1.cache.l2 line l.cleaned } }
      s2.logWriteBack line l

/-- The L2 line dropped without write-back. -/
def State.dropL2 (s : State) (line : Nat) : State :=
  { s with cache := { s.cache with l2 := del s.cache.l2 line } }

/-- The set of its bank in which a line stands, of 128 (R259). -/
def l2Set (line : Nat) : Nat := Config.l2Set line % 128

/-- The other lines that stand in a set of a bank. -/
def State.setLines (s : State) (bank line : Nat) : List Nat :=
  (s.cache.l2.filter fun p => p.1 != line && homeBank (128 * p.1) == bank && l2Set p.1 == l2Set line).map (·.1)

/-- The other lines of which a set of a bank holds replicas (R262). -/
def State.setReplicas (s : State) (bank line : Nat) : List Nat :=
  (s.cache.replicas.filter fun p => p.1 % 2 ^ 32 != line && p.1 / 2 ^ 32 == bank / 4 && homeBank (128 * (p.1 % 2 ^ 32)) % 4 == bank % 4 &&
    l2Set (p.1 % 2 ^ 32) == l2Set line).map (·.1 % 2 ^ 32)

/-- Whether a set of a bank has one of its 16 ways for a line (R259). -/
def State.setHasRoom (s : State) (bank line : Nat) : Bool :=
  decide ((s.setLines bank line).length + (s.setReplicas bank line).length < 16)

/-- The lines of a set that can leave it at once: neither hot nor locked (R263). -/
def State.setIdle (s : State) (bank line : Nat) : List Nat :=
  (s.setLines bank line).filter fun l => !(s.cache.hot.any (·.line == l)) && !(s.cache.locks.any (·.1 == l))

/-- Room for a line in its set of a bank: a full set writes back and drops another line, of its choice (R259). -/
def State.l2Room (s : State) (bank line : Nat) : State :=
  let idle := s.setIdle bank line
  if s.setHasRoom bank line || idle == [] then s
  else
    let out := idle.getD (Config.freeNat line % idle.length) 0
    (s.cleanL2 out).dropL2 out

/-- The L2 line under a key, filled from the MSC on a miss (R259); a line under another key is first written back all the
way to HBM and dropped (R305). -/
def State.fillL2 (s : State) (line key : Nat) : State :=
  match find s.cache.l2 line with
  | some l =>
    if l.key = key then s
    else
      let s1 := ((s.cleanL2 line).dropL2 line).fillMsc line key
      { s1 with cache := { s1.cache with l2 := put s1.cache.l2 line { ((find s1.cache.msc line).getD {}) with dirty := 0 } } }
  | none =>
    let s1 := (s.l2Room (homeBank (128 * line)) line).fillMsc line key
    { s1 with cache := { s1.cache with l2 := put s1.cache.l2 line { ((find s1.cache.msc line).getD {}) with dirty := 0 } } }

/-- The line at its home, after a fill. -/
def State.homeLine (s : State) (line : Nat) : Line := (find s.cache.l2 line).getD {}

/-- A candidate is unfit to become hot: its line is written (R261). -/
def State.unfit (s : State) (line : Nat) : State :=
  { s with cache := { s.cache with cands := s.cache.cands.map fun c => if c.line = line then { c with unfit := true } else c } }

/-- The state with the home's line written: it is unfit to become hot (R261). -/
def State.setHomeLine (s : State) (line : Nat) (l : Line) : State :=
  let s := s.unfit line
  { s with cache := { s.cache with l2 := put s.cache.l2 line l } }

/-! ## Words at their homes -/

/-- Fills the home's line of a place of HBM (R259); other homes hold their words themselves. -/
def State.atHome (s : State) (p key : Nat) : State := if isHbm p then s.fillL2 (p / 128) key else s

/-- The line of a place of HBM that a unit reads or writes at its home: over bridges from the die on which it stands, and once the line
stands there. -/
def State.unitHome (s : State) (p key : Nat) (write : Bool) : State :=
  if isHbm p then
    let s := match s.work.bind Work.die with
      | some d => s.crossing d (homeBank p / 1024) (p / 128 * 128) (if write then 24 else 16) 24
      | none => s
    (s.unitLine (p / 128) key write).atHome p key
  else s

/-- Whether a unit's access to a place of HBM gets an error response: a bridge of its way, or of the way to the line's stack, has failed
(R266). -/
def State.unitLost (s : State) (p key : Nat) : Bool :=
  isHbm p && s.work.isSome &&
    ((match s.work.bind Work.die with | some d => s.crossCut d (homeBank p / 1024) (p / 128 * 128) | none => false) ||
     (!s.l2Has (p / 128) key && s.stackCut (p / 128)))

/-- `len` bytes within one word at a place at its home, as a number; the line of HBM has been filled. -/
def State.homeNum (s : State) (p len : Nat) : Nat :=
  if isHbm p then (s.homeLine (p / 128)).num (p % 128) len else leNat (readBytes s.mem p len)

/-- The state with `len` bytes written at a place at its home; a write of a whole sector ends its uncorrectability (R308). -/
def State.homeSet (s : State) (p len v : Nat) : State :=
  if isHbm p then
    let l := (s.homeLine (p / 128)).write (p % 128) len v
    let clear : BitVec 16 := BitVec.ofNat 16 (((range' 0 16).map fun i =>
      if p % 128 ≤ 8 * i && 8 * i + 8 ≤ p % 128 + len then 2 ^ i else 0).foldl (· + ·) 0)
    let l := { l with bad := l.bad &&& ~~~clear }
    let l := if len = 64 && p % 64 = 0 then { l with poison := l.poison &&& ~~~((1#2) <<< (p % 128 / 64)) } else l
    s.setHomeLine (p / 128) l
  else { s with mem := writeBytes s.mem p (leBytes len v),
                dead := s.dead.filter fun w => !(p ≤ w && w + 8 ≤ p + len) }

/-- The full/empty bit of the word that holds a place. -/
def State.homeFull (s : State) (p : Nat) : Bool :=
  if isHbm p then (s.homeLine (p / 128)).full (p % 128 / 8) else s.feRaw (wordOf p)

/-- The state with the full/empty bit of the word that holds a place set. -/
def State.homeSetFull (s : State) (p : Nat) (full : Bool) : State :=
  if isHbm p then s.setHomeLine (p / 128) ((s.homeLine (p / 128)).setFe (p % 128 / 8) full)
  else s.setFeRaw (wordOf p) full

/-- Whether the word that holds a place cannot be read (R307). -/
def State.homeBad (s : State) (p : Nat) : Bool :=
  if isHbm p then (s.homeLine (p / 128)).badWord (p % 128 / 8) else s.dead.contains (wordOf p)

/-- Whether a store of `len` bytes at a place must merge with a word that cannot be read (R307). -/
def State.homeMergeBad (s : State) (p len : Nat) : Bool :=
  if isHbm p then
    let l := s.homeLine (p / 128)
    (l.poison.getLsbD (p % 128 / 64) && !(len = 64 && p % 64 = 0)) || (len < 8 && l.bad.getLsbD (p % 128 / 8))
  else len < 8 && s.dead.contains (wordOf p)

/-! ## L1 caches (R234, R235) -/

/-- The key of a line in the L1 table. -/
def l1Key (core line : Nat) : Nat := core * 2 ^ 32 + line

/-- The line of a core's L1, if it holds it. -/
def State.l1 (s : State) (core line : Nat) : Option Line := find s.cache.l1 (l1Key core line)

/-- The state with a core's L1 line set. -/
def State.setL1 (s : State) (core line : Nat) (l : Line) : State :=
  { s with cache := { s.cache with l1 := put s.cache.l1 (l1Key core line) l } }

/-- The L1 line dropped without write-back. -/
def State.dropL1 (s : State) (core line : Nat) : State :=
  { s with cache := { s.cache with l1 := del s.cache.l1 (l1Key core line) } }

/-- The dirty bytes of an L1 line put into the home's; the full/empty bits there stay (R234, R238). They take the place of ordinary
stores there (R236), after which requests deferred at the line are taken up again (R138). -/
def State.mergeHome (s : State) (line : Nat) (l : Line) : State :=
  let s1 := s.fillL2 line l.key
  let h := s1.homeLine line
  let s2 := (s1.setHomeLine line { mergeLine h l with fe := h.fe }).logWriteBack line l
  if s2.deferred.any fun q => isHbm q.place && q.place / 128 == line then s2.ask (.linePass line) else s2

/-- The dirty bytes of an L1 line at its home in one step; the line stays valid and clean. [DESIGN CHOICE, log 20] -/
def State.cleanL1 (s : State) (core line : Nat) : State :=
  match s.l1 core line with
  | none => s
  | some l => if l.dirty = 0 then s else (s.mergeHome line l).setL1 core line l.cleaned

/-- The lines that a core's L1 holds. -/
def State.l1Lines (s : State) (core : Nat) : List Nat :=
  (s.cache.l1.filter fun p => p.1 / 2 ^ 32 == core).map fun p => p.1 % 2 ^ 32

/-- Fills on their way to cores of which a test holds are not kept when they arrive (R235, R239, R248). -/
def State.noFills (s : State) (f : Nat → Nat → Bool) : State :=
  let mark (q : Req) : Req :=
    if q.op == .fill && q.dest != .ifetch && ofCore q.src && f (srcCore q.src) (q.place / 128) then { q with noFill := true } else q
  { s with reqs := s.reqs.map mark, reps := s.reps.map fun r => { r with req := mark r.req } }

/-- `VGROUP` of a core: its own bit reads 1 (R120). -/
def State.vgroupOf (s : State) (core : Nat) : BitVec 16 := (s.core core).vgroup ||| ((1#16) <<< coreIdx core)

/-- The victim pool of a core (R120): the cores of its cluster whose bits are set in its `VGROUP` and whose own `VGROUP` is the same,
but for itself. -/
def State.victimPool (s : State) (core : Nat) : List Nat :=
  (clusterCores (clusterOf core)).filter fun c => c != core && (s.vgroupOf core).getLsbD (coreIdx c) && s.vgroupOf c == s.vgroupOf core

/-- The copy that a core's load hits: its own, or a clean one in its victim pool (R120, R239). -/
def State.l1Hit (s : State) (core line : Nat) : Option Line :=
  match s.l1 core line with
  | some l => some l
  | none => ((s.victimPool core).filterMap fun c => s.l1 c line).find? fun l => l.dirty == 0

/-- Drops every clean line of a core's L1, and of its victim pool (R239). -/
def State.dropCleanL1 (s : State) (core : Nat) : State :=
  let pool := core :: s.victimPool core
  let s := s.noFills fun c _ => pool.contains c
  { s with cache := { s.cache with l1 := s.cache.l1.filter fun p => !(pool.contains (p.1 / 2 ^ 32) && p.2.dirty == 0) } }

/-- Whether a core's L1 holds a line as the sole holder of its cluster, so that it is writable there (R235). -/
def State.writable (s : State) (core line : Nat) : Bool :=
  (s.l1 core line).isSome && (clusterCores (clusterOf core)).all fun c => c == core || (s.l1 c line).isNone

/-- The bytes of a core's share of its SRAM given to the L1 (R120). -/
def shareBytes (c : Nat) : Nat := [0, 32768, 65536, 131072].getD c 0

/-- The scratchpad size S of a core (R24). -/
def State.scratchSize (s : State) (core : Nat) : Nat := 262144 - shareBytes (s.core core).share.toNat

/-! ## Translation (R300 to R304) -/

/-- The page bits of a leaf at a level (R300). -/
def pageBits (level : Nat) : Nat := if level = 3 then 30 else if level = 2 then 21 else 16

/-- The place of the entry of a level in its table (R300). -/
def ptePlace (table level va : Nat) : Nat :=
  table + 8 * (if level = 4 then bits va 39 17 else if level = 3 then bits va 30 9 else if level = 2 then bits va 21 9 else bits va 16 5)

/-- The alignment of the table below a level (R300). -/
def tableAlign (level : Nat) : Nat := if level = 2 then 256 else 4096

/-- Whether an entry is a table pointer (R301). -/
def isPointer (pte : Nat) : Bool := bits pte 1 3 == 0

/-- Whether a walk faults PAGE at an entry of a level (R301). -/
def pteFaults (level pte : Nat) : Bool :=
  !bit pte 0 || bits pte 40 16 != 0 || bit pte 39 ||
  (if isPointer pte then level == 1 || bits pte 56 8 != 0 || bits pte 6 2 != 0 || (bits pte 8 32 * 256) % tableAlign level != 0
   else level == 4 || 2 ≤ bits pte 6 2 || (bits pte 8 32 * 256) % 2 ^ pageBits level != 0 || (bit pte 2 && !bit pte 1))

/-- Whether a leaf permits an access (R130, R301). -/
def leafPermits (need : Acc3) (pte : Nat) : Bool :=
  match need with
  | .r => bit pte 1
  | .w => bit pte 2
  | .rw => bit pte 1 && bit pte 2
  | .x => bit pte 3

/-- Whether an access stores. -/
def Acc3.stores : Acc3 → Bool
  | .w => true
  | .rw => true
  | _ => false

/-- The root of a region's tree. -/
def State.rootOf (s : State) : Nat → Nat → Nat
  | 0, r => r
  | n + 1, r =>
    match s.region? r with
    | some g => match g.parent with | some p => s.rootOf n p | none => r
    | none => r

/-- Whether the memory key of a leaf lets a region in (R304). -/
def State.keyPermits (s : State) (region key : Nat) : Bool :=
  key == 0 || (match find s.host.keys key with | some k => k.owner == s.rootOf 8 region | none => false)

/-- What a walk ends with: a leaf, its level and the place of its entry, or a fault with the level (R301). -/
inductive WalkEnd where
  | leaf (pte level place : Nat)
  /-- the cause, the level, and for MACHINE the place of the uncorrectable entry -/
  | fault (c : Cause) (level : Nat) (at_ : Nat := 0)
deriving DecidableEq, Repr

/-- The walk from a table of a level down (R300, R301); entries are read at their homes (R302). -/
def State.walkFrom (s : State) (va : Nat) : Nat → Nat → WalkEnd × State
  | 0, _ => (.fault .page 0, s)
  | level + 1, table =>
    let p := ptePlace table (level + 1) va
    let lost := s.unitLost p 0
    let s := (s.unitHome p 0 false).correct p
    let pte := s.homeNum p 8
    if lost then (.fault .rights (level + 1), s.logErr 1 0 0 (BitVec.ofNat 64 p))
    else if s.homeBad p then (.fault .machine (level + 1) p, s.logErr 4 0 0 (BitVec.ofNat 64 p))
    else if pteFaults (level + 1) pte then (.fault .page (level + 1), s)
    else if isPointer pte then s.walkFrom va level (bits pte 8 32 * 256)
    else (.leaf pte (level + 1) p, s)

/-- The physical address of a virtual address in a leaf. -/
def leafPlace (pte level va : Nat) : Nat := bits pte 8 32 * 256 + va % 2 ^ pageBits level

/-- A complete walk for an access of a region (R301, R302, R304): the leaf with A set, and D for a store, or the fault. -/
def State.walk (s : State) (region va : Nat) (need : Acc3) : WalkEnd × State :=
  match s.region? region with
  | none => (.fault .page 4, s)
  | some g =>
    match s.walkFrom va 4 g.ptroot with
    | (.fault c l p, s1) => (.fault c l p, s1)
    | (.leaf pte level p, s1) =>
      if !leafPermits need pte || !s.keyPermits region (bits pte 56 8) then (.fault .rights level, s1)
      else
        let new := pte + (if bit pte 5 then 0 else 32) + (if need.stores && !bit pte 4 then 16 else 0)
        (.leaf new level p, if new = pte then s1 else (s1.unitHome p 0 true).homeSet p 8 new)

/-- A translated address: physical address, memory key, whether L1 may cache it, and the level. -/
structure Trans where
  pa : Nat
  key : Nat
  cached : Bool
  level : Nat
deriving DecidableEq, Repr

/-- The translation a leaf gives. -/
def transOf (pte level va : Nat) : Trans :=
  { pa := leafPlace pte level va, key := bits pte 56 8, cached := bits pte 6 2 == 0, level := level }

/-- The TLB entry of a holder for a region's address, for a need it permits, a store only with D set (R302, R303). -/
def State.tlbHit (s : State) (holder region va : Nat) : Option TlbEnt :=
  s.tlb.find? fun e => e.holder == holder && e.region == region && va / 2 ^ pageBits e.level == e.page

/-- Drops the entries of a holder for a region's page of any size that contains an address. -/
def State.tlbDrop (s : State) (holder region va : Nat) : State :=
  { s with tlb := s.tlb.filter fun e => !(e.holder == holder && e.region == region && va / 2 ^ pageBits e.level == e.page) }

/-- The number of TLB entries a holder has room for (R13, R303). -/
def tlbRoom (holder : Nat) : Nat := if holder < 4096 then 64 else 4096

/-- The TLBs with an entry installed; a full TLB replaces the earliest installed. The chapters name no victim.
[DESIGN CHOICE, log 107] -/
def State.tlbInstall (s : State) (e : TlbEnt) : State :=
  let s := { s with tlb := s.tlb.filter fun f => !(f.holder == e.holder && f.region == e.region && f.level == e.level && f.page == e.page) }
  let mine := s.tlb.filter (·.holder == e.holder)
  let l := if mine.length < tlbRoom e.holder then s.tlb
    else match mine.head? with | some f => s.tlb.erase f | none => s.tlb
  { s with tlb := l ++ [e] }

/-- The TLB entry that serves a thread's access: its core's, or its tile's, which is then installed in the core's (R303). -/
def State.tlbFor (s : State) (core region va : Nat) : Option TlbEnt × State :=
  match s.tlbHit core region va with
  | some e => (some e, s)
  | none =>
    match s.tlbHit (4096 + tileOf core) region va with
    | some e => (some e, s.tlbInstall { e with holder := core })
    | none => (none, s)

/-- A unit finds a translation missing: its walk joins the pending translations of the tile, and what it does is put off for it, or for the
first of them while all 64 entries are in use (R303). -/
def State.pendUnit (s : State) (core : Option Nat) (tile region va : Nat) (need : Acc3) : State :=
  let mine := s.walks.filter fun w => w.tile == tile && w.failed.isNone
  match mine.find? fun w => w.region == region && w.va.toNat / 65536 == va / 65536 with
  | some w => s.putOff (.walk w.id)
  | none =>
    if 64 ≤ mine.length then s.putOff (.walk ((mine.head?.map Walk.id).getD 0))
    else
    let (id, s) := (s.putOff (.walk s.nextId)).fresh
    let w : Walk := { id := id, tile := tile, core := core.getD (coreOfTile tile 0), slot := foreignSrc, region := region,
                      va := BitVec.ofNat 64 va, need := need, source := 0, unit := true }
    { s with walks := s.walks ++ [w] }

/-- Translation for a unit of a tile that waits for its own walk: a core's sequencer, a matrix unit, the stride engine or the
Vault's front end (R303). A TLB entry serves it; on a miss `stalled` is set, and the unit tries again once the walk has installed an
entry or failed. -/
def State.unitXlate (s : State) (core : Option Nat) (tile region va : Nat) (need : Acc3) : Except (Cause × Nat) Trans × State :=
  let (hit, s) := match core with
    | some c => s.tlbFor c region va
    | none => (s.tlbHit (4096 + tile) region va, s)
  let missed (s : State) : Except (Cause × Nat) Trans × State :=
    match s.walks.find? fun w => w.unit && w.tile == tile && w.region == region && w.va.toNat / 65536 == va / 65536 && w.need == need &&
        w.failed.isSome with
    | some w => (.error (w.failed.getD (.page, 0)), { s with walks := s.walks.map fun v => if v = w then { w with stale := true } else v })
    | none => (.error (.page, 0), s.pendUnit core tile region va need)
  match hit with
  | some e =>
    if !leafPermits need e.pte.toNat || !s.keyPermits region (bits e.pte.toNat 56 8) then (.error (.rights, 0), s)
    else if need.stores && !bit e.pte.toNat 4 then missed s
    else (.ok (transOf e.pte.toNat e.level va), s)
  | none => missed s

/-- Translation of a global address on behalf of what makes the present step (R303): a thread and an engine use the TLBs of their core
and tile and its walkers; a unit without a TLB, a hub or the region manager, walks by itself. [DESIGN CHOICE, log 123] -/
def State.xlate (s : State) (region va : Nat) (need : Acc3) : Except (Cause × Nat) Trans × State :=
  match s.work.bind fun w => w.tile.map fun t => (w.core, t) with
  | some (core, tile) => s.unitXlate core tile region (va % 2 ^ 56) need
  | none =>
    match s.walk region (va % 2 ^ 56) need with
    | (.leaf pte level _, t) => (.ok (transOf pte level (va % 2 ^ 56)), t)
    | (.fault c l _, t) => (.error (c, l), t)

/-! ## Reads and writes that a unit makes at homes through a region's translation -/

/-- A word read at the home through a region's translation with the R right. -/
def State.devRead (s : State) (region va : Nat) : Except (Cause × Nat) Word × State :=
  match s.xlate region va .r with
  | (.error e, t) => (.error e, t)
  | (.ok x, t) =>
    let lost := t.unitLost x.pa x.key
    let t := (t.unitHome x.pa x.key false).correct (wordOf x.pa)
    if lost then (.error (.rights, 0), t.logErr 1 0 0 (BitVec.ofNat 64 va))
    else if t.homeBad x.pa then (.error (.machine, 0), t.logErr 4 0 0 (BitVec.ofNat 64 (wordOf x.pa)))
    else (.ok (BitVec.ofNat 64 (t.homeNum x.pa 8)), t)

/-- A word written at the home through a region's translation with the W right. [DEDUCED, log 29] -/
def State.devWrite (s : State) (region va : Nat) (v : Word) : Except (Cause × Nat) Unit × State :=
  match s.xlate region va .w with
  | (.error e, t) => (.error e, t)
  | (.ok x, t) =>
    let lost := t.unitLost x.pa x.key
    let t := t.unitHome x.pa x.key true
    if lost then (.error (.rights, 0), t.logErr 1 0 0 (BitVec.ofNat 64 va))
    else if t.homeMergeBad x.pa 8 then (.error (.machine, 0), t.logErr 4 0 0 (BitVec.ofNat 64 (wordOf x.pa))) else (.ok (), t.homeSet x.pa 8 v.toNat)

/-- `n` words read from an address on; the first fault ends it. -/
def State.devReads (s : State) (region va : Nat) : Nat → Except (Cause × Nat) (List Word) × State
  | 0 => (.ok [], s)
  | n + 1 =>
    match s.devRead region va with
    | (.error e, t) => (.error e, t)
    | (.ok w, t) =>
      match t.devReads region (va + 8) n with
      | (.error e, u) => (.error e, u)
      | (.ok l, u) => (.ok (w :: l), u)

/-- Words written from an address on; the first fault ends it. -/
def State.devWrites (s : State) (region va : Nat) : List Word → Except (Cause × Nat) Unit × State
  | [] => (.ok (), s)
  | w :: r =>
    match s.devWrite region va w with
    | (.error e, t) => (.error e, t)
    | (.ok _, t) => t.devWrites region (va + 8) r

/-- A word of physical memory at its home, in plaintext (host launches and `MEMRD`). -/
def State.physRead (s : State) (pa : Nat) : Word × State :=
  let t := (s.unitHome pa 0 false).correct (wordOf pa)
  (BitVec.ofNat 64 (t.homeNum pa 8), t)

/-- `n` words of physical memory. -/
def State.physReads (s : State) (pa : Nat) : Nat → List Word × State
  | 0 => ([], s)
  | n + 1 =>
    let (w, t) := s.physRead pa
    let (l, u) := t.physReads (pa + 8) n
    (w :: l, u)

/-- The words of a list as one number, the first lowest. -/
def wordsNum : List Word → Nat
  | [] => 0
  | w :: r => w.toNat + 2 ^ 64 * wordsNum r

end Sys2Proof.Machine
end

