-- ==== Sys2Proof/Machine/Operands.lean ====
section
/-! DEFINITION. The operand forms: which general registers an instruction names (R61), the bindings of hardware queues (R55,
R56), immediates (R62) and effective addresses (R130). -/

namespace Sys2Proof.Machine

/-- The mask register of a vector instruction; 0x7F enables every lane and names none (R61). -/
def maskReg (g : Nat) : List Nat := if g = 127 then [] else [g]

/-- The general registers that an instruction names in its fields or uses implicitly as R61 lists them. -/
def named : Instr → List Nat
  | .add d a b => [d, a, b]
  | .sub d a b => [d, a, b]
  | .mul d a b => [d, a, b]
  | .mulh d a b => [d, a, b]
  | .mulhn d a b => [d, a, b]
  | .div d a b => [d, a, b]
  | .divn d a b => [d, a, b]
  | .rem d a b => [d, a, b]
  | .remn d a b => [d, a, b]
  | .min d a b => [d, a, b]
  | .max d a b => [d, a, b]
  | .minn d a b => [d, a, b]
  | .maxn d a b => [d, a, b]
  | .abs d a => [d, a]
  | .and d a b => [d, a, b]
  | .or d a b => [d, a, b]
  | .xor d a b => [d, a, b]
  | .andn d a b => [d, a, b]
  | .orn d a b => [d, a, b]
  | .xnor d a b => [d, a, b]
  | .shl d a b => [d, a, b]
  | .shr d a b => [d, a, b]
  | .sar d a b => [d, a, b]
  | .rol d a b => [d, a, b]
  | .ror d a b => [d, a, b]
  | .popc d a => [d, a]
  | .clz d a => [d, a]
  | .ctz d a => [d, a]
  | .brev d a => [d, a]
  | .bswap d a => [d, a]
  | .bext d a b => [d, a, b]
  | .bdep d a b => [d, a, b]
  | .sextS8 d a => [d, a]
  | .sextS16 d a => [d, a]
  | .sextS32 d a => [d, a]
  | .zextN8 d a => [d, a]
  | .zextN16 d a => [d, a]
  | .zextN32 d a => [d, a]
  | .padd d a b _ => [d, a, b]
  | .psub d a b _ => [d, a, b]
  | .paddsS d a b _ => [d, a, b]
  | .paddsN d a b _ => [d, a, b]
  | .psubsS d a b _ => [d, a, b]
  | .psubsN d a b _ => [d, a, b]
  | .pmin d a b _ => [d, a, b]
  | .pmax d a b _ => [d, a, b]
  | .pminn d a b _ => [d, a, b]
  | .pmaxn d a b _ => [d, a, b]
  | .pshl d a b _ => [d, a, b]
  | .pshr d a b _ => [d, a, b]
  | .psar d a b _ => [d, a, b]
  | .pshlV d a b _ => [d, a, b]
  | .pshrV d a b _ => [d, a, b]
  | .psarV d a b _ => [d, a, b]
  | .pcmp d a b _ _ => [d, a, b]
  | .mov d a => [d, a]
  | .pmovToG d => [d]
  | .pmovToPw a => [a]
  | .sel d a b _ _ => [d, a, b]
  | .addi d a _ => [d, a]
  | .andi d a _ => [d, a]
  | .ori d a _ => [d, a]
  | .xori d a _ => [d, a]
  | .shli d a _ => [d, a]
  | .shri d a _ => [d, a]
  | .sari d a _ => [d, a]
  | .rori d a _ => [d, a]
  | .bfx d a _ _ => [d, a]
  | .bfi d a _ _ => [d, a]
  | .lim d _ => [d]
  | .limH d _ _ => [d]
  | .addpc d _ => [d]
  | .cmp _ _ a b _ => [a, b]
  | .cmpi _ _ a _ => [a]
  | .plog _ _ _ _ => []
  | .b _ _ _ => []
  | .j _ => []
  | .call _ => []
  | .callr a => [a]
  | .jr a => [a]
  | .ret => []
  | .objset a b => [a, b]
  | .mfs d _ => [d]
  | .mts d _ => [d]
  | .mtsPortmap d => [d]
  | .mtsVl d => [d]
  | .mtsFpstat d => [d]
  | .mtsRndseed d => [d]
  | .mtsCarve d => [d]
  | .mtsLandn d => [d]
  | .trap _ => []
  | .svc _ => []
  | .svcSetCarve => []
  | .svcSetVgroup => []
  | .svcSetLandn => []
  | .svcSetAccmap => []
  | .svcLaunch => []
  | .eret d => [d]
  | .yield => []
  | .park => []
  | .hint _ _ _ => []
  | .ldD t b _ _ => [t, b]
  | .stD t b _ _ => [t, b]
  | .ld t b _ _ => [t, b]
  | .ldx t b x _ => [t, b, x]
  | .st t b _ _ => [t, b]
  | .stx t b x _ => [t, b, x]
  | .ldm d a n => a :: range' d (n + 1)
  | .stm d a n => a :: range' d (n + 1)
  | .ldfe t b _ _ => [t, b]
  | .ldff t b _ _ => [t, b]
  | .stfe t b _ _ => [t, b]
  | .stf t b _ _ => [t, b]
  | .sete b _ _ => [b]
  | .feq t b _ _ => [t, b]
  | .ldfeStrand t b => [t, b]
  | .ldffStrand t b => [t, b]
  | .seteStrand t => [t]
  | .feqStrand t b => [t, b]
  | .fence _ => []
  | .discard b _ _ => [b]
  | .flush b _ _ => [b]
  | .inval b _ _ => [b]
  | .pref b _ _ => [b]
  | .tlbinvPage b _ => [b]
  | .tlbinvRegion _ => []
  | .hop b _ => [b]
  | .sendr t b _ _ => [t, b]
  | .arrive t b _ _ => [t, b]
  | .arriveRelaxed t b _ _ => [t, b]
  | .hwait t b _ _ => [t, b]
  | .htest t b _ _ => [t, b]
  | .pubf a => [a]
  | .sync a => [a]
  | .done => []
  | .tcbnew d a => [d, a]
  | .tcbsucc a b => [a, b]
  | .tcbpred a b => [a, b]
  | .spawn d _ => [d]
  | .waitt a => [a]
  | .waita a => [a]
  | .tfirst d => [d]
  | .tclr a => [a]
  | .cwait a b => [a, b]
  | .cread d a => [d, a]
  | .rdpace d => [d]
  | .vclaim _ g => [g]
  | .vfree => []
  | .repf _ _ g => [g]
  | .vwait => []
  | .vld _ a g _ => [a] ++ maskReg g
  | .vlds _ a b g _ => [a, b] ++ maskReg g
  | .vldx _ a _ g _ => [a] ++ maskReg g
  | .vldPostinc _ a g _ => [a] ++ maskReg g
  | .vst _ a g _ => [a] ++ maskReg g
  | .vsts _ a b g _ => [a, b] ++ maskReg g
  | .vstx _ a _ g _ => [a] ++ maskReg g
  | .vstPostinc _ a g _ => [a] ++ maskReg g
  | .vbcast _ b g => [b] ++ maskReg g
  | .vmovg d _ _ => [d]
  | .vmovl _ b _ => [b]
  | .viota _ g => maskReg g
  | .vfadd _ _ _ g => maskReg g
  | .vfsub _ _ _ g => maskReg g
  | .vfmul _ _ _ g => maskReg g
  | .vfma _ _ _ g => maskReg g
  | .vfnma _ _ _ g => maskReg g
  | .vfmin _ _ _ g => maskReg g
  | .vfmax _ _ _ g => maskReg g
  | .vfabs _ _ g => maskReg g
  | .vfneg _ _ g => maskReg g
  | .vfcmp d _ _ g _ => [d] ++ maskReg g
  | .vadd _ _ _ g => maskReg g
  | .vsub _ _ _ g => maskReg g
  | .vmul _ _ _ g => maskReg g
  | .vmulh _ _ _ g => maskReg g
  | .vmulhn _ _ _ g => maskReg g
  | .vand _ _ _ g => maskReg g
  | .vor _ _ _ g => maskReg g
  | .vxor _ _ _ g => maskReg g
  | .vandn _ _ _ g => maskReg g
  | .vshl _ _ _ g => maskReg g
  | .vshr _ _ _ g => maskReg g
  | .vsar _ _ _ g => maskReg g
  | .vrol _ _ _ g => maskReg g
  | .vmin _ _ _ g => maskReg g
  | .vmax _ _ _ g => maskReg g
  | .vminn _ _ _ g => maskReg g
  | .vmaxn _ _ _ g => maskReg g
  | .vsel _ _ _ g => maskReg g
  | .vpadd _ _ _ g _ => maskReg g
  | .vpshl _ _ _ g _ => maskReg g
  | .vpshr _ _ _ g _ => maskReg g
  | .vcmp d _ _ g _ => [d] ++ maskReg g
  | .vcvt _ _ _ _ g _ _ => maskReg g
  | .vexp2 _ _ g => maskReg g
  | .vlog2 _ _ g => maskReg g
  | .vrcp _ _ g => maskReg g
  | .vrsq _ _ g => maskReg g
  | .vsqrt _ _ g => maskReg g
  | .vtanh _ _ g => maskReg g
  | .vredaddF32 d _ g => [d] ++ maskReg g
  | .vredaddS32 d _ g => [d] ++ maskReg g
  | .vredminF32 d _ g => [d] ++ maskReg g
  | .vredminS32 d _ g => [d] ++ maskReg g
  | .vredminN32 d _ g => [d] ++ maskReg g
  | .vredmaxF32 d _ g => [d] ++ maskReg g
  | .vredmaxS32 d _ g => [d] ++ maskReg g
  | .vredmaxN32 d _ g => [d] ++ maskReg g
  | .vperm _ _ _ g => maskReg g
  | .vslide _ _ b g => [b] ++ maskReg g
  | .vcompress _ _ g => maskReg g
  | .vexpand _ _ g => maskReg g
  | .aadd a b c _ _ _ => [a, b, c]
  | .afadd a b c _ _ _ => [a, b, c]
  | .amin a b c _ _ _ => [a, b, c]
  | .amax a b c _ _ _ => [a, b, c]
  | .aminn a b c _ _ _ => [a, b, c]
  | .amaxn a b c _ _ _ => [a, b, c]
  | .aand a b c _ _ _ => [a, b, c]
  | .aor a b c _ _ _ => [a, b, c]
  | .axor a b c _ _ _ => [a, b, c]
  | .aswp a b c _ _ _ => [a, b, c]
  | .acas a b c _ _ _ => [a, b, c, c + 1]
  | .cadd a b c _ _ _ => [a, b, c]
  | .fetch a b c _ _ _ => [a, b, c]
  | .push a b c _ _ _ => [a, b, c]
  | .pushX _ a b c _ _ _ => [a, b, c]
  | .pushm _ a b c _ _ _ => [a, b, c]
  | .storeb a b c _ _ _ => [a, b, c]
  | .gather _ a b c _ _ _ _ => [a, b, c]
  | .scatter _ a b c _ _ _ _ _ => [a, b, c]
  | .fabred _ a b c _ _ _ => [a, b, c]
  | .donate _ a b _ _ _ => [a, b]
  | .mclaimClaim a => [a]
  | .mclaimRelease a => [a]
  | .ldw _ a _ => [a]
  | .swpw => []
  | .mma _ a b _ _ _ => [a, b]
  | .mchain b _ _ _ => [b]
  | .munchain a => [a]
  | .mova _ b _ => [b]
  | .msta _ a b _ => [a, b]
  | .mlda _ a b _ => [a, b]
  | .mzero _ => []
  | .msel a b _ => [a, b]
  | .mscale a b _ => [a, b]
  | .mstat a _ => [a]
  | .divideComplete _ => []
  | .replyArrival _ => []
  | .remoteStoreAck _ => []
  | .homeAccess _ => []
  | .nackReceived _ => []
  | .retryParkExpiry _ => []
  | .parkTimeout _ => []
  | .scopeMissReturn _ => []
  | .omegaCombine _ _ => []
  | .combinedReplySplit _ => []
  | .bankMissFill _ => []
  | .conflictQueueServe _ => []
  | .hotWindowEnd _ => []
  | .hotReplicaAck _ => []
  | .redirectInstall _ _ => []
  | .hotLineRecall _ => []
  | .recallWithdraw _ _ => []
  | .recallComplete _ => []
  | .helperEvictReport _ _ => []
  | .redirectDrain _ => []
  | .bridgeFlitReceive _ => []
  | .bridgeAckReceive _ _ => []
  | .bridgeRetrain _ => []
  | .bridgeRetrainDone _ => []
  | .bridgeFailTimeout _ => []
  | .relayFrameReceive _ _ _ => []
  | .relayPortTimeout _ => []
  | .sendrDelivery _ => []
  | .hubAllocate _ => []
  | .stealSweep _ => []
  | .stealRestExpiry _ => []
  | .stealHubAck _ => []
  | .stealArrival _ => []
  | .tcbDecrement _ _ => []
  | .taskRetire _ _ => []
  | .dequeRefillArrival _ => []
  | .migrationArrival _ => []
  | .landingQueueTake _ => []
  | .landingAck _ => []
  | .bounceReturn _ => []
  | .landnRaiseComplete _ => []
  | .vectorStep _ => []
  | .vectorPendingWrite _ => []
  | .vectorElementReply _ => []
  | .matrixArraySelect _ => []
  | .matrixOpStart _ => []
  | .matrixOpRetire _ => []
  | .accAccessAttempt _ => []
  | .engineComplete _ => []
  | .strideSpillReturn _ => []
  | .pushmMemberAck _ _ => []
  | .pushXTimeout _ => []
  | .fabredRankTimeout _ _ => []
  | .donateAnswer _ _ => []
  | .donateTimeout _ => []
  | .donationReceive _ _ _ _ _ => []
  | .donationDrain _ _ => []
  | .handlerOwedStart _ => []
  | .eventDelivery _ _ _ _ => []
  | .preemptDecision _ => []
  | .preemptRequestArrival _ => []
  | .preemptSaveComplete _ => []
  | .threadRestore _ => []
  | .threadStale _ => []
  | .translationWalk _ => []
  | .walkComplete _ => []
  | .levelChange _ => []
  | .clockRestart _ => []
  | .shutterUpdate _ _ => []
  | .billingSend => []
  | .billingReceive _ _ => []
  | .pacerEpochReceive _ => []
  | .pacerCeilingApply => []
  | .pacerAnnounce _ _ => []
  | .leaderAnnounceHandle _ _ _ _ => []
  | .announceRejected => []
  | .hardDrop _ => []
  | .leaderRaise _ => []
  | .pacerHeartbeat => []
  | .proposalChange _ => []
  | .memberSilence _ => []
  | .leaderSilence => []
  | .slackWindowEnd => []
  | .launch _ _ _ _ _ => []
  | .memrd _ _ _ => []
  | .memwr _ _ _ => []
  | .exrd _ _ _ _ => []
  | .exwr _ _ _ _ => []
  | .regctlHalt _ _ => []
  | .regctlResume _ _ => []
  | .regctlEnd _ _ => []
  | .setobj _ _ _ _ => []
  | .logrd _ => []
  | .energyrd _ _ => []
  | .hkrd _ _ => []
  | .semtake _ => []
  | .semgive _ => []
  | .keyloadClear _ _ => []
  | .keyloadLoad _ _ _ _ => []
  | .fwupd _ _ => []
  | .reset _ => []
  | .setchip _ _ => []
  | .groupJoin _ _ => []
  | .groupLeave _ _ => []
  | .route _ _ _ => []
  | .wqcfg _ _ _ _ => []
  | .caprd _ _ _ _ => []
  | .attest _ _ => []
  | .controlBadcmd _ _ => []
  | .foreignFrame => []
  | .ctlsemTimeout => []
  | .wicketEgress _ => []
  | .replayHeldAccess _ => []
  | .powerOnReset => []
  | .discoveryFloodReceive _ _ => []
  | .discoveryAnswer _ _ => []
  | .discoveryTimeout => []
  | .relayLinkRetrain _ => []
  | .relayLinkRetrainDone _ => []
  | .lineEviction _ _ => []
  | .patrolScrub _ => []
  | .replayExternalInput _ _ => []

/-- Whether an instruction only writes the first register that it names. -/
def writesFirst : Instr → Bool
  | .add _ _ _ | .sub _ _ _ | .mul _ _ _ | .mulh _ _ _ | .mulhn _ _ _ | .div _ _ _ | .divn _ _ _ | .rem _ _ _ | .remn _ _ _
  | .min _ _ _ | .max _ _ _ | .minn _ _ _ | .maxn _ _ _ | .abs _ _ | .and _ _ _ | .or _ _ _ | .xor _ _ _ | .andn _ _ _ | .orn _ _ _
  | .xnor _ _ _ | .shl _ _ _ | .shr _ _ _ | .sar _ _ _ | .rol _ _ _ | .ror _ _ _ | .popc _ _ | .clz _ _ | .ctz _ _ | .brev _ _
  | .bswap _ _ | .bext _ _ _ | .bdep _ _ _ | .sextS8 _ _ | .sextS16 _ _ | .sextS32 _ _ | .zextN8 _ _ | .zextN16 _ _ | .zextN32 _ _
  | .padd _ _ _ _ | .psub _ _ _ _ | .paddsS _ _ _ _ | .paddsN _ _ _ _ | .psubsS _ _ _ _ | .psubsN _ _ _ _ | .pmin _ _ _ _
  | .pmax _ _ _ _ | .pminn _ _ _ _ | .pmaxn _ _ _ _ | .pshl _ _ _ _ | .pshr _ _ _ _ | .psar _ _ _ _ | .pshlV _ _ _ _ | .pshrV _ _ _ _
  | .psarV _ _ _ _ | .pcmp _ _ _ _ _ | .mov _ _ | .pmovToG _ | .sel _ _ _ _ _ | .addi _ _ _ | .andi _ _ _ | .ori _ _ _ | .xori _ _ _
  | .shli _ _ _ | .shri _ _ _ | .sari _ _ _ | .rori _ _ _ | .bfx _ _ _ _ | .lim _ _ | .addpc _ _ | .mfs _ _ | .ldD _ _ _ _
  | .ld _ _ _ _ | .ldx _ _ _ _ | .ldfe _ _ _ _ | .ldff _ _ _ _ | .feq _ _ _ _ | .ldfeStrand _ _ | .ldffStrand _ _ | .seteStrand _
  | .feqStrand _ _ | .arrive _ _ _ _ | .arriveRelaxed _ _ _ _ | .htest _ _ _ _ | .aadd _ _ _ _ _ _ | .afadd _ _ _ _ _ _
  | .amin _ _ _ _ _ _ | .amax _ _ _ _ _ _ | .aminn _ _ _ _ _ _ | .amaxn _ _ _ _ _ _ | .aand _ _ _ _ _ _ | .aor _ _ _ _ _ _
  | .axor _ _ _ _ _ _ | .aswp _ _ _ _ _ _ | .acas _ _ _ _ _ _ | .cadd _ _ _ _ _ _ | .tcbnew _ _ | .tfirst _ | .cread _ _ | .rdpace _
  | .vclaim _ _ | .vmovg _ _ _ | .vfcmp _ _ _ _ _ | .vcmp _ _ _ _ _ | .vredaddF32 _ _ _ | .vredaddS32 _ _ _ | .vredminF32 _ _ _
  | .vredminS32 _ _ _ | .vredminN32 _ _ _ | .vredmaxF32 _ _ _ | .vredmaxS32 _ _ _ | .vredmaxN32 _ _ _ | .munchain _ | .mclaimClaim _ | .mclaimRelease _ | .mstat _ _ => true
  | _ => false

/-- The general registers that an instruction reads without naming them: the link of `RET`, the frame pointer that `SPAWN` and `SYNC`
record (R46, R149), the operand of a service (R123). -/
def implied : Instr → List Nat
  | .ret => [2]
  | .spawn _ _ => [1]
  | .sync _ => [1]
  | .svcSetCarve => [4]
  | .svcSetVgroup => [4]
  | .svcSetLandn => [4]
  | .svcSetAccmap => [4]
  | .svcLaunch => [4]
  | _ => []

/-- The general registers that an instruction reads (R307): of an `LDM` the base alone. -/
def sources (i : Instr) : List Nat :=
  match i with
  | .ldm _ a _ => [a]
  | i => (if writesFirst i then (named i).drop 1 else named i) ++ implied i


/-- The majors and forms a repeat body may hold (R169): vector instructions that write no general register, and the
post-increment loads and stores. -/
def bodyAllowed (i : Instr) : Bool :=
  let w := i.w0
  let m := bits w 26 6
  m == 0x29 || m == 0x2A || (m == 0x2B && bits w 0 4 != 1) || m == 0x2C || m == 0x2E || m == 0x2F || m == 0x31 || m == 0x32 ||
    m == 0x34

/-- sext(x, n) of a field, as a word (R10). -/
def sext (x n : Nat) : Word := BitVec.ofInt 64 (sextInt x n)

/-- The hardware queue that an enabled binding of `PORTMAP` gives a register (R55). -/
def bindOf (pm : Word) (r : Nat) : Option Nat :=
  ((range' 0 4).find? fun i => bit pm.toNat (16 * i + 15) && bits pm.toNat (16 * i) 7 == r).map fun i => bits pm.toNat (16 * i + 8) 3

/-- Whether `PORTMAP` has an enabled binding (R52). -/
def anyBound (pm : Word) : Bool := (range' 0 4).any fun i => bit pm.toNat (16 * i + 15)

/-- Bytes of an element of a type code of major 0x1A (R64). -/
def typeBytes (y : Nat) : Nat := if y < 2 then 1 else if y < 4 then 2 else if y < 6 then 4 else 8

/-- Extension of a loaded element by its type code (R134). -/
def extend (y v : Nat) : Word :=
  if y = 6 then BitVec.ofNat 64 v else if y % 2 = 0 then sext (v % 2 ^ (8 * typeBytes y)) (8 * typeBytes y)
  else BitVec.ofNat 64 (v % 2 ^ (8 * typeBytes y))

end Sys2Proof.Machine
end

