-- ==== Sys2Proof/Machine/Network.lean ====
section
/-! DEFINITION. The way of requests, answers and other messages: where a place lives (R20, R252), the transom bridges (R17, R254,
R265), Relay (R333), combining at the omega switches (R255, R256), and the write-backs of L1 lines (R234, R235, R238). -/

namespace Sys2Proof.Machine

/-- A region and its ancestors, the region first. -/
def State.lineage (s : State) : Nat → Nat → List Nat
  | 0, r => [r]
  | n + 1, r =>
    match s.region? r with
    | some g => match g.parent with | some p => r :: s.lineage n p | none => [r]
    | none => [r]

/-- A region and its ancestors up to the root (R30: at most 8 levels). -/
def State.ancestry (s : State) (r : Nat) : List Nat := s.lineage 8 r

/-- A thread's context, in its slot or, from 2^20 on, in its save image (R299). -/
def State.thread (s : State) (k : Nat) : Slot :=
  if k < 2 ^ 20 then s.slot k else match s.images.find? (·.id == k - 2 ^ 20) with | some m => m.slot | none => {}

/-- The state with a thread's context changed. -/
def State.modThread (s : State) (k : Nat) (f : Slot → Slot) : State :=
  if k < 2 ^ 20 then s.modSlot k f
  else { s with images := s.images.map fun m => if m.id = k - 2 ^ 20 then { m with slot := f m.slot } else m }

/-- The name of a thread as its record gives it (R288). -/
def State.threadName (s : State) (k : Nat) : Word :=
  if k < 2 ^ 20 then s.nameOf k
  else match s.images.find? (·.id == k - 2 ^ 20) with
    | some m => BitVec.ofNat 64 (s.host.modid * 2 ^ 44 + m.core * 2 ^ 32 + slotNo m.origin * 2 ^ 16 + m.slot.region)
    | none => 0

/-! ## Where a place lives -/

/-- Whether a place lies in the privileged window of a core (R24). -/
def isPriv (p : Nat) : Bool := 2 ^ 56 ≤ p && p < 2 ^ 57 && 0x80000000 ≤ p % 2 ^ 32

/-- Whether a place lies among the synchronisation words of a hub (R24). -/
def isHubWord (p : Nat) : Bool := 2 ^ 56 ≤ p && p < 2 ^ 57 && 0x40008000 ≤ p % 2 ^ 32 && p % 2 ^ 32 < 0x40010000

/-- Whether a place is a word of the Pacer status page (R26). -/
def isPacer (p : Nat) : Bool := 2 ^ 57 + 2 ^ 20 ≤ p && p < 2 ^ 57 + 2 ^ 20 + 4096

/-- Whether a place is a chip counter (R26). -/
def isCounter (p : Nat) : Bool := 2 ^ 57 + 2 ^ 21 ≤ p && p < 2 ^ 57 + 2 ^ 21 + 2 ^ 20

/-- The core of a place in core space. -/
def placeCore (p : Nat) : Nat := (p - 2 ^ 56) / 2 ^ 32

/-- The home that performs accesses to a place, as a number: a slice, a core, a hub, or the I/O complex (R20). -/
def homeUnit (p : Nat) : Nat :=
  if isHbm p then homeBank p / 4
  else if p < 2 ^ 57 then
    if isHubWord p then 2 ^ 17 + clusterOf (placeCore p) else 2 ^ 16 + placeCore p
  else 2 ^ 18

/-- The deferral buffer of a place and its size (R138, R260, R216, R332). -/
def deferBuf (p : Nat) : Nat × Nat :=
  if isHbm p then (homeBank p, 64)
  else if p < 2 ^ 57 then
    if isHubWord p then (2 ^ 17 + clusterOf (placeCore p), 32) else (2 ^ 16 + placeCore p, 16)
  else if isWicket p then (2 ^ 18 + 1, 256) else (2 ^ 18, 256)

/-- The die of a place's home; the I/O complex stands at every die's core (0,0) (R15). -/
def homeDie (p from_ : Nat) : Nat :=
  if isHbm p then homeBank p / 1024 else if p < 2 ^ 57 then dieOf (placeCore p) else from_

/-! ## Transom bridges (R17, R254, R265) -/

/-- The state with a bridge direction changed. -/
def State.modBridge (s : State) (d : Nat) (f : Bridge → Bridge) : State := { s with bridges := put s.bridges d (f (s.bridge d)) }

/-- The packet that a bridge accepts next: of those offered, a reply before push data and push data before a request, each
virtual channel in its order (R254). -/
def nextPacket (l : List Packet) : Option Packet :=
  match l.find? fun p => p.cls == 1 with
  | some p => some p
  | none => match l.find? fun p => p.cls == 2 with
    | some p => some p
    | none => l.head?

/-- What a flit with some bytes left takes of the packet under way and of those offered (R265): its parts, the packet of which a
part is left, and those still offered. -/
def packFlit : Nat → Nat → Option (Packet × Nat) → List Packet → List FlitPart × Option (Packet × Nat) × List Packet
  | 0, _, part, l => ([], part, l)
  | fuel + 1, room, part, l =>
    if room = 0 then ([], part, l)
    else
      let go (p : Packet) (left : Nat) (l : List Packet) : List FlitPart × Option (Packet × Nat) × List Packet :=
        let here : FlitPart := { ref := p.ref, first := left == p.bytes, last := left ≤ room }
        if left ≤ room then
          let (r, q, m) := packFlit fuel (room - left) none l
          (here :: r, q, m)
        else ([here], some (p, left - room), l)
      match part with
      | some (p, left) => go p left l
      | none =>
        match nextPacket l with
        | none => ([], none, l)
        | some p => go p p.bytes (l.erase p)

/-- Sends flits while fewer than 64 are unacknowledged (R265). -/
def State.pump (s : State) (d : Nat) : Nat → State
  | 0 => s
  | n + 1 =>
    let b := s.bridge d
    if b.replay.length < 64 && b.st == .up && (b.part.isSome || b.offered != []) then
      let (parts, part, offered) := packFlit 20 256 b.part b.offered
      let f : Flit := { seq := b.next, parts := parts }
      let s := s.modBridge d fun b =>
        { b with next := (b.next + 1) % 4096, part := part, offered := offered, wire := b.wire ++ [f], replay := b.replay ++ [f] }
      (s.later (.bridgeFlitReceive d)).pump d n
    else s

/-- A packet is offered to a bridge, which accepts it when it is whole and its channel's turn has come (R265). -/
def State.offer (s : State) (d : Nat) (ref : PktRef) (cls bytes : Nat) : State :=
  (s.modBridge d fun b => { b with offered := b.offered ++ [{ ref := ref, cls := cls, bytes := bytes }] }).pump d 64

/-- Bytes of a request's packet (R254): a header of 16 B and the payload. -/
def reqBytes (q : Req) : Nat :=
  match q.op with
  | .store _ => 24
  | .atomic .cas _ => 32
  | .atomic _ _ => 24
  | .stfe => 24
  | .stf => 24
  | .hwait => 24
  | .cwait => 24
  | .wback => 160
  | _ => 16

/-- Bytes of an answer's packet. -/
def repBytes : HomeAns → Nat
  | .ok _ => 24
  | .line _ _ _ _ => 160
  | _ => 16

/-- What becomes of a message whose way crosses a failed bridge (R266): a register delivery, a migration, a steal's claim and a bank's miss get an
error response; an answer, or a message that asks for none, reaches its end. [DESIGN CHOICE, log 88] -/
def failEvent : Ev → Ev
  | .sendrDelivery id => .sendrAnswer id 3
  | .stackRead line => .fillFailed line
  | .stealHubAck core => .stealRefused core
  | .migrationArrival id => .migrationError id
  | .visitHome id => .visitCut id
  | .discoveryFloodReceive _ _ => .packetEnd
  | .discoveryAnswer _ _ => .packetEnd
  | e => e

/-- A packet of a message offered to the first bridge of its way. -/
def State.launchParcel (s : State) (e : Ev) (d : Nat) (r : List Nat) (cls bytes : Nat) : State :=
  let (id, s) := s.fresh
  let p : Parcel := { id := id, ev := e, hops := d :: r, cls := cls, bytes := bytes }
  { s with parcels := s.parcels ++ [p] }.offer d (.parcel id) cls bytes

/-- A message sets out: its event happens when it has crossed its bridges. A packet has at most 256 B of payload (R254): what is longer goes
in several packets, and the last brings the event. -/
def State.travel (s : State) (e : Ev) (from_ to_ cls bytes : Nat) : State :=
  match bridgePath from_ to_ with
  | [] => s.later e
  | d :: r =>
    if (s.bridge d).st = .failed then s.later (failEvent e)
    else
      let n := (bytes - 17) / 256
      ((range' 0 n).foldl (fun t _ => t.launchParcel .packetEnd d r cls 272) s).launchParcel e d r cls (bytes - 256 * n)

/-! ## What a step that is put off asks for -/

/-- The miss of a bank sent to the line's stack (R253), over the bridges where it stands at another die. -/
def State.askStack (s : State) (line : Nat) : State :=
  let die := homeBank (128 * line) / 1024
  if stackOf line / 2 = die then s.later (.bankMissFill line) else s.travel (.stackRead line) die (stackOf line / 2) 0 16

/-- The holder of a line's lock that is no request: the fill that a unit's access asks for, under a key. -/
def fillHolder (key : Nat) : Nat := 2 ^ 40 + key

/-- The event of an access that crosses bridges for a step that is put off. -/
def State.sendVisit (s : State) (from_ to_ place out back : Nat) : State :=
  match s.work with
  | none => s
  | some w =>
    if (s.visit? from_ to_ place).isSome then s
    else
      let (id, s) := s.fresh
      let v : Visit := { id := id, who := w.who, from_ := from_, to_ := to_, place := place, back := back }
      { s with visits := s.visits ++ [v] }.travel (.visitHome id) from_ to_ 0 out

/-- One thing that a step found away is asked for: a line is recalled where it is hot, and else filled under its lock (R259, R263). -/
def State.grant (s : State) : Ask → State
  | .walk _ => s
  | .cross from_ to_ place out back => s.sendVisit from_ to_ place out back
  | .line line key write =>
    if s.lockHeld line || s.cache.conflict.any (·.1 == line) || s.portShut (homeBank (128 * line)) then s
    else if (s.hotOf line).isSome && (write || !s.l2Has line key) then s.ask (.hotLineRecall line)
    else if s.l2Has line key then s
    else ({ s with cache := { s.cache with locks := s.cache.locks ++ [(line, fillHolder key)] } } : State).askStack line

/-- A state in which nothing of a step is done but what it asks for: its walks, its lines, its packets. -/
def State.stallFor (s t : State) : State :=
  let new := t.walks.filter fun w => !s.walks.any fun v => v.id == w.id
  let s : State := { s with walks := s.walks ++ new, nextId := t.nextId }
  t.wants.foldl State.grant (s.laters (new.map fun w : Walk => .translationWalk w.id))

/-- What a unit does at an event: where it is put off, only what it found away is asked for, and the event comes again. -/
def stalling (e : Ev) (f : State → State) (s : State) : State :=
  let t := f s
  if t.stalled then (s.stallFor t).later e else t

/-- The packet of an access reaches its home, and its answer sets out. -/
def visitHome (id : Nat) (s : State) : Out :=
  match s.visits.find? (·.id == id) with
  | none => .fault .notEnabled
  | some v => .next (s.travel (.visitDone id) v.to_ v.from_ 1 v.back)

/-- The state with the packets of an access answered, or cut off. -/
def State.endVisit (s : State) (id : Nat) (failed : Bool) : State :=
  { s with visits := s.visits.map fun v => if v.id = id then { v with done := true, failed := failed } else v }

/-- The answer of an access has come. -/
def visitDone (id : Nat) (s : State) : Out := if s.visits.any (·.id == id) then .next (s.endVisit id false) else .fault .notEnabled

/-- The way of an access's packet crosses a failed bridge (R266). -/
def visitCut (id : Nat) (s : State) : Out :=
  if s.visits.any (·.id == id) then .next (s.endVisit id true) else .fault .notEnabled

/-- The end of a packet that no event waits for. -/
def packetEnd (s : State) : Out := .next s

/-- A register delivery sets out for its slot (R144, R257). -/
def State.sendSendr (s : State) (m : Sendr) : State :=
  let (n, s) := s.fresh
  ({ s with sendrs := s.sendrs.map fun (r : Sendr) => if r.id = m.id then { r with at_ := n } else r } : State).travel
    (.sendrDelivery m.id) (dieOf (coreOf m.src)) (dieOf (coreOf m.target)) 0 24

/-- Whether a message is on its way to its event. -/
def State.onWay (s : State) (e : Ev) : Bool := s.agenda.any (fun d => d.ev == e) || s.parcels.any fun p => p.ev == e

/-- Whether a register delivery, a migration or a request that a core has sent to another before a number is still on its way there: packets
of one pair arrive in the order in which they were sent (R257). -/
def State.behindPair (s : State) (src dst n : Nat) : Bool :=
  (s.sendrs.any fun m => m.at_ < n && coreOf m.src == src && coreOf m.target == dst && s.onWay (.sendrDelivery m.id)) ||
    (s.migs.any fun m => m.id < n && coreOf m.src == src && m.target == dst && s.onWay (.migrationArrival m.id)) ||
    s.reqs.any fun q => q.id < n && q.away.isNone && !q.miss && !q.drain && s.onWay (.homeAccess q.id) && srcCore q.src == src &&
      homeUnit q.place == 2 ^ 16 + dst

/-! ## Relay -/

/-- A port of Relay. -/
def State.port (s : State) (p : Nat) : Port := (find s.ports p).getD {}

/-- A port sends the frames that wait, in order, while fewer than 64 are unacknowledged and its link is up (R333, R265). -/
def State.portPump (s : State) (p : Nat) : State :=
  let t := s.port p
  if t.st != .up then s
  else
    let n := 64 - t.replay.length
    let s : State := { s with ports := put s.ports p { t with replay := t.replay ++ t.held.take n, held := t.held.drop n },
                              out := s.out ++ (t.held.take n).map fun f => .relay p f.1 f.2 }
    if (s.port p).replay = [] || s.agenda.any fun d => d.ev == .relayAck p then s else s.later (.relayAck p)

/-- A frame of packets leaves by a port, behind those that wait there (R333, R265). -/
def State.portSend (s : State) (p : Nat) (pkts : List RelayPkt) : State :=
  let t := s.port p
  ({ s with ports := put s.ports p { t with next := (t.next + 1) % 4096, held := t.held ++ [(t.next, pkts)] } } : State).portPump p

/-- The port a packet for a chip takes: the lowest-numbered live one of its route mask (R333). -/
def State.routePort (s : State) (chip : Nat) : Option Nat :=
  (range' 0 16).find? fun p => bit ((find s.host.routes chip).getD 0) p && (s.port p).st != .failed

/-- A packet sent to another module; none without a live route (R333). -/
def State.relaySend (s : State) (chip tregion : Nat) (body : RelayBody) : Option State :=
  (s.routePort chip).map fun p => s.portSend p [{ target := chip, tregion := tregion, body := body }]

/-- The capture that records a region: its own or an ancestor's. -/
def State.captureOf (s : State) (region : Nat) : Option Capture :=
  s.host.captures.find? fun c => c.live && (s.ancestry region).contains c.region

/-- Whether a region is replayed (R336). -/
def State.replaying (s : State) (region : Nat) : Bool := (s.captureOf region).elim false Capture.replay

/-- Whether a record is one of an access of a core's slot. -/
def CapRec.isOf (core slot : Nat) : CapRec → Bool
  | .access _ c k _ => c == core && k == slot
  | _ => false

/-- The recorded access that a replayed home performs next (R336). -/
def Capture.nextAt (c : Capture) (home : Nat) : Option CapRec :=
  c.recs.find? fun r => match r with | .access h _ _ _ => h == home | _ => false

/-- The core and the slot number of the thread for which an access is made, one in a save image under those it was stopped in. -/
def State.srcSlot (s : State) (src : Nat) : Option (Nat × Nat) :=
  if src < 2 ^ 20 then some (coreOf src, slotNo src)
  else (s.images.find? fun m => 2 ^ 20 + m.id == src).map fun m => (m.core, slotNo m.origin)

/-- Whether an access to a home for a thread of a replayed region comes before its recorded turn (R336). [DEDUCED, log 26] -/
def State.earlyAt (s : State) (region src home : Nat) : Bool :=
  match s.captureOf region, s.srcSlot src with
  | some c, some (core, slot) => c.replay && (match c.nextAt home with
      | some r => !r.isOf core slot
      | none => false)
  | _, _ => false

/-- Whether a replayed access arrives before its recorded turn (R336). -/
def State.early (s : State) (q : Req) : Bool := s.earlyAt q.region q.src (homeUnit q.place)

/-- A packet of a region sent to another module; a replayed region's stays here, since its answer comes from the buffer (R336). -/
def State.relayFor (s : State) (region chip tregion : Nat) (body : RelayBody) : Option State :=
  if s.replaying region then some s else s.relaySend chip tregion body

/-! ## Answers (R131, R254, R295) -/

/-- The event by which an answer lands at its source. -/
def landEvent (r : Rep) : Ev :=
  if r.req.src = splitSrc then .combinedReplySplit r.req.id
  else
    match r.ans, r.req.dest with
    | .nack, _ => .nackReceived r.req.id
    | _, .ack => .remoteStoreAck r.req.id
    | _, .lane _ _ _ _ => .vectorElementReply r.req.id
    | _, _ => .replyArrival r.req.id

/-- A device error log entry for an error response to a request (R295). -/
def State.logReq (s : State) (q : Req) (kind : Nat) : State :=
  let who := if q.src < 2 ^ 20 then s.threadName q.src else if ofCore q.src then s.nameOf (64 * srcCore q.src)
    else if q.src < foreignSrc then s.threadName q.src else q.who
  s.logErr kind q.source who (if kind = 4 then BitVec.ofNat 64 (wordOf (if isHbm q.place then q.place else q.addr.toNat)) else q.addr)

/-- A charge for an access to the region of its accounting tag; another module's is billed (R314, R315). -/
def State.chargeReq (s : State) (q : Req) (n : Nat) : State :=
  let chip := if q.src = foreignSrc then q.chip else s.host.modid
  s.chargeTag (homeUnit q.place) (chip * 65536 + q.region) n

/-- The scope at which the answer of an acquiring request acquires: its own; for `CWAIT` and `CREAD` that of the releasing adds
which the value includes, and for a counter of another module the module's (R216, R239). -/
def State.acqScope (s : State) (q : Req) : Nat :=
  match q.op with
  | .cwait => if q.away.isSome then 5 else (find s.relScopes (wordOf q.place)).getD 0
  | .cread => if q.away.isSome then 5 else (find s.relScopes (wordOf q.place)).getD 0
  | _ => q.scope

/-- The answer to a request, with the bridges of its way; one whose first bridge has failed has none (R266, log 88). -/
def State.repFor (s : State) (q : Req) (a : HomeAns) (from_ die : Nat) : Rep :=
  let hops := if ofCore q.src then bridgePath from_ die else []
  let cut : Bool := match hops with | d :: _ => (s.bridge d).st == .failed | [] => false
  { req := { q with hops := [] }, ans := a, hops := if cut then [] else hops, since := s.tick }

/-- An answer of the list sets out. -/
def State.sendRep (s : State) (r : Rep) : State :=
  match r.hops with
  | [] => s.later (landEvent r)
  | d :: _ => s.offer d (.rep r.req.id) 1 (repBytes r.ans)

/-- An answer goes on its way to the source of its request (R131, R254). -/
def State.answer (s : State) (q : Req) (a : HomeAns) : State :=
  let s := { s with reqs := s.reqs.filter (·.id != q.id), deferred := s.deferred.filter (·.id != q.id),
                    heldReqs := s.heldReqs.filter (·.id != q.id) }
  let q := { q with scope := s.acqScope q }
  if q.src = foreignSrc then (s.relaySend q.chip 0 (.answer q.rid a)).getD s
  else
    let die := if ofCore q.src then dieOf (srcCore q.src) else 0
    let from_ := if q.away.isSome then die else homeDie q.place die
    let r := s.repFor q a from_ die
    ({ s with reps := s.reps ++ [r] } : State).sendRep r

/-- An error response: it is logged (R295). -/
def State.refuse (s : State) (q : Req) (c : Cause) (kind : Nat) : State := (s.logReq q kind).answer q (.err c)

/-! ## Combining at the omega switches (R255, R256) -/

/-- The port of a die's forward network by which a request of a tile enters (R255, R257): its tile's, or that of the tile
at the bridge crossed last. -/
def omegaPort (tile home : Nat) : Nat :=
  let t := tile % 256
  match (bridgePath (tile / 256) home).getLast? with
  | none => t
  | some d =>
    if d = 0 ∨ d = 2 then 16 * (t / 16) else if d = 1 ∨ d = 3 then 16 * (t / 16) + 15
    else if d = 4 ∨ d = 6 then t % 16 else 240 + t % 16

/-- The threads' requests that a request stands for (R256). -/
def State.originals (s : State) : Nat → Req → List Req
  | 0, q => [q]
  | n + 1, q =>
    if q.src = splitSrc then
      match s.splits.find? (·.id == q.id) with
      | some p => s.originals n p.first ++ s.originals n p.second
      | none => [q]
    else [q]

/-- The lowest bit in which two numbers of 8 bits differ. -/
def lowBit (a b : Nat) : Option Nat := (range' 0 8).find? fun i => bit a i != bit b i

/-- The lowest bit of the ports of a request's originals that differs: the switch at which they were combined. -/
def State.combinedAt (s : State) (q : Req) : Nat :=
  let ps := (s.originals 8 q).map fun r => omegaPort (tileOf (srcCore r.src)) (homeDie q.place 0)
  ps.foldl (fun m p => match lowBit p (ps.headD 0) with | some i => Nat.min m i | none => m) 8

/-- Whether an operation is one that switches combine. -/
def combinable : HomeOp → Bool
  | .atomic .add _ => true
  | .atomic .cadd _ => true
  | _ => false

/-- The port by which a request reached its die's forward network. -/
def State.portOf (s : State) (q : Req) : Nat :=
  ((s.originals 8 q).head?.map fun r => omegaPort (tileOf (srcCore r.src)) (homeDie q.place 0)).getD 0

/-- Whether two requests meet at the inputs 0 and 1 of a switch and are fit to be combined there (R256). -/
def State.combines (s : State) (p q : Req) : Bool :=
  let a := s.portOf p
  let b := s.portOf q
  p.id != q.id && isHbm p.place && p.place == q.place && p.op == q.op && combinable p.op && !p.acq && !p.rel && !q.acq && !q.rel &&
    p.scope == q.scope && p.region == q.region && p.chip == q.chip && p.hops == [] && q.hops == [] && !p.miss && !q.miss &&
    !p.locked && !q.locked && !p.drain && !q.drain && !(s.cache.conflict.any fun c => c.2 == p.id || c.2 == q.id) &&
    p.src != foreignSrc && q.src != foreignSrc && (s.captureOf p.region).isNone &&
    (match lowBit a b with
     | some i => i < s.combinedAt p && i < s.combinedAt q && !bit a i && bit b i &&
         decide ((s.splits.filter fun r => homeBank r.first.place / 4 / 256 == homeBank p.place / 4 / 256 &&
           lowBit (s.portOf r.first) (s.portOf r.second) == some i && s.portOf r.first % 2 ^ i == a % 2 ^ i &&
           homeBank r.first.place / 4 % 256 / 2 ^ (i + 1) == homeBank p.place / 4 % 256 / 2 ^ (i + 1)).length < 16)
     | none => false)

/-- The combinings that a request may meet with those in flight. -/
def State.mayCombine (s : State) (q : Req) : State :=
  if combinable q.op && isHbm q.place then
    s.laters (s.reqs.filterMap fun p =>
      if s.combines p q then some (.omegaCombine p.id q.id) else if s.combines q p then some (.omegaCombine q.id p.id) else none)
  else s

/-- A request of the list goes on its way to its home: across the bridges of its path, or to the router that returns it (R243, R257). -/
def State.setOutReq (s : State) (q : Req) : State :=
  if q.miss then s.later (.scopeMissReturn q.id)
  else
    match q.hops with
    | [] => (s.later (.homeAccess q.id)).mayCombine q
    | d :: _ => if (s.bridge d).st = .failed then s.refuse q .rights 1 else s.offer d (.req q.id) 0 (reqBytes q)

/-- A request is sent. -/
def State.send (s : State) (q : Req) : State := ({ s with reqs := s.reqs ++ [q] } : State).setOutReq q

/-! ## The NI of a tile: redirects to helpers (R262, R264) -/

/-- The tile NI's redirect for a line (R262). -/
def State.redirectOf (s : State) (tile line : Nat) : Option Redirect :=
  s.cache.redirects.find? fun r => r.tile == tile && r.line == line

/-- Whether a request is a plain read of the kind counted in R261. -/
def Req.counted (q : Req) : Bool :=
  match q.op, q.dest with
  | .fill, .ifetch => false
  | .fill, .pref => false
  | .fill, _ => true
  | .load _, .lane _ _ _ _ => true
  | _, _ => false

/-- Whether a request is a write, an atomic, a full/empty or a hurdle request, before which a redirect is dropped (R264). -/
def dropsRedirect : HomeOp → Bool
  | .load _ => false
  | .fill => false
  | .cwait => false
  | .cread => false
  | .touch => false
  | .discard => false
  | .flush => false
  | .inval => false
  | _ => true

/-- Whether a tile's NI has sent a read of a line through a redirect that is not answered yet (R264). -/
def State.follows (s : State) (tile line : Nat) : Bool :=
  let hit (q : Req) : Bool := q.redirected && q.place / 128 == line && tileOf (srcCore q.src) == tile
  s.reqs.any hit || s.reps.any fun r => hit r.req

/-- A request that waits in its tile's NI: for reads that follow a redirect, or for write-backs of a widened release (R264, R243). -/
def State.holdBack (s : State) (q : Req) : State := { s with reqs := s.reqs ++ [{ q with drain := true }] }.later (.redirectDrain q.id)

/-- The write-backs of which a test holds that are not acknowledged. -/
def State.backs (s : State) (f : Req → Bool) : Bool :=
  s.reqs.any (fun q => q.op == .wback && f q) || s.reps.any fun r => r.req.op == .wback && f r.req

/-- A request sent through its tile's NI (R262, R264): a counted read follows a redirect, unless its region is in capture mode or it
must come behind a write-back of its cluster (R235); a write, an atomic, a full/empty or a hurdle request drops the redirect and waits
for the reads that follow it. -/
def State.dispatch (s : State) (q : Req) : State :=
  let tile := tileOf (srcCore q.src)
  let line := q.place / 128
  if !isHbm q.place || q.away.isSome then s.send q
  else if q.counted then
    match s.redirectOf tile line with
    | some r =>
      let behind := s.backs fun p => p.place / 128 == line && clusterOf (srcCore p.src) == clusterOf (srcCore q.src)
      if (s.captureOf q.region).isNone && !behind then s.send { q with via := some r.slice, redirected := true } else s.send q
    | none => s.send q
  else if dropsRedirect q.op then
    let s := { s with cache := { s.cache with redirects := s.cache.redirects.filter fun r => !(r.tile == tile && r.line == line) } }
    if s.follows tile line then s.holdBack q else s.send q
  else s.send q

/-! ## Write-backs of L1 lines (R234, R235, R238) -/

/-- An L1 line's dirty bytes set out for the home; the line stays, valid and clean. -/
def State.writeBack (s : State) (core line : Nat) : State :=
  match s.l1 core line with
  | none => s
  | some l =>
    if l.dirty = 0 then s
    else
      let (id, s) := s.fresh
      let q : Req := { id := id, src := unitSrc core, region := 0, op := .wback, addr := BitVec.ofNat 64 (128 * line), place := 128 * line,
                       dest := .wrote, key := l.key, line := l, hops := bridgePath (dieOf core) (homeDie (128 * line) (dieOf core)) }
      (s.setL1 core line l.cleaned).dispatch q

/-- Every dirty line of a core's L1 set out for its home (R238). -/
def State.writeBackAll (s : State) (core : Nat) : State := (s.l1Lines core).foldl (fun t l => t.writeBack core l) s

/-- Whether every write-back of a core numbered below `n` is acknowledged. -/
def State.wbBefore (s : State) (core n : Nat) : Bool := !s.backs fun q => srcCore q.src == core && q.id < n

/-- Whether every request of a core to the home of a line has been performed (R237). -/
def State.pastReqs (s : State) (core line : Nat) : Bool :=
  (s.reqs ++ s.heldReqs).all fun q => !(ofCore q.src && srcCore q.src == core && isHbm q.place && homeBank q.place / 4 == homeBank (128 * line) / 4)

/-- Whether every request of a core to a home has been performed, for a hub those to its TCBs among them (R237). -/
def State.homePast (s : State) (core unit : Nat) : Bool :=
  let mine (e : Ev) : Bool := match e with
    | .tcbDecrement key who => 2 ^ 17 + key / 512 == unit && bits who.toNat 32 12 == core
    | _ => false
  (s.reqs ++ s.heldReqs).all (fun q => !(ofCore q.src && srcCore q.src == core && homeUnit q.place == unit)) &&
    !s.agenda.any (fun d => mine d.ev) && !s.parcels.any fun p => mine p.ev

/-- Whether a core's L1 holds nothing dirty and none of its write-backs is on its way. -/
def State.l1Settled (s : State) (core : Nat) : Bool :=
  (s.cache.l1.all fun p => p.1 / 2 ^ 32 != core || p.2.dirty == 0) && !s.backs fun q => srcCore q.src == core

/-- The hub has the line's dirty bytes written back and drops every copy in the cluster; fills on their way there are not kept
(R235). -/
def State.purge (s : State) (cl line : Nat) : State :=
  ((clusterCores cl).foldl (fun t c => (t.writeBack c line).dropL1 c line) s).noFills fun c l => clusterOf c == cl && l == line

/-- The hub has any other L1 of the cluster write back its dirty bytes and keep the line clean (R235). -/
def State.backOthers (s : State) (core line : Nat) : State :=
  (clusterCores (clusterOf core)).foldl (fun t c => if c = core then t else t.writeBack c line) s

/-- Write-backs of a line by a cluster that are on their way reach the home at once, before an access that a unit performs there in
the same step. -/
def State.absorb (s : State) (cl line : Nat) : State :=
  (s.reqs.filter fun q => q.op == .wback && q.place / 128 == line && clusterOf (srcCore q.src) == cl).foldl
    (fun t q => (t.mergeHome line q.line).answer q (.ok 0)) s

/-- What the L1s of a cluster hold dirty of a line, or have on its way home, is to come into the home's copy in the present step: the
line stands at its home for that write. -/
def State.mergeGate (s : State) (cl line : Nat) : State :=
  let dirty : Bool := (clusterCores cl).any fun c => (s.l1 c line).elim false fun l => l.dirty != 0
  let back : Bool := s.reqs.any fun q => q.op == .wback && q.place / 128 == line && clusterOf (srcCore q.src) == cl
  if dirty || back then s.unitLine line ((find s.cache.l2 line).elim 0 Line.key) true else s

/-- The home's copy made current for an access that a unit performs there in the same step, and every copy in the cluster dropped
(R235). -/
def State.purgeCluster (s : State) (cl line : Nat) : State :=
  let s := s.mergeGate cl line
  ((clusterCores cl).foldl (fun t c => (t.cleanL1 c line).dropL1 c line) (s.absorb cl line)).noFills
    fun c l => clusterOf c == cl && l == line

/-- The same before a read: the copies stay. -/
def State.cleanCluster (s : State) (cl line : Nat) : State :=
  let s := s.mergeGate cl line
  (clusterCores cl).foldl (fun t c => t.cleanL1 c line) (s.absorb cl line)

/-- The home of a global place purged of L1 copies in a cluster before an access there (R235). -/
def State.purgeAround (s : State) (core pa : Nat) : State := s.purgeCluster (clusterOf core) (pa / 128)

end Sys2Proof.Machine
end

