-- ==== Sys2Proof/Machine/Ops.lean ====
section
/-! DEFINITION. The operations that instructions and events share: TCBs and hubs (R36, R37), regions and events (R33, R292),
taking a trap and returning from one (R289 to R291, R124), freeing a slot (R152), release and acquire (R238, R239), and the
issue of an instruction with its window check, its pending registers and its queue bindings (R56, R61, R63, R164). -/

namespace Sys2Proof.Machine

/-! ## Regions -/

/-- Whether region `a` is region `r` or an ancestor of it. -/
def State.isAbove (s : State) (a r : Nat) : Bool := (s.ancestry r).contains a

/-- Whether a region's effective core set grants a cluster (R25). -/
def State.grants (s : State) (r cl : Nat) : Bool :=
  match s.region? r with | some g => g.coreset.getLsbD cl | none => false

/-- Whether a region is halted (R33). -/
def State.halted (s : State) (r : Nat) : Bool :=
  match s.region? r with | some g => g.halted | none => true

/-- Slots held change by one for a region and every ancestor (R273). -/
def State.addHeld (s : State) (r : Nat) : State :=
  (s.ancestry r).foldl (fun t a => t.modRegion a fun g => { g with held := g.held + 1 }) s

/-- Slots held fall by one for a region and every ancestor (R273). -/
def State.subHeld (s : State) (r : Nat) : State :=
  (s.ancestry r).foldl (fun t a => t.modRegion a fun g => { g with held := g.held - 1 }) s

/-- The slot keys that hold a thread. -/
def State.threads (s : State) : List Nat :=
  (s.slots.filter fun p => p.2.st != .empty && p.2.st != .held).map (·.1)

/-- The number that stands, where a unit remembers a region, for one that has ended: its id may pass to another region (R281). -/
def endedRegion : Nat := 65536

/-- The vector and matrix contexts of the cores forget that they last belonged to a region (R159, R188). [DESIGN CHOICE, log 28] -/
def forgetRegion (cores : Tab CoreRec) (r : Nat) : Tab CoreRec :=
  cores.map fun p => (p.1, { p.2 with
    vlast := if p.2.vlast = some r then some endedRegion else p.2.vlast
    mlast := if p.2.mlast = some r then some endedRegion else p.2.mlast })

/-- A region ends when it holds no slot, no TCB but FREE ones, no resume entry and no live child (R281). [DEDUCED, log 61] -/
def State.endCheck (s : State) (r : Nat) : State :=
  match s.region? r with
  | none => s
  | some g =>
    if g.held = 0 && !(s.slots.any fun p => p.2.st != .empty && p.2.region == r) &&
       !(s.tcbs.any fun p => p.2.state != 0 && p.2.region == r) &&
       !(s.images.any fun m => m.slot.region == r) &&
       !(s.regions.any fun p => p.2.parent == some r) then
      { s with regions := del s.regions r, tlb := s.tlb.filter (·.region != r), cores := forgetRegion s.cores r,
               rings := s.rings.filter (·.1 / 65536 != r),
               host := { s.host with
                 stage := if r = 0 ∧ s.host.stage = 3 then 4 else s.host.stage
                 captures := s.host.captures.map fun c => if c.region = r then { c with live := false } else c
                 exports := s.host.exports.filter fun e => e.2.1 != r
                 bindings := s.host.bindings.filter fun e => e.2.1 != r } }
    else s

/-- `endCheck` for a region and its ancestors. -/
def State.endChecks (s : State) (r : Nat) : State := (s.ancestry r).foldl State.endCheck s

/-! ## TCBs and hubs (R34 to R38) -/

/-- The reference of a TCB key (R34). -/
def tcbRef (key : Nat) : TcbRef := BitVec.ofNat 32 (2 ^ 31 + key)

/-- Whether a reference is valid (R34). -/
def refValid (r : TcbRef) : Bool := r.getLsbD 31

/-- The TCB key of a valid reference. -/
def refKey (r : TcbRef) : Nat := r.toNat % 131072

/-- Whether a general register holds a reference that an instruction may name a TCB by (R34, R149). -/
def refOk (v : Word) : Bool := bit v.toNat 31 && bits v.toNat 17 14 == 0 && bits v.toNat 32 32 == 0

/-- The TCB of lowest index that is FREE at a hub (R309). -/
def State.freeTcb? (s : State) (cl : Nat) : Option Nat :=
  (range' (512 * cl) 512).find? fun k => (s.tcb k).state == 0

/-- The cores of a cluster ask their hub again, and the manager looks for a pre-emption (R50, R276, R278). -/
def State.askHub (s : State) (cl : Nat) : State :=
  ((clusterCores cl).foldl (fun t c => t.modCore c fun r => { r with refused := false }) s).askAll
    ((clusterCores cl).map .hubAllocate ++ [.preemptDecision cl])

/-- A TCB becomes READY: a null task retires at once (R272); a pinned first start joins its core's pinned list, any other
TCB the ready queue at its prio (R36, R275). -/
def State.makeReady (s : State) (key : Nat) (who : Word) : State :=
  let t := s.tcb key
  let s := s.modTcb key fun t => { t with state := 2 }
  if t.pc = 0 then s.later (.taskRetire key who)
  else
    let s := match t.pin with
      | some k => s.modHub (key / 512) fun h =>
          { h with pinned := h.pinned ++ [PinEnt.mk (coreOf k) t.prio (some key) none] }
      | none => s.modHub (key / 512) fun h => { h with ready := h.ready ++ [(t.prio, key)] }
    s.askHub (key / 512)

/-- A TCB becomes FREE; owed handler starts and waiting donations of its hub may then proceed (R290, R283), and slots that were kept
for its region may be given (R274). -/
def State.releaseTcb (s : State) (key : Nat) : State :=
  let r := (s.tcb key).region
  let s := s.modTcb key fun _ => {}
  let s := s.later (.handlerOwedStart (key / 512))
  let s := s.laters (s.rings.map fun p => .donationDrain (p.1 / 65536) (p.1 % 65536))
  (s.askHub (key / 512)).endChecks r

/-- A reference as a word of the device error log (R295). -/
def refWord (key : Nat) : Word := BitVec.ofNat 64 (2 ^ 31 + key)

/-- A decrement by `n` of a TCB's count at its hub, on behalf of a thread (R36, R37, R284). -/
def State.subCount (s : State) (key n : Nat) (who : Word) : State :=
  let t := s.tcb key
  if t.state = 0 then s.logErr 3 4 who (refWord key)
  else if t.count.toNat < n then (s.modTcb key fun t => { t with count := 0 }).logErr 3 4 who (refWord key)
  else
    let s := s.modTcb key fun t => { t with count := t.count - BitVec.ofNat 32 n }
    if t.count.toNat = n then
      if t.orphan then s.releaseTcb key
      else if t.state = 1 || t.state = 4 then s.makeReady key who else s
    else s

/-- The TCB that a 64 B image describes, as `TCBNEW` writes a task or a join counter (R35, R154). -/
def tcbOfImage (l : List Word) (region prioMax : Nat) (serves : TcbRef) : Tcb :=
  let w (i : Nat) : Nat := (l.getD i 0).toNat
  let join := bits (w 0) 0 4 == 3
  let count := BitVec.ofNat 32 (bits (w 0) 32 32)
  { task := if join then serves else 0
    ovf := l.getD 5 0
    succ2 := BitVec.ofNat 32 (w 4), succ1 := BitVec.ofNat 32 (bits (w 3) 32 32), succ0 := BitVec.ofNat 32 (w 3)
    fp := l.getD 2 0, pc := l.getD 1 0, count := count, region := region
    rscope := if bits (w 0) 11 3 = 0 then 5 else bits (w 0) 11 3
    wclass := bits (w 0) 8 3
    prio := if bits (w 0) 4 4 = 0 then prioMax else Nat.min (bits (w 0) 4 4) prioMax
    state := if join then 3 else if count = 0 then 2 else 1 }

/-- The checks of R154 on an image. -/
def imageOk (l : List Word) : Bool :=
  let w (i : Nat) : Nat := (l.getD i 0).toNat
  (bits (w 0) 0 4 == 0 || bits (w 0) 0 4 == 3) && bits (w 0) 14 2 == 0 && bits (w 0) 16 16 == 0 &&
  bits (w 4) 32 32 == 0 && w 6 == 0 && w 7 == 0 && bits (w 0) 11 3 < 6

/-- A TCB written at a hub; a task whose count is 0 becomes READY (R154, R36). -/
def State.installTcb (s : State) (key : Nat) (t : Tcb) (who : Word) : State :=
  let s := s.modTcb key fun _ => t
  if t.state = 2 then s.makeReady key who else s

/-! ## Fault and event queues (R287 to R292) -/

/-- The code of a cause (R285). -/
def causeCode : Cause → Nat
  | .illegal => 1 | .regwin => 2 | .align => 3 | .page => 4 | .rights => 5 | .object => 6 | .vown => 7 | .accown => 8
  | .ring => 9 | .trap => 10 | .svc => 11 | .machine => 12

/-- The effective priority of a region. -/
def State.prioOf (s : State) (r : Nat) : Nat := match s.region? r with | some g => g.prio | none => 0

/-- The template that a region's handler field names, if R291 lets it start handlers. [DEDUCED, log 104] -/
def State.template? (s : State) (r : Nat) : Option Tcb :=
  match s.region? r with
  | none => none
  | some g =>
    let t := s.tcb (refKey g.handler)
    if refValid g.handler && t.state == 1 && t.region == r && t.pc != 0 then some t else none

/-- The cluster of a region's handler template. -/
def State.handlerHub (s : State) (r : Nat) : Nat :=
  match s.region? r with | some g => refKey g.handler / 512 | none => 0

/-- The handler task of a region is created from its template and its flag set, if the flag is clear (R290); with no FREE
TCB at the hub the start is owed. -/
def State.startHandler (s : State) (r : Nat) : State :=
  match s.region? r, s.template? r with
  | some g, some t =>
    if g.handlerFlag then s
    else
      match s.freeTcb? (s.handlerHub r) with
      | none => s.modHub (s.handlerHub r) fun h => { h with owed := if h.owed.contains r then h.owed else h.owed ++ [r] }
      | some key =>
        let new : Tcb := { pc := t.pc, fp := t.fp, wclass := t.wclass, prio := Nat.min t.prio g.prio, region := r, rscope := 5,
                           state := 2, handlerOf := true }
        ((s.modRegion r fun g => { g with handlerFlag := true }).installTcb key new 0)
  | _, _ => s

/-- The words of a queue's header: qlog, delivered, seen and lost (R287). -/
def State.queueHead (s : State) (r : Nat) (base : Nat) : Option (List Nat) × State :=
  match s.devReads r base 4 with
  | (.ok l, t) => (some (l.map BitVec.toNat), t)
  | (.error _, t) => (none, t)

/-- An event record, with `TIME` at the event, written to a region's event queue, or dropped and counted (R292). -/
def State.deliverEvent (s : State) (r code : Nat) (w1 w2 : Word) (time : Nat) : State :=
  match s.region? r with
  | none => s
  | some g =>
    if g.evq = 0 then s
    else
      let base := g.evq.toNat
      match s.queueHead r base with
      | (some [q, delivered, seen, lost], s) =>
        let qlog := q % 16
        if (delivered + 2 ^ 64 - seen) % 2 ^ 64 = 2 ^ qlog then (s.devWrite r (base + 24) (BitVec.ofNat 64 (lost + 1))).2
        else
          let a := base + 64 + 64 * (delivered % 2 ^ qlog)
          match s.devWrites r a [BitVec.ofNat 64 code, BitVec.ofNat 64 time, w1, w2, 0, 0, 0, 0] with
          | (.ok _, s) =>
            match s.devWrite r (base + 8) (BitVec.ofNat 64 (delivered + 1)) with
            | (.ok _, s) => s.startHandler r
            | (.error _, s) => s.logErr 7 0 0 (BitVec.ofNat 64 (base + 8))
          | (.error _, s) => (s.logErr 7 0 0 (BitVec.ofNat 64 a)).devWrite r (base + 24) (BitVec.ofNat 64 (lost + 1)) |>.2
      | (_, s) => s.logErr 7 0 0 (BitVec.ofNat 64 base)

/-! ## Halting a region (R33, R293) -/

/-- Whether a slot's thread is halted by its region's halt or by pre-emption. -/
def Slot.frozen (sl : Slot) : Bool :=
  sl.st == .halted && (match sl.wait with | .regionHalt => true | .preempt _ => true | .restore => true | _ => false)

/-- The state and the wait of a thread, below a halt of its region or a pre-emption. -/
def Slot.inner (sl : Slot) : SlotSt × Wait := if sl.frozen then (sl.before, sl.bwait) else (sl.st, sl.wait)

/-- The thread's state and wait set, below a halt of its region or a pre-emption. -/
def Slot.become (sl : Slot) (st : SlotSt) (w : Wait) : Slot :=
  if sl.frozen then { sl with before := st, bwait := w } else { sl with st := st, wait := w }

/-- The thread can go on at its PC. -/
def Slot.settle (sl : Slot) : Slot := sl.become .ready .none

/-- The wait of a thread, below a halt. -/
def Slot.waits (sl : Slot) : Wait := sl.inner.2

/-- Whether a wait is that of a `VCLAIM`. -/
def Cond.isClaim : Cond → Bool
  | .claimQuiet _ _ => true
  | _ => false

/-- Whether a `VCLAIM` under way completes before its thread is saved (R182). -/
def Slot.claims (sl : Slot) : Bool := match sl.bwait with | .reissue c => sl.st == .halted && c.isClaim | _ => false

/-- A thread stopped at an instruction boundary: what it was waiting for is re-issued, an ended `PARK` is passed, a reply, a divide
or a refill on its way still lands, a `VCLAIM`, `FENCE`, `FLUSH` or `INVAL` completes, and a service under way stays so (R129, R158, R182,
R207, R232). -/
def Slot.quiesce (sl : Slot) (why : Wait) : Slot :=
  if sl.frozen then sl
  else
    let stop (sl : Slot) (before : SlotSt) (w : Wait) : Slot :=
      { sl with st := .halted, wait := why, before := before, bwait := w, stale := false }
    match sl.wait with
    | .reissue c => if sl.completes || c.isClaim || sl.st == .halted then stop sl sl.st (.reissue c)
        else stop { sl with relMark := none } .ready .none
    | .retry _ _ => stop { sl with nacks := 0 } .ready .none
    | .deferred _ => stop { sl with nacks := 0 } .ready .none
    | .acc => stop sl .ready .none
    | .park _ => stop { sl with pc := sl.pc + 4, xprog := 0 } .ready .none
    | w => stop sl sl.st w

/-- Words that an instruction dequeued put back at the heads of their queues. -/
def State.giveBack (s : State) (core : Nat) : List (Nat × Word) → State
  | [] => s
  | (q, v) :: r => (s.giveBack core r).setQueue core q (.word v :: (s.giveBack core r).queue core q)

/-- The promised queue place of a request's destination. -/
def Req.ticket (q : Req) : Option Nat :=
  match q.dest with
  | .reg _ _ place => place
  | _ => none

/-- The queues of a core without a promised place (R56). -/
def State.dropPromise (s : State) (core : Nat) : Option Nat → State
  | none => s
  | some t => { s with queues := s.queues.map fun (p : Nat × List QPlace) =>
      if p.1 / 8 = core then (p.1, p.2.filter (· != QPlace.promised t)) else p }

/-- A thread's request withdrawn without effect (R33, R158): the place promised for its answer goes, and the words that its
instruction dequeued go back. [DEDUCED, log 103] -/
def State.cancel (s : State) (q : Req) : State :=
  let s : State := { s with deferred := s.deferred.filter (·.id != q.id), reqs := s.reqs.filter (·.id != q.id) }
  (s.dropPromise (coreOf q.src) q.ticket).giveBack (coreOf q.src) q.took

/-- A deferred request of a thread that is to stop is taken back from another module: the thread waits for the answer, or for the word
that the request is withdrawn, which comes as a NACK (R33, R232). [DESIGN CHOICE, log 109] -/
def State.takeBack (s : State) (q : Req) (chip : Nat) : State :=
  ((s.relayFor q.region chip q.tregion (.withdraw s.host.modid q.id)).getD s).modSlot q.src fun sl => sl.become .waiting (.reply q.id)

/-- The deferred request of a thread, or its request in retry, withdrawn from its home (R33, R158). One that is answered already
still lands. -/
def State.withdraw (s : State) (k : Nat) : State :=
  match (s.slot k).waits with
  | .retry id _ =>
    (s.reqs.filter fun q => q.src == k && q.id == id).foldl State.cancel { s with sendrs := s.sendrs.filter (·.id != id) }
  | .deferred id =>
    if s.reps.any (·.req.id == id) then s.modSlot k fun sl => sl.become .waiting (.reply id)
    else
      match s.reqs.find? fun q => q.src == k && q.id == id && q.away.isSome with
      | some q => s.takeBack q (q.away.getD 0)
      | none => ((s.deferred ++ s.heldReqs).filter fun q => q.src == k && q.id == id).foldl State.cancel s
  | _ => s

/-- A thread stops at its boundary for a halt of its region (R33). [DEDUCED, log 77] -/
def State.haltThread (s : State) (k : Nat) : State :=
  let s := s.withdraw k
  let s := match (s.slot k).wait with
    | .acc => s.modCore (coreOf k) fun c => { c with acc := none }
    | _ => s
  s.modSlot k fun sl => sl.quiesce .regionHalt

/-- Marks one region halted and stops its threads. -/
def State.haltOne (s : State) (r : Nat) : State :=
  match s.region? r with
  | none => s
  | some g =>
    if g.halted then s
    else
      let s := s.modRegion r fun g => { g with halted := true }
      let s : State := { s with host := { s.host with stage := if r = 0 ∧ s.host.stage = 3 then 1 else s.host.stage } }
      (s.threads.filter fun k => (s.slot k).region == r).foldl State.haltThread s

/-- A halted region's live descendants halt with it; no event goes to a parent for that (R33). -/
def State.haltBelow (s : State) (r : Nat) : State :=
  (s.regions.map (·.1)).foldl (fun t q => if s.isAbove r q then t.haltOne q else t) s

/-- A region halts, an event goes to its parent, and the parent halts as well while fdom is 0 (R33, R292). -/
def State.haltUp (s : State) : Nat → Nat → Word → State
  | 0, _, _ => s
  | n + 1, r, cause =>
    match s.region? r with
    | none => s
    | some g =>
      let s := s.haltBelow r
      match g.parent with
      | none => s
      | some p =>
        let s := s.tell p 1 (BitVec.ofNat 64 r) cause
        if g.fdom then s else s.haltUp n p 0

/-- The halt of a region by an unhandled fault, or by the host (R33, R325). -/
def State.haltRegion (s : State) (r : Nat) (cause : Word) : State := s.haltUp 9 r cause

/-! ## Taking a trap, and returning from one -/

/-- `XCAUSE` of a cause, its source and the level of a failed walk (R286). -/
def xcauseOf (c : Cause) (source level : Nat) : Word := BitVec.ofNat 64 (source * 65536 + level * 256 + causeCode c)

/-- The fault record of a halted thread (R288). -/
def State.recordOf (s : State) (k seq : Nat) : List Word :=
  let sl := s.thread k
  [sl.xpc, sl.xcause, sl.xaddr, sl.xprog, sl.xinfo, sl.resume, s.threadName k, BitVec.ofNat 64 (2 ^ 63 + seq % 2 ^ 63)]

/-- What becomes of the record of a halted thread: it is written at its place, it waits while that place holds a pending record, or the
queue cannot take it at all (R289, R291). -/
inductive Placed where
  | written
  | waits
  | cannot
deriving DecidableEq, Repr

/-- The record of a halted thread written at its place (R289 steps 2 to 5), if that can be. -/
def State.placeRecord (s : State) (k : Nat) : Placed × State :=
  let r := (s.thread k).region
  match s.region? r with
  | none => (.cannot, s)
  | some g =>
    let base := g.fltq.toNat
    match s.queueHead r base with
    | (some [q, delivered, _, _], s) =>
      let qlog := q % 16
      if qlog < 4 || 12 < qlog then (.cannot, s)
      else
        let a := base + 64 + 64 * (delivered % 2 ^ qlog)
        match s.devRead r (a + 56) with
        | (.error _, s) => (.cannot, s)
        | (.ok w, s) =>
          if bit w.toNat 63 then (.waits, s)
          else
            match s.devWrites r a (s.recordOf k delivered) with
            | (.error _, s) => (.cannot, s)
            | (.ok _, s) =>
              match s.devWrite r (base + 8) (BitVec.ofNat 64 (delivered + 1)) with
              | (.error _, s) => (.cannot, s)
              | (.ok _, s) => (.written, (s.modThread k fun sl => sl.become .halted (.record (some delivered))).startHandler r)
    | (_, s) => (.cannot, s)

/-- Writes the record of a thread that has just trapped; while its place holds a pending record, it waits behind the records that
wait (R289 step 2). A fault whose record cannot be written is unhandled (R291). -/
def State.writeRecord (s : State) (k : Nat) : State :=
  match s.placeRecord k with
  | (.written, t) => t
  | (.waits, t) => t.modRegion (s.thread k).region fun g => { g with recq := g.recq ++ [k] }
  | (.cannot, t) => t.haltRegion (s.thread k).region (s.thread k).xcause

/-- Whether a fault of a thread is unhandled before its record is written (R291). -/
def State.unhandled (s : State) (k : Nat) : Bool :=
  let sl := s.slot k
  match s.region? sl.region with
  | none => true
  | some g => g.halted || g.fltq == 0 || sl.isHandler || (s.template? sl.region).isNone || (s.freeTcb? (s.handlerHub sl.region)).isNone

/-- The thread of a slot halts with its `X` registers written (R285, R289 step 1). -/
def State.haltWith (s : State) (k : Nat) (c : Cause) (source level : Nat) (xpc xaddr xprog xinfo resume : Word) : State :=
  s.modSlot k fun sl => { (sl.become .halted (.record none)) with
    xpc := xpc, mid := false, relMark := none, completes := false, xcause := xcauseOf c source level, xaddr := xaddr,
    xprog := xprog, xinfo := xinfo, resume := resume }

/-- TAKING A TRAP (R289): the thread halts with its `X` registers written, its record goes to the region's fault queue and the
handler is started; an unhandled fault halts the region (R291). -/
def State.takeTrap (s : State) (k : Nat) (c : Cause) (source level : Nat) (xpc xaddr xprog xinfo resume : Word) : State :=
  let s := s.haltWith k c source level xpc xaddr xprog xinfo resume
  if s.unhandled k then s.haltRegion (s.slot k).region (s.slot k).xcause
  else s.writeRecord k

/-- A trap of the issuing thread's instruction at its issue; it resumes at the instruction. -/
def State.trapAt (s : State) (c : Cause) (source level : Nat) (xaddr xprog xinfo : Word) : State :=
  let pc := s.me.pc
  s.takeTrap s.cur c source level pc xaddr xprog xinfo pc

/-- The meaning of an instruction that traps with no address. -/
def trapNow (c : Cause) (s : State) : Out := .next (s.trapAt c 0 0 0 0 0)

/-- A trap that reports an address. [DEDUCED, log 23] -/
def trapAddr (c : Cause) (source : Nat) (addr : Word) (s : State) : Out := .next (s.trapAt c source 0 addr 0 0)

/-- ILLEGAL, with the words of the instruction (R63). -/
def trapIllegal (i : Instr) (s : State) : Out :=
  .next (s.trapAt .illegal 0 0 0 0 (BitVec.ofNat 64 (i.w0 + i.w1 * 2 ^ 32)))

/-- OBJECT, with the object index the instruction names (R285). -/
def trapObject (obj : Nat) (s : State) : Out := .next (s.trapAt .object 0 0 0 0 (BitVec.ofNat 64 obj))

/-- Waiting records written in the order of their traps while their places are consumed (R289); one that cannot be written halts the
region (R291). -/
def State.flushFrom (s : State) (r : Nat) : List Nat → State
  | [] => s
  | k :: rest =>
    match s.placeRecord k with
    | (.written, t) => (t.modRegion r fun g => { g with recq := rest }).flushFrom r rest
    | (.waits, t) => t
    | (.cannot, t) => (((t.modRegion r fun g => { g with recq := rest }).haltRegion r (s.thread k).xcause)).flushFrom r rest

/-- The waiting records of a region, as an `ERET` has consumed a place of its queue (R289). -/
def State.flushRecords (s : State) (r : Nat) : State := s.flushFrom r ((s.region? r).elim [] Region.recq)

/-- A sequencer whose owner returns from the trap of an element that faulted: it goes on at that lane and iteration (R166). -/
def rewound (seq : List SeqEnt) (fr : Option Frame) : List SeqEnt × Option Frame :=
  match seq.findIdx? fun e => (e.stop.map VStop.told).getD false with
  | none => (seq, fr)
  | some at_ =>
    match (seq[at_]?).bind SeqEnt.stop with
    | none => (seq, fr)
    | some v =>
      ((seq.zip (range' 0 seq.length)).map fun p =>
        if p.2 < at_ && fr.isNone then p.1
        else { p.1 with lane := if p.2 = at_ then v.lane else 0, sent := false, stop := none },
       fr.map fun f => { f with iter := v.iter, ent := at_ })

/-- The sequencer of an image, gone on so. -/
def VSave.rewind (v : VSave) : VSave := { v with seq := (rewound v.seq v.frame).1, frame := (rewound v.seq v.frame).2 }

/-- The sequencer of a slot's thread goes on after the trap of an element, once no such trap of the slot is left: on the core, or in the
image from which a restore is still to take it (R299). -/
def State.rewindSeq (s : State) (k : Nat) : State :=
  let c := s.core (coreOf k)
  if (s.slot k).earlier.any fun f => f.source == 5 then s
  else if c.vowner = some k then
    let (seq, fr) := rewound c.seq c.frame
    (s.modCore (coreOf k) fun c => { c with seq := seq, frame := fr }).later (.vectorStep (coreOf k))
  else { s with images := s.images.map fun m => if m.into = some k then { m with vector := m.vector.map VSave.rewind } else m }

/-- Whether a thread on a core, with its wait, is the one that the record of a number of a region's fault queue names. -/
def namedBy (core region seq at_ : Nat) (sl : Slot) (w : Wait) : Bool :=
  core == at_ && sl.region == region && w == .record (some seq)

/-- RETURN FROM A TRAP for the thread a record names (R124): it is ready at the resume PC with the record's XPROG, after an
acquire at module scope. A thread that is saved is marked ready in its image (R299). The record's number tells the threads of a
region on a core apart, since a restore may have given the thread another slot. -/
def State.resumeThread (s : State) (name seq : Nat) (resume xprog : Word) : State :=
  let core := bits name 32 12
  let region := bits name 0 16
  match ((range' 0 64).map (64 * core + ·)).find? fun k => namedBy core region seq core (s.slot k) (s.slot k).waits with
  | some k => ((s.modSlot k fun sl => { sl.settle with pc := resume &&& ~~~3#64, xprog := xprog }).rewindSeq k).dropCleanL1 core
  | none =>
    { s with images := s.images.map fun m =>
        if namedBy core region seq m.core m.slot m.slot.bwait then
          let v := if m.slot.earlier.any fun f => f.source == 5 then m.vector else m.vector.map VSave.rewind
          { m with slot := { m.slot with pc := resume &&& ~~~3#64, xprog := xprog, before := .ready, bwait := .none }, vector := v }
        else m }

/-! ## Retiring, parking, queues -/

/-- The issuing thread goes on after an instruction: PC advances and `XPROG` is 0 (R59, R136). -/
def State.advance (s : State) (k len : Nat) : State :=
  s.modSlot k fun sl => { sl with pc := sl.pc + BitVec.ofNat 64 len, xprog := 0, bounced := false, mid := false, relMark := none,
                                    completes := false }

/-- The end of an instruction that completes at issue. -/
def done (i : Instr) (s : State) : Out := .next (s.advance s.cur i.len)

/-- The issuing thread does not go on until a condition holds, and then issues the instruction again (R44). -/
def blockAs (st : SlotSt) (c : Cond) (s : State) : Out :=
  .next (s.modMe fun sl => { sl with st := st, wait := .reissue c, parkedSince := s.cycle s.myCore, stale := false })

/-- The thread waits for a bounded time (R44). -/
def waitFor (c : Cond) (s : State) : Out := blockAs .waiting c s

/-- The thread parks (R44). -/
def parkFor (c : Cond) (s : State) : Out := blockAs .parked c s

/-- The thread is matrix-busy (R44). -/
def busyFor (c : Cond) (s : State) : Out := blockAs .matrixBusy c s

/-- Whether the first n places of a queue hold words. -/
def wordsReady (l : List QPlace) (n : Nat) : Bool :=
  n ≤ l.length && (l.take n).all fun p => match p with | .word _ => true | .promised _ => false

/-- The queues an instruction dequeues from, with how many words, and the queue it enqueues to with the room it needs (R56). -/
def portNeeds (pm : Word) (a b d : Option Nat) : List (Nat × Nat) × Option (Nat × Nat) :=
  let qs := [a, b].filterMap fun r => r.bind (bindOf pm)
  let cnt (q : Nat) : Nat := (qs.filter (· == q)).length
  (qs.map fun q => (q, cnt q), (d.bind (bindOf pm)).map fun q => (q, cnt q))

/-- Whether the needs of R56 are met in a core's queues. -/
def State.portsOk (s : State) (core : Nat) (n : List (Nat × Nat) × Option (Nat × Nat)) : Bool :=
  (n.1.all fun p => wordsReady (s.queue core p.1) p.2) &&
    (match n.2 with | none => true | some p => (s.queue core p.1).length - p.2 < 16)

/-- The value of a data source: dequeued if the register is bound, else the register's (R56). -/
def takeSrc (r : Option Nat) (s : State) : Word × State :=
  match r with
  | none => (0, s)
  | some r =>
    match bindOf s.me.portmap r with
    | none => (s.g r, s)
    | some q =>
      match s.queue s.myCore q with
      | .word v :: l => (v, s.setQueue s.myCore q l)
      | _ => (0, s)

/-- A result written at issue: enqueued if the destination is bound, else the register (R56, R100). -/
def putDst (d : Nat) (v : Word) (s : State) : State :=
  match bindOf s.me.portmap d with
  | none => s.setG d v
  | some q => s.setQueue s.myCore q (s.queue s.myCore q ++ [.word v])

/-- A destination that a reply will write: a bound one has a place promised in its queue (R56). -/
def promiseDst (d : Nat) (ticket : Nat) (s : State) : Option Nat × State :=
  match bindOf s.me.portmap d with
  | none => (none, s)
  | some q => (some q, s.setQueue s.myCore q (s.queue s.myCore q ++ [.promised ticket]))

/-- The promised place filled with its word. -/
def fillPlace (l : List QPlace) (ticket : Nat) (v : Word) : List QPlace :=
  l.map fun p => if p = .promised ticket then .word v else p

/-- The promised place withdrawn (R56). -/
def dropPlace (l : List QPlace) (ticket : Nat) : List QPlace := l.filter (· != .promised ticket)

/-- The queues of a core with a function applied to each. -/
def State.mapQueues (s : State) (core : Nat) (f : List QPlace → List QPlace) : State :=
  { s with queues := s.queues.map fun (p : Nat × List QPlace) => if p.1 / 8 = core then (p.1, f p.2) else p }

/-- A result written when it lands: the register, or the place promised in a queue (R56, R100). -/
def State.landDst (s : State) (k d : Nat) (place : Option Nat) (v : Word) : State :=
  match place with
  | none => s.setGreg k d { val := v }
  | some t => s.mapQueues (coreOf k) fun l => fillPlace l t v

/-- A result that will not be written: its promised place is withdrawn (R56). -/
def State.cancelDst (s : State) (k : Nat) (place : Option Nat) : State :=
  match place with
  | none => s
  | some t => s.mapQueues (coreOf k) fun l => dropPlace l t

/-- The registers an instruction names that wait for a pending write (R164). -/
def State.pendingOf (s : State) (k : Nat) (rs : List Nat) : List Nat := rs.filter fun r => (s.greg k r).pend

/-- The repeat frame of the issuing thread still captures its body (R169). -/
def State.capturing (s : State) : Bool :=
  match (s.core s.myCore).frame with
  | some f => f.slot == s.cur && f.captured < f.len
  | none => false

/-- A frame discarded: its entries leave the sequencer and the base registers it advanced are restored (R169). -/
def State.discardFrame (s : State) (core : Nat) : State :=
  match (s.core core).frame with
  | none => s
  | some f =>
    let s := f.bases.foldl (fun t p => t.setGreg f.slot p.1 p.2) s
    s.modCore core fun c => { c with frame := none, seq := c.seq.filter (·.slot != f.slot) }

/-- The uncorrectable register, if any, among those an instruction reads (R307). -/
def State.deadReg? (s : State) (i : Instr) (a b : Option Nat) : Option Nat :=
  (sources i).find? fun r => !((a == some r || b == some r) && (bindOf s.me.portmap r).isSome) && s.dead.contains (regPlace s.myCore (s.me.base + r))

/-- The correctable errors of the registers that an instruction reads, corrected and counted (R306). -/
def State.correctRegs (s : State) (k : Nat) (i : Instr) : State :=
  if s.soft = [] then s else (sources i).foldl (fun t r => t.correct (regPlace (coreOf k) ((t.slot k).base + r))) s

/-- The issue of an instruction (R63, R164, R56, R307): a thread must be there; an instruction that a repeat body may not
hold discards the frame and traps ILLEGAL; a register outside the window traps REGWIN; a pending register or a queue shortfall
parks the thread; an uncorrectable register traps MACHINE; then the instruction goes on. -/
def issueWith (i : Instr) (a b d : Option Nat) (body : State → Out) (s : State) : Out :=
  if s.me.st != .ready then .fault .noThread
  else if s.capturing && !bodyAllowed i then trapIllegal i (s.discardFrame s.myCore)
  else if (named i).any (s.me.size ≤ ·) then trapNow .regwin s
  else if s.pendingOf s.cur (named i) != [] then parkFor (.landed (s.pendingOf s.cur (named i))) s
  else
    let n := portNeeds s.me.portmap a b d
    if !s.portsOk s.myCore n then parkFor (.ports n.1 n.2) s
    else
      match s.deadReg? i a b with
      | some r => .next (s.trapAt .machine 8 0 (BitVec.ofNat 64 r) 0 0)
      | none => body s

/-- The issue of an instruction that goes on with the values of its data sources `a` and `b`, dequeued where they are bound. -/
def issue (i : Instr) (a b d : Option Nat) (body : Word → Word → State → Out) (s : State) : Out :=
  issueWith i a b d (fun s =>
    let (x, s) := takeSrc a s
    let (y, s) := takeSrc b s
    body x y s) s

/-- The state with the words that the data sources dequeue taken off their queues. -/
def takeBoth (a b : Option Nat) (s : State) : State := (takeSrc b (takeSrc a s).2).2

/-- The issue of an instruction that may still wait or trap: it goes on with the values of its data sources before anything
is dequeued; `takeBoth` dequeues when it takes effect. -/
def peek (i : Instr) (a b d : Option Nat) (body : Word → Word → State → Out) (s : State) : Out :=
  issueWith i a b d (fun s =>
    let (x, t) := takeSrc a s
    let (y, _) := takeSrc b t
    body x y s) s

/-- An instruction that reads two data sources and writes one destination within the pipeline. -/
def alu (i : Instr) (a b : Option Nat) (d : Nat) (f : Word → Word → State → Word) (s : State) : Out :=
  issue i a b (some d) (fun x y s => done i (putDst d (f x y s) s)) s

/-! ## Release and acquire (R238, R239) -/

/-- Whether every earlier vector instruction of a slot has completed (R165). -/
def State.vecQuiet (s : State) (k : Nat) : Bool :=
  let c := s.core (coreOf k)
  (c.seq.all (·.slot != k)) && (c.vpend.all (·.slot != k)) && (match c.frame with | some f => f.slot != k | none => true)

/-- The wait for `UNACK` = 0 (R131), at which an error of an earlier remote store is taken (R28, R294). -/
def whenAcked (s : State) (body : State → Out) : Out :=
  if s.me.unack != 0 then waitFor .unackZero s
  else
    match s.me.failStore with
    | some (_, a, c) => .next ((s.modMe fun sl => { sl with failStore := none }).trapAt c 6 0 a 0 0)
    | none => body s

/-- A release at a scope by the issuing thread before what follows (R238): `UNACK` is 0, its vector instructions have completed, and
from `.die` on the dirty lines of its core's L1 are written back and acknowledged. -/
def release (scope : Nat) (s : State) (body : State → Out) : Out :=
  whenAcked s fun s =>
    if !s.vecQuiet s.cur then waitFor .vecQuiet s
    else if scope < 4 then body s
    else
      match s.me.relMark with
      | some n => if s.wbBefore s.myCore n then body s else waitFor .wbDone s
      | none =>
        if s.l1Settled s.myCore then body s
        else
          let t := s.writeBackAll s.myCore
          waitFor .wbDone (t.modMe fun sl => { sl with relMark := some t.nextId })

/-- What follows waits for every earlier vector instruction of the issuing thread, as every acquire does (R165). -/
def acquiring (s : State) (body : State → Out) : Out := if !s.vecQuiet s.cur then waitFor .vecQuiet s else body s

/-- An instruction that, where it waits, completes though its thread is halted (R158). -/
def completing (k : Nat) : Out → Out
  | .next t => .next (t.modSlot k fun sl => if sl.st == .waiting then { sl with completes := true } else sl)
  | .fault f => .fault f
  | .refused r => .refused r

/-- An acquire at a scope by a thread of a core (R239). -/
def State.acquire (s : State) (scope core : Nat) : State := if 4 ≤ scope then s.dropCleanL1 core else s

/-! ## Claims and the freeing of slots -/

/-- The core's lane groups return to the pool (R160). -/
def State.dropGroups (s : State) (core : Nat) : State :=
  s.modTile (tileOf core) fun t => { t with groups := t.groups.map fun g => if g = some (coreInTile core) then none else g }

/-- The vector context of a core is owned by no slot (R168, R152). -/
def State.freeVector (s : State) (core : Nat) : State :=
  let r := match (s.core core).vowner with | some k => some (s.slot k).region | none => (s.core core).vlast
  (s.dropGroups core).modCore core fun c => { c with vowner := none, vlast := r }

/-- Whether an `MCHAIN` of a core has started, and consumes the stream that its tile's buffer holds (R198). -/
def CoreRec.consumes (c : CoreRec) : Bool :=
  c.mq.any fun o => o.started && (match o.kind with | .mchain _ _ _ _ _ => true | _ => false)

/-- The chained stream that a core sent, or would consume, is discarded unless an `MCHAIN` consumes it (R198). -/
def State.dropStreams (s : State) (core : Nat) : State :=
  let j := coreInTile core
  let drop (s : State) (tile : Nat) : State :=
    s.modTile tile fun t => match t.chain with
      | some c => if c.sender == j && !(s.core (coreOfTile tile j)).consumes then { t with chain := none } else t
      | none => t
  let s := drop s (tileOf core)
  if tileOf core % 16 < 15 then drop s (tileOf core + 1) else s

/-- The matrix unit looks again at what may start on a core: queued operations, the array's selection on its tile and the
tile to the west, which its chain buffer may have held up, and the accumulator access (R193, R194, R198, R200). -/
def State.askMatrix (s : State) (core : Nat) : State :=
  let t := tileOf core
  let west := if t % 16 = 0 then [] else [t - 1]
  let used := (t :: west).any fun w => (tileCores w).any fun c => (s.core c).mclaim.isSome
  if used then s.askAll ([.matrixOpStart core, .accAccessAttempt core] ++ (t :: west).map .matrixArraySelect) else s

/-- The matrix claim of a core returns to none (R188). -/
def State.freeMatrix (s : State) (core : Nat) : State :=
  let r := match (s.core core).mclaim with | some k => some (s.slot k).region | none => (s.core core).mlast
  ((s.dropStreams core).modCore core fun c => { c with mclaim := none, mlast := r }).askMatrix core

/-- A landing slot of a core (R39, R120). -/
def State.isLanding (s : State) (k : Nat) : Bool :=
  let c := s.core (coreOf k)
  64 ≤ slotNo k + Nat.max c.landn (c.landnTo.getD 0)

/-- What asks for a slot that has become empty: the hub (R276), the landing queue (R54), a raise of `LANDN` (R120). -/
def State.slotFreed (s : State) (k : Nat) : State :=
  let c := coreOf k
  (s.modCore c fun r => { r with refused := false }).askAll [.hubAllocate c, .landingQueueTake c, .landnRaiseComplete c]

/-- The pre-emption requests on their way to a slot, forgotten: its thread has ended or left it (R296). -/
def State.dropPreempt (s : State) (k : Nat) : State :=
  { s with agenda := s.agenda.filter fun d => d.ev != .preemptRequestArrival k }

/-- The slot is empty and its window free; last(s) stays (R58), and a landing slot keeps its window (R40). -/
def State.clearSlot (s : State) (k : Nat) : State :=
  let landing := 64 ≤ slotNo k + (s.core (coreOf k)).landn
  (s.modSlot k fun sl =>
    if landing then { nextOk := sl.nextOk, base := sl.base, wclass := sl.wclass } else { nextOk := sl.nextOk }).dropPreempt k |>.slotFreed k

/-- A thread ends and its slot is freed: its claims, its `PORTMAP` and `TAGS` go with it (R152 steps 3 to 5), and the slot
counts of its region and ancestors fall (R273). -/
def State.freeSlot (s : State) (k : Nat) : State :=
  let c := coreOf k
  let r := (s.slot k).region
  let s := if (s.core c).vowner = some k then s.freeVector c else s
  let s := if (s.core c).mclaim = some k then s.freeMatrix c else s
  ((s.clearSlot k).subHeld r).endChecks r

end Sys2Proof.Machine
end

