-- ==== Sys2Proof/Machine/Fetch.lean ====
section
/-! DEFINITION. Translation for a thread through the TLBs, with the walks that misses start (R302, R303), and the fetch of
an instruction through the instruction cache (R59, R116). -/

namespace Sys2Proof.Machine

/-- How a translation for a thread ends: translated, a fault of the issue check, or a wait for a walk. -/
inductive Xlated where
  | ok (t : Trans) (s : State)
  | fault (c : Cause) (s : State)
  | miss (s : State)

/-- A walk joins the pending translations of a tile, coalesced with one for the same page (R303); with all 64 entries in use the
thread waits for the first of them. [DEDUCED, log 21] -/
def State.pendWalk (s : State) (k va : Nat) (need : Acc3) (source : Nat) (xprog : Word) : State :=
  let core := coreOf k
  let region := (s.slot k).region
  let mine := s.walks.filter fun w => w.tile == tileOf core && w.failed.isNone
  let waitOn (id : Nat) (s : State) : State := s.modSlot k fun sl => { sl with st := .waiting, wait := .reissue (.walk id) }
  match mine.find? fun w => w.region == region && w.va.toNat / 65536 == va / 65536 with
  | some w => waitOn w.id s
  | none =>
    if 64 ≤ mine.length then waitOn ((mine.head?.map Walk.id).getD 0) s
    else
      let (id, s) := s.fresh
      let w : Walk := { id := id, tile := tileOf core, core := core, slot := k, region := region, va := BitVec.ofNat 64 va,
                        need := need, source := source, xprog := xprog }
      (waitOn id { s with walks := s.walks ++ [w] }).later (.translationWalk id)

/-- Translation of a global address for a thread (R22, R301 to R304): a TLB entry serves it, or a walk is awaited. A store
through an entry with D clear walks again (R302). -/
def State.xlateFor (s : State) (k va : Nat) (need : Acc3) (source : Nat) (xprog : Word) : Xlated :=
  let region := (s.slot k).region
  match s.tlbFor (coreOf k) region va with
  | (some e, s) =>
    if !leafPermits need e.pte.toNat || !s.keyPermits region (bits e.pte.toNat 56 8) then .fault .rights s
    else if need.stores && !bit e.pte.toNat 4 then .miss (s.pendWalk k va need source xprog)
    else .ok (transOf e.pte.toNat e.level va) s
  | (none, s) => .miss (s.pendWalk k va need source xprog)

/-- What a fetch gives: a number of 32 bits, a trap taken, or a wait. -/
inductive Fetched where
  | word (w : Nat) (s : State)
  | stop (s : State)

/-- The lines that an instruction cache of 32 KiB holds (R13). -/
def icRoom : Nat := 256

/-- A line put into a core's instruction cache; a full one drops another line, of its choice. -/
def State.installIc (s : State) (core line : Nat) (l : Line) : State :=
  let held := s.cache.ic.filter fun p => p.1 / 2 ^ 32 == core && p.1 % 2 ^ 32 != line
  let kept := if held.length < icRoom then s.cache.ic
    else del s.cache.ic ((held.map (·.1)).getD (Config.freeNat s.tick % held.length) 0)
  { s with cache := { s.cache with ic := put kept (l1Key core line) l } }

/-- The state without a line in a core's instruction cache. -/
def State.dropIc (s : State) (core line : Nat) : State := { s with cache := { s.cache with ic := del s.cache.ic (l1Key core line) } }

/-- The request that fills a line of a core's instruction cache for the fetch of an address (R116), behind the write-backs of what the cluster's L1s hold dirty
of it; the thread waits for its answer. -/
def State.askIc (s : State) (k : Nat) (t : Trans) (addr : Word) : State :=
  let core := coreOf k
  let s := (clusterCores (clusterOf core)).foldl (fun s c => s.writeBack c (t.pa / 128)) s
  let (id, s) := s.fresh
  let q : Req := { id := id, src := unitSrc core, region := (s.slot k).region, op := .fill, addr := BitVec.ofNat 64 t.pa, place := t.pa, v1 := addr,
                   dest := .ifetch, source := 1, key := t.key, hops := bridgePath (dieOf core) (homeDie t.pa (dieOf core)) }
  (s.send q).modSlot k fun sl => { sl with st := .waiting, wait := .reissue (.fetched id) }

/-- The instruction word at an address of the thread in a slot (R59, R116, R307): PC bits [1:0] are 0. A fault is taken with the
address as `XADDR`, but for MACHINE at word 0, which reports the place of the uncorrectable word (R285, log 124). A line under another key is fetched again (R305), and so is one whose word cannot be read. -/
def State.fetchWord (s : State) (k : Nat) (xpc addr : Word) : Fetched :=
  if bits addr.toNat 56 8 != 0 then .stop (s.takeTrap k .rights 1 0 xpc addr 0 0 xpc)
  else
    match s.xlateFor k addr.toNat .x 1 0 with
    | .fault c s => .stop (s.takeTrap k c 1 0 xpc addr 0 0 xpc)
    | .miss s => .stop s
    | .ok t s =>
      let core := coreOf k
      match find s.cache.ic (l1Key core (t.pa / 128)) with
      | none => .stop (s.askIc k t addr)
      | some l =>
        if l.key != t.key then .stop ((s.dropIc core (t.pa / 128)).askIc k t addr)
        else if l.badWord (t.pa % 128 / 8) then
          .stop (((s.dropIc core (t.pa / 128)).logErr 4 1 (s.nameOf k) (BitVec.ofNat 64 (wordOf t.pa))).takeTrap k .machine 1 0 xpc
            (if addr = xpc then BitVec.ofNat 64 (wordOf t.pa) else addr) 0 0 xpc)
        else .word (bits l.data.toNat (8 * (t.pa % 128)) 32) s

/-- The words of the instruction at a thread's PC: word 0, and word 1 for a wide major (R59). -/
def State.fetch (s : State) (k : Nat) : Except State (Nat × Nat × State) :=
  let pc := (s.slot k).pc
  match s.fetchWord k pc pc with
  | .stop s => .error s
  | .word w s =>
    if isWide w then
      match s.fetchWord k pc (pc + 4) with
      | .stop s => .error s
      | .word x s => .ok (w, x, s)
    else .ok (w, 0, s)

end Sys2Proof.Machine
end

