-- ==== Sys2Proof/Machine/Rotation.lean ====
section
/-! DEFINITION. The rotation of a core and the baton (R45), the conditions that threads wait for (R44), the faults taken at an
instruction boundary (R294), and the choice of what the machine does next. -/

namespace Sys2Proof.Machine

/-- Commands of a tile's stride engine that stand on chip, and those that are spilled (R220). -/
def State.strideEntries (s : State) (tile : Nat) (spilled : Bool) : Nat :=
  (s.engs.filter fun e => e.tile == tile && e.spilled.isSome == spilled &&
    (match e.kind with | .fetch => true | .push => true | .pushX => true | .pushM => true | .storeB => true | _ => false)).length

/-- Spilled commands of a region in its section of a tile (R220). -/
def State.sectionOf (s : State) (tile region : Nat) : List EngOp :=
  s.engs.filter fun e => e.tile == tile && e.region == region && e.spilled.isSome

/-- Whether a command of a region may be accepted on chip: an entry is free and no command waits to return (R220). -/
def State.entryFree (s : State) (tile : Nat) : Bool := s.strideEntries tile false < 32 && s.strideEntries tile true == 0

/-- Whether a command may spill to the region's section of a tile (R220). -/
def State.sectionFree (s : State) (tile region : Nat) : Bool :=
  match s.region? region with
  | some g => (s.sectionOf tile region).length < g.strq
  | none => false

/-- Whether a core's tail deque record of a slot is claimed by a thief (R49). -/
def State.tailClaimed (s : State) (k : Nat) : Bool :=
  match ((s.core (coreOf k)).deque.filter (·.owner == slotNo k)).getLast? with
  | some e => e.claimed
  | none => (s.slot k).ringAges.length == 1 && (s.slot k).ringClaimed

/-- Whether landing slots 64 − n to 63 of a core are empty (R120). -/
def State.landingEmpty (s : State) (core n : Nat) : Bool :=
  (range' (64 - n) n).all fun i => (s.slot (64 * core + i)).st == .empty

/-- The arrays that a queued operation of the matrix unit targets (R193). -/
def MatKind.arrays : MatKind → List Nat
  | .mma _ _ _ _ _ _ l => l
  | .mchain _ _ _ _ l => l
  | _ => []

/-- Whether no queued operation of a tile targets one of some arrays (R187). -/
def State.arraysFree (s : State) (tile : Nat) (js : List Nat) : Bool :=
  (tileCores tile).all fun c => (s.core c).mq.all fun o => o.kind.arrays.all fun j => !js.contains j

/-- Whether no element of a region's Vault operations on a tile within a scope is translated and not yet performed (R229). -/
def State.elemsQuiet (s : State) (core scope region : Nat) : Bool :=
  s.engs.all fun o => o.region != region || o.begun == [] || !within scope core (coreOfTile o.tile 0)

/-- Whether a thread in a slot may issue its instruction again (R44). -/
def State.condHolds (s : State) (k : Nat) (c : Cond) : Bool :=
  let sl := s.slot k
  let core := s.core (coreOf k)
  match c with
  | .unackZero => sl.unack == 0
  | .unackRoom => sl.unack < 2 ^ 32 - 1
  | .vecQuiet => s.vecQuiet k
  | .seqRoom => core.seq.length < 16 && core.frame.isNone
  | .seqIdle => core.seq == [] && core.frame.isNone
  | .tagsAll m => sl.tags &&& m == m
  | .tagsAny m => sl.tags &&& m != 0
  | .opsDone => sl.inflight == 0
  | .ports need room => s.portsOk (coreOf k) (need, room)
  | .regFull r => (s.greg k r).full
  | .landed rs => rs.all fun r => !(s.greg k r).pend
  | .walk id => s.walks.all fun w => w.id != id
  | .mqIdle => core.mq == []
  | .mqRoom => core.mq.length < 2
  | .engineRoom => s.entryFree (tileOf (coreOf k)) || s.sectionFree (tileOf (coreOf k)) sl.region
  | .claimed => !s.tailClaimed k
  | .wbDone => match sl.relMark with | some n => s.wbBefore (coreOf k) n | none => true
  | .lineDone scope line _ => !s.backs fun q => q.place / 128 == line && within scope (coreOf k) (srcCore q.src)
  | .ordered line => s.pastReqs (coreOf k) line
  | .homePast unit => s.homePast (coreOf k) unit
  | .replayTurn home => !s.earlyAt sl.region k home
  | .fetched id => !(s.reqs.any (·.id == id) || s.reps.any (·.req.id == id))
  | .landnEmpty n => s.landingEmpty (coreOf k) n
  | .landnFree => core.landnTo.isNone
  | .arraysFree js => s.arraysFree (tileOf (coreOf k)) js
  | .elemsDone scope => s.elemsQuiet (coreOf k) scope sl.region
  | .claimQuiet _ _ => s.vecQuiet k
  | .asked walks lines visits =>
    (walks.all fun i => s.walks.all fun w => w.id != i || w.failed.isSome) &&
      (lines.all fun l => !s.lockHeld l && !s.cache.conflict.any (·.1 == l) && !s.portShut (homeBank (128 * l))) &&
      visits.all fun i => s.visits.all fun v => v.id != i || v.done

/-- The state of a slot as the rotation sees it: a thread whose awaited condition holds is ready (R44). -/
def State.issueSt (s : State) (k : Nat) : SlotSt :=
  let sl := s.slot k
  match sl.st, sl.wait with
  | .waiting, .reissue c => if s.condHolds k c then .ready else .waiting
  | .parked, .reissue c => if s.condHolds k c then .ready else .parked
  | .matrixBusy, .reissue c => if s.condHolds k c then .ready else .matrixBusy
  | .halted, .reissue c => if s.condHolds k c then .ready else .halted
  | st, _ => st

/-- issuer(c) of R45 on a core, with `YIELD` of R125: the slot number that issues; none for a core that has had its issue cycle. -/
def State.issuer (s : State) (core : Nat) : Option Nat :=
  let r := s.core core
  let c := s.cycle core
  let p := c % 64
  if r.stopIssue || !s.released core || r.shut.getLsbD p || (s.tile (tileOf core)).turned.contains core then none
  else
    match s.issueSt (64 * core + p) with
    | .ready => if (s.slot (64 * core + p)).nextOk ≤ c then some p else none
    | .waiting => none
    | _ =>
      ((range' 9 55).map fun d => (p + d) % 64).find? fun q =>
        let sl := s.slot (64 * core + q)
        s.issueSt (64 * core + q) == .ready && !r.shut.getLsbD q && sl.nextOk ≤ c && !sl.noBorrow

/-- The thread of a slot made ready for its issue at this cycle (R45, R58). -/
def State.prepare (s : State) (k : Nat) : State :=
  let c := s.cycle (coreOf k)
  let s := s.modSlot k fun sl => { sl with st := .ready, wait := .none, nextOk := c + 8, stale := false, completes := false,
                                           noBorrow := if c % 64 = slotNo k then false else sl.noBorrow }
  { s with cur := k }

/-- The oldest of some faults (R294). -/
def oldest : List EarlierFault → Option EarlierFault
  | [] => none
  | f :: r => match oldest r with
    | some g => if g.age < f.age then some g else some f
    | none => some f

/-- The oldest vector element fault that awaits a thread's boundary; the middle of an `LDM` or `STM` is no boundary (R136). -/
def State.dueFault (s : State) (k : Nat) : Option EarlierFault := if (s.slot k).mid then none else oldest (s.slot k).earlier

/-- A fault of work issued earlier, taken before the instruction at the boundary is issued (R294 step 1). -/
def State.takeFault (s : State) (k : Nat) (f : EarlierFault) : State :=
  (s.modSlot k fun sl => { sl with earlier := sl.earlier.erase f }).takeTrap k f.cause f.source f.level f.xpc f.xaddr f.xprog 0 (s.slot k).pc

/-- Whether an instruction of a thread took a fault of work issued earlier than a step: a remote-store error or a failed mark (R28,
R214, R294). -/
def State.tookBefore (s t : State) (k age : Nat) : Bool :=
  let a := s.slot k
  let b := t.slot k
  (a.failStore.isSome && b.failStore.isNone && a.failAge < age) || (a.failed.any fun m => m.age < age && !b.failed.contains m)

/-! ## What the machine does next (R348) -/

/-- The cores of a tile that take issue cycles: those with a slot in use; where only an event waits for the tile's clock, core 0. -/
def State.tileTurns (s : State) (tile : Nat) : List Nat :=
  let used := (tileCores tile).filter fun c => s.slots.any fun p => p.1 / 64 == c && p.2.st != .empty
  if used = [] then [coreOfTile tile 0] else used

/-- The level that a tile's inputs call for (R310). -/
def State.levelTarget (s : State) (tile : Nat) : Nat :=
  let req := (tileCores tile).foldl (fun m c => (range' 0 64).foldl (fun m i =>
    let sl := s.slot (64 * c + i)
    if sl.st == .empty || sl.st == .held || sl.st == .halted then m else Nat.max m sl.opreq.toNat) m) 0
  Nat.min req (Nat.min (Nat.min s.pacer.ceiling (s.pacer.dropped.getD 30)) s.pacer.slack)

/-- The tiles whose clocks the model steps: a slot is in use, an event waits for a cycle, or the level is to change; and the clock
runs (R311). The idle cycles of the others are counted by `TileRec.upTo`. [DESIGN CHOICE, log 22] -/
def State.activeTiles (s : State) : List Nat :=
  let held := (s.slots.filter fun p => p.2.st != .empty).map fun p => tileOf (p.1 / 64)
  let timed := s.agenda.filterMap fun d => match d.at_ with | .cycle c _ => some (tileOf c) | _ => none
  let levels := (s.tiles.filter fun p => s.levelTarget p.1 != p.2.level).map (·.1)
  (held ++ timed ++ levels).foldl (fun l t => if l.contains t || (s.tile t).stopped then l else l ++ [t]) []

/-- When the present cycle of a tile begins. -/
def State.edgeOf (s : State) (tile : Nat) : Nat := ((s.tile tile).upTo s.now).edge

/-- The cores whose issue cycle comes next: of each tile whose cycle begins first, the lowest core that has not had this cycle (R160). Where
all have, since the slots of the others have emptied meanwhile, one of them ends it. [DESIGN CHOICE, log 22] -/
def State.nextCores (s : State) : List Nat :=
  let tiles := s.activeTiles
  match tiles with
  | [] => []
  | t :: r =>
    let first := r.foldl (fun m u => Nat.min m (s.edgeOf u)) (s.edgeOf t)
    (tiles.filter fun u => s.edgeOf u == first).flatMap fun u =>
      match (s.tileTurns u).filter fun c => !((s.tile u).upTo s.now).turned.contains c with
      | [] => (s.tileTurns u).take 1
      | l => l.take 1

/-- The tile on whose clock an event happens (R7): a core, a lane pool, a matrix unit, an engine, a walker or an NI of it takes the
event; none for an event of the fabric, of the module or of the outside. -/
def State.clockOf (s : State) (e : Ev) : Option Nat :=
  let ofReq (id : Nat) : Option Nat := (s.reps.find? fun r => r.req.id == id).bind fun r => if ofCore r.req.src then some (tileOf (srcCore r.req.src)) else none
  let ofEng (id : Nat) : Option Nat := (s.engs.find? (·.id == id)).map EngOp.tile
  let ofMig (f : MigMsg → Nat) (id : Nat) : Option Nat := (s.migs.find? (·.id == id)).map fun m => tileOf (f m)
  match e with
  | .divideComplete k | .retryParkExpiry k | .parkTimeout k | .dequeRefillArrival k | .preemptRequestArrival k | .preemptSaveComplete k =>
    some (tileOf (coreOf k))
  | .replyArrival id | .remoteStoreAck id | .nackReceived id | .vectorElementReply id => ofReq id
  | .redirectInstall tile _ | .matrixArraySelect tile | .strideSpillReturn tile => some tile
  | .redirectDrain id => (s.reqs.find? (·.id == id)).map fun q => tileOf (srcCore q.src)
  | .vectorStep core | .vectorPendingWrite core | .matrixOpStart core | .matrixOpRetire core | .accAccessAttempt core
  | .landingQueueTake core | .landnRaiseComplete core | .stealArrival core => some (tileOf core)
  | .engineMove id | .engineComplete id => ofEng id
  | .migrationArrival id => ofMig MigMsg.target id
  | .landingAck id | .bounceReturn id => ofMig (fun m => coreOf m.src) id
  | .sendrDelivery id => (s.sendrs.find? (·.id == id)).map fun m => tileOf (coreOf m.target)
  | .translationWalk id | .walkComplete id => (s.walks.find? (·.id == id)).map Walk.tile
  | .threadRestore id => (s.images.find? (·.id == id)).map fun m => tileOf m.core
  | .memberReached id _ | .pushmMemberAck id _ => ofEng id
  | _ => none

/-- The die on which what takes an event stands, for the accesses that it makes by itself: that of a core, of a walker, of a hub; the region
manager's stands on die Q0 (R339). None for an event at a home, in a bridge or outside. -/
def State.standOf (s : State) (e : Ev) : Option Nat :=
  match e with
  | .engineMove _ | .engineComplete _ | .replyArrival _ | .remoteStoreAck _ | .nackReceived _ | .vectorElementReply _ => none
  | .hubAllocate core | .stealSweep core | .stealHubAck core => some (dieOf core)
  | .handlerOwedStart cl | .preemptDecision cl => some (cl / 64)
  | .tcbDecrement key _ | .taskRetire key _ => some (key / 512 / 64)
  | .retireDec key _ _ _ | .retireStep key _ _ => some (key / 512 / 64)
  | .eventDelivery _ _ _ _ | .launch _ _ _ _ _ | .setobj _ _ _ _ | .donationReceive _ _ _ _ _ | .donationDrain _ _ => some 0
  | e => (s.clockOf e).map (· / 256)

/-- Who takes an event: a unit that uses its tile's TLB and walkers is an engine; the others walk by themselves (R303).
[DESIGN CHOICE, log 123] -/
def State.workOf (s : State) (e : Ev) : Work :=
  { who := .event e, die := s.standOf e
    tile := match e with | .engineMove _ | .engineComplete _ | .engineTrip _ _ _ => s.clockOf e | _ => none }

/-- What the thread in a slot does: it stands on its core's die, and uses its core's and its tile's TLBs (R303). -/
def threadWork (k : Nat) : Work :=
  { who := .thread k, die := some (dieOf (coreOf k)), core := some (coreOf k), tile := some (tileOf (coreOf k)) }

/-- Whether an event of the agenda may happen now: the clock on which it happens runs (R7, R311), and its cycle or time has come. -/
def State.ripe (s : State) (d : Due) : Bool :=
  (s.clockOf d.ev).all (fun t => !(s.tile t).stopped) &&
  match d.at_ with
  | .any => true
  | .cycle core n => n ≤ s.cycle core
  | .time n => n ≤ s.time

/-- What the machine does next. -/
inductive Move where
  /-- the event at a place of the agenda -/
  | event (i : Nat)
  /-- an issue cycle of a core -/
  | issue (core : Nat)
  | idle
deriving DecidableEq, Repr

/-- One of some cores: the only one, or a free choice. -/
def pickCore (l : List Nat) (tick : Nat) : Move :=
  match l with
  | [] => .idle
  | [c] => .issue c
  | c :: r => .issue ((c :: r).getD (Config.turn tick % (r.length + 1)) c)

/-- One of some places of the agenda. -/
def pickEvent (i : Nat) (r : List Nat) (tick : Nat) : Move :=
  .event ((i :: r).getD (Config.order tick % (r.length + 1)) i)

/-- Whether something put off at a step has waited as long as it may (R348). -/
def overdue (born tick : Nat) : Bool := born + Config.transit born ≤ tick

/-- What the machine does next. An event whose cycle or time has come happens at once; what has waited long enough comes next;
with nothing ripe on the agenda there is an issue cycle, else a free choice (R348). [DESIGN CHOICE, log 1] -/
def State.nextMove (s : State) : Move :=
  let places := range' 0 s.agenda.length
  let which (f : Due → Bool) : List Nat := places.filter fun i => match s.agenda[i]? with | some d => s.ripe d && f d | none => false
  let cores := s.nextCores
  match which (fun d => d.at_ != .any) with
  | i :: r => pickEvent i r s.tick
  | [] =>
    match which fun _ => true with
    | [] => pickCore cores s.tick
    | i :: r =>
      match which (fun d => overdue d.born s.tick) with
      | j :: _ => if overdue s.lastIssue s.tick && cores != [] && s.lastIssue < ((s.agenda[j]?).elim 0 Due.born) then pickCore cores s.tick
                  else .event j
      | [] =>
        if overdue s.lastIssue s.tick && cores != [] then pickCore cores s.tick
        else
          let n := r.length + 1
          let j := Config.order s.tick % (if cores = [] then n else n + 1)
          if j < n then .event ((i :: r).getD j i) else pickCore cores s.tick

/-- The event taken off the agenda. -/
def State.takeDue (s : State) (i : Nat) : State := { s with agenda := s.agenda.eraseIdx i }

/-- The next moment that time may not pass: the edge of a running clock, or a value of `TIME` that an event waits for. -/
def State.limit (s : State) : Option Nat :=
  let edges := s.activeTiles.map s.edgeOf
  let times := s.agenda.filterMap fun d => match d.at_ with | .time n => if s.time < n then some (n * nsUnit + s.lagged - s.timeBefore) else none | _ => none
  match edges ++ times with
  | [] => none
  | a :: r => some (r.foldl Nat.min a)

/-- The part of a nanosecond and more that `TIME` may run ahead without passing a value that an event waits for. -/
def State.timeRoom (s : State) : Nat :=
  let l := s.agenda.filterMap fun d => match d.at_ with
    | .time n => if s.time < n then some (n * nsUnit + s.lagged - s.timeBefore - s.now) else none
    | _ => none
  match l with
  | [] => nsUnit
  | a :: r => r.foldl Nat.min a

/-- A member of a group holds its `TIME` to that of the others: by a rate at most 100 ppm faster or slower, which it chooses, over what has
passed, while the members' heartbeats have shown it behind or ahead of them in sum; it never steps backwards (R334).
[DESIGN CHOICE, log 126] -/
def State.slew (s : State) (passed : Nat) : State :=
  let lag : Int := (s.pacer.offsets.map (·.2)).foldl (· + ·) 0
  let d := Config.freeNat s.tick % (passed / 10000 + 1)
  if s.pacer.group.isNone || lag = 0 then s
  else if 0 < lag then { s with timeBefore := s.timeBefore + Nat.min d s.timeRoom }
  else { s with lagged := s.lagged + d }

/-- The state at a moment from now on, with `TIME` slewed over what passes. -/
def State.onTo (s : State) (moment : Nat) : State := ({ s with now := moment } : State).slew (moment - s.now)

/-- Time passes with an event (R7, R121); `tick` counts the step. [DESIGN CHOICE, log 2] -/
def State.elapse (s : State) : State :=
  let t := s.now + Config.elapsed s.tick
  let s' := s.onTo (match s.limit with | some m => Nat.max s.now (Nat.min t m) | none => t)
  { s' with tick := s.tick + 1 }

/-- Nothing stands to be done but to let time pass, to the next moment for which something waits. -/
def State.rest (s : State) : State :=
  let s' := s.onTo (match s.limit with | some m => Nat.max s.now m | none => s.now + Config.elapsed s.tick)
  { s' with tick := s.tick + 1 }

end Sys2Proof.Machine
end

