-- ==== Sys2Proof/Machine/BootImage.lean ====
section
/-! DEFINITION. Region 0 and the boot thread as they stand at stage 3 (R345). -/

namespace Sys2Proof.Machine

/-- The level-4 table of region 0, at an address the region manager chooses above 0x3FFF_FFFF (R345). -/
def bootRoot : Nat := 0x4000_0000

/-- The level-3 table of region 0. -/
def bootTable : Nat := 0x4010_0000

/-- The leaf that maps physical 0 to 0x3FFF_FFFF identically: R, W, X, policy 1, key 0 (R345, R301). -/
def bootLeaf : Nat := 0x4F

/-- Region 0 while the boot code runs (R345). -/
def region0 : Region :=
  { coreset := BitVec.allOnes 256, evq := 0, fltq := 0, dqbase := 0, scrbase := 0, acct := 0, energy := 0, dqlog := 4, strq := 0,
    scrbytes := 0x2_0000, minslots := 0, maxslots := 262144, handler := 0, objcount := 16, objbase := 0x800, ptroot := bootRoot,
    rcb := 0, parent := none, prio := 15, fdom := true, depth := 0, age := 0, held := 1 }

/-- The TCB of the boot task: index 0 of cluster 0 of Q0. -/
def bootTcb : Tcb := { pc := 0x1000, region := 0, rscope := 5, wclass := 3, prio := 15, state := 3 }

/-- The boot thread in system slot 1 of core (0,0) of Q0 (R345, R43). -/
def bootSlot : Slot := { st := .ready, pc := 0x1000, region := 0, wclass := 3, base := 0, task := tcbRef 0, ring := 1 }

/-- The boot code, as the listing of the program gives it: it builds an address group of the live cores from `RETIRED`, and pushes the image
to them (R339 step 5, R345, R346). -/
def bootProgram : List Instr :=
  [.mfs 20 2, .lim 21 0, .limH 21 2 0xF000, .limH 21 3 0x00FF, .and 20 20 21, .lim 21 0, .limH 21 3 0x0100, .or 20 20 21,
   .lim 22 0x0200, .limH 22 1 0x8010, .or 22 22 20, .addpc 23 0x6FD4, .lim 24 0, .lim 25 0, .lim 27 4096,
   .andi 4 24 63, .cmpi 1 1 4 0, .b 0 1 4, .shri 5 24 3, .add 5 5 22, .ldD 26 5 0 0,
   .shr 6 26 4, .andi 6 6 1, .cmpi 1 1 6 0, .b 0 1 8, .cmpi 1 0 24 0, .b 0 1 6, .shli 7 24 32, .or 7 7 20, .stD 7 23 0 0] ++
  [.addi 23 23 8, .addi 25 25 1, .addi 24 24 1, .cmp 1 2 24 27 3, .b 0 1 (2 ^ 21 - 19),
   .addpc 9 0x2F74, .addpc 10 0x6F70, .stD 10 9 0 0, .shli 11 25 24, .lim 12 0, .limH 12 3 0x0202, .or 11 11 12, .stD 11 9 0 7,
   .fence 5, .lim 13 0, .objset 13 9, .lim 14 0, .limH 14 1 1, .add 16 20 14, .lim 15 0x4000,
   .pushm 0 14 16 15 0 5 false, .lim 17 1, .waitt 17, .done]

/-- Its bytes, from global 0x1000 on. -/
def bootCode : List Byte := bootProgram.flatMap fun i => (encode i).flatMap (leBytes 4)

/-- The lines of the page tables and of the object table of region 0. -/
def bootLines : List Nat := [bootRoot / 128, bootTable / 128] ++ range' (0x800 / 128) 8

/-- Lines written back and dropped from the L2 and the MSC, so that HBM holds them. -/
def State.uncache (s : State) (lines : List Nat) : State :=
  lines.foldl (fun t l => (((t.cleanL2 l).dropL2 l).cleanMsc l).dropMsc l) s

/-- The boot thread placed: region 0 is live, its page tables stand in HBM and its object table is empty, and its thread is ready at 0x1000
(R345, R43). [DESIGN CHOICE, log 11] -/
def State.placeBoot (s : State) : State :=
  let s := s.uncache bootLines
  { s with
    regions := put s.regions 0 region0
    tcbs := put s.tcbs 0 bootTcb
    slots := put s.slots 1 bootSlot
    regs := put s.regs 3 { val := BitVec.ofNat 64 (2 ^ 31) }
    mem := writeBytes (writeBytes (s.mem.filter fun c => !(0x800 ≤ c.1 && c.1 < 0xC00)) bootRoot (leBytes 8 (bootTable + 1))) bootTable (leBytes 8 bootLeaf) }

/-- The TLB entry by which core 0 reaches the GiB of region 0, with A and D set. -/
def bootTlb : TlbEnt := { holder := 0, region := 0, level := 3, page := 0, pte := BitVec.ofNat 64 (bootLeaf + 48) }

end Sys2Proof.Machine
end

