-- ==== Sys2Proof/Machine/Flags.lean ====
section
/-! DEFINITION. Floating-point values, rounding, conversions and flags (chapter 07, R86 to R99). -/

namespace Sys2Proof.Machine

/-! ## Formats and values (R86) -/

/-- Which special patterns a format has: infinities and NaNs, NaNs alone (`.e4m3`), or none (`.e2m1`). -/
inductive FKind where
  | ieee | nanOnly | none
deriving DecidableEq, Repr

/-- A floating-point format: bits of exponent and fraction, bias. -/
structure Fmt where
  e : Nat
  f : Nat
  bias : Nat
  kind : FKind := .ieee
deriving DecidableEq, Repr

def f32 : Fmt := { e := 8, f := 23, bias := 127 }
def f16 : Fmt := { e := 5, f := 10, bias := 15 }
def bf16 : Fmt := { e := 8, f := 7, bias := 127 }
def e5m2 : Fmt := { e := 5, f := 2, bias := 15 }
def e4m3 : Fmt := { e := 4, f := 3, bias := 7, kind := .nanOnly }
def e2m1 : Fmt := { e := 2, f := 1, bias := 1, kind := .none }
def a40 : Fmt := { e := 8, f := 31, bias := 127 }

/-- A value: a NaN (signalling or quiet), an infinity, or (−1)^neg × m × 2^x. -/
inductive FVal where
  | nan (signalling : Bool)
  | inf (neg : Bool)
  | fin (neg : Bool) (m : Nat) (x : Int)
deriving DecidableEq, Repr, Inhabited

/-- The flags of `FPSTAT`[5:0] (R92): SA, NV, DZ, OF, UF, NX from bit 5 down. -/
abbrev FFlags := BitVec 6

def flagNX : FFlags := 1
def flagUF : FFlags := 2
def flagOF : FFlags := 4
def flagDZ : FFlags := 8
def flagNV : FFlags := 16
def flagSA : FFlags := 32

/-- The canonical NaN (R86). -/
def Fmt.nan (F : Fmt) : Nat :=
  match F.kind with
  | .ieee => (2 ^ F.e - 1) * 2 ^ F.f + 2 ^ (F.f - 1)
  | _ => 2 ^ (F.e + F.f) - 1

/-- An infinity of the format. -/
def Fmt.inf (F : Fmt) (neg : Bool) : Nat := b2n neg * 2 ^ (F.e + F.f) + (2 ^ F.e - 1) * 2 ^ F.f

/-- The largest finite magnitude's bits (R86). -/
def Fmt.maxBits (F : Fmt) : Nat :=
  match F.kind with
  | .ieee => (2 ^ F.e - 1) * 2 ^ F.f - 1
  | .nanOnly => 2 ^ (F.e + F.f) - 2
  | .none => 2 ^ (F.e + F.f) - 1

/-- The largest finite value with a sign. -/
def Fmt.max (F : Fmt) (neg : Bool) : Nat := b2n neg * 2 ^ (F.e + F.f) + F.maxBits

/-- The value of a bit pattern (R86). -/
def unpack (F : Fmt) (w : Nat) : FVal :=
  let neg := bit w (F.e + F.f)
  let ex := bits w F.f F.e
  let fr := bits w 0 F.f
  if F.kind = .ieee ∧ ex = 2 ^ F.e - 1 then
    if fr = 0 then .inf neg else .nan (!bit fr (F.f - 1))
  else if F.kind = .nanOnly ∧ bits w 0 (F.e + F.f) = 2 ^ (F.e + F.f) - 1 then .nan false
  else if ex = 0 then .fin neg fr (1 - (F.bias : Int) - F.f)
  else .fin neg (2 ^ F.f + fr) ((ex : Int) - F.bias - F.f)

/-! ## Rounding (R88 to R90) -/

/-- A rounding: the mode (0 RNE, 1 RTZ, 2 RUP, 3 RDN, 4 SR) and the draw r of R89. -/
structure Rm where
  mode : Nat
  r : Nat := 0
deriving DecidableEq, Repr

/-- Whether a magnitude m0 + rem / 2^k rounds up (R88, R89). -/
def roundsUp (rm : Rm) (neg : Bool) (m0 rem k : Nat) : Bool :=
  if rem = 0 then false
  else match rm.mode with
    | 0 => 2 ^ k < 2 * rem || (2 * rem = 2 ^ k && m0 % 2 = 1)
    | 1 => false
    | 2 => !neg
    | 3 => neg
    | _ => rm.r < rem * 2 ^ 32 / 2 ^ k

/-- m × 2^x rounded to a multiple of 2^q: the multiple, and whether it is inexact. -/
def roundTo (rm : Rm) (neg : Bool) (m : Nat) (x q : Int) : Nat × Bool :=
  if q ≤ x then (m * 2 ^ (x - q).toNat, false)
  else
    let k := (q - x).toNat
    let m0 := m / 2 ^ k
    (if roundsUp rm neg m0 (m % 2 ^ k) k then m0 + 1 else m0, m % 2 ^ k != 0)

/-- Whether m × 2^x is at most n × 2^y. -/
def leScaled (m : Nat) (x : Int) (n : Nat) (y : Int) : Bool :=
  if x ≤ y then m ≤ n * 2 ^ (y - x).toNat else m * 2 ^ (x - y).toNat ≤ n

/-- The bits of a magnitude m × 2^q, with q at or above the quantum of the subnormals and m at most 2^(f+1). -/
def packMag (F : Fmt) (m : Nat) (q : Int) : Nat :=
  if m < 2 ^ F.f then m
  else if m = 2 ^ (F.f + 1) then (q + 1 + F.f + F.bias).toNat * 2 ^ F.f
  else (q + F.f + F.bias).toNat * 2 ^ F.f + (m - 2 ^ F.f)

/-- The result of an overflow by its mode, before `.sat` (R90): an infinity, or the largest finite value. -/
def overflowInf (rm : Rm) (neg : Bool) : Bool :=
  match rm.mode with
  | 1 => false
  | 2 => !neg
  | 3 => neg
  | _ => true

/-- A finite nonzero value rounded into a format, with its flags (R88 to R90). -/
def roundFin (F : Fmt) (rm : Rm) (sat : Bool) (neg : Bool) (m : Nat) (x : Int) : Nat × FFlags :=
  let sign := b2n neg * 2 ^ (F.e + F.f)
  let top : Nat := if F.maxBits % 2 ^ F.f = 0 then 2 ^ F.f else 2 ^ F.f + F.maxBits % 2 ^ F.f
  let topq : Int := ((F.maxBits / 2 ^ F.f : Nat) : Int) - F.bias - F.f
  let rm := if rm.mode = 4 ∧ !leScaled m x top topq then { rm with mode := 0 } else rm
  let q0 : Int := x + Nat.log2 m - F.f
  let qmin : Int := 1 - (F.bias : Int) - F.f
  let q := if q0 < qmin then qmin else q0
  let (n, inexact) := roundTo rm neg m x q
  if !leScaled n q top topq then
    let big := overflowInf rm neg
    let plain := if !big then sign + F.maxBits
      else match F.kind with
        | .ieee => F.inf neg
        | .nanOnly => F.nan
        | .none => sign + F.maxBits
    let out := if sat && big then sign + F.maxBits else plain
    (out, flagOF ||| flagNX ||| (if out = plain then 0 else flagSA))
  else
    let tiny := q0 < qmin && (let (n0, _) := roundTo rm neg m x q0; !leScaled (2 ^ F.f) qmin n0 q0)
    (sign + packMag F n q, (if inexact then flagNX else 0) ||| (if tiny && inexact then flagUF else 0))

/-- The result of an operation or conversion as a pattern of a format, with flags (R87 to R90). [DEDUCED, log 16] -/
def toFormat (F : Fmt) (rm : Rm) (sat : Bool) : FVal → Nat × FFlags
  | .nan s =>
    match F.kind with
    | .none => (0, flagNV)
    | _ => (F.nan, if s then flagNV else 0)
  | .inf neg =>
    match F.kind with
    | .ieee => if sat then (F.max neg, flagSA) else (F.inf neg, 0)
    | .nanOnly => if sat then (F.max neg, flagNV ||| flagSA) else (F.nan, flagNV)
    | .none => (F.max neg, flagNV)
  | .fin neg m x => if m = 0 then (b2n neg * 2 ^ (F.e + F.f), 0) else roundFin F rm sat neg m x

/-- A conversion into an integer type of w bits (R91): the value's w-bit pattern, and flags. With `.sr` a value beyond the range end by
less than 1 is rounded stochastically too, not to nearest as R89 says of float targets. [DESIGN CHOICE, log 117] -/
def toIntType (signed : Bool) (w : Nat) (rm : Rm) : FVal → Nat × FFlags
  | .nan _ => (0, flagNV)
  | .inf neg => (if neg then (if signed then 2 ^ (w - 1) else 0) else (if signed then 2 ^ (w - 1) - 1 else 2 ^ w - 1), flagNV)
  | .fin neg m x =>
    let (n, inexact) := if m = 0 then (0, false) else roundTo rm neg m x 0
    let v : Int := if neg then -n else n
    let lo : Int := if signed then -(2 ^ (w - 1)) else 0
    let hi : Int := if signed then 2 ^ (w - 1) - 1 else 2 ^ w - 1
    if v < lo then ((lo % 2 ^ w).toNat, flagNV)
    else if hi < v then ((hi % 2 ^ w).toNat, flagNV)
    else ((v % 2 ^ w).toNat, if inexact then flagNX else 0)

/-- The value of an integer. -/
def ofInt (v : Int) : FVal := .fin (v < 0) v.natAbs 0

/-- sr_bits of R89. -/
def srBits (seed : Word) (i : Nat) : Nat :=
  let z := seed + BitVec.ofNat 64 (i + 1) * 0x9E3779B97F4A7C15
  let z := (z ^^^ (z >>> 30)) * 0xBF58476D1CE4E5B9
  let z := (z ^^^ (z >>> 27)) * 0x94D049BB133111EB
  (z ^^^ (z >>> 31)).toNat % 2 ^ 32

/-! ## Exact arithmetic (R87, R88) -/

/-- The signed integer of a finite value at a common exponent. -/
def scaledInt (neg : Bool) (m : Nat) (x y : Int) : Int :=
  let v : Int := m * 2 ^ (x - y).toNat
  if neg then -v else v

/-- A sum's value from its integer at exponent y; an exact zero takes the sign of R87. [DEDUCED, log 15] -/
def sumValue (rm : Rm) (allNegZero : Bool) (v : Int) (y : Int) : FVal :=
  if v = 0 then .fin (allNegZero || rm.mode == 3) 0 0 else .fin (v < 0) v.natAbs y

/-- Whether a value is a signalling NaN. -/
def FVal.snan : FVal → Bool
  | .nan s => s
  | _ => false

/-- Whether a value is a NaN. -/
def FVal.isNan : FVal → Bool
  | .nan _ => true
  | _ => false

/-- Whether a value is −0. -/
def FVal.negZero : FVal → Bool
  | .fin true 0 _ => true
  | _ => false

/-- NV where some operand is a signalling NaN. -/
def nvIf (b : Bool) : FFlags := if b then flagNV else 0

/-- The negation of a value. -/
def FVal.neg : FVal → FVal
  | .nan s => .nan s
  | .inf n => .inf (!n)
  | .fin n m x => .fin (!n) m x

/-- The exact sum of two values that are no NaN, and NV for ∞ − ∞. -/
def addVal (rm : Rm) (a b : FVal) : FVal × FFlags :=
  match a, b with
  | .inf n, .inf k => if n = k then (.inf n, 0) else (.nan false, flagNV)
  | .inf n, _ => (.inf n, 0)
  | _, .inf n => (.inf n, 0)
  | .fin n m x, .fin k p y =>
    let z := if x ≤ y then x else y
    (sumValue rm (a.negZero && b.negZero) (scaledInt n m x z + scaledInt k p y z) z, 0)
  | _, _ => (.nan false, 0)

/-- The exact product of two values that are no NaN, and NV for ∞ × 0. -/
def mulVal (a b : FVal) : FVal × FFlags :=
  match a, b with
  | .fin n m x, .fin k p y => (.fin (xor n k) (m * p) (x + y), 0)
  | .inf n, .inf k => (.inf (xor n k), 0)
  | .inf n, .fin k p _ => if p = 0 then (.nan false, flagNV) else (.inf (xor n k), 0)
  | .fin n m _, .inf k => if m = 0 then (.nan false, flagNV) else (.inf (xor n k), 0)
  | _, _ => (.nan false, 0)

/-- Rounded addition in a format. -/
def fadd (F : Fmt) (rm : Rm) (a b : Nat) : Nat × FFlags :=
  let x := unpack F a
  let y := unpack F b
  if x.isNan || y.isNan then (F.nan, nvIf (x.snan || y.snan))
  else
    let (v, fl) := addVal rm x y
    let (w, fm) := toFormat F rm false v
    (w, fl ||| fm)

/-- Rounded subtraction in a format. -/
def fsub (F : Fmt) (rm : Rm) (a b : Nat) : Nat × FFlags :=
  let x := unpack F a
  let y := unpack F b
  if x.isNan || y.isNan then (F.nan, nvIf (x.snan || y.snan))
  else
    let (v, fl) := addVal rm x y.neg
    let (w, fm) := toFormat F rm false v
    (w, fl ||| fm)

/-- Rounded multiplication in a format. -/
def fmul (F : Fmt) (rm : Rm) (a b : Nat) : Nat × FFlags :=
  let x := unpack F a
  let y := unpack F b
  if x.isNan || y.isNan then (F.nan, nvIf (x.snan || y.snan))
  else
    let (v, fl) := mulVal x y
    let (w, fm) := toFormat F rm false v
    (w, fl ||| fm)

/-- Fused a × b + c, with the product negated where asked, rounded once (R88, R172): 0 × ∞ sets NV whatever c holds.
[DEDUCED, log 17] -/
def ffma (F : Fmt) (rm : Rm) (negate : Bool) (a b c : Nat) : Nat × FFlags :=
  let x := unpack F a
  let y := unpack F b
  let z := unpack F c
  let (p, fl) := if x.isNan || y.isNan then (.nan false, nvIf (x.snan || y.snan)) else mulVal x y
  if p.isNan || z.isNan then (F.nan, fl ||| nvIf z.snan)
  else
    let (v, fm) := addVal rm (if negate then p.neg else p) z
    let (w, fn) := toFormat F rm false v
    (w, fl ||| fm ||| fn)

/-- Whether a ≤ b among values that are no NaN, −0 below +0 (R87). -/
def leVal (a b : FVal) : Bool :=
  match a, b with
  | .inf n, .inf k => n || !k
  | .inf n, _ => n
  | _, .inf k => !k
  | .fin n m x, .fin k p y =>
    if m = 0 && p = 0 then n || !k
    else
      let z := if x ≤ y then x else y
      scaledInt n m x z ≤ scaledInt k p y z
  | _, _ => false

/-- minimumNumber or maximumNumber of R87 on patterns of a format. -/
def fminmax (F : Fmt) (wantMax : Bool) (a b : Nat) : Nat × FFlags :=
  let x := unpack F a
  let y := unpack F b
  let fl := nvIf (x.snan || y.snan)
  if x.isNan && y.isNan then (F.nan, fl)
  else if x.isNan then (b, fl)
  else if y.isNan then (a, fl)
  else if wantMax then (if leVal x y then b else a, fl) else (if leVal x y then a else b, fl)

/-! ## Special functions (R94) -/

/-- The largest r < 2^k with r² ≤ n. -/
def isqrt (n : Nat) : Nat → Nat → Nat
  | 0, r => r
  | k + 1, r => isqrt n k (if (r + 2 ^ k) * (r + 2 ^ k) ≤ n then r + 2 ^ k else r)

/-- The floor of the square root of n. -/
def sqrtNat (n : Nat) : Nat := isqrt n (Nat.log2 n / 2 + 1) 0

/-- A magnitude with a bit below it that says whether something is left. -/
def withSticky (m : Nat) (exact : Bool) : Nat := 2 * m + b2n (!exact)

/-- A value between lo and lo + 2 (times 2^x), rounded as a point within these bounds is. No result of `VEXP2`, `VLOG2` or `VTANH` lies
within the bounds' width of a value at which a rounding changes, as a search over all operands has shown, so this is the correctly
rounded result of R94. [DEDUCED, log 13] -/
def rounded (rm : Rm) (neg : Bool) (lo : Nat) (x : Int) : Nat × FFlags := roundFin f32 rm false neg (2 * lo + 1) (x - 1)

/-- Fractional bits of the fixed-point sums below. -/
def fxBits : Nat := 256

/-- 2^(f / 2^k) for the k low bits of f, in fixed point: the product of square roots of 2 chosen by the bits of f. -/
def exp2Frac (f k : Nat) : Nat :=
  let rec go : Nat → Nat → Nat → Nat
    | 0, _, acc => acc
    | n + 1, root, acc =>
      let root := sqrtNat (root * 2 ^ fxBits)
      go n root (if bit f n then acc * root / 2 ^ fxBits else acc)
  go k (2 * 2 ^ fxBits) (2 ^ fxBits)

/-- The first n binary digits of log2(y / 2^fxBits) for y in [1, 2) × 2^fxBits. -/
def log2Frac : Nat → Nat → Nat
  | 0, _ => 0
  | n + 1, y =>
    let z := y * y / 2 ^ fxBits
    if 2 * 2 ^ fxBits ≤ z then 2 ^ n + log2Frac n (z / 2) else log2Frac n z

/-- The sum of the first n terms of e^w from a term on, in fixed point. -/
def expSum (w : Nat) : Nat → Nat → Nat → Nat
  | 0, _, _ => 0
  | n + 1, i, t => t + expSum w n (i + 1) (t * w / (i * 2 ^ fxBits))

/-- n squarings in fixed point. -/
def squarings : Nat → Nat → Nat
  | 0, y => y
  | n + 1, y => squarings n (y * y / 2 ^ fxBits)

/-- `VRCP` of R94 on a pattern of `.f32`. -/
def frcp (rm : Rm) (a : Nat) : Nat × FFlags :=
  match unpack f32 a with
  | .nan s => (f32.nan, nvIf s)
  | .inf n => (b2n n * 2 ^ 31, 0)
  | .fin n m x =>
    if m = 0 then (f32.inf n, flagDZ)
    else roundFin f32 rm false n (withSticky (2 ^ 128 / m) (2 ^ 128 % m == 0)) (-128 - x - 1)

/-- `VSQRT` of R94. -/
def fsqrt (rm : Rm) (a : Nat) : Nat × FFlags :=
  match unpack f32 a with
  | .nan s => (f32.nan, nvIf s)
  | .inf n => if n then (f32.nan, flagNV) else (f32.inf false, 0)
  | .fin n m x =>
    if m = 0 then (b2n n * 2 ^ 31, 0)
    else if n then (f32.nan, flagNV)
    else
      let k : Nat := if x % 2 = 0 then 128 else 129
      let v := m * 2 ^ k
      let r := sqrtNat v
      roundFin f32 rm false false (withSticky r (r * r == v)) ((x - k) / 2 - 1)

/-- `VRSQ` of R94. -/
def frsq (rm : Rm) (a : Nat) : Nat × FFlags :=
  match unpack f32 a with
  | .nan s => (f32.nan, nvIf s)
  | .inf n => if n then (f32.nan, flagNV) else (0, 0)
  | .fin n m x =>
    if m = 0 then (f32.inf n, flagDZ)
    else if n then (f32.nan, flagNV)
    else
      let k : Nat := if x % 2 = 0 then 256 else 255
      let r := sqrtNat (2 ^ k / m)
      roundFin f32 rm false false (withSticky r (r * r * m == 2 ^ k)) ((-x - k) / 2 - 1)

/-- `VEXP2` of R94. -/
def fexp2 (rm : Rm) (a : Nat) : Nat × FFlags :=
  match unpack f32 a with
  | .nan s => (f32.nan, nvIf s)
  | .inf n => if n then (0, 0) else (f32.inf false, 0)
  | .fin n m x =>
    if m = 0 then (127 * 2 ^ 23, 0)
    else if leScaled 512 0 m x then roundFin f32 rm false false 3 (if n then -1000 else 1000)
    else if leScaled m x 1 (-30) then
      roundFin f32 rm false false (if n then 2 ^ 200 - 1 else 2 ^ 200 + 1) (-200)
    else
      let v := scaledInt n m (x + 64) 0
      let whole := v / 2 ^ 64
      let f := (v % 2 ^ 64).toNat
      if f = 0 then roundFin f32 rm false false 1 whole
      else
        let lo := exp2Frac f 64
        rounded rm false (lo / 2 ^ 16) (whole - 240)

/-- `VLOG2` of R94. -/
def flog2 (rm : Rm) (a : Nat) : Nat × FFlags :=
  match unpack f32 a with
  | .nan s => (f32.nan, nvIf s)
  | .inf n => if n then (f32.nan, flagNV) else (f32.inf false, 0)
  | .fin n m x =>
    if m = 0 then (f32.inf true, flagDZ)
    else if n then (f32.nan, flagNV)
    else
      let l := Nat.log2 m
      let whole : Int := x + l
      if m = 2 ^ l then toFormat f32 rm false (ofInt whole)
      else
        let fr := log2Frac 120 (m * 2 ^ (fxBits - l))
        let lo : Int := whole * 2 ^ 120 + fr
        if 0 ≤ lo then rounded rm false lo.natAbs (-120)
        else rounded rm true (lo.natAbs - 2) (-120)

/-- `VTANH` of R94. -/
def ftanh (rm : Rm) (a : Nat) : Nat × FFlags :=
  match unpack f32 a with
  | .nan s => (f32.nan, nvIf s)
  | .inf n => (b2n n * 2 ^ 31 + 127 * 2 ^ 23, 0)
  | .fin n m x =>
    if m = 0 then (b2n n * 2 ^ 31, 0)
    else if leScaled m x 1 (-13) then roundFin f32 rm false n (m * 2 ^ 64 - 1) (x - 64)
    else if leScaled 12 0 m x then roundFin f32 rm false n (2 ^ 64 - 1) (-64)
    else
      let w : Nat := if 0 ≤ x + 249 then m * 2 ^ (x + 249).toNat else m / 2 ^ (-(x + 249)).toNat
      let y := squarings 8 (expSum w 60 1 (2 ^ fxBits))
      let q := (y - 2 ^ fxBits) * 2 ^ 200 / (y + 2 ^ fxBits)
      rounded rm n (q - 1) (-200)

/-! ## Accumulator steps (R95, R96) -/

/-- The exact product of two values, with NV for a signalling NaN or for ∞ × 0 (R87). -/
def prodVal (a b : FVal) : FVal × FFlags :=
  if a.isNan || b.isNan then (.nan false, nvIf (a.snan || b.snan)) else mulVal a b

/-- The exact sum of the finite values among some, under a mode; an exact zero takes the sign of R87. -/
def sumFin (rm : Rm) : List FVal → FVal
  | [] => .fin true 0 0
  | [v] => v
  | v :: r => (addVal rm v (sumFin rm r)).1

/-- The exact sum of values by IEEE rules: a NaN among them, or infinities of both signs with NV, give NaN (R87, R95). Where a
quiet NaN meets infinities of both signs the NaN alone decides. [DESIGN CHOICE, log 118] -/
def sumVals (rm : Rm) (l : List FVal) : FVal × FFlags :=
  let inf (n : Bool) : Bool := l.any fun v => v == .inf n
  if l.any FVal.isNan then (.nan false, nvIf (l.any FVal.snan))
  else if inf true && inf false then (.nan false, flagNV)
  else if inf true then (.inf true, 0)
  else if inf false then (.inf false, 0)
  else (sumFin rm l, 0)

/-- cell_step of R95 for an `.a40` lane: the scale is 2^k, or a NaN that makes every product NaN (R96). -/
def cellFloat (acc : Nat) (ps : List (FVal × FVal)) (scale : Option Int) : Nat × FFlags :=
  let rm : Rm := { mode := 0 }
  let prods := ps.map fun p => prodVal p.1 p.2
  let fl := prods.foldl (fun m p => m ||| p.2) 0
  let scaled := prods.map fun p => match p.1, scale with
    | _, none => .nan false
    | .fin n m x, some k => .fin n m (x + k)
    | v, some _ => v
  let (v, fs) := sumVals rm (unpack a40 acc :: scaled)
  let (w, fm) := toFormat a40 rm false v
  (w, fl ||| fs ||| fm)

/-- cell_step of R95 for an `.i40` lane, with whether it clamped. -/
def cellInt (acc s : Int) : Int × Bool :=
  let v := acc + s
  if v < -(2 ^ 39) then (-(2 ^ 39), true) else if 2 ^ 39 - 1 < v then (2 ^ 39 - 1, true) else (v, false)

/-- tree_sum of R97 on a list of `.f32` patterns, by recursion on a bound of its length. -/
def treeSum (rm : Rm) : Nat → List Nat → Nat × FFlags
  | 0, _ => (0, 0)
  | n + 1, l =>
    match l with
    | [] => (0, 0)
    | [x] => match unpack f32 x with
      | .nan s => (f32.nan, nvIf s)
      | _ => (x, 0)
    | _ =>
      let h := 2 ^ Nat.log2 (l.length - 1)
      let (a, fa) := treeSum rm n (l.take h)
      let (b, fb) := treeSum rm n (l.drop h)
      let (c, fc) := fadd f32 rm a b
      (c, fa ||| fb ||| fc)

end Sys2Proof.Machine
end

