-- ==== Sys2Proof/Machine/Homes.lean ====
section
/-! DEFINITION. What a home does with a request (R20, R24 to R27, R29, R137, R138, R140, R148, R216, R307, R332), the deferral
buffers (R138, R260), and the words of the privileged window and of the Pacer status page (R340, R341, R322, R323). -/

namespace Sys2Proof.Machine

/-! ## The privileged window, housekeeping, the Pacer page -/

/-- The words of a continuation record, lowest first (R46). -/
def recWords (r : Rec) : List Word :=
  [r.pc, r.fp, BitVec.ofNat 64 (r.task.toNat * 2 ^ 32 + r.join.toNat),
   BitVec.ofNat 64 (r.slot * 2 ^ 48 + r.tiles * 2 ^ 24 + r.tvalid * 2 ^ 20 + b2n r.pub * 2 ^ 19 + r.wclass * 2 ^ 16 + r.region)]

/-- The record that four words hold. -/
def recOf (l : List Word) : Rec :=
  let w (i : Nat) : Nat := (l.getD i 0).toNat
  { pc := l.getD 0 0, fp := l.getD 1 0, task := BitVec.ofNat 32 (bits (w 2) 32 32), join := BitVec.ofNat 32 (w 2),
    slot := bits (w 3) 48 6, tiles := bits (w 3) 24 24, tvalid := bits (w 3) 20 4, pub := bit (w 3) 19,
    wclass := bits (w 3) 16 3, region := bits (w 3) 0 16 }

/-- Whether a region of this module is being captured (R341). -/
def State.capturingNow (s : State) : Bool := s.host.captures.any fun c => c.live && !c.replay && !c.full

/-- Live cores, once the live map is written (R339, R343). -/
def State.liveCount (s : State) : Nat := if s.host.mapped then s.host.logical.length else 0

/-- The housekeeping word at an offset (R341, R343). -/
def State.hkWord (s : State) (o : Nat) : Word :=
  let h := s.host
  BitVec.ofNat 64 (
    if o = 0 then h.modid
    else if o = 8 then s.liveCount * 2 ^ 16 + h.stage
    else if o = 16 then b2n h.sem.isSome * 2 + h.sem.getD 0
    else if o = 24 then b2n h.capOvf * 2 + b2n s.capturingNow
    else if o = 32 then h.hkdrop
    else if o = 40 then h.ecccnt
    else if o = 48 then s.liveCount
    else if 0x200 ≤ o && h.mapped then
      ((h.refusals.filter fun c => c / 64 == (o - 0x200) / 8).map fun c => 2 ^ (c % 64)).foldl (· + ·) 0
    else 0)

/-- Whether an offset of a core's privileged window is one of R340's layout; an access to another answers RIGHTS.
[DESIGN CHOICE, log 108] -/
def privKnown (core off : Nat) : Bool :=
  off < 0x80005000 || wordOf off == 0x80008000 || (0x80009000 ≤ off && off < 0x80009400) ||
  (core == 0 && 0x80100000 ≤ off && off < 0x80100400)

/-- The code of a slot's state in its record, in the order of R44. -/
def stateCode : SlotSt → Nat
  | .empty => 0
  | .held => 0
  | .ready => 1
  | .waiting => 2
  | .parked => 3
  | .matrixBusy => 4
  | .halted => 5

/-- Word `i` of the record of a slot (R340): its state, PC, `WINDOW` and `REGION`; the places of its slot registers in the other words are not
given, and those are free values. [DESIGN CHOICE, log 133] -/
def State.slotRecord (s : State) (k i : Nat) : Word :=
  match i with
  | 0 => BitVec.ofNat 64 (stateCode (s.slot k).st)
  | 1 => (s.slot k).pc
  | 2 => windowWord (s.slot k)
  | 3 => s.nameOf k
  | _ => Config.freeWord s.tick

/-- A word of a core's privileged window (R340). -/
def State.privWord (s : State) (core off : Nat) : Word :=
  if off < 0x80004000 then (s.rf core ((off - 0x80000000) / 8)).val
  else if off < 0x80005000 then s.slotRecord (64 * core + (off - 0x80004000) / 64) (off / 8 % 8)
  else if off = 0x80008000 then BitVec.ofNat 64 (b2n (s.core core).stopIssue + 2 * b2n (s.released core))
  else if off < 0x80009400 then
    match (s.core core).deque[(off - 0x80009000) / 32]? with
    | some e => (recWords e.rcd).getD ((off - 0x80009000) / 8 % 4) 0
    | none => 0
  else s.hkWord (off - 0x80100000)

/-- The state with a word of a core's privileged window written; of a slot record, the PC of a thread. [DESIGN CHOICE, log 133] -/
def State.setPriv (s : State) (core off : Nat) (v : Word) : State :=
  if off < 0x80004000 then
    let i := (off - 0x80000000) / 8
    s.setRf core i { (s.rf core i) with val := v }
  else if off < 0x80005000 then
    let k := 64 * core + (off - 0x80004000) / 64
    if off / 8 % 8 = 1 && (s.slot k).st != .empty && (s.slot k).st != .held then s.modSlot k fun sl => { sl with pc := v &&& ~~~3#64 } else s
  else if off = 0x80008000 then s.modCore core fun c => { c with stopIssue := bit v.toNat 0, released := some (bit v.toNat 1) }
  else if off < 0x80009400 then
    s.modCore core fun c =>
      match c.deque[(off - 0x80009000) / 32]? with
      | some e =>
        let r := recOf (setAt (recWords e.rcd) ((off - 0x80009000) / 8 % 4) v)
        { c with deque := setAt c.deque ((off - 0x80009000) / 32) { e with rcd := r } }
      | none => c
  else if off = 0x80100018 then { s with host := { s.host with capOvf := s.host.capOvf && !bit v.toNat 1 } }
  else s

/-- The value of `PACE` with a level in [9:5] (R322). -/
def State.pace (s : State) (level : Nat) : Word :=
  let p := s.pacer
  BitVec.ofNat 64 (p.epoch % 2 ^ 32 * 2 ^ 32 + b2n p.group.isSome * 2 ^ 28 +
    b2n (p.group.isSome && p.leader == s.host.modid) * 2 ^ 27 + b2n p.hard * 2 ^ 26 + b2n p.pend.isSome * 2 ^ 25 +
    (match p.pend with | some (l, _) => l % 32 | none => 0) * 2 ^ 20 + p.ceiling * 2 ^ 15 + p.slack * 2 ^ 10 + level * 32 + p.limit)

/-- The status page brought up to date: at epochs and at window ends (R323). -/
def State.updatePage (s : State) : State :=
  let p := s.pacer
  { s with pacer := { p with
      page := [s.pace 0, BitVec.ofNat 64 ((p.pend.map (·.2)).getD 0), BitVec.ofNat 64 p.lastChange,
               BitVec.ofNat 64 (p.leader + p.members.length * 2 ^ 16), BitVec.ofNat 64 p.hardDrops, BitVec.ofNat 64 p.late]
      pageMembers := p.members } }

/-- A word of the Pacer status page (R323). -/
def State.pacerWord (s : State) (o : Nat) : Word :=
  if o < 0x30 then s.pacer.page.getD (o / 8) (if o = 0 then BitVec.ofNat 64 (30 * 2 ^ 15 + 30 * 2 ^ 10 + 30) else 0)
  else if 0x40 ≤ o && o < 0x240 then
    BitVec.ofNat 64 (((s.pacer.pageMembers.filter fun c => c / 64 == (o - 0x40) / 8).map fun c => 2 ^ (c % 64)).foldl (· + ·) 0)
  else 0

/-! ## Words at any place -/

/-- `len` bytes within one word at any place, as a number. -/
def State.cellNum (s : State) (p len : Nat) : Nat :=
  if isPriv p then bits (s.privWord (placeCore p) (wordOf (p % 2 ^ 32))).toNat (8 * (p % 8)) (8 * len)
  else if isPacer p then bits (s.pacerWord (wordOf p - 2 ^ 57 - 2 ^ 20)).toNat (8 * (p % 8)) (8 * len)
  else s.homeNum p len

/-- A number's bytes put over those of a word. -/
def overWord (w : Word) (o len v : Nat) : Word :=
  let m : Word := BitVec.ofNat 64 (2 ^ (8 * len) - 1) <<< (8 * o)
  (w &&& ~~~m) ||| ((BitVec.ofNat 64 v <<< (8 * o)) &&& m)

/-- Whether the word at an offset of a privileged window holds a bit that a written 1 clears, so that bytes not written count as 0
(R5, R341). -/
def writeOnes (core off : Nat) : Bool := core == 0 && off == 0x80100018

/-- The state with `len` bytes within one word written at any place. -/
def State.cellSet (s : State) (p len v : Nat) : State :=
  if isPriv p then
    let off := wordOf (p % 2 ^ 32)
    let under : Word := if writeOnes (placeCore p) off then 0 else s.privWord (placeCore p) off
    s.setPriv (placeCore p) off (overWord under (p % 8) len v)
  else s.homeSet p len v

/-- The full/empty bit of the word at any place; a register's in its register file (R340). -/
def State.cellFull (s : State) (p : Nat) : Bool :=
  if isPriv p && p % 2 ^ 32 < 0x80004000 then (s.rf (placeCore p) ((p % 2 ^ 32 - 0x80000000) / 8)).full else s.homeFull p

/-- The state with the full/empty bit of the word at any place set. -/
def State.cellSetFull (s : State) (p : Nat) (full : Bool) : State :=
  if isPriv p && p % 2 ^ 32 < 0x80004000 then
    let i := (p % 2 ^ 32 - 0x80000000) / 8
    s.setRf (placeCore p) i { (s.rf (placeCore p) i) with full := full }
  else s.homeSetFull p full

/-! ## The step of a request at its home -/

/-- The new value of an atomic (R140) on a location of n bits. -/
def atomNew (op : AtomOp) (n old v new : Nat) : Nat :=
  match op with
  | .add => (old + v) % 2 ^ n
  | .fadd => (fadd f32 { mode := 0 } old v).1
  | .min => if sextInt old n ≤ sextInt v n then old else v
  | .max => if sextInt old n ≤ sextInt v n then v else old
  | .minn => if old ≤ v then old else v
  | .maxn => if old ≤ v then v else old
  | .and => Nat.land old v
  | .or => Nat.lor old v
  | .xor => Nat.xor old v
  | .swp => v
  | .cas => if old = v then new else old
  | .cadd => sat64 (old + v)

/-- Bytes of an atomic's location (R140). -/
def atomBytes (op : AtomOp) (w : AtomW) : Nat := if op = .cadd ∨ w = .d then 8 else 4

/-- The old value as g(a) receives it (R140). -/
def atomOld (op : AtomOp) (w : AtomW) (old : Nat) : Word :=
  if op = .cadd then BitVec.ofNat 64 old
  else match w with
    | .s32 => sext old 32
    | _ => BitVec.ofNat 64 old

/-- The fields of a hurdle word (R147). -/
def hurdle (w : Nat) : Nat × Nat × Nat := (bits w 32 32, bits w 16 16, bits w 0 16)

/-- What a request's step at its home answers, or that its condition does not hold. -/
inductive Stepped where
  | ans (a : HomeAns)
  | wait

/-- An uncorrectable word met at the home (R307). -/
def State.machineErr (s : State) (q : Req) : Stepped × State := (.ans (.err .machine), s.logReq q 4)

/-- The cores that hold a line in their L1. -/
def State.l1Holders (s : State) (line : Nat) : List Nat :=
  (s.cache.l1.filter fun p => p.1 % 2 ^ 32 == line).map fun p => p.1 / 2 ^ 32

/-- The L1 copies of a line held by the cores within a scope dropped without write-back; fills on their way are not kept. -/
def State.dropCopies (s : State) (core scope line : Nat) : State :=
  ((s.l1Holders line).filter (within scope core)).foldl (fun t c => t.dropL1 c line)
    (s.noFills fun c l => within scope core c && l == line)

/-- `DISCARD` of a line at its home, at a scope taken from a core that contains it (R143, R248). -/
def State.discardLine (s : State) (core scope line : Nat) : State :=
  let s := (s.dropCopies core scope line).dropL2 line
  if scope = 5 then s.dropMsc line else s

/-- Write-backs of a line by the cores within a scope that are on their way reach the home first. -/
def State.absorbWithin (s : State) (core scope line : Nat) : State :=
  (s.reqs.filter fun q => q.op == .wback && q.place / 128 == line && within scope core (srcCore q.src)).foldl
    (fun t q => (t.mergeHome line q.line).answer q (.ok 0)) s

/-- `FLUSH` of a line at its home (R143). -/
def State.flushLine (s : State) (core scope line : Nat) : State :=
  let s := s.absorbWithin core scope line
  let s := ((s.l1Holders line).filter (within scope core)).foldl (fun t c => t.cleanL1 c line) s
  let s := s.cleanL2 line
  if scope = 5 then s.cleanMsc line else s

/-- The line dropped from the instruction caches of the cores within a scope (R143); a fill of one on its way is not kept (R116). -/
def State.dropFetched (s : State) (core scope line : Nat) : State :=
  let mark (q : Req) : Req :=
    if q.dest == .ifetch && q.place / 128 == line && within scope core (srcCore q.src) then { q with noFill := true } else q
  { s with reqs := s.reqs.map mark, reps := s.reps.map (fun r => { r with req := mark r.req }), cache := { s.cache with ic := s.cache.ic.filter fun p => !(p.1 % 2 ^ 32 == line && within scope core (p.1 / 2 ^ 32)) } }

/-- `INVAL` of a line at its home (R143). -/
def State.invalLine (s : State) (core scope line : Nat) : State :=
  let s := ((((s.flushLine core scope line).dropCopies core scope line).dropFetched core scope line)).dropL2 line
  if scope = 5 then s.dropMsc line else s

/-- The step of a request at its home (R134, R137, R140, R148, R216, R307); its place has passed the checks of the home. -/
def State.stepOp (s : State) (q : Req) : Stepped × State :=
  let p := q.place
  let bad := s.homeBad p
  let word := s.cellNum (wordOf p) 8
  match q.op with
  | .load n => if bad then s.machineErr q else (.ans (.ok (BitVec.ofNat 64 (s.cellNum p n))), s)
  | .fill =>
    if bad && q.dest != .ifetch && q.dest != .pref then s.machineErr q
    else
      let l := s.homeLine (p / 128)
      (.ans (.line l.data l.fe l.bad l.poison), s)
  | .store n => if s.homeMergeBad p n then s.machineErr q else (.ans (.ok 0), s.cellSet p n q.v1.toNat)
  | .atomic op w =>
    if bad then s.machineErr q
    else
      let n := atomBytes op w
      let old := s.cellNum p n
      let m := 2 ^ (8 * n)
      let v := if op = .cadd then q.v1.toNat else q.v1.toNat % m
      (.ans (.ok (atomOld op w old)), s.cellSet p n (atomNew op (8 * n) old v (q.v2.toNat % m)))
  | .ldfe =>
    if bad then s.machineErr q
    else if s.cellFull p then (.ans (.ok (BitVec.ofNat 64 word)), s.cellSetFull p false) else (.wait, s)
  | .ldff =>
    if bad then s.machineErr q
    else if s.cellFull p then (.ans (.ok (BitVec.ofNat 64 word)), s) else (.wait, s)
  | .stfe =>
    if bad then s.machineErr q
    else if s.cellFull p then (.wait, s) else (.ans (.ok 0), (s.cellSet p 8 q.v1.toNat).cellSetFull p true)
  | .stf => if s.homeMergeBad p 8 then s.machineErr q else (.ans (.ok 0), (s.cellSet p 8 q.v1.toNat).cellSetFull p true)
  | .sete => if bad then s.machineErr q else (.ans (.ok 0), s.cellSetFull p false)
  | .feq => if bad then s.machineErr q else (.ans (.ok (BitVec.ofNat 64 (b2n (s.cellFull p)))), s)
  | .arrive =>
    if bad then s.machineErr q
    else
      let (phase, parties, arrived) := hurdle word
      if parties = 0 || parties ≤ arrived then (.ans (.err .rights), s.logReq q 1)
      else
        let new := if arrived + 1 = parties then (phase + 1) % 2 ^ 32 * 2 ^ 32 + parties * 2 ^ 16 else word + 1
        (.ans (.ok (BitVec.ofNat 64 phase)), s.cellSet p 8 new)
  | .hwait =>
    if bad then s.machineErr q
    else
      let d := (bits word 32 32 + 2 ^ 32 - q.v1.toNat % 2 ^ 32) % 2 ^ 32
      if 1 ≤ d && d < 2 ^ 31 then (.ans (.ok (BitVec.ofNat 64 (bits word 32 32))), s) else (.wait, s)
  | .htest => if bad then s.machineErr q else (.ans (.ok (BitVec.ofNat 64 (bits word 32 32))), s)
  | .cwait =>
    if bad then s.machineErr q
    else if q.v1.toNat ≤ word then (.ans (.ok (BitVec.ofNat 64 word)), s) else (.wait, s)
  | .cread => if bad then s.machineErr q else (.ans (.ok (BitVec.ofNat 64 word)), s)
  | .wback => (.ans (.ok 0), s.mergeHome (p / 128) q.line)
  | .touch => (.ans (.ok 0), s)
  | .discard => (.ans (.ok 0), s.discardLine (srcCore q.src) q.scope (p / 128))
  | .flush => (.ans (.ok 0), s.flushLine (srcCore q.src) q.scope (p / 128))
  | .inval => (.ans (.ok 0), s.invalLine (srcCore q.src) q.scope (p / 128))

/-! ## Checks at the home -/

/-- Whether an operation is a plain load. -/
def plainLoad : HomeOp → Bool
  | .load _ => true
  | _ => false

/-- The role of a region at a Wicket queue while both roles are bound (R331): 0 generator, 1 checker. -/
def State.wicketRole (s : State) (queue region : Nat) : Option Nat :=
  match find s.host.bindings (2 * queue), find s.host.bindings (2 * queue + 1) with
  | some g, some c => if g.1 = region then some 0 else if c.1 = region then some 1 else none
  | _, _ => none

/-- Whether a role may make an access to a word of an entry (R332). -/
def wicketMay (role word : Nat) (op : HomeOp) : Bool :=
  match op with
  | .feq => true
  | .load _ => word < 7
  | .stfe => if role = 0 then word < 7 else word = 7
  | .ldff => role = 1 && word < 7
  | _ => false

/-- Whether an operation is permitted at a chip counter (R141, R216). -/
def counterMay : HomeOp → Bool
  | .load _ => true
  | .atomic .cadd _ => true
  | .cwait => true
  | .cread => true
  | _ => false

/-- Whether an offset lies in a region's scratchpad partition or in the hub synchronisation words (R330). -/
def Region.partHas (g : Region) (off len : Nat) : Bool :=
  (4096 * g.scrbase ≤ off && off + len ≤ 4096 * g.scrbase + g.scrbytes) || (0x40008000 ≤ off && off + len ≤ 0x40010000)

/-- The bytes that an operation reads or writes at its address. -/
def opBytes : HomeOp → Nat
  | .load n => n
  | .store n => n
  | .atomic op w => atomBytes op w
  | _ => 8

/-- The kind of log entry with which the home refuses a request (R24, R26, R27, R29, R141, R330, R332), if it does.
[DEDUCED, log 24] -/
def State.siteErr (s : State) (q : Req) : Option Nat :=
  let p := q.place
  if isHbm p then none
  else if p < 2 ^ 57 then
    let core := bits q.addr.toNat 32 12
    let off := p % 2 ^ 32
    let foreignOk := q.src != foreignSrc || (match s.region? q.tregion with
      | some g => g.coreset.getLsbD (clusterOf core) && g.partHas off (opBytes q.op)
      | none => false)
    if s.retired core then some 2
    else if !foreignOk then some 1
    else if off < 0x40000000 then (if off < s.scratchSize core then none else some 1)
    else if isHubWord p then none
    else if isPriv p && q.src < 2 ^ 20 && isSystem q.src && privKnown core off then none
    else some 1
  else if isWicket p then
    match s.wicketRole ((p - 2 ^ 57) / 2 ^ 18) q.region with
    | some role => if q.src != foreignSrc && wicketMay role (p % 64 / 8) q.op && (plainLoad q.op || q.scope == 5) then none else some 1
    | none => some 1
  else if isPacer p then
    (match q.op with | .load _ => none | .cread => none | .cwait => none | .ldff => none | .feq => none | .htest => none | _ => some 1)
  else if isCounter p then (if counterMay q.op then none else some 1)
  else some 1

/-! ## Capture (R335) -/

/-- Bytes whose contents the chapters do not give, written to physical memory. -/
def State.freeBytes (s : State) (pa : Nat) : Nat → State
  | 0 => s
  | n + 1 => ((if s.lockHeld (pa / 128) then s.atHome pa 0 else s.unitHome pa 0 true).homeSet pa 1 (bits (Config.freeWordAt s.tick pa).toNat 0 8)).freeBytes (pa + 1) n

/-- A record appended to a capture; a full buffer ends it (R335). The layout of a record is not given: its bytes in the buffer are
free values. [DESIGN CHOICE, log 25] -/
def State.record (s : State) (c : Capture) (r : CapRec) (bytes : Nat) : State :=
  if c.replay || c.full then s
  else
    let fits := c.used + bytes ≤ c.len
    let new := if fits then { c with recs := c.recs ++ [r], used := c.used + bytes } else { c with full := true }
    let s := { s with host := { s.host with captures := s.host.captures.map fun d => if d = c then new else d } }
    if fits then s.freeBytes (c.base + c.used) bytes else { s with host := { s.host with capOvf := true } }

/-- The state with the record of an access that a replayed home has performed behind it; the accesses that wait there may come (R336). -/
def State.turnPast (s : State) (c : Capture) (r : CapRec) (home : Nat) : State :=
  let caps := s.host.captures.map fun d => if d = c then { d with recs := d.recs.erase r } else d
  let t : State := { s with host := { s.host with captures := caps } }
  (t.laters ((s.heldReqs.filter fun p => homeUnit p.place == home).map fun p => .replayHeldAccess p.id)).laters
    ((s.deferred.filter fun p => homeUnit p.place == home).map fun p => .linePass (p.place / 128))

/-- An access of a region in capture mode is recorded when it is performed (R335); in a replay its record is behind it (R336). -/
def State.noteAccess (s : State) (q : Req) : State :=
  if s.host.captures = [] then s
  else
    match s.captureOf q.region, s.srcSlot q.src with
    | some c, some (core, slot) =>
      let home := homeUnit q.place
      if c.replay then
        match c.nextAt home with
        | some r => if r.isOf core slot then s.turnPast c r home else s
        | none => s
      else s.record c (.access home core slot (c.recs.filter (CapRec.isOf core slot)).length) 8
    | _, _ => s

/-- A value read by the thread of a slot, of a region in capture mode, is recorded; in a replay the thread's next recorded one is taken (R335,
R336). -/
def State.noteRead (s : State) (k : Nat) (v : Word) : Word × State :=
  match s.captureOf (s.slot k).region with
  | none => (v, s)
  | some c =>
    let core := coreOf k
    let slot := slotNo k
    if c.replay then
      match c.recs.find? fun r => (match r with | .read a b _ => a == core && b == slot | _ => false) with
      | some (.read a b w) =>
        (w, { s with host := { s.host with captures := s.host.captures.map fun d =>
          if d = c then { d with recs := d.recs.erase (.read a b w) } else d } })
      | _ => (v, s)
    else (v, s.record c (.read core slot v) 16)

/-! ## Deferral (R138) -/

/-- The requests deferred at a word, in order of arrival. -/
def State.deferredAt (s : State) (w : Nat) : List Req := s.deferred.filter fun q => wordOf q.place == w

/-- One pass over deferred requests: each whose condition holds is performed and answered; in a replay each in its turn (R336). -/
def State.passOnce (s : State) : List Req → Bool × State
  | [] => (false, s)
  | q :: r =>
    if s.early q then s.passOnce r
    else match (s.atHome q.place q.key).stepOp q with
    | (.ans a, t) => (true, ((((t.noteAccess q).chargeReq q (t.cost 1)).answer q a).passOnce r).2)
    | (.wait, t) => t.passOnce r

/-- Passes at a word until a full pass performs none (R138). -/
def State.pass (s : State) (w : Nat) : Nat → State
  | 0 => s
  | n + 1 =>
    match s.deferredAt w with
    | [] => s
    | l => match s.passOnce l with
      | (true, t) => t.pass w n
      | (false, _) => s

/-- The passes that a step at a word may make possible. -/
def State.passes (s : State) (p : Nat) : State := s.pass (wordOf p) (s.deferred.length + 1)

/-- The passes that a step may make possible at the words of a line. -/
def State.linePasses (s : State) (line : Nat) : State := (range' 0 16).foldl (fun t i => t.passes (128 * line + 8 * i)) s

/-- The passes that a step may make possible: at its word, or, where it drops a line, at all of the line's (R138, R248); the dirty bytes
that a write-back brings ask for theirs as they come. -/
def State.passFor (s : State) (q : Req) : State :=
  match q.op with
  | .discard => s.linePasses (q.place / 128)
  | .inval => s
  | .flush => s
  | .wback => s
  | _ => s.passes q.place

/-- A release by an add leaves its scope with the counter, for those that will read the sum (R216); the packet of another module's add
says nothing of a release, so it counts as one that reaches this module. -/
def State.noteRelease (s : State) (q : Req) : State :=
  match q.op with
  | .atomic .cadd _ =>
    let scope := if q.src = foreignSrc then Nat.max 5 q.scope else if q.rel then q.scope else 0
    if scope = 0 then s
    else { s with relScopes := put s.relScopes (wordOf q.place) (Nat.max scope ((find s.relScopes (wordOf q.place)).getD 0)) }
  | _ => s

/-- What a home does with a request: it answers, defers it, or refuses it with a NACK. -/
inductive HomeDone where
  | answered (a : HomeAns)
  | deferred
  | nacked
deriving DecidableEq, Repr

/-- A request performed at its home (R29, R138, R139): it is checked, its step is made, and the requests deferred at its word
are taken; a request whose condition does not hold enters the deferral buffer or, with no room there, is refused. -/
def State.homeStep (s : State) (q : Req) : HomeDone × State :=
  match s.siteErr q with
  | some kind => (.answered (.err .rights), s.logReq q kind)
  | none =>
    let s := (s.atHome q.place q.key).correct (wordOf q.place)
    match s.stepOp q with
    | (.ans a, t) =>
      let t := (((t.noteAccess q).noteRelease q).chargeReq q ((s.originals 8 q).length * t.cost 1)).passFor q
      let t := if isWicket q.place then t.later (.wicketEgress ((q.place - 2 ^ 57) / 2 ^ 18)) else t
      (.answered a, t)
    | (.wait, _) =>
      let (buf, room) := deferBuf q.place
      if (s.deferred.filter fun r => (deferBuf r.place).1 == buf).length < room then (.deferred, s) else (.nacked, s)

/-! ## Answers on their way -/

/-- The answer on its way to a request, with its last bridge crossed. -/
def State.arrived (s : State) (id : Nat) : Option Rep := s.reps.find? fun r => r.req.id == id && r.hops == [] && r.req.src < 2 ^ 30

/-- The home, or the helper, a request goes to, with the chip for another module's. -/
def Req.unit (q : Req) : Nat :=
  match q.away with
  | some c => 2 ^ 20 + c
  | none => match q.via with | some h => h | none => homeUnit q.place

/-- The cores to which an answer goes: those of the requests that were combined (R256). -/
def State.repCores (s : State) (r : Rep) : List Nat := (s.originals 8 r.req).map fun q => srcCore q.src

/-- Whether an earlier answer of the same home to the same core is still on its way, by itself or in a combined one (R257). -/
def State.repWaits (s : State) (r : Rep) : Bool :=
  (s.reps.takeWhile fun p => p.req.id != r.req.id).any fun p =>
    p.req.unit == r.req.unit && r.req.src < splitSrc && (s.repCores p).contains (srcCore r.req.src)

/-- Requests deferred at the words of a line, at which an L1's dirty bytes have arrived, are taken up again (R138, R216, R236). -/
def linePass (line : Nat) (s : State) : Out :=
  if s.deferred.any fun q => isHbm q.place && q.place / 128 == line then
    .next ((s.unitLine line ((find s.cache.l2 line).elim 0 Line.key) true).linePasses line)
  else .fault .notEnabled

/-- The state with an answer taken. -/
def State.takeRep (s : State) (r : Rep) : State := { s with reps := s.reps.erase r }

end Sys2Proof.Machine
end

