-- ==== Sys2Proof/Machine/Boot.lean ====
section
/-! DEFINITION. Boot and discovery (R18, R339, R344, R345). -/

namespace Sys2Proof.Machine

/-- The retired positions that the in-field test leaves, in rising order (R18). -/
def bootRetired : List Nat := (Config.retiredAtBoot.filter (· < 4096)).foldl insertNat []

/-- POWER_ON_RESET (R339, R345): the security controller verifies the firmware, a staged image first; it places the boot code and
the image, and releases core (0,0) of Q0, which floods the discovery packet. A module whose image fails stays in recovery.
[DEDUCED, log 10] -/
def execPowerOnReset (s : State) : Out :=
  if s.host.stage != 0 then .fault .notEnabled
  else
    let staged := s.host.fwStaged
    let image := if staged = [] then s.host.firmware.getD Config.firmware else staged
    if !Config.firmwareOk image then .next { s with host := { s.host with stage := 1, fwStaged := [] } }
    else
      let mem := writeBytes (writeBytes s.mem 0x1000 bootCode) (corePlace 0 0x10000) (Config.bootImage.take 0x4000)
      let round := (s.host.round + 1) % 65536
      let s : State := { s with
        mem := mem
        host := { s.host with
          stage := 2, fwStaged := [], firmware := if staged = [] then s.host.firmware else some staged
          retired := bootRetired, round := round, flooded := [], answered := [], refusals := [], discoveryBegan := s.time } }
      let s := s.charge deviceWork 0 (s.cost 16)
      .next (((s.later (.discoveryFloodReceive 0 round)).later .discoveryTimeout (.time (s.time + 1000000))).later
        .billingSend (.time (s.time + 10000)))

/-- The positions beside a position: the mesh of its die, and across the transom bridges (R17, R344). -/
def beside (core : Nat) : List Nat :=
  let d := dieOf core
  let x := xOf core
  let y := yOf core
  (if 0 < x then [coreAt d y (x - 1)] else if d % 2 = 1 then [coreAt (d - 1) y 31] else []) ++
  (if x < 31 then [coreAt d y (x + 1)] else if d % 2 = 0 then [coreAt (d + 1) y 0] else []) ++
  (if 0 < y then [coreAt d (y - 1) x] else if 2 ≤ d then [coreAt (d - 2) 31 x] else []) ++
  (if y < 31 then [coreAt d (y + 1) x] else if d < 2 then [coreAt (d + 2) 0 x] else [])

/-- The flood goes on to a position beside another, over the bridge where that lies on another die; a failed one takes no packet (R344, R266).
[DEDUCED, log 60] -/
def State.floodTo (s : State) (from_ round to_ : Nat) : State :=
  s.travel (.discoveryFloodReceive to_ round) (dieOf from_) (dieOf to_) 0 24

/-- DISCOVERY_FLOOD_RECEIVE (R344): on the first copy of a round the router forwards it, and its position answers core (0,0) of Q0, over the
bridges of its way (R17, R257). -/
def execDiscoveryFloodReceive (core round : Nat) (s : State) : Out :=
  let h := s.host
  if h.stage != 2 || round != h.round || 4096 ≤ core || h.flooded.contains core ||
     !(core == 0 || (beside core).any h.flooded.contains) then .fault .notEnabled
  else
    let s : State := { s with host := { s.host with flooded := insertNat s.host.flooded core } }
    let on := (beside core).filter fun c => !s.host.flooded.contains c
    .next ((on.foldl (fun t c => t.floodTo core round c) s).travel (.discoveryAnswer core round) (dieOf core) 0 1 24)

/-- DISCOVERY_ANSWER (R344, R339, R343): the coordinates of a live core, or the error response of a retired position, arrive (R18). The 4,096th
answer writes the live map and the logical numbers in one step, and the boot code begins. -/
def execDiscoveryAnswer (core round : Nat) (s : State) : Out :=
  let h := s.host
  if h.stage != 2 || round != h.round || !h.flooded.contains core || h.answered.contains core then .fault .notEnabled
  else
    let all := insertNat h.answered core
    let errs := if s.retired core then insertNat h.refusals core else h.refusals
    let s : State := { s with host := { s.host with answered := all, refusals := errs } }
    if all.length < 4096 then .next s
    else
      let live := (range' 0 4096).filter fun c => !errs.contains c
      .next ({ s with host := { s.host with logical := live, mapped := true, stage := 3 } } : State).placeBoot

/-- DISCOVERY_TIMEOUT (R344): boot stops at stage 1, and the log records kind 6. -/
def execDiscoveryTimeout (s : State) : Out :=
  if s.host.stage != 2 then .fault .notEnabled
  else if s.time < s.host.discoveryBegan + 1000000 then stillDue .discoveryTimeout s
  else .next (({ s with host := { s.host with stage := 1 } } : State).logErr 6 0 0 (Config.freeWord s.tick))

end Sys2Proof.Machine
end

