-- ==== Sys2Proof/Machine/Bridges.lean ====
section
/-! DEFINITION. The transom bridges (R265, R266, R268): flits, acknowledgements, retrains and failed links. A direction of a bridge
is a number of `bridgeDir`. -/

namespace Sys2Proof.Machine

/-- Whether a flit's number comes after another, counted modulo 4,096, within half the circle. -/
def seqAfter (n seq : Nat) : Bool := (seq + 4096 - n) % 4096 - 1 < 2048 && seq != n

/-- The flits up to a number are freed from a replay buffer. -/
def freeFlits (l : List Flit) (n : Nat) : List Flit := l.filter fun f => seqAfter n f.seq

/-! ## Packets that have crossed a bridge (R17, R257) -/

/-- A packet without the bridge just crossed: to the next bridge of its way, or to `last` where there is none or the next has failed. -/
def State.onward (s : State) (hops : List Nat) (ref : PktRef) (cls bytes : Nat) (fail last : State → State) : State :=
  match hops with
  | [] => last s
  | d :: _ => if (s.bridge d).st = .failed then fail s else s.offer d ref cls bytes

/-- A request has crossed a bridge: it goes on to the next bridge of its path, or into the forward network (R257). -/
def State.crossedReq (s : State) (id : Nat) : State :=
  match s.reqs.find? (·.id == id) with
  | none => s
  | some q =>
    let q := { q with hops := q.hops.drop 1 }
    let t : State := { s with reqs := s.reqs.map fun p => if p.id = id then q else p }
    t.onward q.hops (.req id) 0 (reqBytes q) (fun t => t.refuse { q with hops := [] } .rights 1) fun t =>
      (t.later (.homeAccess id)).mayCombine q

/-- A reply has crossed a bridge. -/
def State.crossedRep (s : State) (id : Nat) : State :=
  match s.reps.find? fun r => r.req.id == id with
  | none => s
  | some r =>
    let n := { r with hops := r.hops.drop 1 }
    let t : State := { s with reps := s.reps.map fun p => if p.req.id = id then n else p }
    let free : State := { s with reps := s.reps.map fun p => if p.req.id = id then { n with hops := [] } else p }
    t.onward n.hops (.rep id) 1 (repBytes n.ans) (fun _ => free.later (landEvent n)) fun t => t.later (landEvent n)

/-- Another message has crossed a bridge. -/
def State.crossedParcel (s : State) (id : Nat) : State :=
  match s.parcels.find? (·.id == id) with
  | none => s
  | some p =>
    let n := { p with hops := p.hops.drop 1 }
    let t : State := { s with parcels := s.parcels.map fun q => if q.id = id then n else q }
    let gone : State := { s with parcels := s.parcels.filter (·.id != id) }
    t.onward n.hops (.parcel id) p.cls p.bytes (fun _ => gone.later (failEvent p.ev)) fun _ => gone.later p.ev

/-- A packet leaves the bridge that it crossed. -/
def State.crossed (s : State) : PktRef → State
  | .req id => s.crossedReq id
  | .rep id => s.crossedRep id
  | .parcel id => s.crossedParcel id

/-! ## Flits (R265, R268) -/

/-- What the receiver may acknowledge after accepting a flit, and the packets delivered of flits beyond that: never past a flit that
holds a byte of a packet not yet delivered (R268). -/
def Bridge.accept (b : Bridge) (f : Flit) : Bridge :=
  let whole := (f.parts.filter FlitPart.last).map FlitPart.ref
  match f.parts.getLast? with
  | some p =>
    if p.last then { b with accepted := f.seq, ackable := f.seq, delivered := [] }
    else if p.first then { b with accepted := f.seq, ackable := (f.seq + 4095) % 4096, delivered := whole }
    else { b with accepted := f.seq }
  | none => { b with accepted := f.seq, ackable := f.seq, delivered := [] }

/-- BRIDGE_FLIT_RECEIVE (R265, R268): the next flit in order is accepted and the packets that end in it are delivered once; one
already accepted is discarded. -/
def execBridgeFlitReceive (dir : Nat) (s : State) : Out :=
  let b := s.bridge dir
  if b.st != .up then .fault .notEnabled
  else
    match b.wire with
    | [] => .fault .notEnabled
    | f :: rest =>
      let s := s.modBridge dir fun b => { b with wire := rest }
      if f.seq = (b.accepted + 1) % 4096 then
        let s := s.modBridge dir fun b => b.accept f
        let new := ((f.parts.filter FlitPart.last).map FlitPart.ref).filter fun r => !b.delivered.contains r
        let s := new.foldl State.crossed s
        let n := (s.bridge dir).ackable
        .next (if n = b.ackable then s else s.later (.bridgeAckReceive dir n))
      else .next s

/-- BRIDGE_ACK_RECEIVE (R265): a cumulative acknowledgement frees flits, and more are sent. -/
def execBridgeAckReceive (dir n : Nat) (s : State) : Out :=
  let b := s.bridge dir
  if b.st != .up || !(b.replay.any fun f => f.seq == n) then .fault .notEnabled
  else .next ((s.modBridge dir fun b => { b with replay := freeFlits b.replay n }).pump dir 64)

/-- BRIDGE_RETRAIN (R266, R268): what is on the wire is discarded with any packet not yet whole, and the acceptance of a flit that holds
a byte of such a packet is withdrawn. -/
def execBridgeRetrain (dir : Nat) (s : State) : Out :=
  if (s.bridge dir).st != .up then .fault .notEnabled
  else
    let s := s.modBridge dir fun b => { b with wire := [], accepted := b.ackable, st := .retraining s.time }
    .next ((s.later (.bridgeRetrainDone dir)).later (.bridgeFailTimeout dir) (.time (s.time + 1000000)))

/-- BRIDGE_RETRAIN_DONE (R266): within 1 ms; the receiver reports its last accepted flit, and every later one is sent again in order. -/
def execBridgeRetrainDone (dir : Nat) (s : State) : Out :=
  match (s.bridge dir).st with
  | .retraining since =>
    if since + 1000000 ≤ s.time then .fault .notEnabled
    else
      let s := s.modBridge dir fun b =>
        let again := freeFlits b.replay b.accepted
        { b with st := .up, replay := again, wire := again }
      .next ((s.laters ((s.bridge dir).wire.map fun _ => .bridgeFlitReceive dir)).pump dir 64)
  | _ => .fault .notEnabled

/-! ## Failed links (R266) -/

/-- A packet that a failed bridge holds: a request gets an error response, a reply goes on to its source (R266, R348). -/
def State.failPacket (s : State) : PktRef → State
  | .req id => match s.reqs.find? (·.id == id) with
    | some q => s.refuse { q with hops := [] } .rights 1
    | none => s
  | .rep id => match s.reps.find? (fun r => r.req.id == id) with
    | some r =>
      let n := { r with hops := [] }
      ({ s with reps := s.reps.map fun y => if y.req.id = id then n else y } : State).later (landEvent n)
    | none => s
  | .parcel id => match s.parcels.find? (·.id == id) with
    | some p => ({ s with parcels := s.parcels.filter (·.id != id) } : State).later (failEvent p.ev)
    | none => s

/-- The packets that a bridge has taken and not delivered, in order. -/
def Bridge.holds (b : Bridge) : List PktRef :=
  (((freeFlits b.replay b.ackable).flatMap Flit.parts).map FlitPart.ref ++ (b.part.map fun p => p.1.ref).toList ++ b.offered.map Packet.ref).foldl
    (fun l r => if l.contains r || b.delivered.contains r then l else l ++ [r]) []

/-- The packets that one direction of a bridge holds, answered as the bridge fails. -/
def State.failDir (s : State) (dir : Nat) : State :=
  let b := s.bridge dir
  b.holds.foldl State.failPacket
    (s.modBridge dir fun b => { b with st := .failed, offered := [], part := none, replay := [], wire := [], delivered := [] })

/-- The dies that a bridge joins (R17): 0 Q0–Q1, 1 Q2–Q3, 2 Q0–Q2, 3 Q1–Q3. -/
def bridgeDies (link : Nat) : List Nat := ([[0, 1], [2, 3], [0, 2], [1, 3]] : List (List Nat)).getD link []

/-- Whether a region's core set holds a cluster of a die. -/
def Region.holdsDie (g : Region) (die : Nat) : Bool := bits g.coreset.toNat (64 * die) 64 != 0

/-- BRIDGE_FAIL_TIMEOUT (R266, R292): a link that has not retrained within 1 ms is failed in both directions; the log records kind
6, and LINK_FAILED goes to every live region with a cluster of either die. [DEDUCED, log 97] -/
def execBridgeFailTimeout (dir : Nat) (s : State) : Out :=
  match (s.bridge dir).st with
  | .retraining since =>
    if s.time < since + 1000000 then stillDue (.bridgeFailTimeout dir) s
    else
      let link := dir / 2
      let s := (((s.logErr 6 0 0 (Config.freeWord s.tick)).failDir (2 * link)).failDir (2 * link + 1))
      let who := s.regions.filter fun p => (bridgeDies link).any fun d => p.2.holdsDie d
      .next (s.tellAll (who.map fun p => { region := p.1, code := 4, w1 := BitVec.ofNat 64 link, w2 := BitVec.ofNat 64 s.time, time := s.time }))
  | _ => .fault .notEnabled

end Sys2Proof.Machine
end

