-- ==== Sys2Proof/Machine/Access.lean ====
section
/-! DEFINITION. A thread's accesses from its side: object-table entries (R72, R73), what an address names and the checks at the
source (R21 to R27, R330), the L1 (R234, R235), requests and the landing of their answers (R131, R139), migration (R52, R53). -/

namespace Sys2Proof.Machine

/-! ## Object-table entries (R72, R73) -/

/-- The address of an object-table entry. -/
def Region.objAddr (g : Region) (i : Nat) : Nat := g.objbase.toNat + 64 * i

/-- An entry read through its region's translation with the R right (R73). [DESIGN CHOICE, log 19] -/
def State.objWords (s : State) (region i : Nat) : Except (Cause × Nat) (BitVec 512) × State :=
  match s.region? region with
  | none => (.error (.page, 4), s)
  | some g =>
    match s.devReads region (g.objAddr i) 8 with
    | (.ok l, t) => (.ok (BitVec.ofNat 512 (wordsNum l)), t)
    | (.error e, t) => (.error e, t)

/-- The type of an entry. -/
def objType (e : Nat) : Nat := bits e 504 8

/-- Whether a reserved field of an entry, or one that must be 0, is nonzero (R72, R220, R223, R282, R329, R331). -/
def objReserved (modid e : Nat) : Bool :=
  match objType e with
  | 1 => bits e 502 2 != 0 || 6 ≤ bits e 481 3 || bits e 448 33 != 0
  | 2 => bits e 496 1 != 0 || bits e 498 2 != 0 || bits e 501 3 != 0 || bits e 488 8 != 0 || bits e 64 408 != 0
  | 3 => bits e 488 16 != 0 || bits e 64 424 != 0
  | 4 => bits e 488 16 != 0 || bits e 64 368 != 0 ||
      (if bits e 476 12 = modid then bits e 444 32 != 0 else bits e 432 12 != 0 || bits e 0 64 != 0)
  | 5 => bits e 488 16 != 0 || bits e 64 405 != 0
  | 6 => bits e 498 6 != 0 || bits e 488 8 != 0 || bits e 407 9 != 0 || bits e 64 320 != 0 ||
      (if bits e 476 12 = modid then bits e 460 16 != 0 || bit e 451 else bits e 0 64 != 0)
  | _ => false

/-- What a trap reports (R285). -/
structure TrapInfo where
  c : Cause
  source : Nat := 0
  level : Nat := 0
  xaddr : Word := 0
  xprog : Word := 0
  xinfo : Word := 0

/-- The trap of the issuing thread's instruction that reports this. -/
def TrapInfo.raise (t : TrapInfo) (s : State) : Out := .next (s.trapAt t.c t.source t.level t.xaddr t.xprog t.xinfo)

/-- The place of the first of some words that cannot be read (R285). -/
def State.badAmong (s : State) (region va n : Nat) : Option Nat :=
  (range' 0 n).findSome? fun i => match s.xlate region (va + 8 * i) .r with
    | (.ok x, t) => if (t.atHome x.pa x.key).homeBad x.pa then some (wordOf x.pa) else none
    | (.error _, t) => match t.walkFrom (va + 8 * i) 4 ((t.region? region).elim 0 Region.ptroot) with
      | (.fault .machine _ p, _) => some p
      | _ => none

/-- The checks of R73 on an obj16 value for a type. -/
def State.objFor (s : State) (region i ty : Nat) : Except TrapInfo Nat × State :=
  match s.region? region with
  | none => (.error { c := .object, xinfo := BitVec.ofNat 64 i }, s)
  | some g =>
    if g.objcount ≤ i then (.error { c := .object, xinfo := BitVec.ofNat 64 i }, s)
    else
      match s.objWords region i with
      | (.error (c, l), t) =>
        if c = .machine then
          (.error { c := c, level := l, xaddr := BitVec.ofNat 64 ((t.badAmong region (g.objAddr i) 8).getD (g.objAddr i)) }, t)
        else (.error { c := c, level := l, xaddr := BitVec.ofNat 64 (g.objAddr i), xinfo := BitVec.ofNat 64 i }, t)
      | (.ok e, t) =>
        if objType e.toNat != ty || objReserved s.host.modid e.toNat then (.error { c := .object, xinfo := BitVec.ofNat 64 i }, t)
        else (.ok e.toNat, t)

/-- The lowest-indexed entry with a property. -/
def State.scanObjs (s : State) (region : Nat) (f : Nat → Bool) : Nat → Nat → Option (Nat × Nat) × State
  | 0, _ => (none, s)
  | n + 1, i =>
    match s.objWords region i with
    | (.ok e, t) => if f e.toNat then (some (i, e.toNat), t) else t.scanObjs region f n (i + 1)
    | (.error _, t) => t.scanObjs region f n (i + 1)

/-- The lowest-indexed entry of a region's table with a property. -/
def State.findObj (s : State) (region : Nat) (f : Nat → Bool) : Option (Nat × Nat) × State :=
  s.scanObjs region f ((s.region? region).elim 0 Region.objcount) 0

/-- Whether a physical address lies in the object table of a live region (R127). -/
def State.inObjTable (s : State) (pa : Nat) : Bool :=
  s.regions.any fun p =>
    let g := p.2
    let a := g.objbase.toNat % 2 ^ 56
    let n := 64 * g.objcount
    (range' 0 (n / 65536 + 2)).any fun i =>
      let lo := Nat.max a ((a / 65536 + i) * 65536)
      let hi := Nat.min (a + n) ((a / 65536 + i + 1) * 65536)
      lo < hi && (match (s.walkFrom lo 4 g.ptroot).1 with
        | .leaf pte level _ => leafPlace pte level lo ≤ pa && pa < leafPlace pte level lo + (hi - lo)
        | .fault _ _ _ => false)

/-! ## Export objects (R329, R330) -/

/-- Bytes that an export covers. -/
def exLen (e : Nat) : Nat := 4096 * bits e 384 23

/-- Whether an export object lets an access through by its rights (R330). -/
def exRight (e : Nat) (need : Acc3) : Bool := bit e (if need.stores then 497 else 496)

/-- Whether an export object covers an address of its chip (R330). -/
def exCovers (e : Nat) (addr : Nat) : Bool :=
  let off := bits addr 0 44
  if bits addr 56 2 = 1 then bit e 451
  else if 2 ^ 40 ≤ off then bits e 452 8 == (off - 2 ^ 40) / 2 ^ 34 && (off - 2 ^ 40) % 2 ^ 34 < exLen e
  else
    let c := (off - 0x200000) / 8
    0x200000 ≤ off && off < 0x300000 && bits e 434 17 ≤ c && c < bits e 434 17 + bits e 416 18

/-- Whether an entry is a well-formed export for a chip. -/
def isExport (modid chip e : Nat) : Bool := objType e == 6 && !objReserved modid e && bits e 476 12 == chip

/-! ## What an address names -/

/-- The place an access goes to: its memory key, whether an L1 may hold it, the chip and tregion of another module, and the
narrowest scope that contains the home (R20). -/
structure Site where
  place : Nat
  key : Nat := 0
  cached : Bool := false
  away : Option Nat := none
  tregion : Nat := 0
  narrow : Nat
deriving DecidableEq, Repr

/-- How the source's checks end: a site, a fault there, or a wait for a walk. -/
inductive Aimed where
  | ok (t : Site) (s : State)
  | fault (c : Cause) (s : State)
  | miss (s : State)

/-- The place of accesses to other modules. -/
def awayPlace : Nat := 2 ^ 60

/-- The narrowest scope of an HBM home, seen from a core (R20). -/
def narrowHbm (core pa : Nat) : Nat := if homeBank pa / 1024 = dieOf core then 4 else 5

/-- A place of core space (R24): a hub's words are shared by its cluster's sixteen aliases. -/
def coreSite (core target off : Nat) : Site :=
  if 0x40000000 ≤ off ∧ off < 0x40010000 then
    { place := hubPlace (clusterOf target) off, narrow := Nat.max 3 (scopeTo core target) }
  else { place := corePlace target off, narrow := scopeTo core target }

/-- The chip of another module, seen from this one: in the group, or reachable through Relay (R20). -/
def State.narrowAway (s : State) (chip : Nat) : Nat :=
  if s.pacer.group.isSome && s.pacer.members.contains chip then 6 else 7

/-- A global address: translated, and no store reaches an object table (R22, R127). -/
def State.aimGlobal (s : State) (k va : Nat) (need : Acc3) (source : Nat) (xprog : Word) : Aimed :=
  match s.xlateFor k va need source xprog with
  | .fault c s => .fault c s
  | .miss s => .miss s
  | .ok t s =>
    if need.stores && s.inObjTable t.pa then .fault .rights s
    else .ok { place := t.pa, key := t.key, cached := t.cached, narrow := narrowHbm (coreOf k) t.pa } s

/-- The walk that a thread has just started reports the address presented. -/
def State.showWalk (s : State) (k addr : Nat) : State :=
  match (s.slot k).wait with
  | .reissue (.walk id) =>
    { s with walks := s.walks.map fun w => if w.id = id ∧ w.slot = k then { w with shown := some (BitVec.ofNat 64 addr) } else w }
  | _ => s

/-- An address of the own module's chip block (R26, R330). -/
def State.aimChip (s : State) (k addr : Nat) (need : Acc3) (source : Nat) (xprog : Word) : Aimed :=
  let off := bits addr 0 44
  let region := (s.slot k).region
  if 0x200000 ≤ off && off < 0x300000 || 2 ^ 40 ≤ off then
    match s.findObj region fun e => isExport s.host.modid s.host.modid e && exCovers e addr with
    | (none, s) => .fault .rights s
    | (some (_, e), s) =>
      if !exRight e need then .fault .rights s
      else if 2 ^ 40 ≤ off then
        match s.aimGlobal k ((bits e 0 64 + (off - 2 ^ 40) % 2 ^ 34) % 2 ^ 56) need source xprog with
        | .ok t s => .ok { t with cached := false, narrow := 5 } s
        | .miss s => .miss (s.showWalk k addr)
        | r => r
      else .ok { place := chipPlace off, narrow := 5 } s
  else .ok { place := chipPlace off, narrow := 5 } s

/-- An address of another module, under the outbound export objects of the region (R330). -/
def State.aimAway (s : State) (k addr : Nat) (need : Acc3) : Aimed :=
  let chip := bits addr 44 12
  match s.findObj (s.slot k).region fun e => isExport s.host.modid chip e && exCovers e addr with
  | (none, s) => .fault .rights s
  | (some (_, e), s) =>
    if !exRight e need then .fault .rights s
    else .ok { place := awayPlace, away := some chip, tregion := if bits addr 56 2 = 1 then bits e 460 16 else 0,
               narrow := s.narrowAway chip } s

/-- What an address of a thread names, with the checks at the source (R21 to R27). -/
def State.aim (s : State) (k : Nat) (addr : Word) (need : Acc3) (source : Nat) (xprog : Word) : Aimed :=
  let a := addr.toNat
  if bits a 58 6 != 0 || bits a 56 2 = 3 then .fault .rights s
  else if bits a 56 2 = 0 then s.aimGlobal k (bits a 0 56) need source xprog
  else if bits a 44 12 != s.host.modid then s.aimAway k a need
  else if bits a 56 2 = 1 then
    if s.grants (s.slot k).region (clusterOf (bits a 32 12)) then .ok (coreSite (coreOf k) (bits a 32 12) (bits a 0 32)) s
    else .fault .rights s
  else s.aimChip k a need source xprog

/-- Whether a site is a word of a core's own scratchpad (R131). -/
def State.isOwn (s : State) (core : Nat) (t : Site) : Bool :=
  t.away.isNone && 2 ^ 56 ≤ t.place && t.place < 2 ^ 57 && placeCore t.place == core && t.place % 2 ^ 32 < s.scratchSize core

/-! ## L1 (R234) -/

/-- The lines that a core's share of its SRAM holds (R120). -/
def State.l1Room (s : State) (core : Nat) : Nat := shareBytes (s.core core).share.toNat / 128

/-- A line that leaves a full L1: its dirty bytes go home, so that a release of its core finds them on their way (R238), and the clean line
goes to a core of the victim pool that has room for it and does not hold it (R120). Which line, and to which core, the chapters leave open. [DESIGN CHOICE, log 18; DESIGN CHOICE, log 20] -/
def State.evictL1 (s : State) (core line : Nat) : State :=
  let pool := (s.victimPool core).filter fun c => (s.l1 c line).isNone && decide ((s.l1Lines c).length < s.l1Room c)
  match s.l1 core line, pool with
  | some l, c :: r =>
    let c := (c :: r).getD (Config.freeNat (s.tick + line) % (r.length + 1)) c
    ((s.writeBack core line).dropL1 core line).setL1 c line l.cleaned
  | _, _ => (s.writeBack core line).dropL1 core line

/-- A line put into a core's L1, if it has a share; a full one sends a line away first. A line fetched before the copy that is there,
or one over dirty bytes, is not put in (R236). -/
def State.installL1 (s : State) (core line : Nat) (l : Line) : State :=
  let held := (s.l1Lines core).filter (· != line)
  let newer := match s.l1 core line with | some m => m.dirty != 0 || l.since < m.since | none => false
  if s.l1Room core = 0 || newer then s
  else if held.length < s.l1Room core then s.setL1 core line l
  else
    let out := held.getD (Config.freeNat s.tick % held.length) 0
    (s.evictL1 core out).setL1 core line l

/-! ## Answers -/

/-- The address a trap by an error response reports: for MACHINE that of the uncorrectable word (R285), for a word of HBM its physical one.
[DESIGN CHOICE, log 124] -/
def errAddr (q : Req) (c : Cause) : Word :=
  if c = .machine then BitVec.ofNat 64 (wordOf (if isHbm q.place then q.place else q.addr.toNat)) else q.addr

/-- A value lands where its request's instruction wants it, and the thread goes on (R131, R100, R136). -/
def State.landValue (s : State) (q : Req) (v : Word) : State :=
  let k := q.src
  match q.dest with
  | .reg r ext place => ((s.landDst k r place (extend ext v.toNat)).advance k q.len).modSlot k Slot.settle
  | .elem r => (s.setGreg k r { val := v }).modSlot k fun sl => { sl.settle with xprog := sl.xprog + 1, mid := true }
  | _ => (s.advance k q.len).modSlot k Slot.settle

/-- An answer lands at a waiting thread: its value, its line, or the trap of an error response (R131, R137, R158). -/
def State.land (s : State) (r : Rep) : State :=
  let q := r.req
  let k := q.src
  match r.ans with
  | .ok v => (if q.acq then s.acquire q.scope (coreOf k) else s).landValue q v
  | .line d fe bad poison =>
    let l : Line := { data := d, fe := fe, key := q.key, bad := bad, poison := poison, since := r.since }
    let s := if q.noFill then s else s.installL1 (coreOf k) (q.place / 128) l
    s.landValue q (BitVec.ofNat 64 (l.num (q.place % 128) q.v1.toNat))
  | .err c =>
    let pc := (s.slot k).pc
    (s.cancelDst k q.ticket).takeTrap k c q.source 0 pc (errAddr q c) (s.slot k).xprog 0 pc
  | .nack => s

/-- The thread of a core that waits for a fill of the instruction cache. -/
def State.fetching (s : State) (core id : Nat) : Option Nat :=
  ((range' 0 64).map (64 * core + ·)).find? fun k =>
    (s.slot k).st == .waiting && (s.slot k).wait == .reissue (.fetched id)

/-- The answer to a request of a core's own units: a line for its L1 or its instruction cache, or the end of a write-back. An error response
to a fetch is a fault of the fetch (R63, R116). -/
def State.landUnit (s : State) (r : Rep) : State :=
  let q := r.req
  let core := srcCore q.src
  match r.ans with
  | .line d fe bad poison =>
    let l : Line := { data := d, fe := fe, key := q.key, bad := bad, poison := poison, since := r.since }
    if q.noFill then s
    else if q.dest = .ifetch then s.installIc core (q.place / 128) l
    else s.installL1 core (q.place / 128) l
  | .err c =>
    match (if q.dest = .ifetch then s.fetching core q.id else none) with
    | some k => s.takeTrap k c 1 0 (s.slot k).pc q.v1 0 0 (s.slot k).pc
    | none => s
  | _ => s

/-- Whether the cluster's copies of its line are dropped before a request is sent (R235): a store that is not local, and an access of
the last row but one of R234. -/
def purges : HomeOp → Bool
  | .load _ => false
  | .fill => false
  | .wback => false
  | .touch => false
  | .discard => false
  | .flush => false
  | .inval => false
  | _ => true

/-- A request sent, each time it is sent, behind what the hub does first (R235): the cluster's copies are written back and dropped,
or, before a load, another L1's dirty bytes are written back. -/
def State.emit (s : State) (q : Req) : State :=
  let core := srcCore q.src
  if !isHbm q.place || q.away.isSome then s.dispatch q
  else if purges q.op then (s.purge (clusterOf core) (q.place / 128)).dispatch q
  else
    match q.op with
    | .fill => (s.backOthers core (q.place / 128)).dispatch q
    | .load _ => (s.backOthers core (q.place / 128)).dispatch q
    | _ => s.dispatch q

/-- A thread's request is refused (R139): it is sent again at once while the retry count lasts, or after a park. -/
def State.nacked (s : State) (q : Req) : State :=
  let k := q.src
  let sl := s.slot k
  if sl.frozen then (s.cancel q).modSlot k fun sl => { sl.settle with nacks := 0 }
  else
  let (id, s) := s.fresh
  let q := { q with id := id, locked := false, via := none, redirected := false, noFill := false,
                    hops := if q.away.isSome then [] else bridgePath (dieOf (coreOf k)) (homeDie q.place (dieOf (coreOf k))) }
  if sl.nacks < sl.retry.toNat then
    (s.modSlot k fun sl => { (sl.become .waiting (.reply id)) with nacks := sl.nacks + 1 }).emit q
  else
    let due := s.cycle (coreOf k) + sl.parkint.toNat
    let s := s.modSlot k fun sl => { (sl.become .parked (.retry id due)) with parkedSince := s.cycle (coreOf k), stale := false }
    { s with reqs := s.reqs ++ [q] }.later (.retryParkExpiry k) (.cycle (coreOf k) due)

/-- A request stands deferred at its home, and its thread is parked (R138). That of a thread which has been halted meanwhile is
withdrawn (R33, R158). -/
def State.deferReq (s : State) (q : Req) : State :=
  if q.src < 2 ^ 20 && (s.slot q.src).frozen then (s.cancel q).modSlot q.src fun sl => { sl.settle with nacks := 0 }
  else
  let s := { s with reqs := s.reqs.filter (·.id != q.id), deferred := s.deferred ++ [q] }
  if q.src < 2 ^ 20 then
    s.modSlot q.src fun sl => { (sl.become .parked (.deferred q.id)) with parkedSince := s.cycle (coreOf q.src), stale := false }
  else s

/-! ## Migration (R52, R53) -/

/-- Whether R52 refuses a strand's migration: a claim, an enabled binding, a record in its deque, a pending publication. -/
def State.stuck (s : State) (k : Nat) : Bool :=
  let sl := s.slot k
  let c := s.core (coreOf k)
  c.vowner == some k || c.mclaim == some k || anyBound sl.portmap || c.deque.any (·.owner == slotNo k) || sl.ringAges != [] ||
    sl.pub.isSome

/-- The core whose scratchpad an address names on this module (R52). -/
def State.scratchOwner (s : State) (addr : Word) : Option Nat :=
  let a := addr.toNat
  if bits a 56 8 = 1 && bits a 44 12 = s.host.modid && bits a 0 32 < s.scratchSize (bits a 32 12) then some (bits a 32 12) else none

/-- The core to which an access of the issuing strand migrates it (R52, R135). [DEDUCED, log 106] -/
def State.migratesTo (s : State) (addr : Word) (go : Bool) : Option Nat :=
  let sl := s.me
  if sl.strand && (sl.amig || go) && !sl.bounced && !s.stuck s.cur then
    match s.scratchOwner addr with
    | some c => if c != s.myCore && s.grants sl.region (clusterOf c) then some c else none
    | none => none
  else none

/-- The departure of the issuing strand, after its release (R53, R93, R246): its slot is held, its message of 224 B travels. -/
def State.depart (s : State) (target : Nat) (pc addr : Word) (hop : Bool) : State :=
  let k := s.cur
  let sl := s.me
  let (id, s) := s.fresh
  let m : MigMsg := { id := id, src := k, target := target, pc := pc, pw := sl.pw, region := sl.region, amig := sl.amig,
                      regs := (range' 0 24).map fun r => ((s.greg k r).val, (s.greg k r).full),
                      sents := (range' 0 24).map fun r => (s.greg k r).sent,
                      fpstat := sl.fprm ++ 0#2 ++ sl.fpflags, task := sl.task, slink := sl.slink, hop := hop,
                      home := sl.pc, addr := addr, preempt := s.agenda.any fun d => d.ev == .preemptRequestArrival k }
  let s := ((s.dropPreempt k).modSlot k fun sl => { sl with st := .held, wait := .none, rndseed := 0 }).charge (coreWork (coreOf k)) sl.region (s.cost 2)
  { s with migs := s.migs ++ [m] }.travel (.migrationArrival id) (dieOf (coreOf k)) (dieOf target) 0 224

/-- An access that may migrate its strand (R52, R215): it departs once `UNACK` and the tags are quiet,
after a release at the narrowest scope that contains the target (R246); where no migration takes
place the access is performed as an ordinary one. -/
def migrateOr (addr : Word) (go : Bool) (body : State → Out) (s : State) : Out :=
  match s.migratesTo addr go with
  | none => body s
  | some c =>
    whenAcked s fun s =>
      if s.me.inflight != 0 then parkFor .opsDone s
      else if s.me.tags != 0 then body s
      else release (scopeTo s.myCore c) s fun s => .next (s.depart c s.me.pc addr false)

/-! ## Accesses -/

/-- An access that a thread waits for: what it asks, and what the instruction does with the answer. -/
structure Want where
  op : HomeOp
  need : Acc3
  size : Nat
  v1 : Word := 0
  v2 : Word := 0
  scope : Nat := 0
  acq : Bool := false
  /-- a release was performed at the scope before it is sent -/
  rel : Bool := false
  source : Nat := 4
  /-- the destination register, and the extension of its value -/
  dst : Option Nat := none
  ext : Nat := 6
  /-- an element of an `LDM`, whose register is `dst` -/
  elem : Bool := false
  /-- whether a binding of `PORTMAP` acts on the destination (R56) -/
  port : Bool := true

/-- The words by which the queues of a core are shorter in another state, by queue. -/
def State.dequeued (old new : State) (core : Nat) : List (Nat × Word) :=
  (range' 0 8).flatMap fun q =>
    ((old.queue core q).take ((old.queue core q).length - (new.queue core q).length)).filterMap fun p =>
      match p with | .word v => some (q, v) | .promised _ => none

/-- Sends an access to its site, or performs it at once in the own scratchpad. -/
def sendTo (i : Instr) (w : Want) (addr : Word) (t : Site) (take : State → State) (s : State) : Out :=
  if s.isOwn s.myCore t && s.earlyAt s.me.region s.cur (homeUnit t.place) then waitFor (.replayTurn (homeUnit t.place)) s
  else
  let took := s.dequeued (take s) s.myCore
  let s := take s
  let k := s.cur
  let (id, s) := s.fresh
  let (q?, s) := match w.dst with
    | some d => if w.elem || !w.port then (none, s) else promiseDst d id s
    | none => (none, s)
  let dest : Dest := match w.dst with
    | some d => if w.elem then .elem d else .reg d w.ext (q?.map fun _ => id)
    | none => .discard
  let fillIt := t.cached && isHbm t.place && plainLoad w.op
  let die := dieOf s.myCore
  let q : Req := { id := id, src := k, region := s.me.region, op := if fillIt then .fill else w.op, addr := addr, place := t.place,
                   v1 := if fillIt then BitVec.ofNat 64 w.size else w.v1, v2 := w.v2, scope := w.scope, acq := w.acq, rel := w.rel, dest := dest,
                   source := w.source, key := t.key, len := i.len, away := t.away, tregion := t.tregion, took := took,
                   hops := if t.away.isSome then [] else bridgePath die (homeDie t.place die),
                   miss := w.scope != 0 && w.scope < t.narrow }
  if s.isOwn s.myCore t then
    match s.homeStep q with
    | (.answered a, s) => .next (s.land { req := { q with scope := s.acqScope q }, ans := a })
    | (.deferred, s) => .next (s.deferReq q)
    | (.nacked, s) => .next ((s.modMe fun sl => { sl with nacks := 0 }).nacked q)
  else .next ((s.modMe fun sl => { sl with st := .waiting, wait := .reply id, nacks := 0 }).emit q)

/-- An access of an instruction that waits for its answer (R130, R131): alignment, migration, the checks at the source, and
the request, for an acquire behind the thread's vector instructions (R165). `take` dequeues the data sources when it is sent. -/
def accessAt (i : Instr) (w : Want) (addr : Word) (go : Bool) (take : State → State) (s : State) : Out :=
  if addr.toNat % w.size != 0 then trapAddr .align 0 addr s
  else
    migrateOr addr go (fun s =>
      match s.aim s.cur addr w.need w.source 0 with
      | .fault c s => trapAddr c w.source addr s
      | .miss s => .next s
      | .ok t s => if w.acq then acquiring s (sendTo i w addr t take) else sendTo i w addr t take s) s

/-- How a plain load ends at issue: with a value, with the instruction stopped, or at a home elsewhere. -/
inductive Loaded where
  | val (v : Nat) (s : State)
  | stop (o : Out)
  | remote (t : Site) (s : State)

/-- The log entry of a word of an L1 line that the issuing thread cannot read (R307). -/
def State.logBad (s : State) (source pa : Nat) : State := s.logErr 4 source (s.nameOf s.cur) (BitVec.ofNat 64 (wordOf pa))

/-- A plain load of the issuing thread (R234): the own scratchpad and an L1 hit answer at once. -/
def State.loadOne (s : State) (addr : Word) (size : Nat) (xprog : Word) : Loaded :=
  match s.aim s.cur addr .r 2 xprog with
  | .fault c s => .stop (.next (s.trapAt c 2 0 addr xprog 0))
  | .miss s => .stop (.next s)
  | .ok t s =>
    if s.isOwn s.myCore t then
      let q : Req := { id := 0, src := s.cur, region := s.me.region, op := .load size, addr := addr, place := t.place, source := 2 }
      if s.early q then .stop (waitFor (.replayTurn (homeUnit q.place)) s)
      else match s.homeStep q with
      | (.answered (.ok v), s) => .val v.toNat s
      | (.answered (.err c), s) => .stop (.next (s.trapAt c 2 0 (errAddr q c) xprog 0))
      | (_, s) => .stop (.next s)
    else if t.cached && isHbm t.place then
      match s.l1Hit s.myCore (t.place / 128) with
      | some l =>
        if l.key != t.key then .remote t ((s.writeBack s.myCore (t.place / 128)).dropL1 s.myCore (t.place / 128))
        else if l.badWord (t.place % 128 / 8) then
          .stop (.next ((s.logBad 2 t.place).trapAt .machine 2 0 (BitVec.ofNat 64 (wordOf t.place)) xprog 0))
        else .val (l.num (t.place % 128) size) s
      | none => .remote t s
    else .remote t s

/-- A plain load into a register (R134). -/
def loadInto (i : Instr) (d : Nat) (addr : Word) (size ext : Nat) (go : Bool) (s : State) : Out :=
  if addr.toNat % size != 0 then trapAddr .align 0 addr s
  else
    migrateOr addr go (fun s =>
      match s.loadOne addr size 0 with
      | .val v s => done i (putDst d (extend ext v) s)
      | .stop o => o
      | .remote t s => sendTo i { op := .load size, need := .r, size := size, source := 2, dst := some d, ext := ext } addr t id s) s

/-- How a plain store ends at issue: retired, or with the instruction stopped. -/
inductive Stored where
  | ok (s : State)
  | stop (o : Out)

/-- A plain store of the issuing thread (R131, R234, R235): local in the own scratchpad and on a writable L1 line, where one that must
merge with what cannot be read changes nothing (R307, R308); otherwise a remote store, which retires and counts in `UNACK`. -/
def State.storeOne (s : State) (addr : Word) (size : Nat) (v xprog : Word) : Stored :=
  match s.aim s.cur addr .w 3 xprog with
  | .fault c s => .stop (.next (s.trapAt c 3 0 addr xprog 0))
  | .miss s => .stop (.next s)
  | .ok t s =>
    let q : Req := { id := 0, src := s.cur, region := s.me.region, op := .store size, addr := addr, place := t.place, v1 := v,
                     source := 3, key := t.key, away := t.away, tregion := t.tregion }
    let line := t.place / 128
    if s.isOwn s.myCore t then
      if s.early q then .stop (waitFor (.replayTurn (homeUnit q.place)) s)
      else match s.homeStep q with
      | (.answered (.err c), s) => .stop (.next (s.trapAt c 3 0 (errAddr q c) xprog 0))
      | (_, s) => .ok s
    else if t.cached && isHbm t.place && s.writable s.myCore line && ((s.l1 s.myCore line).elim false fun l => l.key == t.key) then
      let l := (s.l1 s.myCore line).getD {}
      let i := t.place % 128 / 8
      if (size < 8 && l.badWord i) || l.poison.getLsbD (i / 8) then .stop (.next ((s.logBad 3 t.place).trapAt .machine 3 0 (BitVec.ofNat 64 (wordOf t.place)) xprog 0))
      else
        let l := l.write (t.place % 128) size v.toNat
        let l := if size = 8 then { l with bad := l.bad &&& ~~~((1#16) <<< i) } else l
        .ok ((s.setL1 s.myCore line l).noFills fun c n => clusterOf c == clusterOf s.myCore && n == line)
    else if s.me.unack = 2 ^ 32 - 1 then .stop (waitFor .unackRoom s)
    else
      let (id, s) := s.fresh
      let die := dieOf s.myCore
      let q := { q with id := id, dest := .ack, hops := if t.away.isSome then [] else bridgePath die (homeDie t.place die) }
      .ok ((s.modMe fun sl => { sl with unack := sl.unack + 1 }).emit q)

/-- A plain store of a value (R134); the data source is dequeued when the store is performed or sent. -/
def storeFrom (i : Instr) (addr : Word) (size : Nat) (v : Word) (go : Bool) (take : State → State) (s : State) : Out :=
  if addr.toNat % size != 0 then trapAddr .align 0 addr s
  else
    migrateOr addr go (fun s =>
      match s.storeOne addr size v 0 with
      | .ok s => done i (take s)
      | .stop o => o) s

end Sys2Proof.Machine
end

