-- ==== Sys2Proof/Machine/Scalar.lean ====
section
/-! DEFINITION. The scalar instructions (chapter 09): integer, logic, shift, bit and packed arithmetic, constants,
predicates and control transfer, majors 0x01 to 0x16. -/

namespace Sys2Proof.Machine

/-! ## Shared operations -/

/-- shl, shr, sar and rol of R85 on w-bit values: an amount of w or more gives 0, or the sign; rotates take it mod w. -/
def shl (w x n : Nat) : Nat := if n < w then x * 2 ^ n % 2 ^ w else 0
/-- Logical shift right (R85). -/
def shr (w x n : Nat) : Nat := if n < w then x / 2 ^ n else 0
/-- Arithmetic shift right (R85). -/
def sar (w x n : Nat) : Nat :=
  if x / 2 ^ (w - 1) % 2 = 0 then shr w x n
  else if n < w then x / 2 ^ n + (2 ^ w - 2 ^ (w - n)) else 2 ^ w - 1
/-- Rotate left (R85). -/
def rol (w x n : Nat) : Nat := x * 2 ^ (n % w) % 2 ^ w + x / 2 ^ (w - n % w)
/-- Rotate right (R85). -/
def ror (w x n : Nat) : Nat := rol w x (w - n % w)

/-- div of R102: quotient and remainder. -/
def divide (a b : Word) (signed : Bool) : Word × Word :=
  if b = 0 then (BitVec.allOnes 64, a)
  else if signed then
    if a.toInt = -(2 ^ 63) ∧ b.toInt = -1 then (a, 0)
    else (BitVec.ofInt 64 (a.toInt.tdiv b.toInt), BitVec.ofInt 64 (a.toInt - b.toInt * a.toInt.tdiv b.toInt))
  else (BitVec.ofNat 64 (a.toNat / b.toNat), BitVec.ofNat 64 (a.toNat % b.toNat))

/-- A division form: the thread waits, and its result is written 40 cycles after the issue (R101). -/
def divForm (i : Instr) (d a b : Nat) (f : Word × Word → Word) (signed : Bool) (s : State) : Out :=
  issue i (some a) (some b) (some d) (fun x y s =>
    let v := f (divide x y signed)
    let due := s.cycle s.myCore + 40
    let (ticket, s) := s.fresh
    let (q, s) := promiseDst d ticket s
    .next ((s.modMe fun sl => { sl with st := .waiting, wait := .divide d v due (q.map fun _ => ticket) }).later
      (.divideComplete s.cur) (.cycle s.myCore due))) s

/-- Number of 1 bits among the low n bits (R105). -/
def popcount (x : Nat) : Nat → Nat
  | 0 => 0
  | n + 1 => x % 2 + popcount (x / 2) n

/-- The number of 0 bits below the lowest 1 bit, at most n (R105). -/
def ctz (x : Nat) : Nat → Nat
  | 0 => 0
  | n + 1 => if x % 2 = 1 then 0 else 1 + ctz (x / 2) n

/-- The low n bits in reverse order (R105). -/
def bitRev (x : Nat) : Nat → Nat
  | 0 => 0
  | n + 1 => x % 2 * 2 ^ n + bitRev (x / 2) n

/-- The low n bytes in reverse order (R105). -/
def byteRev (x : Nat) : Nat → Nat
  | 0 => 0
  | n + 1 => x % 256 * 256 ^ n + byteRev (x / 256) n

/-- bext of R105 over the low n bits. -/
def bext (a m : Nat) : Nat → Nat
  | 0 => 0
  | n + 1 => if m % 2 = 1 then a % 2 + 2 * bext (a / 2) (m / 2) n else bext (a / 2) (m / 2) n

/-- bdep of R105 over the low n bits. -/
def bdep (a m : Nat) : Nat → Nat
  | 0 => 0
  | n + 1 => if m % 2 = 1 then a % 2 + 2 * bdep (a / 2) (m / 2) n else 2 * bdep a (m / 2) n

/-- A value clamped to the signed or unsigned range of w bits, as its w-bit pattern (R83, R107). -/
def clampTo (signed : Bool) (w : Nat) (x : Int) : Nat :=
  let lo : Int := if signed then -(2 ^ (w - 1)) else 0
  let hi : Int := if signed then 2 ^ (w - 1) - 1 else 2 ^ w - 1
  ((if x < lo then lo else if hi < x then hi else x) % 2 ^ w).toNat

/-- A function applied to each of n sub-elements of w bits (R107). -/
def packed (w : Nat) (f : Nat → Nat → Nat) (a b : Nat) : Nat → Nat
  | 0 => 0
  | n + 1 => f (a % 2 ^ w) (b % 2 ^ w) % 2 ^ w + 2 ^ w * packed w f (a / 2 ^ w) (b / 2 ^ w) n

/-- The width of packed sub-elements (R107). -/
def packedWidth (w : Nat) : Nat := if w = 0 then 8 else 16

/-- A packed form on a 64-bit word; f takes the width, the sub-elements x and y, and the low byte of b. -/
def packedForm (i : Instr) (d a b w : Nat) (f : Nat → Nat → Nat → Nat → Nat) (s : State) : Out :=
  let bw := packedWidth w
  alu i (some a) (some b) d (fun x y _ =>
    BitVec.ofNat 64 (packed bw (fun u v => f bw u v (y.toNat % 256)) x.toNat y.toNat (64 / bw))) s

/-- Signed minimum or maximum of w-bit values. -/
def smin (w x y : Nat) : Nat := if sextInt x w ≤ sextInt y w then x else y
/-- Signed maximum. -/
def smax (w x y : Nat) : Nat := if sextInt x w ≤ sextInt y w then y else x
/-- Unsigned minimum. -/
def umin (x y : Nat) : Nat := if x ≤ y then x else y
/-- Unsigned maximum. -/
def umax (x y : Nat) : Nat := if x ≤ y then y else x

/-- The conditions of `PCMP` and `VCMP` on w-bit values (R65). -/
def packedTest (c w x y : Nat) : Bool :=
  match c with
  | 0 => x == y
  | 1 => x != y
  | 2 => sextInt x w < sextInt y w
  | 3 => sextInt x w ≤ sextInt y w
  | 4 => x < y
  | _ => x ≤ y

/-- test of R111 on w-bit values: the conditions of `CMP` and `CMPI` (R65). -/
def compareTest (c w x y : Nat) : Bool :=
  match c with
  | 0 => x == y
  | 1 => x != y
  | 2 => sextInt x w < sextInt y w
  | 3 => sextInt y w ≤ sextInt x w
  | 4 => x < y
  | 5 => y ≤ x
  | 6 => sextInt x w ≤ sextInt y w
  | 7 => sextInt y w < sextInt x w
  | 8 => x ≤ y
  | 9 => y < x
  | 10 => Nat.land x y != 0
  | _ => Nat.land x y == 0

/-- The operations of `PLOG` (R113). -/
def predicateOp (c : Nat) (x y : Bool) : Bool :=
  match c with
  | 0 => x && y
  | 1 => x || y
  | 2 => xor x y
  | 3 => x && !y
  | 4 => x || !y
  | 5 => !(x && y)
  | 6 => !(x || y)
  | _ => !(xor x y)

/-- A compare: the predicate is written and the thread goes on (R111, R112). -/
def setPredicate (i : Instr) (p : Nat) (b : Bool) (s : State) : Out := done i (s.modMe fun sl => sl.setP p b)

/-- A jump of the issuing thread (R114). -/
def jumpTo (pc : Word) (s : State) : Out := .next (s.modMe fun sl => { sl with pc := pc, xprog := 0 })

/-- A register transfer: a misaligned target traps ALIGN at the jump (R59, R115). -/
def jumpReg (t : Word) (s : State) (before : State → State) : Out :=
  if t.toNat % 4 != 0 then trapAddr .align 0 t s else jumpTo t (before s)

/-! ## Major 0x01 (R102 to R104) -/

def execAdd (d a b : Nat) (s : State) : Out := alu (.add d a b) (some a) (some b) d (fun x y _ => x + y) s
def execSub (d a b : Nat) (s : State) : Out := alu (.sub d a b) (some a) (some b) d (fun x y _ => x - y) s
def execMul (d a b : Nat) (s : State) : Out := alu (.mul d a b) (some a) (some b) d (fun x y _ => x * y) s
def execMulh (d a b : Nat) (s : State) : Out :=
  alu (.mulh d a b) (some a) (some b) d (fun x y _ => BitVec.ofInt 64 (x.toInt * y.toInt / 2 ^ 64)) s
def execMulhn (d a b : Nat) (s : State) : Out :=
  alu (.mulhn d a b) (some a) (some b) d (fun x y _ => BitVec.ofNat 64 (x.toNat * y.toNat / 2 ^ 64)) s
def execDiv (d a b : Nat) (s : State) : Out := divForm (.div d a b) d a b (·.1) true s
def execDivn (d a b : Nat) (s : State) : Out := divForm (.divn d a b) d a b (·.1) false s
def execRem (d a b : Nat) (s : State) : Out := divForm (.rem d a b) d a b (·.2) true s
def execRemn (d a b : Nat) (s : State) : Out := divForm (.remn d a b) d a b (·.2) false s
def execMin (d a b : Nat) (s : State) : Out :=
  alu (.min d a b) (some a) (some b) d (fun x y _ => if x.toInt ≤ y.toInt then x else y) s
def execMax (d a b : Nat) (s : State) : Out :=
  alu (.max d a b) (some a) (some b) d (fun x y _ => if x.toInt ≤ y.toInt then y else x) s
def execMinn (d a b : Nat) (s : State) : Out :=
  alu (.minn d a b) (some a) (some b) d (fun x y _ => if x ≤ y then x else y) s
def execMaxn (d a b : Nat) (s : State) : Out :=
  alu (.maxn d a b) (some a) (some b) d (fun x y _ => if x ≤ y then y else x) s
def execAbs (d a : Nat) (s : State) : Out :=
  alu (.abs d a) (some a) none d (fun x _ _ => BitVec.ofNat 64 x.toInt.natAbs) s
def execAnd (d a b : Nat) (s : State) : Out := alu (.and d a b) (some a) (some b) d (fun x y _ => x &&& y) s
def execOr (d a b : Nat) (s : State) : Out := alu (.or d a b) (some a) (some b) d (fun x y _ => x ||| y) s
def execXor (d a b : Nat) (s : State) : Out := alu (.xor d a b) (some a) (some b) d (fun x y _ => x ^^^ y) s
def execAndn (d a b : Nat) (s : State) : Out := alu (.andn d a b) (some a) (some b) d (fun x y _ => x &&& ~~~y) s
def execOrn (d a b : Nat) (s : State) : Out := alu (.orn d a b) (some a) (some b) d (fun x y _ => x ||| ~~~y) s
def execXnor (d a b : Nat) (s : State) : Out := alu (.xnor d a b) (some a) (some b) d (fun x y _ => ~~~(x ^^^ y)) s
def execShl (d a b : Nat) (s : State) : Out :=
  alu (.shl d a b) (some a) (some b) d (fun x y _ => BitVec.ofNat 64 (shl 64 x.toNat (y.toNat % 256))) s
def execShr (d a b : Nat) (s : State) : Out :=
  alu (.shr d a b) (some a) (some b) d (fun x y _ => BitVec.ofNat 64 (shr 64 x.toNat (y.toNat % 256))) s
def execSar (d a b : Nat) (s : State) : Out :=
  alu (.sar d a b) (some a) (some b) d (fun x y _ => BitVec.ofNat 64 (sar 64 x.toNat (y.toNat % 256))) s
def execRol (d a b : Nat) (s : State) : Out :=
  alu (.rol d a b) (some a) (some b) d (fun x y _ => BitVec.ofNat 64 (rol 64 x.toNat (y.toNat % 256))) s
def execRor (d a b : Nat) (s : State) : Out :=
  alu (.ror d a b) (some a) (some b) d (fun x y _ => BitVec.ofNat 64 (ror 64 x.toNat (y.toNat % 256))) s

/-! ## Major 0x02 (R105) -/

def execPopc (d a : Nat) (s : State) : Out :=
  alu (.popc d a) (some a) none d (fun x _ _ => BitVec.ofNat 64 (popcount x.toNat 64)) s
def execClz (d a : Nat) (s : State) : Out :=
  alu (.clz d a) (some a) none d (fun x _ _ => BitVec.ofNat 64 (ctz (bitRev x.toNat 64) 64)) s
def execCtz (d a : Nat) (s : State) : Out :=
  alu (.ctz d a) (some a) none d (fun x _ _ => BitVec.ofNat 64 (ctz x.toNat 64)) s
def execBrev (d a : Nat) (s : State) : Out :=
  alu (.brev d a) (some a) none d (fun x _ _ => BitVec.ofNat 64 (bitRev x.toNat 64)) s
def execBswap (d a : Nat) (s : State) : Out :=
  alu (.bswap d a) (some a) none d (fun x _ _ => BitVec.ofNat 64 (byteRev x.toNat 8)) s
def execBext (d a b : Nat) (s : State) : Out :=
  alu (.bext d a b) (some a) (some b) d (fun x y _ => BitVec.ofNat 64 (bext x.toNat y.toNat 64)) s
def execBdep (d a b : Nat) (s : State) : Out :=
  alu (.bdep d a b) (some a) (some b) d (fun x y _ => BitVec.ofNat 64 (bdep x.toNat y.toNat 64)) s
def execSextS8 (d a : Nat) (s : State) : Out :=
  alu (.sextS8 d a) (some a) none d (fun x _ _ => sext (x.toNat % 2 ^ 8) 8) s
def execSextS16 (d a : Nat) (s : State) : Out :=
  alu (.sextS16 d a) (some a) none d (fun x _ _ => sext (x.toNat % 2 ^ 16) 16) s
def execSextS32 (d a : Nat) (s : State) : Out :=
  alu (.sextS32 d a) (some a) none d (fun x _ _ => sext (x.toNat % 2 ^ 32) 32) s
def execZextN8 (d a : Nat) (s : State) : Out :=
  alu (.zextN8 d a) (some a) none d (fun x _ _ => BitVec.ofNat 64 (x.toNat % 2 ^ 8)) s
def execZextN16 (d a : Nat) (s : State) : Out :=
  alu (.zextN16 d a) (some a) none d (fun x _ _ => BitVec.ofNat 64 (x.toNat % 2 ^ 16)) s
def execZextN32 (d a : Nat) (s : State) : Out :=
  alu (.zextN32 d a) (some a) none d (fun x _ _ => BitVec.ofNat 64 (x.toNat % 2 ^ 32)) s

/-! ## Major 0x03 and `PCMP` (R107, R108) -/

def execPadd (d a b w : Nat) (s : State) : Out := packedForm (.padd d a b w) d a b w (fun _ x y _ => x + y) s
def execPsub (d a b w : Nat) (s : State) : Out := packedForm (.psub d a b w) d a b w (fun n x y _ => x + 2 ^ n - y) s
def execPaddsS (d a b w : Nat) (s : State) : Out :=
  packedForm (.paddsS d a b w) d a b w (fun n x y _ => clampTo true n (sextInt x n + sextInt y n)) s
def execPaddsN (d a b w : Nat) (s : State) : Out :=
  packedForm (.paddsN d a b w) d a b w (fun n x y _ => clampTo false n (x + y)) s
def execPsubsS (d a b w : Nat) (s : State) : Out :=
  packedForm (.psubsS d a b w) d a b w (fun n x y _ => clampTo true n (sextInt x n - sextInt y n)) s
def execPsubsN (d a b w : Nat) (s : State) : Out :=
  packedForm (.psubsN d a b w) d a b w (fun n x y _ => clampTo false n ((x : Int) - y)) s
def execPmin (d a b w : Nat) (s : State) : Out := packedForm (.pmin d a b w) d a b w (fun n x y _ => smin n x y) s
def execPmax (d a b w : Nat) (s : State) : Out := packedForm (.pmax d a b w) d a b w (fun n x y _ => smax n x y) s
def execPminn (d a b w : Nat) (s : State) : Out := packedForm (.pminn d a b w) d a b w (fun _ x y _ => umin x y) s
def execPmaxn (d a b w : Nat) (s : State) : Out := packedForm (.pmaxn d a b w) d a b w (fun _ x y _ => umax x y) s
def execPshl (d a b w : Nat) (s : State) : Out := packedForm (.pshl d a b w) d a b w (fun n x _ k => shl n x k) s
def execPshr (d a b w : Nat) (s : State) : Out := packedForm (.pshr d a b w) d a b w (fun n x _ k => shr n x k) s
def execPsar (d a b w : Nat) (s : State) : Out := packedForm (.psar d a b w) d a b w (fun n x _ k => sar n x k) s
def execPshlV (d a b w : Nat) (s : State) : Out := packedForm (.pshlV d a b w) d a b w (fun n x y _ => shl n x (y % 256)) s
def execPshrV (d a b w : Nat) (s : State) : Out := packedForm (.pshrV d a b w) d a b w (fun n x y _ => shr n x (y % 256)) s
def execPsarV (d a b w : Nat) (s : State) : Out := packedForm (.psarV d a b w) d a b w (fun n x y _ => sar n x (y % 256)) s
def execPcmp (d a b c w : Nat) (s : State) : Out :=
  packedForm (.pcmp d a b c w) d a b w (fun n x y _ => if packedTest c n x y then 2 ^ n - 1 else 0) s

/-! ## Moves, constants, selection (R109, R110, R113) -/

def execMov (d a : Nat) (s : State) : Out := alu (.mov d a) (some a) none d (fun x _ _ => x) s
def execPmovToG (d : Nat) (s : State) : Out :=
  alu (.pmovToG d) none none d (fun _ _ s => BitVec.ofNat 64 (s.me.pw.toNat + 2 ^ 15)) s
def execPmovToPw (a : Nat) (s : State) : Out :=
  issue (.pmovToPw a) (some a) none none (fun x _ s =>
    done (.pmovToPw a) (s.modMe fun sl => { sl with pw := BitVec.ofNat 15 x.toNat })) s
def execSel (d a b n k : Nat) (s : State) : Out :=
  alu (.sel d a b n k) (some a) (some b) d (fun x y s => if xor (s.me.p k) (n == 1) then x else y) s
def execLim (d i : Nat) (s : State) : Out := alu (.lim d i) none none d (fun _ _ _ => sext i 19) s
def execLimH (d k h : Nat) (s : State) : Out :=
  alu (.limH d k h) (some d) none d (fun x _ _ =>
    (x &&& ~~~((0xFFFF#64) <<< (16 * k))) ||| ((BitVec.ofNat 64 h) <<< (16 * k))) s
def execAddpc (d i : Nat) (s : State) : Out := alu (.addpc d i) none none d (fun _ _ s => s.me.pc + sext i 19) s

/-! ## Immediate forms (R103, R104, R106) -/

def execAddi (d a i : Nat) (s : State) : Out := alu (.addi d a i) (some a) none d (fun x _ _ => x + sext i 12) s
def execAndi (d a i : Nat) (s : State) : Out := alu (.andi d a i) (some a) none d (fun x _ _ => x &&& sext i 12) s
def execOri (d a i : Nat) (s : State) : Out := alu (.ori d a i) (some a) none d (fun x _ _ => x ||| BitVec.ofNat 64 i) s
def execXori (d a i : Nat) (s : State) : Out := alu (.xori d a i) (some a) none d (fun x _ _ => x ^^^ BitVec.ofNat 64 i) s
def execShli (d a n : Nat) (s : State) : Out :=
  alu (.shli d a n) (some a) none d (fun x _ _ => BitVec.ofNat 64 (shl 64 x.toNat n)) s
def execShri (d a n : Nat) (s : State) : Out :=
  alu (.shri d a n) (some a) none d (fun x _ _ => BitVec.ofNat 64 (shr 64 x.toNat n)) s
def execSari (d a n : Nat) (s : State) : Out :=
  alu (.sari d a n) (some a) none d (fun x _ _ => BitVec.ofNat 64 (sar 64 x.toNat n)) s
def execRori (d a n : Nat) (s : State) : Out :=
  alu (.rori d a n) (some a) none d (fun x _ _ => BitVec.ofNat 64 (ror 64 x.toNat n)) s
def execBfx (d a p l : Nat) (s : State) : Out :=
  alu (.bfx d a p l) (some a) none d (fun x _ _ => BitVec.ofNat 64 (bits x.toNat p (l + 1))) s
def execBfi (d a p l : Nat) (s : State) : Out :=
  alu (.bfi d a p l) (some a) (some d) d (fun x y _ =>
    let m : Word := (BitVec.ofNat 64 (2 ^ (l + 1) - 1)) <<< p
    (y &&& ~~~m) ||| ((x <<< p) &&& m)) s

/-! ## Predicates (R111 to R113) -/

def execCmp (p c a b z : Nat) (s : State) : Out :=
  issue (.cmp p c a b z) (some a) (some b) none (fun x y s =>
    setPredicate (.cmp p c a b z) p (compareTest c (8 * 2 ^ z) (x.toNat % 2 ^ (8 * 2 ^ z)) (y.toNat % 2 ^ (8 * 2 ^ z))) s) s
def execCmpi (p c a i : Nat) (s : State) : Out :=
  issue (.cmpi p c a i) (some a) none none (fun x _ s =>
    setPredicate (.cmpi p c a i) p (compareTest c 64 x.toNat (sext i 11).toNat) s) s
def execPlog (p c x y : Nat) (s : State) : Out :=
  issue (.plog p c x y) none none none (fun _ _ s =>
    setPredicate (.plog p c x y) p (predicateOp c (s.me.p x) (s.me.p y)) s) s

/-! ## Control transfer (R114, R115) -/

def execB (n p o : Nat) (s : State) : Out :=
  issue (.b n p o) none none none (fun _ _ s =>
    if xor (s.me.p p) (n == 1) then jumpTo (s.me.pc + sext o 21 * 4) s else done (.b n p o) s) s
def execJ (o : Nat) (s : State) : Out :=
  issue (.j o) none none none (fun _ _ s => jumpTo (s.me.pc + sext o 26 * 4) s) s
def execCall (o : Nat) (s : State) : Out :=
  issue (.call o) none none none (fun _ _ s => jumpTo (s.me.pc + sext o 26 * 4) (s.setG 2 (s.me.pc + 4))) s
def execCallr (a : Nat) (s : State) : Out :=
  issue (.callr a) none none none (fun _ _ s => jumpReg (s.g a) s fun s => s.setG 2 (s.me.pc + 4)) s
def execJr (a : Nat) (s : State) : Out := issue (.jr a) none none none (fun _ _ s => jumpReg (s.g a) s id) s
def execRet (s : State) : Out := issue .ret none none none (fun _ _ s => jumpReg (s.g 2) s id) s

/-- The hint block executes as `NOP` (R67). -/
def execHint (h i n : Nat) (s : State) : Out := issue (.hint h i n) none none none (fun _ _ s => done (.hint h i n) s) s

/-- DIVIDE_COMPLETE (R101): the result of a divide is written and the thread is ready at the next instruction. -/
def execDivideComplete (k : Nat) (s : State) : Out :=
  match (s.slot k).waits with
  | .divide d v due place =>
    if s.cycle (coreOf k) < due then .fault .notEnabled
    else .next (((s.landDst k d place v).advance k 4).modSlot k Slot.settle)
  | _ => .fault .notEnabled

end Sys2Proof.Machine
end

