-- ==== Sys2Proof/Machine/Start.lean ====
section
/-! DEFINITION. Windows and slots: free register ranges (R40, R276), landing slots (R39, R54, R120), the start of a thread
(R43), and the admission of R273. -/

namespace Sys2Proof.Machine

/-- The register ranges in use on a core: the windows of threads, of held slots and of landing slots (R40). -/
def State.ranges (s : State) (core : Nat) : List (Nat × Nat) :=
  (range' 0 64).filterMap fun i =>
    let sl := s.slot (64 * core + i)
    if sl.st != .empty || 64 ≤ i + (s.core core).landn then some (sl.base, sl.size) else none

/-- The lowest base at which a window fits beside some ranges (R40, R276). -/
def lowestBase (used : List (Nat × Nat)) (w : Nat) : Option Nat :=
  ((range' 0 256).map (8 * ·)).find? fun b => b + w ≤ 2048 && used.all fun p => b + w ≤ p.1 || p.1 + p.2 ≤ b

/-- The lowest base at which a window of a class fits on a core. -/
def State.freeBase (s : State) (core wclass : Nat) : Option Nat := lowestBase (s.ranges core) (windowSize wclass)

/-- Whether a slot is allocatable (R276). -/
def State.allocatable (s : State) (k : Nat) : Bool :=
  (s.slot k).st == .empty && !isSystem k && !s.isLanding k && !s.retired (coreOf k)

/-- The lowest-numbered allocatable slot of a core. -/
def State.freeSlot? (s : State) (core : Nat) : Option Nat := ((range' 0 64).map (64 * core + ·)).find? s.allocatable

/-- Gives `n` landing slots from `i` on their windows beside the ranges in use (R40). -/
def State.landingWindows (s : State) (core i : Nat) (used : List (Nat × Nat)) : Nat → Option State
  | 0 => some s
  | n + 1 =>
    match lowestBase used 24 with
    | none => none
    | some b => (s.modSlot (64 * core + i) fun sl => { sl with base := b, wclass := 2 }).landingWindows core (i + 1) ((b, 24) :: used) n

/-- The strands that wait in a core's landing queue bounce, as an arrival there does once `LANDN` is 0 (R54, R57). The chapters name
no moment for those already queued. [DESIGN CHOICE, log 111] -/
def State.bounceQueued (s : State) (core : Nat) : State :=
  let q := (s.core core).landq
  let s : State := { s with migs := s.migs.map fun m => if q.any (·.id == m.id) then { m with bounce := true } else m }
  q.foldl (fun t m => t.travel (.bounceReturn m.id) (dieOf core) (dieOf (coreOf m.src)) 1 224) (s.modCore core fun c => { c with landq := [] })

/-- `LANDN` := n on a core (R120, R123): a raise needs its slots empty and their windows free; a lowering completes at once. -/
def State.setLandn (s : State) (core n : Nat) : Option State :=
  let old := (s.core core).landn
  if n ≤ old then
    let s := s.modCore core fun c => { c with landn := n, refused := c.refused && n == old }
    let s := if n = 0 then s.bounceQueued core else s
    some (((range' (64 - old) (old - n)).foldl (fun t i =>
      if (t.slot (64 * core + i)).st = .empty then (t.modSlot (64 * core + i) fun sl => { nextOk := sl.nextOk }) else t) s).later
      (.hubAllocate core))
  else if s.landingEmpty core n then (s.landingWindows core (64 - n) (s.ranges core) (n - old)).map fun t =>
    ((t.modCore core fun c => { c with landn := n }).later (.landingQueueTake core)).later (.preemptDecision (clusterOf core))
  else none

/-- How a thread's request for a value of `LANDN` ends (R120, R123): done, or pending, or behind the pending raise of another. -/
inductive LandnEnd where
  | done (s : State)
  | pending (s : State)
  | behind
deriving Repr

/-- A thread's request for a value of `LANDN`. Raises are made one after another, in the order in which they are asked for.
[DESIGN CHOICE, log 111] -/
def State.askLandn (s : State) (k n : Nat) : LandnEnd :=
  let core := coreOf k
  let c := s.core core
  let own : Bool := c.landnTo.isNone || c.landnBy == k
  if c.landn < n && !own then .behind
  else
    match s.setLandn core n with
    | some t => .done (if own then t.modCore core fun c => { c with landnTo := none } else t)
    | none => .pending (s.modCore core fun c => { c with landnTo := some n, landnBy := k })

/-- The start of a thread in a slot (R43, R242): PC bits [1:0] are 0 (R59), its window at a base, its registers 0 and full but g1 and g3, an empty deque,
and an acquire at module scope. -/
def State.startThread (s : State) (k base wclass region : Nat) (pc g1 g3 : Word) (task slink : TcbRef) : State :=
  let core := coreOf k
  let s := s.modSlot k fun sl =>
    { st := .ready, pc := pc &&& ~~~3#64, region := region, wclass := wclass, base := base, task := task, slink := slink, ring := slotNo k,
      nextOk := sl.nextOk }
  let s := (range' 0 (windowSize wclass)).foldl (fun t r => t.setRf core (base + r) {}) s
  ((s.setRf core (base + 1) { val := g1 }).setRf core (base + 3) { val := g3 }).dropCleanL1 core

/-- R273: whether one more slot stays within the maxslots and the energy budget of a region and its ancestors, none halted. -/
def State.admissible (s : State) (r : Nat) : Bool :=
  !s.halted r && ((s.ancestry r).all fun a => match s.region? a with
    | some g => g.held < g.maxslots
    | none => false) &&
  (match s.region? r with
   | some g => g.energy == 0 || g.spent < g.energy
   | none => false)

/-- A thread parked by `PARK` is ready at the next instruction (R126). -/
def State.endPark (s : State) (k : Nat) : State :=
  match (s.slot k).waits with
  | .park _ => (s.advance k 4).modSlot k Slot.settle
  | _ => s

/-- Words from a global address that a thread's instruction loads in one step, behind the dirty bytes of the cluster's L1s (R235) and
its core's earlier requests to their home (R237): while one of those is on its way the thread is to wait for it. -/
def State.threadReads (s : State) (k va n : Nat) : Except (Cause × Nat × Nat) (List Word) × State :=
  match n with
  | 0 => (.ok [], s)
  | n + 1 =>
    let region := (s.slot k).region
    match s.xlate region va .r with
    | (.error (c, l), t) => (.error (c, l, va), t)
    | (.ok x, t) =>
      let t := t.cleanCluster (clusterOf (coreOf k)) (x.pa / 128)
      let lost := t.unitLost x.pa x.key
      let t := (t.unitHome x.pa x.key false).correct (wordOf x.pa)
      if lost then (.error (.rights, 0, va), t.logErr 1 2 (t.nameOf k) (BitVec.ofNat 64 va))
      else if t.homeBad x.pa then (.error (.machine, 0, wordOf x.pa), t.logErr 4 2 (t.nameOf k) (BitVec.ofNat 64 (wordOf x.pa)))
      else
        let w := BitVec.ofNat 64 (t.homeNum x.pa 8)
        match t.threadReads k (va + 8) n with
        | (.error e, u) => (.error e, u)
        | (.ok l, u) => (.ok (w :: l), u)
termination_by structural n

/-- The first line, of those that `n` words from a global address lie in, for whose home the core of a thread has a request on its
way (R237). -/
def State.readBehind (s : State) (k va n : Nat) : Option Nat :=
  ((range' 0 n).filterMap fun i => match (s.xlate (s.slot k).region (va + 8 * i) .r).1 with
    | .ok x => if s.pastReqs (coreOf k) (x.pa / 128) then none else some (x.pa / 128)
    | .error _ => none).head?

end Sys2Proof.Machine
end

