-- ==== Sys2Proof/Machine/System.lean ====
section
/-! DEFINITION. System registers, traps, service calls, `OBJSET`, `ERET`, `YIELD` and `PARK` (chapter 09, R117 to R129). -/

namespace Sys2Proof.Machine

/-! ## Reading system registers (R117 to R122) -/

/-- The lanes a core holds (R160). -/
def State.grantOf (s : State) (core : Nat) : Nat :=
  8 * ((s.tile (tileOf core)).groups.filter (· == some (coreInTile core))).length

/-- `VL` of a slot (R161): the grant reads 0 where the slot does not own the context. -/
def State.vlWord (s : State) (k : Nat) : Word :=
  let sl := s.slot k
  let grant := if (s.core (coreOf k)).vowner = some k then s.grantOf (coreOf k) else 0
  BitVec.ofNat 64 (b2n sl.shr * 2 ^ 15 + grant * 2 ^ 8 + sl.vl)

/-- `FPSTAT` of a slot (R92). -/
def fpstatWord (sl : Slot) : Word := BitVec.ofNat 64 (sl.fprm.toNat * 256 + sl.fpflags.toNat)

/-- The accumulator arrays that a core owns, ascending (R186). -/
def State.ownedArrays (s : State) (core : Nat) : List Nat :=
  (range' 0 8).filter fun j => ((s.tile (tileOf core)).accOwner.getD j none) == some (coreInTile core)

/-- `VGROUP` of a core: its own bit reads 1 (R120). -/
def State.vgroupWord (s : State) (core : Nat) : Word :=
  BitVec.ofNat 64 (s.vgroupOf core).toNat

/-- A system register as `MFS` reads it in a slot, but `PACE` and `TIME` (R117). -/
def State.sysRead (s : State) (k n : Nat) : Word :=
  let sl := s.slot k
  let core := coreOf k
  match n with
  | 0x001 => windowWord sl
  | 0x002 => s.nameOf k
  | 0x003 => sl.portmap
  | 0x004 => BitVec.ofNat 64 sl.retry.toNat
  | 0x005 => BitVec.ofNat 64 sl.parkint.toNat
  | 0x006 => fpstatWord sl
  | 0x007 => sl.rndseed
  | 0x008 => s.vlWord k
  | 0x009 => sl.tags
  | 0x00A => BitVec.ofNat 64 sl.unack
  | 0x00B => BitVec.ofNat 64 sl.scopemiss
  | 0x00C => BitVec.ofNat 64 (b2n (sl.strand && sl.amig))
  | 0x010 => sl.xpc
  | 0x011 => sl.xcause
  | 0x012 => sl.xaddr
  | 0x013 => sl.xprog
  | 0x014 => sl.xinfo
  | 0x020 => BitVec.ofNat 64 (s.core core).share.toNat
  | 0x021 => s.vgroupWord core
  | 0x022 => BitVec.ofNat 64 (s.core core).landn
  | 0x023 => BitVec.ofNat 64 (((s.ownedArrays core).map fun j => 2 ^ j).foldl (· + ·) 0)
  | 0x024 => BitVec.ofNat 64 sl.opreq.toNat
  | 0x030 => s.pace (s.tile (tileOf core)).level
  | 0x031 => BitVec.ofNat 64 s.time
  | 0x032 => BitVec.ofNat 64 (s.cycle core)
  | _ => 0

/-- Whether a register's read is recorded in capture mode (R121, R335). -/
def recorded (n : Nat) : Bool := n == 0x030 || n == 0x031

/-- `MFS` (R122): `FPSTAT` and `RNDSEED` wait for the slot's earlier vector instructions (R93). -/
def execMfs (d n : Nat) (s : State) : Out :=
  issueWith (.mfs d n) none none (some d) (fun s =>
    if (n == 0x006 || n == 0x007) && !s.vecQuiet s.cur then parkFor .vecQuiet s
    else
      let v := s.sysRead s.cur n
      let (v, s) := if recorded n then s.noteRead s.cur v else (v, s)
      done (.mfs d n) (putDst d v s)) s

/-! ## Writing system registers -/

/-- `PARKINT` as written: clamped to 64 to 65,536 (R117). -/
def clampPark (v : Nat) : Nat := if v < 64 then 64 else if 65536 < v then 65536 else v

/-- The owner of array `a` when core `j` of the tile asks for the arrays of a mask: an array of another core stays its own.
[DEDUCED, log 99] -/
def newOwner (owners : List (Option Nat)) (j mask a : Nat) : Option Nat :=
  let o := owners.getD a none
  if o = none ∨ o = some j then (if bit mask a then some j else none) else o

/-- A write of a slot register that needs no check; a read-only register ignores it (R117, R122). -/
def State.sysWrite (s : State) (k n : Nat) (v : Word) : State :=
  let w := v.toNat
  match n with
  | 0x004 => s.modSlot k fun sl => { sl with retry := BitVec.ofNat 8 w }
  | 0x005 => s.modSlot k fun sl => { sl with parkint := BitVec.ofNat 17 (clampPark (bits w 0 17)) }
  | 0x00B => s.modSlot k fun sl => { sl with scopemiss := bits w 0 32 }
  | 0x00C => s.modSlot k fun sl => if sl.strand then { sl with amig := bit w 0 } else sl
  | 0x024 => s.modSlot k fun sl => { sl with opreq := if bits w 0 5 = 31 then 30 else BitVec.ofNat 5 w }
  | 0x021 => s.modCore (coreOf k) fun c => { c with vgroup := BitVec.ofNat 16 w }
  | 0x023 =>
    let j := coreInTile (coreOf k)
    s.modTile (tileOf (coreOf k)) fun t => { t with accOwner := (range' 0 8).map (newOwner t.accOwner j w) }
  | _ => s

/-- The core registers that region slots set through `SVC` (R117). -/
def throughSvc (n : Nat) : Bool := n == 0x020 || n == 0x021 || n == 0x022 || n == 0x023

/-- Writing the source of an `MTS`: it is dequeued when the write is performed. -/
def mtsForm (i : Instr) (d : Nat) (body : Word → State → Out) (s : State) : Out :=
  peek i (some d) none none (fun v _ s => body v s) s

/-- The end of an `MTS`. -/
def mtsDone (i : Instr) (d : Nat) (s : State) : Out := done i (takeBoth (some d) none s)

/-- Accumulator lanes of arrays set to 0 (R187). -/
def State.zeroArrays (s : State) (tile : Nat) (js : List Nat) : State :=
  { s with accs := s.accs.filter fun p => !(p.1 / 1024 / 8 == tile && js.contains (p.1 / 1024 % 8)) }

def execMts (d n : Nat) (s : State) : Out :=
  mtsForm (.mts d n) d (fun v s =>
    if throughSvc n && !isSystem s.cur then trapNow .rights s
    else mtsDone (.mts d n) d (s.sysWrite s.cur n v)) s

/-- Whether `PORTMAP` has a reserved bit set, or two enabled bindings of one register (R55). -/
def portmapIllegal (v : Nat) : Bool :=
  ((range' 0 4).any fun i => bit v (16 * i + 7) || bits v (16 * i + 11) 4 != 0) ||
  ((range' 0 4).any fun i => (range' 0 i).any fun j =>
    bit v (16 * i + 15) && bit v (16 * j + 15) && bits v (16 * i) 7 == bits v (16 * j) 7)

/-- The queues that a `PORTMAP` value binds. -/
def boundQueues (v : Nat) : List Nat := ((range' 0 4).filter fun i => bit v (16 * i + 15)).map fun i => bits v (16 * i + 8) 3

/-- Whether a slot of another region on the core binds one of some queues (R145). -/
def State.queueTaken (s : State) (k : Nat) (qs : List Nat) : Bool :=
  (range' 0 64).any fun i =>
    let sl := s.slot (64 * coreOf k + i)
    sl.st != .empty && sl.st != .held && sl.region != (s.slot k).region && (boundQueues sl.portmap.toNat).any qs.contains

/-- `MTS PORTMAP` (R55, R145). -/
def execMtsPortmap (d : Nat) (s : State) : Out :=
  mtsForm (.mtsPortmap d) d (fun v s =>
    if portmapIllegal v.toNat then trapIllegal (.mtsPortmap d) s
    else if (range' 0 4).any fun i => bit v.toNat (16 * i + 15) && s.me.size ≤ bits v.toNat (16 * i) 7 then trapNow .regwin s
    else if s.queueTaken s.cur (boundQueues v.toNat) then trapNow .rights s
    else done (.mtsPortmap d) ((takeBoth (some d) none s).modMe fun sl => { sl with portmap := v })) s

/-- `MTS VL` (R161): vl is held at 64 at most, and a written bit 15 clears shr. -/
def execMtsVl (d : Nat) (s : State) : Out :=
  mtsForm (.mtsVl d) d (fun v s =>
    mtsDone (.mtsVl d) d (s.modMe fun sl =>
      { sl with vl := Nat.min (bits v.toNat 0 7) 64, shr := sl.shr && !bit v.toNat 15 })) s

/-- `MTS FPSTAT` (R92, R93). -/
def execMtsFpstat (d : Nat) (s : State) : Out :=
  mtsForm (.mtsFpstat d) d (fun v s =>
    if !s.vecQuiet s.cur then parkFor .vecQuiet s
    else mtsDone (.mtsFpstat d) d (s.modMe fun sl =>
      { sl with fprm := BitVec.ofNat 2 (bits v.toNat 8 2), fpflags := BitVec.ofNat 6 v.toNat })) s

/-- `MTS RNDSEED` (R92, R93). -/
def execMtsRndseed (d : Nat) (s : State) : Out :=
  mtsForm (.mtsRndseed d) d (fun v s =>
    if !s.vecQuiet s.cur then parkFor .vecQuiet s
    else mtsDone (.mtsRndseed d) d (s.modMe fun sl => { sl with rndseed := v })) s

/-- A new `CARVE` share takes effect on a core (R29, R120): the dirty lines of a shrinking cache are written back, bytes that
become cache are lost, and bytes gained read as zero with their full/empty bits full. -/
def State.setCarve (s : State) (core share : Nat) : State :=
  let old := s.scratchSize core
  let new := 262144 - shareBytes share
  let s := if shareBytes share < shareBytes (s.core core).share.toNat then
    let s := s.writeBackAll core
    { s with cache := { s.cache with l1 := s.cache.l1.filter fun p => p.1 / 2 ^ 32 != core } }
    else s
  let lo := corePlace core (Nat.min old new)
  let hi := corePlace core (Nat.max old new)
  let out (p : Nat) : Bool := lo ≤ p && p < hi
  let lost := s.deferred.filter fun q => out q.place
  let s := { s with mem := s.mem.filter fun c => !out c.1, flips := s.flips.filter fun w => !out w,
                    dead := s.dead.filter fun w => !out w }
  let s := s.modCore core fun c => { c with share := BitVec.ofNat 2 share }
  lost.foldl (fun t q => t.refuse q .rights 1) s

/-- `MTS CARVE` (R120, R122). -/
def execMtsCarve (d : Nat) (s : State) : Out :=
  mtsForm (.mtsCarve d) d (fun v s =>
    if !isSystem s.cur then trapNow .rights s
    else mtsDone (.mtsCarve d) d (s.setCarve s.myCore (bits v.toNat 0 2))) s

/-- `MTS LANDN` (R120): the system thread is parked until a raise completes. -/
def execMtsLandn (d : Nat) (s : State) : Out :=
  mtsForm (.mtsLandn d) d (fun v s =>
    if !isSystem s.cur then trapNow .rights s
    else
      let n := Nat.min (bits v.toNat 0 5) 16
      match s.askLandn s.cur n with
      | .done t => mtsDone (.mtsLandn d) d t
      | .pending t => parkFor (.landnEmpty n) t
      | .behind => parkFor .landnFree s) s

/-! ## Traps and service calls (R123) -/

/-- `TRAP` (R123). -/
def execTrap (c : Nat) (s : State) : Out :=
  issueWith (.trap c) none none none (fun s =>
    .next (s.takeTrap s.cur .trap 0 0 s.me.pc 0 0 (BitVec.ofNat 64 c) (s.me.pc + 4))) s

/-- The thread of an `SVC` stops with its `X` registers written (R123, R285); the service is charged to its region (R315). -/
def State.svcStop (s : State) (code : Nat) : State :=
  (s.charge deviceWork s.me.region (s.cost 11)).modMe fun sl =>
    { sl with xpc := sl.pc, xcause := xcauseOf .svc 0 0, xaddr := 0, xprog := 0, xinfo := BitVec.ofNat 64 code, resume := sl.pc + 4 }

/-- The thread in a slot resumes from its service with a status in g3 (R123). -/
def State.svcResume (s : State) (k : Nat) (status : Word) : State :=
  ((s.setGreg k 3 { val := status }).advance k 4).modSlot k Slot.settle

/-- A service of the region manager for the issuing core (R123): the thread stops, `body` performs the service.
[DEDUCED, log 105] -/
def svcForm (i : Instr) (code : Nat) (body : Word → State → Out) (s : State) : Out :=
  issueWith i none none none (fun s => body (s.g 4) (s.svcStop code)) s

/-- Whether the core's cluster lies outside the region's effective core set (R123). -/
def State.outsideSet (s : State) : Bool := !s.grants s.me.region (clusterOf s.myCore)

/-- The service is refused (R123). -/
def svcRefuse (s : State) : Out := .next (s.svcResume s.cur 1)

/-- An `SVC` code without a service (R123). -/
def execSvc (c : Nat) (s : State) : Out :=
  svcForm (.svc c) c (fun _ s => .next (s.svcResume s.cur (BitVec.allOnes 64))) s

/-- Whether a new scratchpad size cuts the partition of a region that holds a slot on the core (R123). -/
def State.cutsPartition (s : State) (core size : Nat) : Bool :=
  (range' 0 64).any fun i =>
    let sl := s.slot (64 * core + i)
    sl.st != .empty && (match s.region? sl.region with | some g => size < 4096 * g.scrbase + g.scrbytes | none => false)

/-- `SVC #0x001`: set `CARVE`. -/
def execSvcSetCarve (s : State) : Out :=
  svcForm .svcSetCarve 1 (fun v s =>
    if bits v.toNat 2 62 != 0 || s.outsideSet || s.cutsPartition s.myCore (262144 - shareBytes (bits v.toNat 0 2)) then svcRefuse s
    else .next ((s.setCarve s.myCore (bits v.toNat 0 2)).svcResume s.cur 0)) s

/-- `SVC #0x002`: set `VGROUP`. -/
def execSvcSetVgroup (s : State) : Out :=
  svcForm .svcSetVgroup 2 (fun v s =>
    if bits v.toNat 16 48 != 0 || s.outsideSet then svcRefuse s
    else .next ((s.modCore s.myCore fun c => { c with vgroup := BitVec.ofNat 16 v.toNat }).svcResume s.cur 0)) s

/-- `SVC #0x003`: set `LANDN`; the caller stays halted until a raise completes. -/
def execSvcSetLandn (s : State) : Out :=
  svcForm .svcSetLandn 3 (fun v s =>
    let n := bits v.toNat 0 5
    if bits v.toNat 5 59 != 0 || 16 < n || s.outsideSet then svcRefuse s
    else
      match s.askLandn s.cur n with
      | .done t => .next (t.svcResume s.cur 0)
      | .pending t => .next (t.modMe fun sl => { sl with st := .halted, wait := .svcLandn n })
      | .behind => blockAs .halted .landnFree s) s

/-- A saved thread whose raise of `LANDN` is complete: the status lands in its image (R129). -/
def Image.svcDone (m : Image) : Image :=
  { m with regs := setAt m.regs 3 { val := 0 },
           slot := { m.slot with pc := m.slot.pc + 4, xprog := 0, before := .ready, bwait := .none } }

/-- Whether a wait is one for a raise of `LANDN`. -/
def Wait.isLandn : Wait → Bool
  | .svcLandn _ => true
  | _ => false

/-- LANDN_RAISE_COMPLETE (R120, R123): the landing slots are empty, and the raise of a core takes effect. -/
def execLandnRaiseComplete (core : Nat) (s : State) : Out :=
  match (s.core core).landnTo with
  | none => .fault .notEnabled
  | some n =>
    match s.setLandn core n with
    | none => .fault .notEnabled
    | some t =>
      let t := t.modCore core fun c => { c with landnTo := none }
      let t : State := { t with images := t.images.map fun m => if m.core = core ∧ m.slot.bwait.isLandn then m.svcDone else m }
      .next ((range' 0 64).foldl (fun t i =>
        if (t.slot (64 * core + i)).waits.isLandn then t.svcResume (64 * core + i) 0 else t) t)

/-- Whether `SVC #0x004` is refused beyond R123 (R187). -/
def State.accmapRefused (s : State) (core region mask : Nat) : Bool :=
  let t := s.tile (tileOf core)
  ((range' 0 8).any fun j => bit mask j && (match t.accOwner.getD j none with
    | some c => c != coreInTile core
    | none => false)) ||
  (match (s.core core).mclaim with | some k => (s.slot k).region != region | none => false) ||
  (s.images.any fun m => m.core == core && m.matrix.isSome && m.slot.region != region)

/-- `SVC #0x004`: set `ACCMAP` (R187). -/
def execSvcSetAccmap (s : State) : Out :=
  svcForm .svcSetAccmap 4 (fun v s =>
    let core := s.myCore
    let mask := bits v.toNat 0 8
    if bits v.toNat 8 56 != 0 || s.outsideSet || s.accmapRefused core s.me.region mask then svcRefuse s
    else
      let change := (range' 0 8).filter fun j => bit mask j != (s.ownedArrays core).contains j
      if !s.arraysFree (tileOf core) change then blockAs .halted (.arraysFree change) s
      else .next (((s.sysWrite s.cur 0x023 (BitVec.ofNat 64 mask)).zeroArrays (tileOf core) change).svcResume s.cur 0)) s

/-! ## `ERET` (R124) -/

/-- Whether a record stands in a region's fault queue, pending, at an address: its eight words. -/
def State.pendingRecord (s : State) (r va : Nat) : Option (List Word) × State :=
  match s.region? r with
  | none => (none, s)
  | some g =>
    if g.fltq = 0 then (none, s)
    else
      match s.queueHead r g.fltq.toNat with
      | (some (q :: _), t) =>
        let base := g.fltq.toNat + 64
        if va < base || (va - base) % 64 != 0 || 2 ^ (q % 16) ≤ (va - base) / 64 then (none, t)
        else
          match t.devReads r va 8 with
          | (.ok l, t) => if bit (l.getD 7 0).toNat 63 then (some l, t) else (none, t)
          | (.error _, t) => (none, t)
      | (_, t) => (none, t)

/-- The region, of those `ERET` may name, in whose fault queue a record at an address is pending. -/
def State.findRecord (s : State) (va : Nat) : List Nat → Option (Nat × List Word) × State
  | [] => (none, s)
  | r :: rest =>
    match s.pendingRecord r va with
    | (some l, t) => (some (r, l), t)
    | (none, t) => t.findRecord va rest

/-- `ERET` (R124, R288): the release makes the handler's words of the record visible; the record is consumed, and the thread that it
names resumes. [DEDUCED, log 30] -/
def execEret (d : Nat) (s : State) : Out :=
  issueWith (.eret d) none none none (fun s =>
    let va := s.g d
    let who := if isSystem s.cur then s.regions.map (·.1) else [s.me.region]
    match (if bits va.toNat 56 8 = 0 then s.findRecord va.toNat who else (none, s)) with
    | (none, s) => trapAddr .rights 0 va s
    | (some (r, _), s) =>
      release 5 s fun s =>
        match s.pendingRecord r va.toNat with
        | (none, s) => trapAddr .rights 0 va s
        | (some l, s) =>
          if (l.getD 5 0).toNat % 4 != 0 then trapAddr .align 0 (l.getD 5 0) s
          else
            let s := (s.devWrite r (va.toNat + 56) (BitVec.ofNat 64 ((l.getD 7 0).toNat % 2 ^ 63))).2
            let s := s.resumeThread (l.getD 6 0).toNat ((l.getD 7 0).toNat % 2 ^ 63) (l.getD 5 0) (l.getD 3 0)
            done (.eret d) (s.flushRecords r)) s

/-! ## `YIELD` and `PARK` (R125, R126) -/

/-- `YIELD`: no position is borrowed until the slot's own comes up. -/
def execYield (s : State) : Out :=
  issueWith .yield none none none (fun s => done .yield (s.modMe fun sl => { sl with noBorrow := true })) s

/-- `PARK`: the thread parks for `PARKINT` cycles at most. -/
def execPark (s : State) : Out :=
  issueWith .park none none none (fun s =>
    let now := s.cycle s.myCore
    let due := now + s.me.parkint.toNat
    .next ((s.modMe fun sl => { sl with st := .parked, wait := .park due, parkedSince := now, stale := false }).later
      (.parkTimeout s.cur) (.cycle s.myCore due))) s

/-- PARK_TIMEOUT (R126). -/
def execParkTimeout (k : Nat) (s : State) : Out :=
  match (s.slot k).waits with
  | .park due => if s.cycle (coreOf k) < due then .fault .notEnabled else .next (s.endPark k)
  | _ => .fault .notEnabled

/-! ## `OBJSET` (R127) -/

/-- The chip-block address of entry 0 of a Wicket queue on the own chip (R331). -/
def State.queueBase (s : State) (q : Nat) : Nat := 2 ^ 57 + s.host.modid * 2 ^ 44 + q * 0x40000

/-- Whether R329 or R331 refuses an entry at a place of a region's table. -/
def State.objRefused (s : State) (region i e : Nat) : Bool :=
  if isExport s.host.modid s.host.modid e && exLen e != 0 then
    match find s.host.exports (bits e 452 8) with
    | some o => o != (region, i)
    | none => false
  else if objType e = 5 then
    let q := bits e 486 2
    let role := bits e 485 1
    let partner := bits e 469 16
    bits e 0 64 != s.queueBase q || partner == region ||
    (match find s.host.bindings (2 * q + role) with | some (r, o, _) => (r, o) != (region, i) | none => false) ||
    (match find s.host.bindings (2 * q + 1 - role) with | some (_, _, p) => p != region | none => false)
  else false

/-- The registrations that go with an entry of a region's table, before and after it is replaced (R329, R331). -/
def State.objRegister (s : State) (region i e : Nat) : State :=
  let s := { s with host := { s.host with
    exports := s.host.exports.filter fun p => p.2 != (region, i)
    bindings := s.host.bindings.filter fun p => (p.2.1, p.2.2.1) != (region, i) } }
  if isExport s.host.modid s.host.modid e && exLen e != 0 then
    { s with host := { s.host with exports := put s.host.exports (bits e 452 8) (region, i) } }
  else if objType e = 5 then
    { s with host := { s.host with bindings := put s.host.bindings (2 * bits e 486 2 + bits e 485 1) (region, i, bits e 469 16) } }
  else s

/-- The entry written at its place in physical memory, 64 zero bytes for type 0 (R127). -/
def State.putObj (s : State) (pa key e : Nat) : State :=
  let s := s.unitHome pa key true
  s.homeSet pa 64 (if objType e = 0 then 0 else e)

/-- `OBJSET` (R127). [DEDUCED, log 102] -/
def execObjset (a b : Nat) (s : State) : Out :=
  issueWith (.objset a b) none none none (fun s =>
    let va := s.g b
    let i := (s.g a).toNat
    let region := s.me.region
    if va.toNat % 64 != 0 then trapAddr .align 0 va s
    else if bits va.toNat 56 8 != 0 then trapAddr .rights 2 va s
    else
      match s.readBehind s.cur va.toNat 8 with
      | some line => waitFor (.ordered line) s
      | none =>
      match s.threadReads s.cur va.toNat 8 with
      | (.error (c, l, x), s) => TrapInfo.raise { c := c, source := 2, level := l, xaddr := BitVec.ofNat 64 x } s
      | (.ok l, s) =>
        match s.region? region with
        | none => trapObject (i % 65536) s
        | some g =>
          if g.objcount ≤ i then trapObject (i % 65536) s
          else
            let at_ := g.objAddr i
            match s.xlate region at_ .r with
            | (.error (c, l), s) => TrapInfo.raise { c := c, source := 0, level := l, xaddr := BitVec.ofNat 64 at_ } s
            | (.ok x, s) =>
              let s := s.purgeAround s.myCore x.pa
              let lost := s.unitLost x.pa x.key
              let s := (s.unitHome x.pa x.key true).correct (x.pa + 56)
              let old := s.homeNum x.pa 64
              let e := wordsNum l
              if lost then
                TrapInfo.raise { c := .rights, xaddr := BitVec.ofNat 64 at_ } (s.logErr 1 2 (s.nameOf s.cur) (BitVec.ofNat 64 at_))
              else if s.homeBad (x.pa + 56) then
                TrapInfo.raise { c := .machine, xaddr := BitVec.ofNat 64 (x.pa + 56) }
                  (s.logErr 4 2 (s.nameOf s.cur) (BitVec.ofNat 64 (x.pa + 56)))
              else if 7 ≤ objType e || objReserved s.host.modid e then trapObject i s
              else if !isSystem s.cur && ((4 ≤ objType e && objType e ≤ 6) || (4 ≤ objType old && objType old ≤ 6)) then
                trapAddr .rights 0 (BitVec.ofNat 64 at_) s
              else if isSystem s.cur && s.objRefused region i e then trapObject i s
              else done (.objset a b) ((s.putObj x.pa x.key e).objRegister region i e)) s

end Sys2Proof.Machine
end

