-- ==== Sys2Proof/Machine/Vector.lean ====
section
/-! DEFINITION. Vector instructions (chapter 13, R159 to R183): claims and negotiation, the sequencer with its repeat frame,
memory elements, and the steps of majors 0x28 to 0x34. The issue of an instruction captures its operands in a sequencer entry;
its effect happens in the steps of VECTOR_STEP. -/

namespace Sys2Proof.Machine

/-! ## Claims (R159, R160, R167, R168) -/

/-- Holders of the lane groups of a tile with a group given to a core in tile. -/
def giveGroup (gs : List (Option Nat)) (g j : Nat) : List (Option Nat) := setAt gs g (some j)

/-- The lanes that a core in tile holds. -/
def lanesHeld (gs : List (Option Nat)) (j : Nat) : Nat := 8 * (gs.filter (· == some j)).length

/-- The reserve groups that a core in tile may borrow, taken in ascending core index (R160); `free` says which cores have no
owner. -/
def borrow (j q : Nat) (free : Nat → Bool) : List Nat → List (Option Nat) → List (Option Nat)
  | [], gs => gs
  | k :: r, gs =>
    borrow j q free r (if k != j && lanesHeld gs j < q && free k && gs.getD (4 + k) none == none then giveGroup gs (4 + k) j else gs)

/-- negotiate of R160 for a core, with the requested lanes rounded up to a multiple of 8. -/
def State.negotiate (s : State) (core req : Nat) : State :=
  let j := coreInTile core
  let q := (req + 7) / 8 * 8
  let t := tileOf core
  let gs := ((s.dropGroups core).tile t).groups
  let gs := giveGroup gs j j
  let gs := if 16 ≤ q && gs.getD (4 + j) none == none then giveGroup gs (4 + j) j else gs
  let gs := borrow j q (fun k => (s.core (coreOfTile t k)).vowner.isNone) (range' 0 4) gs
  s.modTile t fun r => { r with groups := gs }

/-- A negotiation other than `VCLAIM`'s: `shr` records a fall of the grant, and `vl` is at most the grant (R161). -/
def State.renegotiate (s : State) (k before : Nat) : State :=
  let s := s.negotiate (coreOf k) (s.slot k).vreq
  let grant := s.grantOf (coreOf k)
  s.modSlot k fun sl => { sl with vl := Nat.min sl.vl grant, shr := sl.shr || decide (grant < before) }

/-- v0 to v31 of a core set to 0. -/
def State.clearLanes (s : State) (core : Nat) : State := { s with vregs := s.vregs.filter fun p => p.1 / 2048 != core }

/-- A claim of a number of lanes by the owner of a core's context (R160, R161, R167). -/
def State.claimLanes (s : State) (k q g : Nat) : State :=
  let s := s.negotiate (coreOf k) q
  let grant := s.grantOf (coreOf k)
  (s.modSlot k fun sl => { sl with vl := grant, vreq := q }).setGreg k g { val := BitVec.ofNat 64 grant }

/-- VCLAIM (R167). -/
def execVclaim (q g : Nat) (s : State) : Out :=
  issueWith (.vclaim q g) none none none (fun s =>
    let core := s.myCore
    let claim (s : State) : Out := done (.vclaim q g) (s.claimLanes s.cur q g)
    match (s.core core).vowner with
    | none =>
      let other := match (s.core core).vlast with | some r => r != s.me.region | none => false
      let s := if other then s.clearLanes core else s
      claim (s.modCore core fun c => { c with vowner := some s.cur })
    | some k =>
      if k != s.cur then done (.vclaim q g) (s.setG g 0)
      else if !s.vecQuiet k then waitFor (.claimQuiet q g) s
      else claim s) s

/-- The check of ownership at the issue of every vector instruction but `VCLAIM` (R159). -/
def owned (i : Instr) (body : State → Out) (s : State) : Out :=
  issueWith i none none none (fun s =>
    if (s.core s.myCore).vowner != some s.cur then trapNow .vown s else body s) s

/-- VWAIT (R168). -/
def execVwait (s : State) : Out :=
  owned .vwait (fun s =>
    if !s.vecQuiet s.cur then parkFor .vecQuiet s
    else done .vwait (s.renegotiate s.cur (s.grantOf s.myCore))) s

/-- VFREE (R168). [DEDUCED, log 80] -/
def execVfree (s : State) : Out :=
  owned .vfree (fun s =>
    if !s.vecQuiet s.cur then parkFor .vecQuiet s
    else done .vfree ((s.freeVector s.myCore).modMe fun sl => { sl with vl := 0, shr := false })) s

/-- REPF (R169): `l` is the encoded length − 1. -/
def execRepf (st l g : Nat) (s : State) : Out :=
  owned (.repf st l g) (fun s =>
    let c := s.core s.myCore
    if c.seq != [] || c.frame.isSome then parkFor .seqIdle s
    else
      let f : Frame := { slot := s.cur, pc := s.me.pc, len := l + 1, stagger := st, count := (s.g g).toNat % 2 ^ 32 }
      done (.repf st l g) (s.modCore s.myCore fun c => { c with frame := some f })) s

/-! ## The issue of a vector instruction (R163, R164) -/

/-- The mask of a g field at issue (R162). -/
def State.maskOf (s : State) (g : Nat) : Word := if g = 127 then BitVec.allOnes 64 else s.g g

/-- A vector instruction placed in the sequencer with its operands: `x` and `y` are what it reads of general registers, `dst` a
general register it writes later, `after` what it does at issue. -/
def capture (i : Instr) (g : Nat) (dst : Option Nat) (x y : State → Word) (after : State → State) (s : State) : Out :=
  owned i (fun s =>
    let c := s.core s.myCore
    if !s.capturing && (c.frame.isSome || 16 ≤ c.seq.length) then parkFor .seqRoom s
    else
      let (id, s) := s.fresh
      let e : SeqEnt := { id := id, ins := i, slot := s.cur, pc := s.me.pc, mask := s.maskOf g, vl := s.me.vl, rm := s.me.fprm.toNat,
                          x := x s, y := y s }
      let s := after s
      let s := s.modCore s.myCore fun c => { c with
        seq := c.seq ++ [e], frame := c.frame.map fun f => { f with captured := f.captured + 1 } }
      let s := match dst with
        | some d => s.setGreg s.cur d { s.greg s.cur d with pend := true }
        | none => s
      done i (s.later (.vectorStep s.myCore))) s

/-- A vector instruction that reads no general register but its mask. -/
def captureV (i : Instr) (g : Nat) (s : State) : Out := capture i g none (fun _ => 0) (fun _ => 0) id s

/-- A vector instruction that writes a general register later (R164). -/
def captureG (i : Instr) (g d : Nat) (s : State) : Out := capture i g (some d) (fun _ => 0) (fun _ => 0) id s

/-- Bytes of an element of a width code of majors 0x29 and 0x2A (R170). -/
def vecBytes (w : Nat) : Nat := if w = 0 then 4 else if w = 1 then 2 else 1

/-- The advance of a post-increment base at issue: N × vl × s (R169, R170). -/
def advanceBase (a w : Nat) (s : State) : State :=
  let step := s.me.vl * vecBytes w
  let n := if s.capturing then ((s.core s.myCore).frame.map Frame.count).getD 1 else 1
  let old := s.greg s.cur a
  let s := s.modCore s.myCore fun c => { c with frame := c.frame.map fun f => { f with bases := (a, old) :: f.bases } }
  s.setG a (old.val + BitVec.ofNat 64 (n * step))

def execVld (d a g w : Nat) (s : State) : Out := capture (.vld d a g w) g none (State.g · a) (fun _ => 0) id s
def execVlds (d a b g w : Nat) (s : State) : Out := capture (.vlds d a b g w) g none (State.g · a) (State.g · b) id s
def execVldx (d a b g w : Nat) (s : State) : Out := capture (.vldx d a b g w) g none (State.g · a) (fun _ => 0) id s
def execVldPostinc (d a g w : Nat) (s : State) : Out :=
  capture (.vldPostinc d a g w) g none (State.g · a) (fun _ => 0) (advanceBase a w) s
def execVst (d a g w : Nat) (s : State) : Out := capture (.vst d a g w) g none (State.g · a) (fun _ => 0) id s
def execVsts (d a b g w : Nat) (s : State) : Out := capture (.vsts d a b g w) g none (State.g · a) (State.g · b) id s
def execVstx (d a b g w : Nat) (s : State) : Out := capture (.vstx d a b g w) g none (State.g · a) (fun _ => 0) id s
def execVstPostinc (d a g w : Nat) (s : State) : Out :=
  capture (.vstPostinc d a g w) g none (State.g · a) (fun _ => 0) (advanceBase a w) s
def execVbcast (d b g : Nat) (s : State) : Out := capture (.vbcast d b g) g none (State.g · b) (fun _ => 0) id s
def execVmovg (d a l : Nat) (s : State) : Out := captureG (.vmovg d a l) 127 d s
def execVmovl (d b l : Nat) (s : State) : Out := capture (.vmovl d b l) 127 none (State.g · b) (fun _ => 0) id s
def execViota (d g : Nat) (s : State) : Out := captureV (.viota d g) g s
def execVfadd (d a b g : Nat) (s : State) : Out := captureV (.vfadd d a b g) g s
def execVfsub (d a b g : Nat) (s : State) : Out := captureV (.vfsub d a b g) g s
def execVfmul (d a b g : Nat) (s : State) : Out := captureV (.vfmul d a b g) g s
def execVfma (d a b g : Nat) (s : State) : Out := captureV (.vfma d a b g) g s
def execVfnma (d a b g : Nat) (s : State) : Out := captureV (.vfnma d a b g) g s
def execVfmin (d a b g : Nat) (s : State) : Out := captureV (.vfmin d a b g) g s
def execVfmax (d a b g : Nat) (s : State) : Out := captureV (.vfmax d a b g) g s
def execVfabs (d a g : Nat) (s : State) : Out := captureV (.vfabs d a g) g s
def execVfneg (d a g : Nat) (s : State) : Out := captureV (.vfneg d a g) g s
def execVfcmp (d a b g c : Nat) (s : State) : Out := captureG (.vfcmp d a b g c) g d s
def execVadd (d a b g : Nat) (s : State) : Out := captureV (.vadd d a b g) g s
def execVsub (d a b g : Nat) (s : State) : Out := captureV (.vsub d a b g) g s
def execVmul (d a b g : Nat) (s : State) : Out := captureV (.vmul d a b g) g s
def execVmulh (d a b g : Nat) (s : State) : Out := captureV (.vmulh d a b g) g s
def execVmulhn (d a b g : Nat) (s : State) : Out := captureV (.vmulhn d a b g) g s
def execVand (d a b g : Nat) (s : State) : Out := captureV (.vand d a b g) g s
def execVor (d a b g : Nat) (s : State) : Out := captureV (.vor d a b g) g s
def execVxor (d a b g : Nat) (s : State) : Out := captureV (.vxor d a b g) g s
def execVandn (d a b g : Nat) (s : State) : Out := captureV (.vandn d a b g) g s
def execVshl (d a b g : Nat) (s : State) : Out := captureV (.vshl d a b g) g s
def execVshr (d a b g : Nat) (s : State) : Out := captureV (.vshr d a b g) g s
def execVsar (d a b g : Nat) (s : State) : Out := captureV (.vsar d a b g) g s
def execVrol (d a b g : Nat) (s : State) : Out := captureV (.vrol d a b g) g s
def execVmin (d a b g : Nat) (s : State) : Out := captureV (.vmin d a b g) g s
def execVmax (d a b g : Nat) (s : State) : Out := captureV (.vmax d a b g) g s
def execVminn (d a b g : Nat) (s : State) : Out := captureV (.vminn d a b g) g s
def execVmaxn (d a b g : Nat) (s : State) : Out := captureV (.vmaxn d a b g) g s
def execVsel (d a b g : Nat) (s : State) : Out := captureV (.vsel d a b g) g s
def execVpadd (d a b g w : Nat) (s : State) : Out := captureV (.vpadd d a b g w) g s
def execVpshl (d a b g w : Nat) (s : State) : Out := captureV (.vpshl d a b g w) g s
def execVpshr (d a b g w : Nat) (s : State) : Out := captureV (.vpshr d a b g w) g s
def execVcmp (d a b g c : Nat) (s : State) : Out := captureG (.vcmp d a b g c) g d s
def execVcvt (d a x t g r st : Nat) (s : State) : Out := captureV (.vcvt d a x t g r st) g s
def execVexp2 (d a g : Nat) (s : State) : Out := captureV (.vexp2 d a g) g s
def execVlog2 (d a g : Nat) (s : State) : Out := captureV (.vlog2 d a g) g s
def execVrcp (d a g : Nat) (s : State) : Out := captureV (.vrcp d a g) g s
def execVrsq (d a g : Nat) (s : State) : Out := captureV (.vrsq d a g) g s
def execVsqrt (d a g : Nat) (s : State) : Out := captureV (.vsqrt d a g) g s
def execVtanh (d a g : Nat) (s : State) : Out := captureV (.vtanh d a g) g s
def execVredaddF32 (d a g : Nat) (s : State) : Out := captureG (.vredaddF32 d a g) g d s
def execVredaddS32 (d a g : Nat) (s : State) : Out := captureG (.vredaddS32 d a g) g d s
def execVredminF32 (d a g : Nat) (s : State) : Out := captureG (.vredminF32 d a g) g d s
def execVredminS32 (d a g : Nat) (s : State) : Out := captureG (.vredminS32 d a g) g d s
def execVredminN32 (d a g : Nat) (s : State) : Out := captureG (.vredminN32 d a g) g d s
def execVredmaxF32 (d a g : Nat) (s : State) : Out := captureG (.vredmaxF32 d a g) g d s
def execVredmaxS32 (d a g : Nat) (s : State) : Out := captureG (.vredmaxS32 d a g) g d s
def execVredmaxN32 (d a g : Nat) (s : State) : Out := captureG (.vredmaxN32 d a g) g d s
def execVperm (d a b g : Nat) (s : State) : Out := captureV (.vperm d a b g) g s
def execVslide (d a b g : Nat) (s : State) : Out := capture (.vslide d a b g) g none (State.g · b) (fun _ => 0) id s
def execVcompress (d a g : Nat) (s : State) : Out := captureV (.vcompress d a g) g s
def execVexpand (d a g : Nat) (s : State) : Out := captureV (.vexpand d a g) g s

/-! ## Steps that touch no memory (R171 to R181) -/

/-- The active lanes of a mask below a limit (R162). -/
def activeLanes (m : Word) (n : Nat) : List Nat := (range' 0 64).filter fun i => i < n && m.getLsbD i

/-- Lanes of a vector register written with the results of a function that reads the lanes before the step. -/
def State.setLanes (s : State) (core d : Nat) (f : Nat → Nat) (l : List Nat) : State :=
  l.foldl (fun t i => t.setLane core d i (BitVec.ofNat 32 (f i))) s

/-- Lanes written with results that set sticky flags of the owner's `FPSTAT` (R166). -/
def State.setLanesF (s : State) (core k d : Nat) (f : Nat → Nat × FFlags) (l : List Nat) : State :=
  let rs := l.map fun i => (i, f i)
  let fl := rs.foldl (fun m r => m ||| r.2.2) 0
  (rs.foldl (fun t r => t.setLane core d r.1 (BitVec.ofNat 32 r.2.1)) s).modSlot k fun sl => { sl with fpflags := sl.fpflags ||| fl }

/-- The general-register write of a step, on its way (R164). -/
def State.pendWrite (s : State) (core k d : Nat) (v : Word) (fl : FFlags := 0) : State :=
  let s := s.modCore core fun c => { c with vpend := c.vpend ++ [{ slot := k, reg := d, val := v }] }
  (s.modSlot k fun sl => { sl with fpflags := sl.fpflags ||| fl }).later (.vectorPendingWrite core)

/-- A mask word with the bits of some lanes. -/
def bitsOf (l : List Nat) : Word := BitVec.ofNat 64 ((l.map fun i => 2 ^ i).foldl (· + ·) 0)

/-- A condition of `VFCMP` on two `.f32` patterns, with NV (R173). -/
def fcompare (c a b : Nat) : Bool × FFlags :=
  let x := unpack f32 a
  let y := unpack f32 b
  if x.isNan || y.isNan then (c == 1 || c == 6, nvIf ((2 ≤ c && c ≤ 5) || x.snan || y.snan))
  else
    let same := match x, y with
      | .fin _ 0 _, .fin _ 0 _ => true
      | _, _ => a == b
    let lt := !same && leVal x y
    (match c with
      | 0 => same | 1 => !same | 2 => lt | 3 => same || lt | 4 => !same && !lt | 5 => !lt | 6 => false | _ => true, 0)

/-- The format that a type code of `VCVT` names, if it is a floating format (R69). -/
def cvtFormat (t : Nat) : Option (Fmt × Nat) :=
  match t with
  | 0 => some (bf16, 16) | 1 => some (f16, 16) | 2 => some (e4m3, 8) | 3 => some (e5m2, 8) | 4 => some (e2m1, 4) | _ => none

/-- Width and sign of an integer type code of `VCVT` (R69). -/
def cvtInt (t : Nat) : Nat × Bool :=
  match t with
  | 5 => (32, true) | 6 => (32, false) | 7 => (16, true) | 8 => (16, false) | 9 => (8, true) | _ => (8, false)

/-- The rounding of a `VCVT` lane: dynamic, named, or stochastic with the draw of its element index (R69, R88, R89). -/
def cvtRm (code rm : Nat) (seed : Word) (index : Nat) : Rm :=
  match code with
  | 0 => { mode := rm }
  | 5 => { mode := 4, r := srBits seed index }
  | c => { mode := c - 1 }

/-- A `VCVT` of one lane: into `.f32` where `up` is 1, else out of it (R178). -/
def convert (up t : Nat) (rm : Rm) (sat : Bool) (v : Nat) : Nat × FFlags :=
  match cvtFormat t with
  | some (F, w) => if up = 1 then toFormat f32 rm false (unpack F (v % 2 ^ w)) else toFormat F rm sat (unpack f32 v)
  | none =>
    let (w, signed) := cvtInt t
    if up = 1 then
      let n : Int := if signed then sextInt (v % 2 ^ w) w else ((v % 2 ^ w : Nat) : Int)
      toFormat f32 rm false (ofInt n)
    else
      let (r, fl) := toIntType signed w rm (unpack f32 v)
      (if signed then (sextInt r w % 2 ^ 32).toNat else r, fl)

/-- `VFABS` and `VFNEG` of one lane: a NaN gives the canonical NaN (R87, R172). -/
def fsign (f : Nat → Nat) (v : Nat) : Nat × FFlags :=
  let x := unpack f32 v
  if x.isNan then (f32.nan, nvIf x.snan) else (f v, 0)

/-- The extreme of `.f32` lanes (R180). -/
def fextreme (wantMax : Bool) (l : List Nat) : Nat × FFlags :=
  let fl := nvIf (l.any fun v => (unpack f32 v).snan)
  match l.filter fun v => !(unpack f32 v).isNan with
  | [] => (if l = [] then f32.inf wantMax else f32.nan, fl)
  | v :: r => (r.foldl (fun a b => (fminmax f32 wantMax a b).1) v, fl)

/-- A 32-bit result as a word, sign-extended (R180). -/
def sextWord (v : Nat) : Word := sext v 32

/-- A step of an instruction that touches no memory: `r` gives the register that a vector field names in this iteration, `n` is the
limit, and `j` the iteration. -/
def State.calcStep (s : State) (core : Nat) (e : SeqEnt) (r : Nat → Nat) (n j : Nat) : State :=
  let k := e.slot
  let act := activeLanes e.mask n
  let v (a i : Nat) : Nat := (s.lane core (r a) i).toNat
  let rm : Rm := { mode := e.rm }
  let int2 (d a b : Nat) (f : Nat → Nat → Nat) : State := s.setLanes core (r d) (fun i => f (v a i) (v b i)) act
  let flt1 (d a : Nat) (f : Nat → Nat × FFlags) : State := s.setLanesF core k (r d) (fun i => f (v a i)) act
  let flt2 (d a b : Nat) (f : Nat → Nat → Nat × FFlags) : State := s.setLanesF core k (r d) (fun i => f (v a i) (v b i)) act
  let write (d : Nat) (w : Word) (fl : FFlags := 0) : State := s.pendWrite core k d w fl
  let chosen := (range' 0 64).filter fun i => i < n && e.mask.getLsbD i
  match e.ins with
  | .vbcast d _ _ => s.setLanes core (r d) (fun _ => e.x.toNat % 2 ^ 32) act
  | .vmovg d a l => write d (BitVec.ofNat 64 (v a l))
  | .vmovl d _ l => s.setLane core (r d) l (BitVec.ofNat 32 e.x.toNat)
  | .viota d _ => s.setLanes core (r d) (fun i => (act.filter (· < i)).length) act
  | .vfadd d a b _ => flt2 d a b (fadd f32 rm)
  | .vfsub d a b _ => flt2 d a b (fsub f32 rm)
  | .vfmul d a b _ => flt2 d a b (fmul f32 rm)
  | .vfma d a b _ => s.setLanesF core k (r d) (fun i => ffma f32 rm false (v a i) (v b i) (v d i)) act
  | .vfnma d a b _ => s.setLanesF core k (r d) (fun i => ffma f32 rm true (v a i) (v b i) (v d i)) act
  | .vfmin d a b _ => flt2 d a b (fminmax f32 false)
  | .vfmax d a b _ => flt2 d a b (fminmax f32 true)
  | .vfabs d a _ => flt1 d a (fsign fun x => x % 2 ^ 31)
  | .vfneg d a _ => flt1 d a (fsign fun x => (x + 2 ^ 31) % 2 ^ 32)
  | .vfcmp d a b _ c =>
    write d (bitsOf (act.filter fun i => (fcompare c (v a i) (v b i)).1))
      ((act.map fun i => (fcompare c (v a i) (v b i)).2).foldl (· ||| ·) 0)
  | .vadd d a b _ => int2 d a b (fun x y => (x + y) % 2 ^ 32)
  | .vsub d a b _ => int2 d a b (fun x y => (x + 2 ^ 32 - y) % 2 ^ 32)
  | .vmul d a b _ => int2 d a b (fun x y => x * y % 2 ^ 32)
  | .vmulh d a b _ => int2 d a b (fun x y => (sextInt x 32 * sextInt y 32 / 2 ^ 32 % 2 ^ 32).toNat)
  | .vmulhn d a b _ => int2 d a b (fun x y => x * y / 2 ^ 32)
  | .vand d a b _ => int2 d a b Nat.land
  | .vor d a b _ => int2 d a b Nat.lor
  | .vxor d a b _ => int2 d a b Nat.xor
  | .vandn d a b _ => int2 d a b (fun x y => Nat.land x (2 ^ 32 - 1 - y))
  | .vshl d a b _ => int2 d a b (fun x y => shl 32 x (y % 256))
  | .vshr d a b _ => int2 d a b (fun x y => shr 32 x (y % 256))
  | .vsar d a b _ => int2 d a b (fun x y => sar 32 x (y % 256))
  | .vrol d a b _ => int2 d a b (fun x y => rol 32 x (y % 256))
  | .vmin d a b _ => int2 d a b (smin 32)
  | .vmax d a b _ => int2 d a b (smax 32)
  | .vminn d a b _ => int2 d a b umin
  | .vmaxn d a b _ => int2 d a b umax
  | .vsel d a b _ => s.setLanes core (r d) (fun i => if e.mask.getLsbD i then v a i else v b i) (range' 0 n)
  | .vpadd d a b _ w =>
    let bw := packedWidth w
    int2 d a b (fun x y => packed bw (fun p q => p + q) x y (32 / bw))
  | .vpshl d a b _ w =>
    let bw := packedWidth w
    int2 d a b (fun x y => packed bw (fun p _ => shl bw p (y % 256)) x y (32 / bw))
  | .vpshr d a b _ w =>
    let bw := packedWidth w
    int2 d a b (fun x y => packed bw (fun p _ => shr bw p (y % 256)) x y (32 / bw))
  | .vcmp d a b _ c => write d (bitsOf (act.filter fun i => packedTest c 32 (v a i) (v b i)))
  | .vcvt d a x t _ c st =>
    s.setLanesF core k (r d) (fun i => convert x t (cvtRm c e.rm (s.slot k).rndseed (i + 64 * j)) (st == 1) (v a i)) act
  | .vexp2 d a _ => flt1 d a (fexp2 rm)
  | .vlog2 d a _ => flt1 d a (flog2 rm)
  | .vrcp d a _ => flt1 d a (frcp rm)
  | .vrsq d a _ => flt1 d a (frsq rm)
  | .vsqrt d a _ => flt1 d a (fsqrt rm)
  | .vtanh d a _ => flt1 d a (ftanh rm)
  | .vredaddF32 d a _ =>
    let (w, fl) := treeSum rm 7 (act.map (v a))
    write d (BitVec.ofNat 64 w) fl
  | .vredaddS32 d a _ => write d (sextWord (((act.map (v a)).foldl (· + ·) 0) % 2 ^ 32))
  | .vredminF32 d a _ => let (w, fl) := fextreme false (act.map (v a)); write d (BitVec.ofNat 64 w) fl
  | .vredmaxF32 d a _ => let (w, fl) := fextreme true (act.map (v a)); write d (BitVec.ofNat 64 w) fl
  | .vredminS32 d a _ => write d (sextWord ((act.map (v a)).foldl (smin 32) 0x7FFFFFFF))
  | .vredmaxS32 d a _ => write d (sextWord ((act.map (v a)).foldl (smax 32) 0x80000000))
  | .vredminN32 d a _ => write d (BitVec.ofNat 64 ((act.map (v a)).foldl umin 0xFFFFFFFF))
  | .vredmaxN32 d a _ => write d (BitVec.ofNat 64 ((act.map (v a)).foldl umax 0))
  | .vperm d a b _ => s.setLanes core (r d) (fun i => v a (v b i % 64)) act
  | .vslide d a _ _ =>
    let by_ : Int := e.x.toInt
    s.setLanes core (r d) (fun i => if 0 ≤ (i : Int) + by_ ∧ (i : Int) + by_ < n then v a ((i : Int) + by_).toNat else 0) act
  | .vcompress d a _ => s.setLanes core (r d) (fun i => v a (chosen.getD i 0)) (range' 0 chosen.length)
  | .vexpand d a _ => s.setLanes core (r d) (fun i => v a (chosen.filter (· < i)).length) chosen
  | _ => s

/-! ## Memory elements (R165, R166, R170) -/

/-- A load or a store of majors 0x29 and 0x2A: whether it stores, its form, vd, vb and its width code. -/
structure VMem where
  store : Bool
  form : Nat
  d : Nat
  b : Nat := 0
  w : Nat

/-- The memory form of an instruction. -/
def vmemOf : Instr → Option VMem
  | .vld d _ _ w => some { store := false, form := 0, d := d, w := w }
  | .vlds d _ _ _ w => some { store := false, form := 1, d := d, w := w }
  | .vldx d _ b _ w => some { store := false, form := 2, d := d, b := b, w := w }
  | .vldPostinc d _ _ w => some { store := false, form := 3, d := d, w := w }
  | .vst d _ _ w => some { store := true, form := 0, d := d, w := w }
  | .vsts d _ _ _ w => some { store := true, form := 1, d := d, w := w }
  | .vstx d _ b _ w => some { store := true, form := 2, d := d, b := b, w := w }
  | .vstPostinc d _ _ w => some { store := true, form := 3, d := d, w := w }
  | _ => none

/-- The register that a vector field names in an iteration (R169). -/
def stagger (fr : Option Frame) (j v : Nat) : Nat :=
  match fr with
  | some f => (v + j * f.stagger) % 32
  | none => v

/-- The address of element i in iteration j (R169, R170). -/
def State.elemAddr (s : State) (core : Nat) (fr : Option Frame) (e : SeqEnt) (m : VMem) (j i : Nat) : Word :=
  let b := vecBytes m.w
  match m.form with
  | 1 => e.x + BitVec.ofNat 64 i * e.y
  | 2 => e.x + sext (s.lane core (stagger fr j m.b) i).toNat 32 * BitVec.ofNat 64 b
  | 3 => e.x + BitVec.ofNat 64 (j * (e.vl * b) + i * b)
  | _ => e.x + BitVec.ofNat 64 (i * b)

/-- Vector registers that a memory entry reads, and the one it writes, in an iteration. -/
def vmemRegs (fr : Option Frame) (m : VMem) (j : Nat) : List Nat × Option Nat :=
  ((if m.form = 2 then [stagger fr j m.b] else []) ++ (if m.store then [stagger fr j m.d] else []),
   if m.store then none else some (stagger fr j m.d))

/-- Whether an element of a memory entry must wait for an element already sent: their registers meet (R163, R166). -/
def elemWaits (fr : Option Frame) (m o : VMem) (j i : Nat) : Bool :=
  let (rs, w) := vmemRegs fr m j
  let (ro, wo) := vmemRegs fr o i
  (match wo with | some x => rs.contains x || w == some x | none => false) ||
    (match w with | some x => ro.contains x | none => false)

/-- Changes one entry of a core's sequencer. -/
def State.modEnt (s : State) (core id : Nat) (f : SeqEnt → SeqEnt) : State :=
  s.modCore core fun c => { c with seq := c.seq.map fun e => if e.id = id then f e else e }

/-- Records the fault of an element: the lowest iteration, then lane, of an entry is kept (R166). -/
def SeqEnt.fail (e : SeqEnt) (v : VStop) : SeqEnt :=
  match e.stop with
  | some o => if v.iter < o.iter || (v.iter == o.iter && v.lane < o.lane) then { e with stop := some v } else e
  | none => { e with stop := some v }

/-- The owner of a sequencer that waits for it, directly or through a matrix operation (R206), is released from the wait
(R166). -/
def Slot.vectorWake (sl : Slot) : Slot :=
  match sl.waits with
  | .reissue .vecQuiet => sl.settle
  | .reissue .seqRoom => sl.settle
  | .reissue .seqIdle => sl.settle
  | .reissue (.landed _) => sl.settle
  | .reissue .mqRoom => sl.settle
  | .reissue .mqIdle => sl.settle
  | .acc => sl.settle
  | _ => sl

/-- The stopped entry that comes first in the order of the sequencer: by iteration, then by its place in the body (R166). -/
def firstStop : List SeqEnt → Option SeqEnt
  | [] => none
  | e :: r =>
    match e.stop, firstStop r with
    | none, f => f
    | some _, none => some e
    | some v, some f => if (f.stop.elim false fun w => w.iter < v.iter) then some f else some e

/-- After a step or an answer: with a stop recorded and nothing on its way, the trap goes to the owner (R166, R294); else entries
that are complete are freed in program order, a frame whose last iteration is complete ends, and the sequencer goes on. -/
def State.afterStep (s : State) (core : Nat) : State :=
  let c := s.core core
  let idle := c.seq.all fun e => e.pending == []
  match firstStop c.seq with
  | some e =>
    match e.stop with
    | none => s
    | some v =>
      if !idle || v.told then s
      else
        let f : EarlierFault := { cause := v.cause, xpc := e.pc, xaddr := v.addr, source := 5, level := v.level,
                                  xprog := BitVec.ofNat 64 (v.iter * 64 + v.lane), age := v.age }
        let s := if (s.slot e.slot).waits = .acc then s.modCore core fun c => { c with acc := none } else s
        (s.modEnt core e.id fun e => { e with stop := some { v with told := true } }).modSlot e.slot fun sl =>
          { sl.vectorWake with earlier := sl.earlier ++ [f] }
  | none =>
    match c.frame with
    | some f =>
      if f.captured < f.len then s
      else if f.count ≤ f.iter && idle then (s.modCore core fun c => { c with frame := none, seq := [] }).askMatrix core
      else s.later (.vectorStep core)
    | none =>
      let rest := c.seq.dropWhile fun e => e.sent && e.pending == []
      let s := s.modCore core fun c => { c with seq := rest }
      let s := if rest.length < c.seq.length then s.askMatrix core else s
      if rest.any fun e => !e.sent then s.later (.vectorStep core) else s

/-- The entry that steps next, its place and its iteration (R163, R169). -/
def CoreRec.nextStep (c : CoreRec) : Option (Nat × Nat × SeqEnt) :=
  match c.frame with
  | some f => if f.captured < f.len || f.count ≤ f.iter then none else (c.seq[f.ent]?).map fun e => (f.ent, f.iter, e)
  | none => match c.seq.findIdx? fun e => !e.sent with
    | some i => (c.seq[i]?).map fun e => (i, 0, e)
    | none => none

/-- A step of an entry is over: the entry is done in this iteration, and in a frame the next body entry, or iteration, follows. -/
def State.stepOver (s : State) (core id : Nat) : State :=
  let c := s.core core
  match c.frame with
  | some f =>
    let s := s.modEnt core id fun e => { e with lane := 0 }
    s.modCore core fun c => { c with frame := some (if f.ent + 1 < f.len then { f with ent := f.ent + 1 } else { f with ent := 0, iter := f.iter + 1 }) }
  | none => s.modEnt core id fun e => { e with lane := 0, sent := true }

/-- How the access of an element begins: with a fault at the source, a value or an acknowledgement at once, or sent. -/
inductive ElemEnd where
  | fault (c : Cause) (level : Nat) (addr : Word) (s : State)
  | val (v : Nat) (s : State)
  | sent (s : State)

/-- The site of an element: global, or in the core's own scratchpad; anything else faults RIGHTS at the source (R166). -/
def State.aimElem (s : State) (core k : Nat) (addr : Word) (need : Acc3) : Except (Cause × Nat) Site × State :=
  let a := addr.toNat
  if bits a 56 8 = 0 then
    match s.unitXlate (some core) (tileOf core) (s.slot k).region a need with
    | (.error e, s) => (.error e, s)
    | (.ok t, s) =>
      if need.stores && s.inObjTable t.pa then (.error (.rights, 0), s)
      else (.ok { place := t.pa, key := t.key, cached := t.cached, narrow := narrowHbm core t.pa }, s)
  else if s.scratchOwner addr = some core then (.ok { place := corePlace core (bits a 0 32), narrow := 1 }, s)
  else (.error (.rights, 0), s)

/-- The access of element i of iteration j (R165, R166, R234). -/
def State.elemAccess (s : State) (core : Nat) (e : SeqEnt) (m : VMem) (j i : Nat) (addr : Word) (data : Nat) : ElemEnd :=
  let k := e.slot
  let b := vecBytes m.w
  if addr.toNat % b != 0 then .fault .align 0 addr s
  else
    match s.aimElem core k addr (if m.store then .w else .r) with
    | (.error (c, l), s) => .fault c l addr s
    | (.ok t, s) =>
      let die := dieOf core
      let cached := t.cached && isHbm t.place
      let op : HomeOp := if m.store then .store b else if cached then .fill else .load b
      let q : Req := { id := 0, src := k, region := (s.slot k).region, op := op, addr := addr, place := t.place,
                       v1 := BitVec.ofNat 64 (if m.store then data % 2 ^ (8 * b) else b), source := 5, key := t.key,
                       dest := .lane core e.id j i, hops := bridgePath die (homeDie t.place die) }
      let line := t.place / 128
      let word := t.place % 128 / 8
      let s := match s.l1 core line with
        | some l => if cached && l.key != t.key then (s.writeBack core line).dropL1 core line else s
        | none => s
      let unreadable (s : State) : ElemEnd :=
        let w := BitVec.ofNat 64 (wordOf t.place)
        .fault .machine 0 w (s.logErr 4 5 (s.nameOf k) w)
      if s.isOwn core t then
        if s.work.isSome && s.early q then .val 0 { s with stalled := true }
        else match s.homeStep q with
        | (.answered (.ok v), s) => .val v.toNat s
        | (.answered (.err c), s) => .fault c 0 (errAddr q c) s
        | (_, s) => .val 0 s
      else
        let send (s : State) : ElemEnd :=
          let (id, s) := s.fresh
          .sent ((s.modEnt core e.id fun e => { e with pending := e.pending ++ [(j, i)] }).emit { q with id := id })
        let mine := if !cached then none
          else if !m.store then s.l1Hit core line
          else if s.writable core line then s.l1 core line else none
        match mine with
        | none => send s
        | some l =>
          if l.key != t.key then send s
          else if l.badWord word then unreadable s
          else if m.store then
            .val 0 ((s.setL1 core line (l.write (t.place % 128) b (data % 2 ^ (8 * b)))).noFills fun c n =>
              clusterOf c == clusterOf core && n == line)
          else .val (l.num (t.place % 128) b) s

/-- A step of a memory entry: the access of its next active lane, or the end of its elements (R162, R166). -/
def State.memStep (s : State) (core : Nat) (e : SeqEnt) (m : VMem) (j n : Nat) : State :=
  let fr := (s.core core).frame
  match (activeLanes e.mask n).find? (e.lane ≤ ·) with
  | none => (s.stepOver core e.id).afterStep core
  | some i =>
    let addr := s.elemAddr core fr e m j i
    match s.elemAccess core e m j i addr (s.lane core (stagger fr j m.d) i).toNat with
    | .fault c l a s =>
      (s.modEnt core e.id fun e => e.fail { iter := j, lane := i, cause := c, addr := a, level := l, age := s.tick }).afterStep core
    | .val v s =>
      let s := if m.store then s else s.setLane core (stagger fr j m.d) i (BitVec.ofNat 32 v)
      (s.modEnt core e.id fun e => { e with lane := i + 1 }).afterStep core
    | .sent s => (s.modEnt core e.id fun e => { e with lane := i + 1 }).afterStep core

/-- VECTOR_STEP (R163): the next step of the core's sequencer, or the next element of a memory step. A step that touches no memory
starts once every earlier element is answered. [DEDUCED, log 79; DEDUCED, log 81] -/
def execVectorStep (core : Nat) (s : State) : Out :=
  let c := s.core core
  match c.vowner with
  | none => .fault .notEnabled
  | some k =>
    if (s.slot k).frozen && !(s.slot k).claims then stillDue (.vectorStep core) s
    else if c.seq.any fun e => e.stop.isSome then .fault .notEnabled
    else
      match c.nextStep with
      | none => (match c.frame with
          | some f => if c.seq != [] && f.len ≤ f.captured && c.seq.all (·.pending == []) then .next (s.afterStep core) else .fault .notEnabled
          | none => .fault .notEnabled)
      | some (_, j, e) =>
        let n := Nat.min e.vl (s.grantOf core)
        match vmemOf e.ins with
        | none =>
          if c.seq.any fun o => o.pending != [] then .fault .notEnabled
          else
            let s := s.charge (coreWork core) (s.slot k).region (s.cost 14)
            .next (((s.calcStep core e (stagger c.frame j) n j).stepOver core e.id).afterStep core)
        | some m =>
          if c.seq.any fun o => (match vmemOf o.ins with
              | some p => o.pending.any fun x => elemWaits c.frame m p j x.1 && (o.id != e.id || x.1 != j || (vmemRegs c.frame m j).1.contains (stagger c.frame j m.d))
              | none => false) then .fault .notEnabled
          else .next (stalling (.vectorStep core) (fun s => (s.charge (coreWork core) (s.slot k).region (s.cost 14)).memStep core e m j n) s)

/-- VECTOR_PENDING_WRITE (R164): the earliest pending write lands and sets its register full. -/
def execVectorPendingWrite (core : Nat) (s : State) : Out :=
  match (s.core core).vpend with
  | [] => .fault .notEnabled
  | p :: r => .next (((s.modCore core fun c => { c with vpend := r }).setGreg p.slot p.reg { val := p.val }).askMatrix core)

/-- The value that an answer brings to the lane of a load: from a line, which the L1 then holds (R234). -/
def State.laneAnswer (s : State) (core : Nat) (r : Rep) : Option Nat × State :=
  match r.ans with
  | .ok v => (some v.toNat, s)
  | .line d fe bad poison =>
    let l : Line := { data := d, fe := fe, key := r.req.key, bad := bad, poison := poison, since := r.since }
    (some (l.num (r.req.place % 128) r.req.v1.toNat), if r.req.noFill then s else s.installL1 core (r.req.place / 128) l)
  | _ => (none, s)

/-- VECTOR_ELEMENT_REPLY (R166, R257): an element is answered. -/
def execVectorElementReply (id : Nat) (s : State) : Out :=
  match s.arrived id with
  | none => .fault .notEnabled
  | some r =>
    match r.req.dest with
    | .lane core ent j i =>
      if s.repWaits r then stillDue (.vectorElementReply id) s
      else
        let (v, s) := (s.takeRep r).laneAnswer core r
        let fr := (s.core core).frame
        let s := match (s.core core).seq.find? (·.id == ent), v with
          | some e, some v =>
            (match vmemOf e.ins with
              | some m => if m.store then s else s.setLane core (stagger fr j m.d) i (BitVec.ofNat 32 v)
              | none => s)
          | _, _ => s
        .next ((s.modEnt core ent fun e =>
          let e := { e with pending := e.pending.erase (j, i) }
          match r.ans with
          | .err c => e.fail { iter := j, lane := i, cause := c, addr := errAddr r.req c, age := s.tick }
          | _ => e).afterStep core)
    | _ => .fault .notEnabled

end Sys2Proof.Machine
end

