-- ==== Sys2Proof/Machine/Matrix.lean ====
section
/-! DEFINITION. Matrix instructions (chapter 15, R185 to R207): the claim, the checks at issue, the dispatch queue, the array of a
tile, chaining, and the accumulator accesses. -/

namespace Sys2Proof.Machine

/-! ## Input types and tensors (R71, R192) -/

/-- The dot width g of an input type (R95). -/
def dotWidth (ty : Nat) : Nat := [1, 1, 4, 4, 8, 4, 8].getD ty 1

/-- The object format that an input type needs (R192). -/
def typeFmt (ty : Nat) : Nat := [8, 9, 10, 11, 12, 1, 13].getD ty 0

/-- The floating format of an input type; none for `.s8` and `.s4`. -/
def typeFloat (ty : Nat) : Option Fmt := ([bf16, f16, e4m3, e5m2, e2m1])[ty]?

/-- Bits of an element of an object format (R72). -/
def fmtBits (f : Nat) : Nat := [8, 8, 16, 16, 32, 32, 64, 32, 16, 16, 8, 8, 4, 4, 64, 64].getD f 64

/-- The floating format of an object format. -/
def fmtFloat (f : Nat) : Option Fmt :=
  match f with
  | 7 => some f32 | 8 => some bf16 | 9 => some f16 | 10 => some e4m3 | 11 => some e5m2 | 12 => some e2m1 | 14 => some a40 | _ => none

/-- The format of a tensor object. -/
def tFmt (e : Nat) : Nat := bits e 484 4
/-- The rank of a tensor object. -/
def tRank (e : Nat) : Nat := bits e 481 3
/-- The extent of dimension k of a tensor object (R72). -/
def tExtent (e k : Nat) : Nat := bits e (64 * k + 64) 24
/-- The stride of dimension k of a tensor object, in elements (R72). -/
def tStride (e k : Nat) : Int := sextInt (bits e (64 * k + 88) 40) 40
/-- The fill value of a tensor object. -/
def tFill (e : Nat) : Nat := bits e 384 64
/-- The address of element 0. -/
def tBase (e : Nat) : Nat := bits e 0 64

/-- The element index of (row, col) in a rank-2 object (R192). -/
def elemIndex (e row col : Nat) : Int := (row : Int) * tStride e 1 + (col : Int) * tStride e 0

/-- Whether (row, col) is in extent (R192). -/
def inExtent (e row col : Nat) : Bool := row < tExtent e 1 && col < tExtent e 0

/-- The address of the first byte of an element index; for 4-bit formats, of the byte that holds the nibble (R192). -/
def elemByte (e : Nat) (i : Int) : Int := tBase e + i * fmtBits (tFmt e) / 8

/-- The bytes of elements from index lo to hi: the first address, and the address past the last. -/
def elemSpan (e : Nat) (lo hi : Int) : Int × Int :=
  (elemByte e lo, elemByte e hi + (if fmtBits (tFmt e) = 4 then 1 else fmtBits (tFmt e) / 8 : Nat))

/-- The bytes that a block of R rows and C columns touches, by the corners of its part in extent (R190); none if it has none. -/
def blockSpan (e row0 col0 R C : Nat) : Option (Int × Int) :=
  let r1 := Nat.min (row0 + R) (tExtent e 1)
  let c1 := Nat.min (col0 + C) (tExtent e 0)
  if r1 ≤ row0 || c1 ≤ col0 then none
  else
    let l := [elemIndex e row0 col0, elemIndex e (r1 - 1) col0, elemIndex e row0 (c1 - 1), elemIndex e (r1 - 1) (c1 - 1)]
    let lo := l.foldl (fun a b => if b < a then b else a) (elemIndex e row0 col0)
    let hi := l.foldl (fun a b => if a < b then b else a) (elemIndex e row0 col0)
    some (elemSpan e lo hi)

/-- Whether bytes from `lo` to before `hi` lie in the region's part of a core's scratchpad, named by its partitioned address
(R190). -/
def State.inPart (s : State) (core region : Nat) (lo hi : Int) : Bool :=
  match s.region? region with
  | none => false
  | some g =>
    let at_ : Nat := 2 ^ 56 + s.host.modid * 2 ^ 44 + core * 2 ^ 32 + 4096 * g.scrbase
    decide ((at_ : Int) ≤ lo) && decide (hi ≤ (at_ + g.scrbytes : Nat))

/-! ## The own scratchpad -/

/-- A number of `len` bytes of a core's scratchpad at an address. A word that cannot be read gives a free value: a matrix instruction
that has passed its issue does not fault (R190), and R307 gives no other outcome for it. [DESIGN CHOICE, log 112] -/
def State.padNum (s : State) (core : Nat) (addr : Int) (len : Nat) : Nat :=
  let p := corePlace core (addr.toNat % 2 ^ 32)
  if s.homeBad p then (Config.freeWord (s.tick + p)).toNat % 2 ^ (8 * len) else s.homeNum p len

/-- A plain local store of the unit to its core's scratchpad, on behalf of a slot (R132, R201). -/
def State.padStore (s : State) (k : Nat) (addr : Int) (len v : Nat) : State :=
  let q : Req := { id := 0, src := k, region := (s.slot k).region, op := .store len, addr := BitVec.ofNat 64 addr.toNat,
                   place := corePlace (coreOf k) (addr.toNat % 2 ^ 32), v1 := BitVec.ofNat 64 v, source := 3 }
  if s.work.isSome && s.early q then { s with stalled := true } else (s.homeStep q).2

/-- Element (row, col) of a tensor in a core's scratchpad, or the fill value (R192). -/
def State.tensorBits (s : State) (core e row col : Nat) : Nat :=
  let w := fmtBits (tFmt e)
  if inExtent e row col then
    let i := elemIndex e row col
    if w = 4 then s.padNum core (elemByte e i) 1 / 16 ^ (i % 2).toNat % 16 else s.padNum core (elemByte e i) (w / 8)
  else tFill e % 2 ^ w

/-- The unit reads a word of its core's scratchpad: a single-bit error in it is corrected and counted (R306), and one that cannot be read is
logged (R307). -/
def State.noteWord (s : State) (k : Nat) (addr : Int) : State :=
  let p := wordOf (corePlace (coreOf k) (addr.toNat % 2 ^ 32))
  let s := s.correct p
  if s.homeBad p then s.logErr 4 2 (s.nameOf k) (BitVec.ofInt 64 addr &&& ~~~7#64) else s

/-- The words of the elements of a tensor at some positions, as the unit reads them (R306, R307). -/
def State.noteElems (s : State) (k e : Nat) (l : List (Nat × Nat)) : State :=
  if s.soft = [] && s.dead = [] then s
  else
    (((l.filter fun p => inExtent e p.1 p.2).map fun p => elemByte e (elemIndex e p.1 p.2) / 8 * 8).eraseDups).foldl
      (fun t a => t.noteWord k a) s

/-- The words of some bytes, as the unit reads them. -/
def State.noteBytes (s : State) (k : Nat) (addr n : Nat) : State :=
  if s.soft = [] && s.dead = [] then s
  else (range' 0 ((addr % 8 + n + 7) / 8)).foldl (fun t i => t.noteWord k ((addr / 8 * 8 + 8 * i : Nat) : Int)) s

/-- Element (row, col) of a tensor written; a nibble leaves the other of its byte (R201). -/
def State.tensorSet (s : State) (k e row col v : Nat) : State :=
  let w := fmtBits (tFmt e)
  let i := elemIndex e row col
  if w = 4 then
    let old := s.padNum (coreOf k) (elemByte e i) 1
    s.padStore k (elemByte e i) 1 (if i % 2 = 0 then old / 16 * 16 + v % 16 else v % 16 * 16 + old % 16)
  else s.padStore k (elemByte e i) (w / 8) v

/-! ## The checks at issue (R190, R191) -/

def originOk (o : Nat) : Bool := bits o 56 8 == 0 && bits o 24 8 == 0
def originRow (o : Word) : Nat := bits o.toNat 0 24
def originCol (o : Word) : Nat := bits o.toNat 32 24

def shapeM (w : Word) : Nat := bits w.toNat 0 9
def shapeN (w : Word) : Nat := bits w.toNat 16 6
def shapeK (w : Word) : Nat := bits w.toNat 32 10
def shapeEast (w : Word) : Bool := bit w.toNat 63

/-- The shape word of an `MMA` or `MCHAIN` of an input type (R191). -/
def shapeOk (ty : Nat) (w : Word) : Bool :=
  let n := w.toNat
  bits n 42 21 == 0 && bits n 22 10 == 0 && bits n 9 7 == 0 && shapeM w ≤ 256 && shapeN w ≤ 32 &&
    shapeK w ≤ 32 * dotWidth ty && shapeK w % dotWidth ty == 0

/-- The accesses that take a control word. -/
inductive CtlKind where
  | mova | block | msel
deriving DecidableEq, Repr

def ctlM (w : Word) : Nat := bits w.toNat 0 9
def ctlN (w : Word) : Nat := bits w.toNat 16 6
def ctlRow (w : Word) : Nat := bits w.toNat 0 5
def ctlConv (w : Word) : Nat := bits w.toNat 24 4
def ctlTop (w : Word) : Nat := bits w.toNat 32 9

/-- The control word of an accumulator access (R191, R200). -/
def ctlOk (c : CtlKind) (w : Word) : Bool :=
  let n := w.toNat
  bits n 49 15 == 0 && bits n 41 7 == 0 && bits n 28 4 == 0 && bits n 22 2 == 0 && bits n 9 3 == 0 && bits n 12 3 < 5 && ctlN w ≤ 32 &&
    (match c with
     | .mova => !bit n 48 && ctlTop w == 0 && ctlConv w < 9 && ctlN w == 0 && bits n 5 4 == 0
     | .block => !bit n 48 && ctlTop w == 0 && ctlConv w == 0 && ctlM w ≤ 256
     | .msel => ctlConv w == 0 && ctlM w ≤ 256 && ctlTop w ≤ ctlM w)

/-- The arrays of the span of M rows from accumulator c, if the core has them all (R186, R191). -/
def State.spanOf (s : State) (core c M : Nat) : Option (List Nat) :=
  let n := (M + 31) / 32
  let own := s.ownedArrays core
  if n = 0 then some [] else if c + n ≤ own.length then some ((own.drop c).take n) else none

/-- The issue of a matrix instruction by the holder of its core's claim (R188). -/
def held (i : Instr) (body : State → Out) (s : State) : Out :=
  issueWith i none none none (fun s => if (s.core s.myCore).mclaim != some s.cur then trapNow .accown s else body s) s

/-- The tensor object of a matrix instruction: OBJECT unless it has rank 2 and one of some formats, and the operand words are
well formed (R190 step 3). -/
def withTensor (obj : Nat) (fmts : List Nat) (words : Bool) (body : Nat → State → Out) (s : State) : Out :=
  match s.objFor s.me.region obj 1 with
  | (.error t, s) => t.raise s
  | (.ok e, s) =>
    if tRank e != 2 || !fmts.contains (tFmt e) || !words then trapObject obj s else body e s

/-- ALIGN and RIGHTS of a tensor operand (R190 steps 4 and 5): the base's alignment, the matrix right with read or write, and the
block's place in the own scratchpad. -/
def withBlock (e row0 col0 R C right : Nat) (body : State → Out) (s : State) : Out :=
  let size := if fmtBits (tFmt e) = 4 then 1 else fmtBits (tFmt e) / 8
  let base := BitVec.ofNat 64 (tBase e)
  if tBase e % size != 0 then trapAddr .align 0 base s
  else if !bit e 501 || !bit e (496 + right) then trapAddr .rights 0 base s
  else
    match blockSpan e row0 col0 R C with
    | none => body s
    | some (lo, hi) => if s.inPart s.myCore s.me.region lo hi then body s else trapAddr .rights 0 (BitVec.ofInt 64 lo) s

/-- RIGHTS of bytes at an address in the own scratchpad (R190 step 5). -/
def withBytes (addr : Word) (n : Nat) (body : State → Out) (s : State) : Out :=
  if n = 0 || s.inPart s.myCore s.me.region addr.toNat (addr.toNat + n : Nat) then body s else trapAddr .rights 0 addr s

/-- A queued operation enters the dispatch queue, or its slot is matrix-busy until an entry frees (R193). -/
def enqueueOp (i : Instr) (kind : MatKind) (s : State) : Out :=
  let core := s.myCore
  if 2 ≤ (s.core core).mq.length then busyFor .mqRoom s
  else
    let (id, s) := s.fresh
    let o : MatOp := { kind := kind, slot := s.cur, mark := id }
    done i ((s.modCore core fun c => { c with mq := c.mq ++ [o] }).askMatrix core)

/-- The matrix state of a core cleared (R185). -/
def State.clearMatrix (s : State) (core : Nat) : State :=
  let s := s.zeroArrays (tileOf core) (s.ownedArrays core)
  ({ s with planes := del (del s.planes (2 * core)) (2 * core + 1) } : State).modCore core fun c => { c with
    stype := none, htype := none, scale := {}, mflags := 0, mq := [] }

/-! ## The instructions (R188 to R204) -/

/-- MCLAIM ga, #1 (R188). -/
def execMclaimClaim (a : Nat) (s : State) : Out :=
  issueWith (.mclaimClaim a) none none none (fun s =>
    let core := s.myCore
    match (s.core core).mclaim with
    | none =>
      let s := if (s.core core).mlast != some s.me.region then s.clearMatrix core else s
      done (.mclaimClaim a) ((s.modCore core fun c => { c with mclaim := some s.cur }).setG a 1)
    | some k => done (.mclaimClaim a) (s.setG a (if k = s.cur then 1 else 0))) s

/-- MCLAIM ga, #0 (R188). -/
def execMclaimRelease (a : Nat) (s : State) : Out :=
  issueWith (.mclaimRelease a) none none none (fun s =>
    let core := s.myCore
    if (s.core core).mclaim != some s.cur then done (.mclaimRelease a) (s.setG a 0)
    else if (s.core core).mq != [] then busyFor .mqIdle s
    else done (.mclaimRelease a) ((s.freeMatrix core).setG a 0)) s

/-- LDW (R195). [DEDUCED, log 83] -/
def execLdw (obj a ty : Nat) (s : State) : Out :=
  held (.ldw obj a ty) (fun s =>
    let o := s.g a
    withTensor obj [typeFmt ty] (originOk o.toNat) (fun e s =>
      withBlock e (originRow o) (originCol o) (32 * dotWidth ty) 32 0 (enqueueOp (.ldw obj a ty) (.ldw ty (BitVec.ofNat 512 e) o)) s) s) s

/-- SWPW (R195). -/
def execSwpw (s : State) : Out := held .swpw (enqueueOp .swpw .swpw) s

/-- MSCALE (R197). -/
def execMscale (a b ty : Nat) (s : State) : Out :=
  held (.mscale a b ty) (fun s =>
    let x := s.g a
    let y := s.g b
    if x = 0 then enqueueOp (.mscale a b ty) (.mscale ty 0 y) s
    else withBytes x 2048 (withBytes y 256 (enqueueOp (.mscale a b ty) (.mscale ty x y))) s) s

/-- Whether an east bit may stand: not in tile column 15, and with M and K nonzero (R198). -/
def eastOk (core : Nat) (w : Word) : Bool := !shapeEast w || (tileOf core % 16 != 15 && shapeM w != 0 && shapeK w != 0)

/-- MMA (R196). -/
def execMma (obj a b c ty : Nat) (z : Bool) (s : State) : Out :=
  held (.mma obj a b c ty z) (fun s =>
    let o := s.g a
    let w := s.g b
    match s.spanOf s.myCore c (shapeM w) with
    | none => trapNow .accown s
    | some arrays =>
      withTensor obj [typeFmt ty] (originOk o.toNat && shapeOk ty w && eastOk s.myCore w) (fun e s =>
        withBlock e (originRow o) (originCol o) (shapeM w) (shapeK w) 0
          (enqueueOp (.mma obj a b c ty z) (.mma ty z (BitVec.ofNat 512 e) o w (shapeEast w) arrays)) s) s) s

/-- MCHAIN (R198). [DEDUCED, log 82] -/
def execMchain (b c ty : Nat) (z : Bool) (s : State) : Out :=
  held (.mchain b c ty z) (fun s =>
    let w := s.g b
    match s.spanOf s.myCore c (shapeM w) with
    | none => trapNow .accown s
    | some arrays =>
      if !shapeOk ty w || !eastOk s.myCore w || shapeM w == 0 || shapeK w == 0 then trapObject 0 s
      else enqueueOp (.mchain b c ty z) (.mchain ty z w (shapeEast w) arrays) s) s

/-- What `MUNCHAIN` makes of an operation of the queue that has not started: gone, changed or as it was (R199). One that a pre-emption
has stopped part way and that has been re-queued counts as not started. [DESIGN CHOICE, log 115] -/
def unchain (o : MatOp) : Option MatOp × Nat :=
  if o.started then (some o, 0)
  else
    match o.kind with
    | .mchain _ _ _ _ _ => (none, 1)
    | .mma ty z e g w true l => (some { o with kind := .mma ty z e g w false l }, 1)
    | _ => (some o, 0)

/-- MUNCHAIN (R199). -/
def execMunchain (a : Nat) (s : State) : Out :=
  held (.munchain a) (fun s =>
    let core := s.myCore
    let r := (s.core core).mq.map unchain
    let n := (r.map (·.2)).foldl (· + ·) 0
    let s := s.modCore core fun c => { c with
      mq := r.filterMap (·.1), mflags := if n = 0 then c.mflags else c.mflags ||| 0x40 }
    done (.munchain a) ((s.setG a (BitVec.ofNat 64 n)).askMatrix core)) s

/-- An accumulator access: its slot is matrix-busy until it completes (R200). -/
def startAccess (kind : AccKind) (arrays : List Nat) (s : State) : Out :=
  let core := s.myCore
  let s := s.modCore core fun c => { c with acc := some { kind := kind, slot := s.cur, arrays := arrays } }
  .next ((s.modMe fun sl => { sl with st := .matrixBusy, wait := .acc }).askMatrix core)

/-- MOVA (R200). -/
def execMova (v b c : Nat) (s : State) : Out :=
  held (.mova v b c) (fun s =>
    let w := s.g b
    match s.spanOf s.myCore c 1 with
    | none => trapNow .accown s
    | some arrays =>
      if (s.core s.myCore).vowner != some s.cur then trapNow .vown s
      else if !ctlOk .mova w then trapObject 0 s
      else startAccess (.mova v w) arrays s) s

/-- MSTA (R201). -/
def execMsta (obj a b c : Nat) (s : State) : Out :=
  held (.msta obj a b c) (fun s =>
    let o := s.g a
    let w := s.g b
    match s.spanOf s.myCore c (ctlM w) with
    | none => trapNow .accown s
    | some arrays =>
      withTensor obj [14, 15, 7, 8, 9, 10, 11, 12, 5, 3, 1] (originOk o.toNat && ctlOk .block w) (fun e s =>
        withBlock e (originRow o) (originCol o) (ctlM w) (ctlN w) 1 (startAccess (.msta (BitVec.ofNat 512 e) o w) arrays) s) s) s

/-- MLDA (R201). -/
def execMlda (obj a b c : Nat) (s : State) : Out :=
  held (.mlda obj a b c) (fun s =>
    let o := s.g a
    let w := s.g b
    match s.spanOf s.myCore c (ctlM w) with
    | none => trapNow .accown s
    | some arrays =>
      withTensor obj [14, 15, 7, 5] (originOk o.toNat && ctlOk .block w) (fun e s =>
        withBlock e (originRow o) (originCol o) (ctlM w) (ctlN w) 0 (startAccess (.mlda (BitVec.ofNat 512 e) o w) arrays) s) s) s

/-- MZERO (R201). -/
def execMzero (c : Nat) (s : State) : Out :=
  held (.mzero c) (fun s =>
    match s.spanOf s.myCore c 1 with
    | none => trapNow .accown s
    | some arrays => startAccess .mzero arrays s) s

/-- Bytes that an `MSEL` writes (R202). -/
def mselBytes (w : Word) : Nat := 32 * ctlN w + 2 * ctlN w * ctlTop w

/-- MSEL (R202). -/
def execMsel (a b c : Nat) (s : State) : Out :=
  held (.msel a b c) (fun s =>
    let x := s.g a
    let w := s.g b
    match s.spanOf s.myCore c (ctlM w) with
    | none => trapNow .accown s
    | some arrays =>
      if !ctlOk .msel w then trapObject 0 s
      else if x.toNat % 8 != 0 then trapAddr .align 0 x s
      else withBytes x (mselBytes w) (startAccess (.msel x w) arrays) s) s

/-- MSTAT (R204). -/
def execMstat (a op : Nat) (s : State) : Out := held (.mstat a op) (startAccess (.mstat a (op == 1)) []) s

/-! ## Starting queued operations (R193, R194) -/

/-- Whether the slot of an operation is halted by a pre-emption or by its region (R207). -/
def State.matStopped (s : State) (o : MatOp) : Bool := (s.slot o.slot).frozen

/-- Whether every scalar and vector memory access that a slot issued before a number has been performed (R206): its posted stores, and
the elements of its sequencer. -/
def State.performedBefore (s : State) (k mark : Nat) : Bool :=
  ((s.reqs ++ s.heldReqs).all fun q => !(q.src == k && q.dest == .ack && q.id < mark)) &&
    (s.core (coreOf k)).seq.all fun e => e.slot != k || (vmemOf e.ins).isNone || mark ≤ e.id

/-- Whether an operation reads operands in the scratchpad: elements, weights or scale tables (R195 to R198). -/
def MatKind.reads : MatKind → Bool
  | .swpw => false
  | .mscale _ _ _ => false
  | _ => true

/-- Whether an operation may read its operands: the memory accesses that its slot issued before it have been performed (R206). -/
def State.matPast (s : State) (o : MatOp) : Bool := !o.kind.reads || s.performedBefore o.slot o.mark

/-- The rows, columns and depth of an `MMA` or `MCHAIN`. -/
def MatKind.shape : MatKind → Option Word
  | .mma _ _ _ _ w _ _ => some w
  | .mchain _ _ w _ _ => some w
  | _ => none

/-- The input type of an operation. -/
def MatKind.type : MatKind → Option Nat
  | .mma ty _ _ _ _ _ _ => some ty
  | .mchain ty _ _ _ _ => some ty
  | _ => none

/-- Whether an operation sets east. -/
def MatKind.isEast : MatKind → Bool
  | .mma _ _ _ _ _ e _ => e
  | .mchain _ _ _ e _ => e
  | _ => false

/-- Whether the stationary plane's type is neither none nor an operation's (R196). -/
def CoreRec.mismatch (c : CoreRec) (k : MatKind) : Bool :=
  match c.stype, k.type with
  | some a, some b => a != b
  | _, _ => false

/-- Whether an operation takes time on the array: M, N and K nonzero and no other type in the plane (R193, R196). -/
def CoreRec.needsArray (c : CoreRec) (k : MatKind) : Bool :=
  match k.shape with
  | some w => shapeM w != 0 && shapeN w != 0 && shapeK w != 0 && !c.mismatch k
  | none => false

/-- Whether the operation at a place of a core's queue may start without the array (R193). -/
def State.matStarts (s : State) (core i : Nat) : Bool :=
  let c := s.core core
  match c.mq[i]? with
  | none => false
  | some o =>
    let isLdw (p : MatOp) : Bool := match p.kind with | .ldw _ _ _ => true | _ => false
    !o.started && !s.matStopped o && s.matPast o &&
      (if isLdw o then (c.mq.take i).all fun p => p.started && !isLdw p else i == 0 && !c.needsArray o.kind)

/-- The operation at a place of a queue starts, with its duration in cycles (R193). -/
def State.startOp (s : State) (core i n : Nat) : State :=
  let due := s.cycle core + n
  (s.modCore core fun c => { c with mq := match c.mq[i]? with
    | some o => setAt c.mq i { o with started := true, due := due }
    | none => c.mq }).later (.matrixOpRetire core) (.cycle core due)

/-- MATRIX_OP_START (R193). -/
def execMatrixOpStart (core : Nat) (s : State) : Out :=
  match (range' 0 2).find? fun i => s.matStarts core i with
  | none => .fault .notEnabled
  | some i =>
    let n := match (s.core core).mq[i]? with
      | some o => (match o.kind with | .ldw _ _ _ => 64 | _ => 1)
      | none => 1
    .next ((s.startOp core i n).askMatrix core)

/-- Whether a stream is the one that an operation sends. -/
def Stream.isOf (c : Stream) (core : Nat) (o : MatOp) : Bool := !c.complete && c.sender == coreInTile core && c.op == o.mark

/-- Whether the buffer to the east is free for a head operation: empty, or it holds the operation's own stream, opened before a
pre-emption (R198, R207). -/
def State.eastFree (s : State) (core : Nat) (o : MatOp) : Bool :=
  !o.kind.isEast || (s.tile (tileOf core + 1)).chain.elim true fun c => c.isOf core o

/-- Whether an operation at the head of a core's queue is ready to start but for the array's selection (R194, R198). -/
def State.selectable (s : State) (core : Nat) : Bool :=
  let c := s.core core
  match c.mq with
  | [] => false
  | o :: _ =>
    let region := (s.slot o.slot).region
    !o.started && !s.matStopped o && s.matPast o && c.needsArray o.kind && s.eastFree core o &&
      (match o.kind with
       | .mchain ty _ w _ _ => (match (s.tile (tileOf core)).chain with
         | some t => t.complete && t.region == region && t.sender == coreInTile core && t.m == shapeM w && t.k == shapeK w && t.ty == ty
         | none => false)
       | _ => true)

/-- The scale record of a core where it applies to an input type (R197). -/
def CoreRec.scaleFor (c : CoreRec) (ty : Nat) : Option ScaleRec := if c.scale.enabled && c.scale.ty == ty then some c.scale else none

/-- The stream that an east operation opens in the buffer of the tile to the east (R198). -/
def State.openStream (s : State) (core : Nat) (o : MatOp) : State :=
  if !o.kind.isEast || o.rowsDone != 0 || (s.tile (tileOf core + 1)).chain.isSome then s
  else
    match o.kind with
    | .mma ty _ _ _ w _ _ =>
      let sc := (s.core core).scaleFor ty
      let c : Stream := { region := (s.slot o.slot).region, sender := coreInTile core, ty := ty, m := shapeM w, k := shapeK w, elems := [],
                          scales := sc.map fun _ => [], complete := false, op := o.mark }
      s.modTile (tileOf core + 1) fun t => { t with chain := some c }
    | .mchain _ _ _ _ _ =>
      let c := (s.tile (tileOf core)).chain.map fun c => { c with complete := false, op := o.mark }
      s.modTile (tileOf core + 1) fun t => { t with chain := c }
    | _ => s

/-- MATRIX_ARRAY_SELECT (R194): the free array takes the first selectable core after the one it last served. -/
def execMatrixArraySelect (tile : Nat) (s : State) : Out :=
  let t := s.tile tile
  if t.arrayBusy.isSome then .fault .notEnabled
  else
    match ((range' 1 4).map fun d => coreOfTile tile ((t.lastServed + d) % 4)).find? s.selectable with
    | none => .fault .notEnabled
    | some core =>
      match (s.core core).mq with
      | [] => .fault .notEnabled
      | o :: _ =>
        let M := (o.kind.shape.map shapeM).getD 0
        let s := s.openStream core o
        let s := s.modTile tile fun t => { t with arrayBusy := some core, lastServed := coreInTile core }
        let s := s.startOp core 0 (M - o.rowsDone + 64)
        .next (s.later (.matrixOpRetire core) (.cycle core (s.cycle core + 8)))

/-! ## The effects of queued operations (R195 to R198) -/

/-- The flags of `FPSTAT` at their places in the matrix status word (R205). -/
def matFlags (f : FFlags) : BitVec 13 :=
  (f &&& 0x7).setWidth 13 ||| (if f &&& flagNV = 0 then 0 else 8) ||| (if f &&& flagSA = 0 then 0 else 16)

/-- The flag IC of the status word: an integer clamped (R205). -/
def flagIC (b : Bool) : BitVec 13 := if b then 32 else 0

/-- The value of an element of an integer input type. -/
def intOf (ty v : Nat) : Int := if ty = 5 then sextInt (v % 256) 8 else sextInt (v % 16) 4

/-- cell_step of R95 for an input type: the lane, the products of a dot group, and the scale. -/
def cellStep (ty lane : Nat) (ps : List (Nat × Nat)) (scale : Option Int) : Nat × BitVec 13 :=
  match typeFloat ty with
  | some F =>
    let (w, fl) := cellFloat lane (ps.map fun p => (unpack F p.1, unpack F p.2)) scale
    (w, matFlags fl)
  | none =>
    let sum := (ps.map fun p => intOf ty p.1 * intOf ty p.2).foldl (· + ·) 0
    let (v, c) := cellInt (sextInt (lane % 2 ^ 40) 40) sum
    ((v % 2 ^ 40).toNat, flagIC c)

/-- The scale of a block of products from the A and W scale bytes (R197). -/
def scaleOf (sa sb : Nat) : Option Int := if sa = 255 || sb = 255 then none else some ((sa : Int) + sb - 254)

/-- A lane after the dot groups of a row: `a` and `b` give the elements by k, `scale` the scale by k (R196). -/
def laneRun (ty K lane : Nat) (a b : Nat → Nat) (scale : Nat → Option Int) : Nat × BitVec 13 :=
  let g := dotWidth ty
  (range' 0 (K / g)).foldl (fun (r : Nat × BitVec 13) q =>
    let (w, fl) := cellStep ty r.1 ((range' (q * g) g).map fun k => (a k, b k)) (scale (q * g))
    (w, r.2 ||| fl)) (lane, 0)

/-- One row of an `MMA` or `MCHAIN` with the A elements of the row and its A scale bytes, if the sender applied scales (R196 to
R198). The bytes of the W scale table are read anew for each row. [DEDUCED, log 84] -/
def State.matRow (s : State) (core ty : Nat) (z : Bool) (w : Word) (arrays : List Nat) (m : Nat) (a : List Nat)
    (sa : Option (List Nat)) : State :=
  let c := s.core core
  let t := tileOf core
  let plane := if c.stype = some ty then (find s.planes (2 * core)).getD [] else []
  let arr := arrays.getD (m / 32) 0
  let rows := (range' 0 (shapeN w)).map fun n =>
    let scale (k : Nat) : Option Int := match c.scaleFor ty with
      | none => some 0
      | some r => scaleOf ((sa.map fun l => l.getD (k / 32) 127).getD 127) (s.padNum core ((r.wtab.toNat + 8 * n + k / 32 : Nat) : Int) 1)
    (n, laneRun ty (shapeK w) (if z then 0 else (s.acc t arr (m % 32) n).toNat) (fun k => a.getD k 0) (fun k => plane.getD (32 * k + n) 0)
      scale)
  let s := rows.foldl (fun s r => s.setAcc t arr (m % 32) r.1 (BitVec.ofNat 40 r.2.1)) s
  s.modCore core fun c => { c with mflags := rows.foldl (fun f r => f ||| r.2.2) c.mflags }

/-- The A elements of a row of a started operation, and its A scale bytes. -/
def State.rowOf (s : State) (core : Nat) (o : MatOp) (m : Nat) : List Nat × Option (List Nat) :=
  match o.kind with
  | .mma ty _ e g w _ _ =>
    ((range' 0 (shapeK w)).map fun k => s.tensorBits core e.toNat (originRow g + m) (originCol g + k),
     ((s.core core).scaleFor ty).map fun r => (range' 0 8).map fun q => s.padNum core ((r.atab.toNat + 8 * m + q : Nat) : Int) 1)
  | _ =>
    match (s.tile (tileOf core)).chain with
    | some c => ((c.elems.drop (m * c.k)).take c.k, c.scales.map fun l => (l.drop (8 * m)).take 8)
    | none => ([], none)

/-- The words that a row of a started operation reads (R306, R307). -/
def State.noteRow (s : State) (core : Nat) (o : MatOp) (m : Nat) : State :=
  let tables (s : State) (ty : Nat) (w : Word) (a : Bool) : State := match (s.core core).scaleFor ty with
    | none => s
    | some r => (if a then s.noteBytes o.slot (r.atab.toNat + 8 * m) 8 else s).noteBytes o.slot r.wtab.toNat (8 * shapeN w)
  match o.kind with
  | .mma ty _ e g w _ _ => tables (s.noteElems o.slot e.toNat ((range' 0 (shapeK w)).map fun k => (originRow g + m, originCol g + k))) ty w true
  | .mchain ty _ w _ _ => tables s ty w false
  | _ => s

/-- Row m of a started operation on the array: its lanes, and its elements to the east where the operation offers them. -/
def State.oneRow (s : State) (core : Nat) (o : MatOp) (m : Nat) : State :=
  let s := s.noteRow core o m
  let (a, sa) := s.rowOf core o m
  match o.kind with
  | .mma ty z _ _ w east l =>
    let s := s.matRow core ty z w l m a sa
    if !east then s
    else
      let more (c : Stream) : Stream := { c with elems := c.elems ++ a, scales := c.scales.map fun x => x ++ sa.getD [] }
      s.modTile (tileOf core + 1) fun t => { t with chain := t.chain.map fun c => if c.isOf core o then more c else c }
  | .mchain ty z w _ l => s.matRow core ty z w l m a sa
  | _ => s

/-- The effect of an operation when it retires (R195 to R199). With M or N of 0 it does nothing, whatever the plane's type; with K of 0 and a
plane of another type it sets TM and zeroes nothing. [DESIGN CHOICE, log 114] -/
def State.retireEffect (s : State) (core : Nat) (o : MatOp) : State :=
  let c := s.core core
  match o.kind with
  | .ldw ty e g =>
    let s := s.noteElems o.slot e.toNat (((range' 0 (32 * dotWidth ty)).map fun k =>
      (range' 0 32).map fun n => (originRow g + k, originCol g + n)).flatten)
    let l := ((range' 0 (32 * dotWidth ty)).map fun k =>
      (range' 0 32).map fun n => s.tensorBits core e.toNat (originRow g + k) (originCol g + n)).flatten
    ({ s with planes := put s.planes (2 * core + 1) l } : State).modCore core fun c => { c with htype := some ty }
  | .swpw =>
    let a := (find s.planes (2 * core)).getD []
    let b := (find s.planes (2 * core + 1)).getD []
    ({ s with planes := put (put s.planes (2 * core) b) (2 * core + 1) a } : State).modCore core fun c => { c with
      stype := c.htype, htype := c.stype }
  | .mscale ty x y => s.modCore core fun c => { c with
      scale := if x = 0 then { c.scale with enabled := false } else { enabled := true, ty := ty, atab := x, wtab := y } }
  | k =>
    match k.shape with
    | none => s
    | some w =>
      if shapeM w = 0 || shapeN w = 0 then s
      else if c.mismatch k then s.modCore core fun c => { c with mflags := c.mflags ||| 0x1000 }
      else if shapeK w = 0 then
        match k with
        | .mma _ true _ _ _ _ l =>
          (range' 0 (shapeM w)).foldl (fun s m => (range' 0 (shapeN w)).foldl (fun s n =>
            s.setAcc (tileOf core) (l.getD (m / 32) 0) (m % 32) n 0) s) s
        | _ => s
      else
        let s := match k with
          | .mchain _ _ _ _ _ => s.modTile (tileOf core) fun t => { t with chain := none }
          | _ => s
        let s := if k.isEast then s.modTile (tileOf core + 1) fun t => { t with chain := t.chain.map fun c => if c.isOf core o then { c with complete := true } else c }
          else s
        s.modTile (tileOf core) fun t => { t with arrayBusy := none }

/-- The rows that a started operation works through on the array; none for the others. -/
def CoreRec.arrayRows (c : CoreRec) (o : MatOp) : Nat :=
  if c.needsArray o.kind then (o.kind.shape.map shapeM).getD 0 else 0

/-- MATRIX_OP_RETIRE (R193): a started operation of the core goes on. On the array, the rows are done in groups of 8 as they are
admitted (R207); an operation whose duration has passed and whose rows are done takes effect and its entry frees.
[DEDUCED, log 84; DEDUCED, log 85] -/
def execMatrixOpRetire (core : Nat) (s : State) : Out :=
  let c := s.core core
  let isPreempted (o : MatOp) : Bool := match (s.slot o.slot).wait with | .preempt _ => true | _ => false
  let rowsNow (o : MatOp) : Bool := o.rowsDone < c.arrayRows o &&
    o.due + Nat.min (o.rowsDone + 8) (c.arrayRows o) ≤ s.cycle core + 64 + c.arrayRows o
  let can (i : Nat) : Bool := match c.mq[i]? with
    | none => false
    | some o => o.started && !isPreempted o && (rowsNow o || (c.arrayRows o ≤ o.rowsDone && o.due ≤ s.cycle core))
  match (range' 0 2).find? can with
  | none => .fault .notEnabled
  | some i =>
    match c.mq[i]? with
    | none => .fault .notEnabled
    | some o =>
      if rowsNow o then
        let next := Nat.min (o.rowsDone + 8) (c.arrayRows o)
        let s := (range' o.rowsDone (next - o.rowsDone)).foldl (fun s m => s.oneRow core o m) s
        let s := s.modCore core fun c => { c with mq := setAt c.mq i { o with rowsDone := next } }
        .next (if next < c.arrayRows o then s.later (.matrixOpRetire core) (.cycle core (s.cycle core + 8)) else s.later (.matrixOpRetire core) (.cycle core o.due))
      else
        let s := s.retireEffect core o
        let region := (s.slot o.slot).region
        let s := (s.charge (arrayWork (tileOf core)) region (s.cost 15)).charge (arrayWork (tileOf core)) region (s.cost 10)
        let s := s.modCore core fun c => { c with mq := c.mq.eraseIdx i }
        let east := if o.kind.isEast then (tileCores (tileOf core + 1)).map Ev.matrixOpStart ++ [Ev.matrixArraySelect (tileOf core + 1)] else []
        .next ((s.askMatrix core).laters east)

/-! ## Accumulator accesses (R200 to R204) -/

/-- The rounding of a conversion out of an accumulator (R191). -/
def ctlRm (w seed : Word) (index : Nat) : Rm :=
  let m := bits w.toNat 12 3
  if m = 4 then { mode := 4, r := srBits seed index } else { mode := m }

/-- A lane converted to a floating format, with status flags (R200, R201). -/
def lowerFloat (F : Fmt) (w seed : Word) (index lane : Nat) : Nat × BitVec 13 :=
  let (v, fl) := toFormat F (ctlRm w seed index) (bit w.toNat 15 && F != f32) (unpack a40 lane)
  (v, matFlags fl)

/-- A lane clamped to a signed type of n bits, with the flag IC (R200, R201). -/
def lowerInt (n lane : Nat) : Nat × BitVec 13 :=
  let v := sextInt (lane % 2 ^ 40) 40
  (clampTo true n v, flagIC (decide (v < -(2 ^ (n - 1))) || decide (2 ^ (n - 1) - 1 < v)))

/-- A lane as `MOVA` writes it into a vector lane (R178, R200). -/
def movaLane (w seed : Word) (row col lane : Nat) : Nat × BitVec 13 :=
  match ([f32, bf16, f16, e4m3, e5m2, e2m1])[ctlConv w]? with
  | some F => lowerFloat F w seed (32 * row + col) lane
  | none =>
    let n := if ctlConv w = 6 then 32 else if ctlConv w = 7 then 16 else 8
    let (v, fl) := lowerInt n lane
    ((sextInt v n % 2 ^ 32).toNat, fl)

/-- A lane as `MSTA` stores it in a format (R201). -/
def mstaElem (f : Nat) (w seed : Word) (m n lane : Nat) : Nat × BitVec 13 :=
  if f = 14 || f = 15 then (lane, 0)
  else
    match fmtFloat f with
    | some F => lowerFloat F w seed (32 * m + n) lane
    | none => lowerInt (fmtBits f) lane

/-- An element as `MLDA` loads it from a format (R201). -/
def mldaLane (f v : Nat) : Nat × BitVec 13 :=
  if f = 7 then
    let (w, fl) := toFormat a40 { mode := 0 } false (unpack f32 v)
    (w, matFlags fl)
  else if f = 5 then ((sextInt (v % 2 ^ 32) 32 % 2 ^ 40).toNat, 0)
  else (v % 2 ^ 40, 0)

/-- Whether a lane ranks above another before their rows count (R202). -/
def ranksAbove (int : Bool) (a b : Nat) : Bool :=
  if int then sextInt (b % 2 ^ 40) 40 < sextInt (a % 2 ^ 40) 40
  else
    let x := unpack a40 a
    let y := unpack a40 b
    let zero (v : FVal) : Bool := match v with | .fin _ 0 _ => true | _ => false
    if x.isNan then false else if y.isNan then true else !leVal x y && !(zero x && zero y)

/-- A row put into a list of rows ranked best first. -/
def rankIn (above : Nat → Nat → Bool) (m : Nat) : List Nat → List Nat
  | [] => [m]
  | p :: r => if above m p then m :: p :: r else p :: rankIn above m r

/-- The rows 0 to M − 1 of a column by rank (R202). -/
def ranked (above : Nat → Nat → Bool) (M : Nat) : List Nat := (range' 0 M).foldl (fun l m => rankIn above m l) []

/-- The matrix status word of a core (R205). -/
def State.matStatus (s : State) (core : Nat) : Word :=
  let own := ((s.ownedArrays core).map fun j => 2 ^ j).foldl (· + ·) 0
  BitVec.ofNat 64 (own * 2 ^ 16 + (s.core core).mq.length * 2 ^ 14 + b2n (s.tile (tileOf core)).chain.isSome * 2 ^ 13 +
    (s.core core).mflags.toNat)

/-- Block positions of M rows and N columns in ascending row, then column. -/
def blockOf (M N : Nat) : List (Nat × Nat) := ((range' 0 M).map fun m => (range' 0 N).map fun n => (m, n)).flatten

/-- The status flags of a core with some more set. -/
def State.flagMat (s : State) (core : Nat) (f : BitVec 13) : State := s.modCore core fun c => { c with mflags := c.mflags ||| f }

/-- The performance of an accumulator access (R200 to R204). -/
def State.doAccess (s : State) (core : Nat) (a : AccWait) : State :=
  let t := tileOf core
  let k := a.slot
  let seed := (s.slot k).rndseed
  let lane (s : State) (m n : Nat) : Nat := (s.acc t (a.arrays.getD (m / 32) 0) (m % 32) n).toNat
  match a.kind with
  | .mova v w =>
    (range' 0 32).foldl (fun s n =>
      let (x, fl) := movaLane w seed (ctlRow w) n (lane s (ctlRow w) n)
      (s.setLane core v n (BitVec.ofNat 32 x)).flagMat core fl) s
  | .msta e g w =>
    (blockOf (ctlM w) (ctlN w)).foldl (fun s p =>
      let (r, c) := (originRow g + p.1, originCol g + p.2)
      if inExtent e.toNat r c then
        let (x, fl) := mstaElem (tFmt e.toNat) w seed p.1 p.2 (lane s p.1 p.2)
        (s.tensorSet k e.toNat r c x).flagMat core fl
      else s) s
  | .mlda e g w =>
    let s := s.noteElems k e.toNat ((blockOf (ctlM w) (ctlN w)).map fun p => (originRow g + p.1, originCol g + p.2))
    (blockOf (ctlM w) (ctlN w)).foldl (fun s p =>
      let (x, fl) := mldaLane (tFmt e.toNat) (s.tensorBits core e.toNat (originRow g + p.1) (originCol g + p.2))
      (s.setAcc t (a.arrays.getD (p.1 / 32) 0) (p.1 % 32) p.2 (BitVec.ofNat 40 x)).flagMat core fl) s
  | .mzero => s.zeroArrays t a.arrays
  | .msel x w =>
    (range' 0 (ctlN w)).foldl (fun s n =>
      let best := (ranked (fun p q => ranksAbove (bit w.toNat 48) (lane s p n) (lane s q n)) (ctlM w)).take (ctlTop w)
      let map := (best.map fun m => 2 ^ m).foldl (· + ·) 0
      let s := (range' 0 4).foldl (fun s i => s.padStore k ((x.toNat + 32 * n + 8 * i : Nat) : Int) 8 (bits map (64 * i) 64)) s
      ((range' 0 best.length).zip best).foldl (fun s p =>
        s.padStore k ((x.toNat + 32 * ctlN w + 2 * (n * ctlTop w + p.1) : Nat) : Int) 2 p.2) s) s
  | .mstat d clear =>
    let s := s.setGreg k d { val := s.matStatus core }
    if clear then s.modCore core fun c => { c with mflags := 0 } else s

/-- What an accumulator access waits for of its slot's other work: `MOVA` for the vector instructions to complete (R200), an access to
memory for the memory accesses to be performed (R206). -/
def State.accPast (s : State) (a : AccWait) : Bool :=
  match a.kind with
  | .mova _ _ => s.vecQuiet a.slot
  | .mzero => true
  | .mstat _ _ => true
  | _ => s.performedBefore a.slot s.nextId

/-- ACC_ACCESS_ATTEMPT (R200, R204, R206): the access is performed once every earlier queued operation whose span meets its own has
retired, for `MSTAT` every one, and its slot's other work is done that it waits for. -/
def execAccAccessAttempt (core : Nat) (s : State) : Out :=
  match (s.core core).acc with
  | none => .fault .notEnabled
  | some a =>
    let isStat := match a.kind with | .mstat _ _ => true | _ => false
    let meets := (s.core core).mq.any fun o => isStat || o.kind.arrays.any fun j => a.arrays.contains j
    if meets || !s.accPast a then .fault .notEnabled
    else
      let s := s.doAccess core a
      let s := s.modCore core fun c => { c with acc := none }
      .next ((s.advance a.slot 8).modSlot a.slot Slot.settle)

end Sys2Proof.Machine
end

