-- ==== Sys2Proof/Machine/Slices.lean ====
section
/-! DEFINITION. Requests at their homes: arrival and order (R237), line locks and conflict queues (R259), hot lines (R261 to
R264), combining (R256), scope misses (R243), answers and NACKs (R131, R139), evictions and scrubbing (R306, R308). -/

namespace Sys2Proof.Machine

/-! ## Arrival at a home (R237, R259) -/

/-- Whether a request waits in its slot for its retry (R139). -/
def State.inRetry (s : State) (q : Req) : Bool :=
  match (s.thread q.src).waits with
  | .retry id _ => id == q.id
  | _ => false

/-- Whether a request of the same core to the same home, issued earlier, is not yet performed there (R237), or a write-back of the
same line by the same cluster that was sent before it, as one is for the request itself (R235). A write-back of a line waits for what its
core has sent there before. [DEDUCED, log 98] -/
def State.overtakes (s : State) (q : Req) : Bool :=
  let mine := s.originals 8 q
  let sent := s.reqs.takeWhile fun p => p.id != q.id
  let before (p a b : Req) : Bool :=
    if a.op == .wback || b.op == .wback then
      sent.any (fun r => r.id == p.id) && a.place / 128 == b.place / 128 && a.src != foreignSrc && b.src != foreignSrc &&
        (srcCore a.src == srcCore b.src || (a.op == .wback && clusterOf (srcCore a.src) == clusterOf (srcCore b.src)))
    else
      a.id < b.id && (if a.src = foreignSrc then b.src == foreignSrc && a.chip == b.chip
                      else b.src != foreignSrc && srcCore a.src == srcCore b.src)
  s.reqs.any fun p => p.id != q.id && p.unit == q.unit && !p.miss && !s.inRetry p && !(p.away.isSome && p.locked) &&
    (s.originals 8 p).any fun a => mine.any fun b => before p a b

/-- Whether an operation's step counts as a write of its line (R236, R261, R263). -/
def writeStep : HomeOp → Bool
  | .load _ => false
  | .fill => false
  | .hwait => false
  | .htest => false
  | .cwait => false
  | .cread => false
  | .touch => false
  | .flush => false
  | _ => true

/-- The state without a request. -/
def State.dropReq (s : State) (id : Nat) : State := { s with reqs := s.reqs.filter (·.id != id) }

/-- The state with a request changed. -/
def State.modReq (s : State) (id : Nat) (f : Req → Req) : State :=
  { s with reqs := s.reqs.map fun p => if p.id = id then f p else p }

/-- The state with a hot line changed. -/
def State.modHot (s : State) (line : Nat) (f : Hot → Hot) : State :=
  { s with cache := { s.cache with hot := s.cache.hot.map fun h => if h.line = line then f h else h } }

/-- The end of the present window of R261, in `TIME`: windows are 4,096 cycles of 0.4 ns, aligned since reset (R7). [DESIGN CHOICE, log 86] -/
def State.windowEnd (s : State) : Nat :=
  let w := 4096 * 2 * nsUnit / 5
  (s.timeBefore + (s.now / w + 1) * w - s.lagged + nsUnit - 1) / nsUnit

/-- A plain read by a tile in the candidate table of the bank that homes its line (R261). -/
def State.countAt (s : State) (tile region place key : Nat) : State :=
  let bank := homeBank place
  let line := place / 128
  if tile / 256 != bank / 1024 || (s.captureOf region).isSome then s
  else
    let mine := s.cache.cands.filter (·.bank == bank)
    let cands := if mine.any (·.line == line) then
        s.cache.cands.map fun c =>
          if c.line = line then { c with reads := c.reads + 1, tiles := if c.tiles.contains tile then c.tiles else c.tiles ++ [tile] } else c
      else if mine.length < 8 then s.cache.cands ++ [{ bank := bank, line := line, reads := 1, tiles := [tile], key := key }]
      else s.cache.cands
    let t := { s with cache := { s.cache with cands := cands } }
    if mine = [] then t.later (.hotWindowEnd bank) (.time t.windowEnd) else t

/-- A request counted if it is one of the kind of R261. -/
def State.countRead (s : State) (q : Req) : State :=
  if q.counted && isHbm q.place then s.countAt (tileOf (srcCore q.src)) q.region q.place q.key else s

/-- Whether an access of a cluster that drops its copies of a line is on its way or deferred, by itself or combined (R235, R256): a fill that
is performed before it is not kept. -/
def State.purgeComing (s : State) (q : Req) : Bool :=
  isHbm q.place && (s.reqs ++ s.deferred ++ s.heldReqs).any fun p =>
    purges p.op && p.place / 128 == q.place / 128 && p.away.isNone && p.id != q.id &&
      (s.originals 8 p).any fun r => r.src < foreignSrc && clusterOf (srcCore r.src) == clusterOf (srcCore q.src)

/-- A request of another module stands deferred: its source is told. [DESIGN CHOICE, log 109] -/
def State.tellDeferred (s : State) (q : Req) : State :=
  if q.src = foreignSrc then (s.relaySend q.chip 0 (.deferred q.rid)).getD s else s

/-- A fill marked where its line is not to be kept in the L1. -/
def State.fillKept (s : State) (q : Req) : Req :=
  if q.op == .fill && q.dest != .ifetch && s.purgeComing q then { q with noFill := true } else q

/-- A request performed at its home, with its answer on the way or the request deferred (R138, R139, R234). -/
def State.perform (s : State) (q : Req) : State :=
  let q := s.fillKept q
  match (s.countRead q).homeStep q with
  | (.answered a, t) => t.answer q a
  | (.deferred, t) => (t.deferReq q).tellDeferred q
  | (.nacked, t) => t.answer q .nack

/-- A request with its line lock, taken at once or waiting for the fill or the recall (R259, R263). -/
def State.lockFor (s : State) (q : Req) (e : Ev) : State :=
  let s := s.modReq q.id fun p => { p with locked := true }
  ({ s with cache := { s.cache with locks := s.cache.locks ++ [(q.place / 128, q.id)] } }).later e

/-- The key under which the holder of a line's lock reads the line; one that has been withdrawn reads it as it stands. -/
def State.lockKey (s : State) (line : Nat) : Option Nat :=
  (s.cache.locks.find? (·.1 == line)).map fun p =>
    match s.reqs.find? (·.id == p.2) with
    | some q => q.key
    | none => if fillHolder 0 ≤ p.2 then p.2 - fillHolder 0 else (find s.cache.l2 line).elim 0 Line.key

/-- STACK_READ: the miss arrives at the stack, which answers from its MSC (R253). -/
def execStackRead (line : Nat) (s : State) : Out :=
  match s.lockKey line with
  | none => .fault .notEnabled
  | some key =>
      let s := if (find s.cache.l2 line).isSome then s else s.fillMsc line key
      .next (s.travel (.bankMissFill line) (stackOf line / 2) (homeBank (128 * line) / 1024) 1 160)

/-- Whether a request changes or drops the home's copy of its line: a write, an `INVAL`, or a `FLUSH` that finds dirty bytes of an L1 of its
scope, there or on their way (R143, R263). -/
def State.changes (s : State) (q : Req) : Bool :=
  let line := q.place / 128
  let mine (c : Nat) : Bool := within q.scope (srcCore q.src) c
  match q.op with
  | .inval => true
  | .flush => ((s.l1Holders line).any fun c => mine c && (s.l1 c line).elim false fun l => l.dirty != 0) ||
      s.reqs.any fun p => p.op == .wback && p.place / 128 == line && mine (srcCore p.src)
  | op => writeStep op

/-- A request that finds its line's lock free (R259): it waits for a recall (R263) or for a fill, or is performed. A write, and an
eviction of the line for another memory key, recall a hot line first. -/
def State.lockFree (s : State) (q : Req) : State :=
  let line := q.place / 128
  if (s.hotOf line).isSome && (s.changes q || !s.l2Has line q.key) then s.lockFor q (.hotLineRecall line)
  else if s.l2Has line q.key then s.perform q
  else if q.op = .touch && q.scope = 5 then (s.fillMsc line q.key).answer q (.ok 0)
  else
    let t := s.modReq q.id fun p => { p with locked := true }
    ({ t with cache := { t.cache with locks := t.cache.locks ++ [(line, q.id)] } } : State).askStack line

/-- A request to global memory at its bank (R259): one to a locked line, or behind queued ones to its line, enters the conflict queue;
none is taken while that is full. -/
def State.atBank (s : State) (q : Req) : Option State :=
  let line := q.place / 128
  if s.portShut (homeBank q.place) then none
  else if s.lockHeld line || s.cache.conflict.any (·.1 == line) then
    some { s with cache := { s.cache with conflict := s.cache.conflict ++ [(line, q.id)] } }
  else some (s.lockFree q)

/-- A read that follows a redirect is served by its helper's replica; without one the helper forwards it to the home (R262). -/
def State.atHelper (s : State) (q : Req) (slice : Nat) : State :=
  let q := s.fillKept q
  match find s.cache.replicas (slice * 2 ^ 32 + q.place / 128) with
  | some l =>
    if l.key = q.key then
      let ans : HomeAns := match q.op with
        | .load n => if l.badWord (q.place % 128 / 8) then .err .machine else .ok (BitVec.ofNat 64 (l.num (q.place % 128) n))
        | _ => if l.badWord (q.place % 128 / 8) then .err .machine
               else .line l.data l.fe l.bad l.poison
      let s := s.chargeReq q (s.cost 1)
      match ans with
      | .err c => s.refuse q c 4
      | a => s.answer q a
    else (s.modReq q.id fun p => { p with via := none }).later (.homeAccess q.id)
  | none => (s.modReq q.id fun p => { p with via := none }).later (.homeAccess q.id)

/-- A request leaves the module for its target chip, or gets an error response without a live route (R333). -/
def State.sendAway (s : State) (q : Req) (chip : Nat) : State :=
  let who := if q.src < foreignSrc then s.threadName q.src else q.who
  match s.relayFor q.region chip q.tregion (.request s.host.modid q.id q.region q.scope who q.op q.addr q.v1 q.v2) with
  | some t => t.modReq q.id fun p => { p with locked := true }
  | none => s.refuse q .rights 1

/-- HOME_ACCESS (R234). -/
def execHomeAccess (id : Nat) (s : State) : Out :=
  match s.reqs.find? (·.id == id) with
  | none => .fault .notEnabled
  | some q =>
    if q.miss || q.drain || q.locked || q.hops != [] || s.inRetry q || s.cache.conflict.any (·.2 == id) then .fault .notEnabled
    else if s.overtakes q || (ofCore q.src && homeUnit q.place / 2 ^ 16 == 1 && s.behindPair (srcCore q.src) (homeUnit q.place % 2 ^ 16) q.id) then
      stillDue (.homeAccess id) s
    else
      match q.away, q.via with
      | some chip, _ => .next (s.sendAway q chip)
      | none, some slice => .next (s.atHelper q slice)
      | none, none =>
        if s.early q then .next { s with reqs := s.reqs.filter (·.id != id), heldReqs := s.heldReqs ++ [q] }
        else if isHbm q.place then
          match s.atBank q with
          | some t => .next t
          | none => stillDue (.homeAccess id) s
        else .next (s.perform q)

/-- REPLAY_HELD_ACCESS (R336). -/
def execReplayHeldAccess (id : Nat) (s : State) : Out :=
  match s.heldReqs.find? (·.id == id) with
  | none => .fault .notEnabled
  | some q =>
    if s.early q then .fault .notEnabled
    else .next ({ s with heldReqs := s.heldReqs.filter (·.id != id), reqs := s.reqs ++ [q] }.later (.homeAccess id))

/-! ## Line locks (R259) -/

/-- A lock freed: the oldest queued request for the line is taken next. -/
def State.unlock (s : State) (line : Nat) : State :=
  let s := { s with cache := { s.cache with locks := s.cache.locks.filter (·.1 != line) } }
  if s.cache.conflict.any (·.1 == line) then s.later (.conflictQueueServe line) else s

/-- The request that holds a line's lock is performed, and the lock freed. -/
def State.performLocked (s : State) (line : Nat) : State :=
  match s.cache.locks.find? (·.1 == line) with
  | none => s.unlock line
  | some (_, id) =>
    match s.reqs.find? (·.id == id) with
    | none => s.unlock line
    | some q => (s.perform { q with locked := false }).unlock line

/-- A full set without an idle line asks for one: a hot line is recalled, or a home is told that a replica must leave (R263). -/
def State.askRoom (s : State) (bank line : Nat) : State :=
  match ((s.setLines bank line).filter fun l => (s.hotOf l).isSome && !s.lockHeld l), s.setReplicas bank line with
  | l :: _, _ => s.ask (.hotLineRecall l)
  | [], l :: _ => s.ask (.helperEvictReport l (bank / 4))
  | [], [] => s

/-- BANK_MISS_FILL (R259): the line is filled, in the way of another of its set where that is full, and the request that waits for it
is performed; the fill that a unit's access asked for ends. -/
def execBankMissFill (line : Nat) (s : State) : Out :=
  match s.lockKey line with
  | none => .fault .notEnabled
  | some key =>
    if (match s.hotOf line with | some h => h.recalling.isSome | none => false) then .fault .notEnabled
    else
      let bank := homeBank (128 * line)
      if (find s.cache.l2 line).isNone && !s.setHasRoom bank line && s.setIdle bank line == [] then
        .next ((s.askRoom bank line).later (.bankMissFill line))
      else .next ((s.fillL2 line key).performLocked line)

/-- The way to the stack crosses a failed bridge (R266): the request that waits for the fill gets an error response. -/
def execFillFailed (line : Nat) (s : State) : Out :=
  match s.cache.locks.find? (·.1 == line) with
  | none => .fault .notEnabled
  | some (_, id) =>
    match s.reqs.find? (·.id == id) with
    | none => .next (s.unlock line)
    | some q => .next ((s.refuse { q with locked := false } .rights 1).unlock line)

/-- CONFLICT_QUEUE_SERVE (R259). -/
def execConflictQueueServe (line : Nat) (s : State) : Out :=
  if s.lockHeld line then .fault .notEnabled
  else
    match s.cache.conflict.find? (·.1 == line) with
    | none => .fault .notEnabled
    | some p =>
      let s := { s with cache := { s.cache with conflict := s.cache.conflict.erase p } }
      let more (t : State) : State :=
        if !t.lockHeld line && t.cache.conflict.any (·.1 == line) then t.later (.conflictQueueServe line) else t
      match s.reqs.find? (·.id == p.2) with
      | none => .next (more s)
      | some q => .next (more (s.lockFree q))

/-! ## Hot lines (R261 to R264) -/

/-- The helper slices of a home slice (R262). -/
def helpers (slice : Nat) : List Nat :=
  [0x55, 0xAA, 0xFF].map fun m => slice / 256 * 256 + Nat.xor (slice % 256) m

/-- The helper that the redirect of a tile names (R262). -/
def helperOf (slice tile : Nat) : Nat := (helpers slice).getD (tile % 256 % 3) slice

/-- The fit candidates of a bank become hot while it has fewer than 8 hot lines (R261). -/
def State.makeHots (s : State) (bank : Nat) : List Cand → State
  | [] => s
  | c :: r =>
    if (s.cache.hot.filter fun h => homeBank (128 * h.line) == bank).length < 8 && (s.hotOf c.line).isNone then
      let hot : Hot := { line := c.line, key := c.key, tiles := c.tiles }
      (({ s with cache := { s.cache with hot := s.cache.hot ++ [hot] } } : State).later (.hotCopy c.line)).makeHots bank r
    else s.makeHots bank r

/-- HOT_WINDOW_END (R261): at the end of a window of the bank. -/
def execHotWindowEnd (bank : Nat) (s : State) : Out :=
  let mine := s.cache.cands.filter (·.bank == bank)
  let s := s.makeHots bank (mine.filter fun c => !c.unfit && 64 ≤ c.reads && 16 ≤ c.tiles.length)
  .next { s with cache := { s.cache with cands := s.cache.cands.filter (·.bank != bank) } }

/-- A hot line is copied to the helpers, once it stands at its home (R259, R262): region 0 is charged (R315). -/
def execHotCopy (line : Nat) (s : State) : Out :=
  match s.hotOf line with
  | none => .fault .notEnabled
  | some h =>
    if h.copied || h.recalling.isSome then .fault .notEnabled
    else if s.lockHeld line then stillDue (.hotCopy line) s
    else if !s.l2Has line h.key then .next ((s.grant (.line line h.key false)).later (.hotCopy line))
    else
      let l := { (s.homeLine line) with dirty := 0 }
      let bank := homeBank (128 * line)
      let t := (helpers (bank / 4)).foldl (fun (t : State) g =>
        let t := t.l2Room (4 * g + bank % 4) line
        { t with cache := { t.cache with replicas := put t.cache.replicas (g * 2 ^ 32 + line) l } }) s
      .next (((t.modHot line fun h => { h with copied := true }).charge (homeBank (128 * line) / 4) 0 (s.cost 9)).later (.hotReplicaAck line))

/-- HOT_REPLICA_ACK (R262). -/
def execHotReplicaAck (line : Nat) (s : State) : Out :=
  match s.hotOf line with
  | none => .fault .notEnabled
  | some h =>
    if !h.copied || h.acked || h.recalling.isSome then .fault .notEnabled
    else .next ((s.modHot line fun h => { h with acked := true }).laters (h.tiles.map fun t => .redirectInstall t line))

/-- REDIRECT_INSTALL (R262). -/
def execRedirectInstall (tile line : Nat) (s : State) : Out :=
  match s.hotOf line with
  | none => .fault .notEnabled
  | some h =>
    if !h.acked || h.recalling.isSome || !h.tiles.contains tile || h.installed.contains tile then .fault .notEnabled
    else
      let s := s.modHot line fun h => { h with installed := h.installed ++ [tile] }
      let mine := s.cache.redirects.filter (·.tile == tile)
      let kept := if mine.length < 32 then s.cache.redirects
        else match mine.head? with | some r => s.cache.redirects.erase r | none => s.cache.redirects
      let new : Redirect := { tile := tile, line := line, slice := helperOf (homeBank (128 * line) / 4) tile }
      .next { s with cache := { s.cache with redirects := kept ++ [new] } }

/-- HOT_LINE_RECALL (R263). -/
def execHotLineRecall (line : Nat) (s : State) : Out :=
  match s.hotOf line with
  | none => .fault .notEnabled
  | some h =>
    if h.recalling.isSome then .fault .notEnabled
    else
      let s := s.charge (homeBank (128 * line) / 4) 0 (s.cost 9)
      let who := (helpers (homeBank (128 * line) / 4)).map Holder.helper ++ h.installed.map Holder.ni
      .next ((s.modHot line fun h => { h with recalling := some who }).laters (who.map fun w => .recallWithdraw line w))

/-- RECALL_WITHDRAW (R263): a holder drops what it has, and acknowledges. -/
def execRecallWithdraw (line : Nat) (who : Holder) (s : State) : Out :=
  match s.hotOf line with
  | none => .fault .notEnabled
  | some h =>
    match h.recalling with
    | none => .fault .notEnabled
    | some l =>
      if !l.contains who then .fault .notEnabled
      else
        let rest := l.erase who
        let c := match who with
          | .helper slice => { s.cache with replicas := del s.cache.replicas (slice * 2 ^ 32 + line) }
          | .ni tile => { s.cache with redirects := s.cache.redirects.filter fun r => !(r.tile == tile && r.line == line) }
        let s := ({ s with cache := c } : State).modHot line fun h => { h with recalling := some rest }
        .next (if rest = [] then s.later (.recallComplete line) else s)

/-- Whether the access that holds a line's lock needs a fill of the line. -/
def State.needsFill (s : State) (line : Nat) : Bool := (s.lockKey line).elim false fun key => !s.l2Has line key

/-- RECALL_COMPLETE (R263): the line is no longer hot, and the access that waits is performed, after its fill where it needs one. -/
def execRecallComplete (line : Nat) (s : State) : Out :=
  match s.hotOf line with
  | none => .fault .notEnabled
  | some h =>
    if h.recalling != some [] then .fault .notEnabled
    else
      let s : State := { s with cache := { s.cache with hot := s.cache.hot.filter (·.line != line) } }
      if s.needsFill line then .next (s.askStack line) else .next (s.performLocked line)

/-- HELPER_EVICT_REPORT (R263): the home starts a recall. -/
def execHelperEvictReport (line slice : Nat) (s : State) : Out :=
  match find s.cache.replicas (slice * 2 ^ 32 + line), s.hotOf line with
  | some _, some h => if h.recalling.isSome then .fault .notEnabled else .next (s.later (.hotLineRecall line))
  | _, _ => .fault .notEnabled

/-- REDIRECT_DRAIN (R264, R243): the request is sent once the reads that followed the redirect are answered, and the write-backs of
a release at a widened scope are acknowledged. A write-back keeps its place among what its cluster has sent (R235). -/
def execRedirectDrain (id : Nat) (s : State) : Out :=
  match s.reqs.find? (·.id == id) with
  | none => .fault .notEnabled
  | some q =>
    if !q.drain then .fault .notEnabled
    else if s.follows (tileOf (srcCore q.src)) (q.place / 128) then stillDue (.redirectDrain id) s
    else if q.rel && 4 ≤ q.scope && !s.wbBefore (srcCore q.src) q.id then stillDue (.redirectDrain id) s
    else if q.op = .wback then .next ((s.modReq id fun p => { p with drain := false }).setOutReq { q with drain := false })
    else .next ((s.dropReq id).emit { q with drain := false })

/-! ## Combining (R256, R250) -/

/-- The operand of a combined request: it wraps for `AADD` and saturates for `CADD`, whose operands have the width of their code from
their issue on (R141, R256). -/
def combinedOperand (op : HomeOp) (a b : Word) : Word :=
  match op with
  | .atomic .cadd _ => BitVec.ofNat 64 (sat64 (a.toNat + b.toNat))
  | _ => a + b

/-- OMEGA_COMBINE (R256). [DEDUCED, log 87] -/
def execOmegaCombine (id0 id1 : Nat) (s : State) : Out :=
  match s.reqs.find? (·.id == id0), s.reqs.find? (·.id == id1) with
  | some p, some q =>
    if !s.combines p q || s.inRetry p || s.inRetry q then .fault .notEnabled
    else
      let (id, s) := s.fresh
      let who := if p.src < foreignSrc then s.threadName p.src else p.who
      let v := combinedOperand p.op p.v1 q.v1
      let c : Req := { p with id := id, src := splitSrc, who := who, v1 := v, dest := .discard }
      let s := (s.dropReq id0).dropReq id1
      let s : State := { s with reqs := s.reqs ++ [c], splits := s.splits ++ [Split.mk id p q] }
      .next ((s.later (.homeAccess id)).mayCombine c)
  | _, _ => .fault .notEnabled

/-- The answers of two combined requests from the answer of the one (R256). -/
def splitAnswers (p : Req) : HomeAns → HomeAns × HomeAns
  | .ok v =>
    let old := match p.op with
      | .atomic .add .d => v + p.v1
      | .atomic .add .s32 => sext ((v.toNat + p.v1.toNat) % 2 ^ 32) 32
      | .atomic .add _ => BitVec.ofNat 64 ((v.toNat + p.v1.toNat) % 2 ^ 32)
      | _ => BitVec.ofNat 64 (sat64 (v.toNat + p.v1.toNat))
    (.ok v, .ok old)
  | a => (a, a)

/-- COMBINED_REPLY_SPLIT (R256): the two answers keep the place of the one among the answers of its home (R257). -/
def execCombinedReplySplit (id : Nat) (s : State) : Out :=
  match s.reps.find? (fun r => r.req.id == id && r.req.src == splitSrc), s.splits.find? (·.id == id) with
  | some r, some p =>
    let (a, b) := splitAnswers p.first r.ans
    let one (q : Req) (v : HomeAns) : Rep :=
      let die := if ofCore q.src then dieOf (srcCore q.src) else 0
      { s.repFor q v (homeDie q.place die) die with since := r.since }
    let x := one p.first a
    let y := one p.second b
    let t : State := { s with reps := s.reps.flatMap fun z => if z = r then [x, y] else [z], splits := s.splits.erase p }
    .next ((t.sendRep x).sendRep y)
  | _, _ => .fault .notEnabled

/-! ## Answers at their sources (R131, R28, R139, R243) -/

/-- REPLY_ARRIVAL (R131, R158): answers of one home to one core land in the order in which they were given (R257). -/
def execReplyArrival (id : Nat) (s : State) : Out :=
  match s.arrived id with
  | none => .fault .notEnabled
  | some r =>
    if s.repWaits r then stillDue (.replyArrival id) s
    else
      match r.ans, r.req.dest with
      | .nack, _ => .fault .notEnabled
      | _, .ack => .fault .notEnabled
      | _, .lane _ _ _ _ => .fault .notEnabled
      | _, .pref => .next ((s.takeRep r).landUnit r)
      | _, .ifetch => .next ((s.takeRep r).landUnit r)
      | _, .wrote => .next ((s.takeRep r).landUnit r)
      | _, _ => .next (((s.takeRep r).modSlot r.req.src fun sl => { sl with nacks := 0 }).land r)

/-- REMOTE_STORE_ACK (R28): `UNACK` falls, and an error response leaves the earliest failing store. -/
def execRemoteStoreAck (id : Nat) (s : State) : Out :=
  match s.arrived id with
  | none => .fault .notEnabled
  | some r =>
    if r.req.dest != .ack then .fault .notEnabled
    else if s.repWaits r then stillDue (.remoteStoreAck id) s
    else
      .next (((s.takeRep r).modThread r.req.src fun sl =>
        let sl := { sl with unack := sl.unack - 1 }
        let first : Bool := match sl.failStore with | some (i, _, _) => decide (id < i) | none => true
        match r.ans with
        | .err c => if first then { sl with failStore := some (id, errAddr r.req c, c), failAge := s.tick } else sl
        | _ => sl).askMatrix (srcCore r.req.src))

/-- NACK_RECEIVED (R139). -/
def execNackReceived (id : Nat) (s : State) : Out :=
  match s.arrived id with
  | none => .fault .notEnabled
  | some r =>
    if r.ans != .nack then .fault .notEnabled
    else if s.repWaits r then stillDue (.nackReceived id) s
    else .next ((s.takeRep r).nacked r.req)

/-- RETRY_PARK_EXPIRY (R139): the request is sent again. -/
def execRetryParkExpiry (k : Nat) (s : State) : Out :=
  match (s.slot k).st, (s.slot k).wait with
  | .parked, .retry id due =>
    if s.cycle (coreOf k) < due then .fault .notEnabled
    else
      match s.reqs.find? (·.id == id) with
      | some q =>
        .next (((s.dropReq id).modSlot k fun sl => { sl with st := .waiting, wait := .reply id }).emit q)
      | none =>
        match s.sendrs.find? (·.id == id) with
        | some m => .next ((s.modSlot k fun sl => { sl with st := .waiting, wait := .reply id }).sendSendr m)
        | none => .fault .notEnabled
  | _, _ => .fault .notEnabled

/-- The narrowest scope that contains a request's home (R20). -/
def State.narrowOf (s : State) (core : Nat) (q : Req) : Nat :=
  match q.away with
  | some chip => s.narrowAway chip
  | none =>
    if bits q.addr.toNat 56 2 = 2 then 5
    else if isHbm q.place then narrowHbm core q.place
    else if q.place < 2 ^ 57 then (coreSite core (bits q.addr.toNat 32 12) (bits q.addr.toNat 0 32)).narrow
    else 5

/-- A scope-miss counted at its thread (R243). -/
def State.countMiss (s : State) (k : Nat) : State :=
  s.modThread k fun sl => { sl with scopemiss := Nat.min (sl.scopemiss + 1) (2 ^ 32 - 1) }

/-- The dirty lines of a core's L1 set out for their homes, for a release whose scope has widened to `.die` or beyond (R243, R238). -/
def State.widenRelease (s : State) (core scope : Nat) : State := if 4 ≤ scope then s.writeBackAll core else s

/-- SCOPE_MISS_RETURN (R243): the request, or the `SENDR`, is sent again at the widened scope, behind the write-backs of its release. -/
def execScopeMissReturn (id : Nat) (s : State) : Out :=
  match s.reqs.find? (·.id == id) with
  | some q =>
    if !q.miss || 2 ^ 20 ≤ q.src then .fault .notEnabled
    else
      let core := coreOf q.src
      let scope := s.narrowOf core q
      let s := (s.countMiss q.src).dropReq id
      let s := if q.rel then s.widenRelease core scope else s
      let (new, s) := s.fresh
      let q := { q with id := new, scope := scope, miss := false }
      let s := s.modSlot q.src fun sl => sl.become .waiting (.reply new)
      .next (if q.rel && 4 ≤ scope && !s.wbBefore core new then s.holdBack q else s.emit q)
  | none =>
    match s.sendrs.find? (·.id == id) with
    | none => .fault .notEnabled
    | some m =>
      let core := coreOf m.src
      let scope := scopeTo core (coreOf m.target)
      if m.scope < scope then
        let s := { s with sendrs := s.sendrs.filter (·.id != id) }
        let s := (s.countMiss m.src).widenRelease core scope
        let (new, s) := s.fresh
        let s := s.modSlot m.src fun sl => sl.become .waiting (.reply new)
        .next (({ s with sendrs := s.sendrs ++ [{ m with id := new, scope := scope }] } : State).later (.scopeMissReturn new))
      else if 4 ≤ m.scope && !s.wbBefore core id then stillDue (.scopeMissReturn id) s
      else .next (s.sendSendr m)

/-! ## Evictions and scrubbing (R306, R308) -/

/-- LINE_EVICTION (R308): a cache writes back a line's dirty bytes and drops it. -/
def execLineEviction (level : CacheLevel) (line : Nat) (s : State) : Out :=
  match level with
  | .l1 core => if (s.l1 core line).isNone then .fault .notEnabled else .next (s.evictL1 core line)
  | .icache core =>
    if (find s.cache.ic (l1Key core line)).isNone then .fault .notEnabled
    else .next { s with cache := { s.cache with ic := del s.cache.ic (l1Key core line) } }
  | .l2 =>
    if (find s.cache.l2 line).isNone then .fault .notEnabled
    else if s.lockHeld line then stillDue (.lineEviction .l2 line) s
    else
      match s.hotOf line with
      | some _ => .next ((s.later (.hotLineRecall line)).later (.lineEviction .l2 line))
      | none => .next ((s.cleanL2 line).dropL2 line)
  | .msc => if (find s.cache.msc line).isNone then .fault .notEnabled else .next ((s.cleanMsc line).dropMsc line)

/-- PATROL_SCRUB (R306): a stored word is read and a single-bit error in it corrected; region 0 is charged. -/
def execPatrolScrub (place : Nat) (s : State) : Out := .next ((s.correct (wordOf place)).charge (homeUnit place) 0 (s.cost 3))

end Sys2Proof.Machine
end

