-- ==== Sys2Proof/Machine/Tasks.lean ====
section
/-! DEFINITION. Tasks and fork-join: TCBs and their retirement (R34 to R38, R154 to R156, R284), the deque and its spill ring
(R46), `PUBF`, `SPAWN`, `DONE` and `SYNC` (R47, R150 to R153), failed marks (R214, R215). -/

namespace Sys2Proof.Machine

/-! ## Failed marks (R214) -/

/-- The cause of an engine failure (R222, R227). -/
def engCause : EngCause → Cause
  | .bounds => .object | .page => .page | .rights => .rights | .machine => .machine

/-- The failed mark of the lowest-numbered tag of a set. -/
def lowestMark (l : List FailMark) (tags : Word) : Option FailMark :=
  (range' 0 64).findSome? fun t => if bit tags.toNat t then l.find? (·.tag == t) else none

/-- `check_failed` (R214): a failed mark of a tag of the set traps and is consumed. -/
def checkFailed (tags : Word) (s : State) (body : State → Out) : Out :=
  match lowestMark s.me.failed tags with
  | none => body s
  | some f =>
    let s := s.modMe fun sl => { sl with failed := sl.failed.erase f }
    .next (s.trapAt (engCause f.cause) 7 f.level f.addr 0 (BitVec.ofNat 64 (f.sub * 64 + f.tag)))

/-- Steps 1 and 2 of R152 with the check of R215: every operation of the slot has completed, `UNACK` is 0, no set tag carries a failed
mark, and no remote store has failed; of two such faults the older is taken (R294). -/
def quiesced (s : State) (body : State → Out) : Out :=
  if s.me.inflight != 0 then parkFor .opsDone s
  else if s.me.unack != 0 then waitFor .unackZero s
  else
    let storeFirst : Bool := match lowestMark s.me.failed s.me.tags with
      | some f => s.me.failStore.isSome && decide (s.me.failAge < f.age)
      | none => true
    if storeFirst then whenAcked s fun s => checkFailed s.me.tags s body
    else checkFailed s.me.tags s fun s => whenAcked s body

/-- The claims of the issuing slot can be given up: its vector instructions and, if it holds the claim, its matrix operations
have completed (R168, R188). [DEDUCED, log 96] -/
def claimsQuiet (s : State) (body : State → Out) : Out :=
  if !s.vecQuiet s.cur then parkFor .vecQuiet s
  else if (s.core s.myCore).mclaim == some s.cur && (s.core s.myCore).mq != [] then busyFor .mqIdle s
  else body s

/-! ## The deque and its spill ring (R46) -/

/-- The number of ring entries of a slot's region. -/
def State.ringSize (s : State) (k : Nat) : Nat := (s.region? (s.slot k).region).elim 0 fun g => 2 ^ g.dqlog

/-- The global address of entry `i` of the spill ring of a thread (R46). -/
def State.ringAddr (s : State) (k i : Nat) : Nat :=
  match s.region? (s.slot k).region with
  | some g => (g.dqbase.toNat + (coreOf k * 64 + (s.slot k).ring) * 32 * 2 ^ g.dqlog + 32 * i) % 2 ^ 64
  | none => 0

/-- The address of the entry that the next spilled record of a thread takes. -/
def State.nextRing (s : State) (k : Nat) : Nat :=
  s.ringAddr k (((s.slot k).ringHead + (s.slot k).ringAges.length) % Nat.max 1 (s.ringSize k))

/-- Words of a ring entry written; copies in the cluster's L1s are dropped first (R235). -/
def State.ringWrite (s : State) (k va : Nat) (l : List Word) : Except (Cause × Nat) Unit × State :=
  let region := (s.slot k).region
  if 2 ^ 56 ≤ va then (.error (.rights, 0), s)
  else
    match s.xlate region va .w with
    | (.error e, t) => (.error e, t)
    | (.ok x, t) => (t.purgeAround (coreOf k) x.pa).devWrites region va l

/-- Words of a ring entry read. -/
def State.ringRead (s : State) (k va : Nat) : Except (Cause × Nat) (List Word) × State :=
  if 2 ^ 56 ≤ va then (.error (.rights, 0), s) else s.devReads (s.slot k).region va 4

/-- How a push that finds all 32 entries in use ends. -/
inductive Spilled where
  | ok (s : State)
  | fault (c : Cause) (level addr : Nat) (s : State)
  | full (s : State)

/-- One entry moved to its owner's ring, oldest first (R46); a fault of the spawning thread's own entry ends it, one of another
thread's is logged and passed over. -/
def State.spillFrom (s : State) (me : Nat) : List DqEnt → Spilled
  | [] => .full s
  | e :: rest =>
    let k := 64 * coreOf me + e.owner
    if s.ringSize k ≤ (s.slot k).ringAges.length then s.spillFrom me rest
    else
      let va := s.nextRing k
      match s.ringWrite k va (recWords e.rcd) with
      | (.error (c, l), t) =>
        if k = me then .fault c l va t else (t.logErr 7 0 0 (BitVec.ofNat 64 va)).spillFrom me rest
      | (.ok _, t) =>
        let t := t.modSlot k fun sl => { sl with ringAges := sl.ringAges ++ [e.age], ringClaimed := sl.ringClaimed || e.claimed }
        .ok (t.modCore (coreOf me) fun c => { c with deque := c.deque.erase e })

/-- A record pushed at the tail of a slot's deque, once an entry is free. -/
def State.push (s : State) (k : Nat) (r : Rec) : State :=
  s.modCore (coreOf k) fun c =>
    { c with deque := c.deque ++ [{ owner := slotNo k, rcd := r, age := c.pushes }], pushes := c.pushes + 1 }

/-- Whether a slot's deque holds no record, on chip or spilled. -/
def State.dequeEmpty (s : State) (k : Nat) : Bool :=
  (s.slot k).ringAges == [] && !(s.core (coreOf k)).deque.any fun e => e.owner == slotNo k

/-- The tail record of a slot on chip. -/
def State.tailRec (s : State) (k : Nat) : Option DqEnt :=
  ((s.core (coreOf k)).deque.filter fun e => e.owner == slotNo k).getLast?

/-- The thread in a slot resumes a popped record (R47). -/
def State.resumeRec (s : State) (k : Nat) (r : Rec) : State :=
  (s.setGreg k 1 { val := r.fp }).modSlot k fun sl => { sl.settle with pc := r.pc &&& ~~~3#64, xprog := 0, mid := false, bounced := false }

/-! ## `PUBF` and `SPAWN` (R150, R151) -/

/-- Whether a valid tile of a descriptor lies outside a region's partition (R150). -/
def tilesOutside (d : Nat) (g : Region) : Bool :=
  (range' 0 4).any fun k => bit d (24 + k) &&
    !(4096 * g.scrbase ≤ 4096 * bits d (6 * k) 6 && 4096 * bits d (6 * k) 6 + 4096 ≤ 4096 * g.scrbase + g.scrbytes)

/-- `PUBF` (R150). -/
def execPubf (a : Nat) (s : State) : Out :=
  issueWith (.pubf a) none none none (fun s =>
    let d := (s.g a).toNat
    let bad := bits d 28 36 != 0 || (match s.region? s.me.region with | some g => tilesOutside d g | none => true)
    if bad then trapNow .rights s
    else release 5 s fun s => done (.pubf a) (s.modMe fun sl => { sl with pub := some (BitVec.ofNat 64 d) })) s

/-- The record of a `SPAWN` at the thread's PC. -/
def State.spawnRec (s : State) (join : Word) : Rec :=
  let sl := s.me
  let d := (sl.pub.getD 0).toNat
  { slot := slotNo s.cur, tiles := bits d 0 24, tvalid := bits d 24 4, pub := sl.pub.isSome, wclass := sl.wclass,
    region := sl.region, task := sl.task, join := BitVec.ofNat 32 join.toNat, fp := s.g 1, pc := sl.pc + 4 }

/-- `SPAWN` (R151). -/
def execSpawn (d i : Nat) (s : State) : Out :=
  issueWith (.spawn d i) none none none (fun s =>
    if !refOk (s.g d) then trapNow .object s
    else
      let r := s.spawnRec (s.g d)
      let finish (s : State) : Out :=
        .next ((s.push s.cur r).modMe fun sl => { sl with pc := sl.pc + sext i 19 * 4, xprog := 0, pub := none })
      if (s.core s.myCore).deque.length < 32 then finish s
      else
        match s.spillFrom s.cur (s.core s.myCore).deque with
        | .ok s => finish s
        | .fault c l va t => .next (t.trapAt c 3 l (BitVec.ofNat 64 va) 0 0)
        | .full s => trapAddr .ring 0 (BitVec.ofNat 64 (s.nextRing s.cur)) s) s

/-! ## Retirement (R38, R284, R290) -/

/-- The die of a TCB's hub. -/
def hubDie (key : Nat) : Nat := key / 512 / 64

/-- An instruction acts on a TCB at its hub: behind the core's earlier requests to that hub (R237), and over the bridges to its die (R17,
R257). Where one of these has failed the error response traps RIGHTS with the TCB's reference (R266). [DESIGN CHOICE, log 123] -/
def atHub (key : Nat) (body : State → Out) (s : State) : Out :=
  let die := dieOf s.myCore
  let place := 2 ^ 58 + key
  if !s.homePast s.myCore (2 ^ 17 + key / 512) then waitFor (.homePast (2 ^ 17 + key / 512)) s
  else if s.crossCut die (hubDie key) place then trapAddr .rights 4 (refWord key) (s.logErr 1 4 (s.nameOf s.cur) (refWord key))
  else body (s.crossing die (hubDie key) place 24 24)

/-- A decrement by 1 sent to a TCB's hub by a thread (R47). -/
def State.sendDec (s : State) (r : TcbRef) (who : Word) : State :=
  s.travel (.tcbDecrement (refKey r) who) (dieOf (bits who.toNat 32 12)) (hubDie (refKey r)) 0 24

/-- TCB_DECREMENT (R36, R37). -/
def execTcbDecrement (key : Nat) (who : Word) (s : State) : Out := .next (s.subCount key 1 who)

/-- Word `n` of the overflow list of successors (R38): a valid reference, or none where the list ends, with a log entry where a word
cannot be read or is malformed. -/
def State.overflowRef (s : State) (region va : Nat) : Option TcbRef × State :=
  if 2 ^ 56 ≤ va then (none, s.logErr 7 0 0 (BitVec.ofNat 64 va))
  else
    match s.devRead region va with
    | (.error _, t) => (none, t.logErr 7 0 0 (BitVec.ofNat 64 va))
    | (.ok w, t) =>
      if bits w.toNat 32 32 != 0 then (none, t.logErr 7 0 0 (BitVec.ofNat 64 va))
      else (if bit w.toNat 31 then some (BitVec.ofNat 32 w.toNat) else none, t)

/-- The decrement of a retiring TCB's successor `i` sent to its hub. -/
def State.retireSend (s : State) (key i : Nat) (r : TcbRef) (who : Word) : State :=
  s.travel (.retireDec key i (refKey r) who) (hubDie key) (hubDie (refKey r)) 0 24

/-- Whether a queue of a region holds records that the handler has not seen (R290). -/
def State.unseen (s : State) (r base : Nat) : Bool × State :=
  if base = 0 then (false, s)
  else
    match s.queueHead r base with
    | (some [_, delivered, seen, _], t) => (seen < delivered, t)
    | (_, t) => (false, t)

/-- The handler task of a region has retired: the flag is cleared, and a new one is created if a queue holds unseen records. -/
def State.handlerEnds (s : State) (r : Nat) : State :=
  match s.region? r with
  | none => s
  | some g =>
    let s := s.modRegion r fun g => { g with handlerFlag := false }
    let (a, s) := s.unseen r g.fltq.toNat
    let (b, s) := s.unseen r g.evq.toNat
    if a || b then s.startHandler r else s

/-- Join counters of a retired task (R284): FREE with it, or once their count reaches 0. -/
def State.freeJoins (s : State) (key : Nat) : State :=
  let mine := (s.tcbs.filter fun p => p.1 != key && p.2.state != 0 && p.2.task == tcbRef key).map (·.1)
  mine.foldl (fun t j => if (t.tcb j).count = 0 then t.releaseTcb j else t.modTcb j fun c => { c with orphan := true }) s

/-- The last step of a retirement: the TCB is FREE (R38, R284, R290). -/
def State.retireEnd (s : State) (key : Nat) : State :=
  let t := s.tcb key
  let s := (s.freeJoins key).releaseTcb key
  if t.handlerOf then s.handlerEnds t.region else s

/-- A retirement from successor `i` on (R38): each valid successor in the order succ0, succ1, succ2 and then the overflow list, one at a
time; then the TCB is FREE. -/
def State.retireFrom (s : State) (key i : Nat) (who : Word) : State :=
  let t := s.tcb key
  let inline : List (Nat × TcbRef) := [(0, t.succ0), (1, t.succ1), (2, t.succ2)]
  match inline.find? fun p => i ≤ p.1 && refValid p.2 with
  | some p => s.retireSend key p.1 p.2 who
  | none =>
    if t.ovf = 0 then s.retireEnd key
    else
      let j := Nat.max i 3
      match s.overflowRef t.region (t.ovf.toNat + 8 * (j - 3)) with
      | (some r, s) => s.retireSend key j r who
      | (none, s) => s.retireEnd key

/-- TASK_RETIRE (R38): the first successor is sent its decrement; the rest follow one after another. -/
def execTaskRetire (key : Nat) (who : Word) (s : State) : Out :=
  if (s.tcb key).state = 0 then .fault .notEnabled else .next (s.retireFrom key 0 who)

/-- A successor decremented at its hub; the retiring TCB's hub goes on (R38). -/
def execRetireDec (key i ref : Nat) (who : Word) (s : State) : Out :=
  .next ((s.subCount ref 1 who).travel (.retireStep key (i + 1) who) (hubDie ref) (hubDie key) 1 16)

/-- The retirement goes on from successor `i` (R38). -/
def execRetireStep (key i : Nat) (who : Word) (s : State) : Out :=
  if (s.tcb key).state = 0 then .fault .notEnabled else .next (s.retireFrom key i who)

/-! ## `DONE` and `SYNC` (R47, R152, R153) -/

/-- Steps 3 to 5 of R152: the claims of a slot are released, and its `PORTMAP` and `TAGS` cleared. -/
def State.giveClaims (s : State) (k : Nat) : State :=
  let c := coreOf k
  let s := if (s.core c).vowner = some k then s.freeVector c else s
  let s := if (s.core c).mclaim = some k then s.freeMatrix c else s
  s.modSlot k fun sl => { sl with portmap := 0, tags := 0, gtags := 0 }

/-- `DONE` (R47, R152). -/
def execDone (s : State) : Out :=
  issueWith .done none none none (fun s =>
    let k := s.cur
    if s.tailClaimed k then waitFor .claimed s
    else
      match s.tailRec k with
      | some e => .next ((s.modCore s.myCore fun c => { c with deque := c.deque.erase e }).resumeRec k e.rcd)
      | none =>
        if s.me.ringAges != [] then
          .next ((s.modMe fun sl => { sl with st := .waiting, wait := .refill }).later (.dequeRefillArrival k))
        else
          let who := s.nameOf k
          quiesced s fun s => claimsQuiet s fun s =>
            let s := s.giveClaims k
            if refValid s.me.slink then release 5 s fun s => .next ((s.freeSlot k).sendDec s.me.slink who)
            else
              let key := refKey s.me.task
              release (s.tcb key).rscope s fun s => .next ((s.freeSlot k).later (.taskRetire key who))) s

/-- DEQUE_REFILL_ARRIVAL (R46): the youngest ring entry returns, and the waiting pop completes. [DEDUCED, log 91] -/
def execDequeRefillArrival (k : Nat) (s : State) : Out :=
  if (s.slot k).waits != .refill then .fault .notEnabled
  else
    let n := (s.slot k).ringAges.length
    if n = 0 then .fault .notEnabled
    else
      let va := s.ringAddr k (((s.slot k).ringHead + n - 1) % Nat.max 1 (s.ringSize k))
      match s.ringRead k va with
      | (.error (c, l), t) =>
        let pc := (t.slot k).pc
        .next (t.takeTrap k c 2 l pc (BitVec.ofNat 64 va) 0 0 pc)
      | (.ok l, t) => .next ((t.modSlot k fun sl => { sl with ringAges := sl.ringAges.dropLast }).resumeRec k (recOf l))

/-- `SYNC` (R47, R152, R153). -/
def execSync (a : Nat) (s : State) : Out :=
  issueWith (.sync a) none none none (fun s =>
    let r := s.g a
    if !refOk r then trapNow .object s
    else quiesced s fun s =>
      let key := refKey (BitVec.ofNat 32 r.toNat)
      atHub key (fun s =>
      let t := s.tcb key
      if t.state != 3 then trapNow .object s
      else if t.count = 0 then acquiring s fun s => done (.sync a) (s.acquire 5 s.myCore)
      else if !s.dequeEmpty s.cur then trapIllegal (.sync a) s
      else claimsQuiet s fun s =>
        let sl := s.me
        let fp := s.g 1
        let s := s.modTcb key fun t => { t with pc := sl.pc + 4, fp := fp, task := sl.task, slink := sl.slink, state := 4, pin := none }
        .next (s.freeSlot s.cur)) s) s

/-! ## `TCBNEW`, `TCBSUCC`, `TCBPRED` (R154 to R156) -/

/-- `TCBNEW` (R154). -/
def execTcbnew (d a : Nat) (s : State) : Out :=
  issueWith (.tcbnew d a) none none none (fun s =>
    let va := s.g a
    if va.toNat % 64 != 0 then trapAddr .align 0 va s
    else if bits va.toNat 56 8 != 0 then trapAddr .rights 2 va s
    else
      match s.readBehind s.cur va.toNat 8 with
      | some line => waitFor (.ordered line) s
      | none =>
      match s.threadReads s.cur va.toNat 8 with
      | (.error (c, l, x), s) => TrapInfo.raise { c := c, source := 2, level := l, xaddr := BitVec.ofNat 64 x } s
      | (.ok l, s) =>
        if !imageOk l then trapNow .object s
        else release 5 s fun s =>
          match s.freeTcb? (clusterOf s.myCore) with
          | none => done (.tcbnew d a) (s.setG d 0)
          | some key =>
            let t := tcbOfImage l s.me.region (s.prioOf s.me.region) s.me.task
            done (.tcbnew d a) ((s.installTcb key t (s.nameOf s.cur)).setG d (refWord key))) s

/-- The count of a TCB increased by 1 (R155); at 2^32 − 1 the result is not stated, and is a free value. [DESIGN CHOICE, log 92] -/
def State.incCount (s : State) (key : Nat) : State :=
  let v := if (s.tcb key).count = BitVec.allOnes 32 then BitVec.ofNat 32 (Config.freeNat s.tick) else (s.tcb key).count + 1
  s.modTcb key fun t => { t with count := v }

/-- The first null inline successor of a TCB set to a reference. -/
def Tcb.addSucc (t : Tcb) (r : TcbRef) : Option Tcb :=
  if !refValid t.succ0 then some { t with succ0 := r }
  else if !refValid t.succ1 then some { t with succ1 := r }
  else if !refValid t.succ2 then some { t with succ2 := r }
  else none

/-- `TCBSUCC` (R155). -/
def execTcbsucc (a b : Nat) (s : State) : Out :=
  issueWith (.tcbsucc a b) none none none (fun s =>
    if !refOk (s.g a) || !refOk (s.g b) then trapNow .object s
    else
      let ka := refKey (BitVec.ofNat 32 (s.g a).toNat)
      let kb := refKey (BitVec.ofNat 32 (s.g b).toNat)
      let who := s.nameOf s.cur
      atHub kb (atHub ka fun s =>
      if (s.tcb kb).state != 1 then trapNow .object s
      else
        let s := s.incCount kb
        let t := s.tcb ka
        if t.state = 0 then done (.tcbsucc a b) (s.subCount kb 1 who)
        else
          match t.addSucc (tcbRef kb) with
          | none => trapNow .object (s.subCount kb 1 who)
          | some t => done (.tcbsucc a b) (s.modTcb ka fun _ => t)) s) s

/-- `TCBPRED` (R156). -/
def execTcbpred (a b : Nat) (s : State) : Out :=
  issueWith (.tcbpred a b) none none none (fun s =>
    if !refOk (s.g a) then trapNow .object s
    else
      let key := refKey (BitVec.ofNat 32 (s.g a).toNat)
      let n := sextInt ((s.g b).toNat % 2 ^ 32) 32
      if n < 0 then release 5 s (atHub key fun s => done (.tcbpred a b) (s.subCount key n.natAbs (s.nameOf s.cur)))
      else if n = 0 then done (.tcbpred a b) s
      else atHub key (fun s =>
        let t := s.tcb key
        if t.state = 2 || t.state = 0 || 2 ^ 32 ≤ t.count.toNat + n.toNat then trapNow .object s
        else done (.tcbpred a b) (s.modTcb key fun t => { t with count := t.count + BitVec.ofNat 32 n.toNat })) s) s

end Sys2Proof.Machine
end

