-- ==== Sys2Proof/Machine/Engines.lean ====
section
/-! DEFINITION. Asynchronous engines (chapter 17, R210 to R232): tags, the stride engine, Vault, the fabric, and the sending and
receiving of donations (R157, R283). An operation moves its data in single moves, in any order the chapter allows; ENGINE_COMPLETE
makes what moves are left and then steps 2 to 5 of R212. -/

namespace Sys2Proof.Machine

/-! ## Tags (R210, R213) -/

/-- The acquire of tags (R213, R245): where an operation of one of them wrote global memory, the core's clean L1 lines are dropped. -/
def State.acquireTags (s : State) (m : Word) : State := if s.me.gtags &&& m = 0 then s else s.dropCleanL1 s.myCore

/-- Dequeues tags of the issuing slot, with their acquire (R213, R245). -/
def State.takeTags (s : State) (m : Word) : State :=
  (s.acquireTags m).modMe fun sl => { sl with tags := sl.tags &&& ~~~m, gtags := sl.gtags &&& ~~~m }

/-- `WAITT` (R213). -/
def execWaitt (a : Nat) (s : State) : Out :=
  issueWith (.waitt a) none none none (fun s =>
    let m := s.g a
    if m &&& ~~~(s.me.tags ||| s.me.inflight) != 0 then trapNow .object s
    else if s.me.tags &&& m != m then parkFor (.tagsAll m) s
    else checkFailed m s fun s => acquiring s fun s => done (.waitt a) (s.takeTags m)) s

/-- `WAITA` (R213). -/
def execWaita (a : Nat) (s : State) : Out :=
  issueWith (.waita a) none none none (fun s =>
    let m := s.g a
    if m &&& (s.me.tags ||| s.me.inflight) = 0 then trapNow .object s
    else if s.me.tags &&& m = 0 then parkFor (.tagsAny m) s
    else checkFailed (s.me.tags &&& m) s fun s => acquiring s fun s => done (.waita a) (s.acquireTags (s.me.tags &&& m))) s

/-- `TFIRST` (R213). -/
def execTfirst (d : Nat) (s : State) : Out :=
  issueWith (.tfirst d) none none (some d) (fun s =>
    let t := ((range' 0 64).find? fun i => bit s.me.tags.toNat i).getD 64
    done (.tfirst d) (putDst d (BitVec.ofNat 64 t) s)) s

/-- `TCLR` (R213). -/
def execTclr (a : Nat) (s : State) : Out :=
  issueWith (.tclr a) none none none (fun s =>
    let m := s.me.tags &&& s.g a
    checkFailed m s fun s => acquiring s fun s => done (.tclr a) (s.takeTags m)) s

/-- `RDPACE` (R217). -/
def execRdpace (d : Nat) (s : State) : Out :=
  issueWith (.rdpace d) none none (some d) (fun s =>
    let (v, s) := s.noteRead s.cur (s.sysRead s.cur 0x030)
    done (.rdpace d) (putDst d v s)) s

/-! ## What an address names for an engine (R22, R25, R221, R304, R330) -/

/-- The state with an operation changed. -/
def State.modEng (s : State) (id : Nat) (f : EngOp → EngOp) : State :=
  { s with engs := s.engs.map fun o => if o.id = id then f o else o }

/-- The thread that an operation belongs to. -/
def EngOp.who (o : EngOp) : Nat := match o.image with | some m => 2 ^ 20 + m | none => o.slot

/-- An engine's cause of a cause. -/
def causeEng : Cause → EngCause
  | .page => .page
  | .machine => .machine
  | _ => .rights

/-- A translation for an operation: through the tile's TLB and its walkers, or at the issue of the instruction. -/
abbrev EngXlate := State → Nat → Acc3 → Except (Cause × Nat) Trans × State

/-- The translation of the tile's NI (R303). -/
def EngOp.xlate (o : EngOp) : EngXlate := fun s va need => s.unitXlate none o.tile o.region va need

/-- The translation that an instruction makes at its issue. -/
def EngOp.xlateNow (o : EngOp) : EngXlate := fun s va need => s.xlate o.region va need

/-- What a global address names, with the checks of its translation; `key` is the memory key that a tensor asks for. An address of 2^56 and
above, of an element of a tensor, has no translation and fails with RIGHTS. [DESIGN CHOICE, log 129] -/
def State.aimGlob (s : State) (x : EngXlate) (o : EngOp) (va : Nat) (need : Acc3) (key : Nat) : Except (EngCause × Nat) Site × State :=
  if 2 ^ 56 ≤ va then (.error (.rights, 0), s)
  else
    match x s va need with
    | (.error (c, l), s) => (.error (causeEng c, l), s)
    | (.ok t, s) =>
      if key != 0 && key != t.key || need.stores && s.inObjTable t.pa then (.error (.rights, 0), s)
      else (.ok { place := t.pa, key := t.key, cached := t.cached, narrow := narrowHbm (coreOf o.slot) t.pa }, s)

/-- What an address names for an operation, with the checks of its source (R221, R330). -/
def State.aimEng (s : State) (x : EngXlate) (o : EngOp) (addr : Word) (need : Acc3) : Except (EngCause × Nat) Site × State :=
  let a := addr.toNat
  let core := coreOf o.slot
  let off := bits a 0 44
  if a < 2 ^ 56 then s.aimGlob x o a need 0
  else if bits a 56 8 = 1 && bits a 44 12 = s.host.modid then
    match s.region? o.region with
    | some g =>
      if s.grants o.region (clusterOf (bits a 32 12)) && g.partHas (bits a 0 32) 8 then (.ok (coreSite core (bits a 32 12) (bits a 0 32)), s)
      else (.error (.rights, 0), s)
    | none => (.error (.rights, 0), s)
  else if bits a 56 8 = 2 && bits a 44 12 = s.host.modid then
    match s.findObj o.region fun e => isExport s.host.modid s.host.modid e && exCovers e a with
    | (none, s) => (.error (.rights, 0), s)
    | (some (_, e), s) =>
      if !exRight e need then (.error (.rights, 0), s)
      else if 2 ^ 40 ≤ off then
        match s.aimGlob x o ((bits e 0 64 + (off - 2 ^ 40) % 2 ^ 34) % 2 ^ 56) need 0 with
        | (.ok t, s) => (.ok { t with cached := false, narrow := 5 }, s)
        | r => r
      else (.ok { place := chipPlace off, narrow := 5 }, s)
  else if bits a 56 8 = 1 || bits a 56 8 = 2 then
    match s.findObj o.region fun e => isExport s.host.modid (bits a 44 12) e && exCovers e a with
    | (none, s) => (.error (.rights, 0), s)
    | (some (_, e), s) =>
      if exRight e need then
        (.ok { place := awayPlace, away := some (bits a 44 12), tregion := if bits a 56 8 = 1 then bits e 460 16 else 0,
               narrow := s.narrowAway (bits a 44 12) }, s)
      else (.error (.rights, 0), s)
  else (.error (.rights, 0), s)

/-- What a source or destination of a copy names: global alone for the global side of `FETCH` and `STOREB` (R218). -/
def State.aimCopy (s : State) (o : EngOp) (addr : Word) (need : Acc3) : Except (EngCause × Nat) Site × State :=
  if o.kind = .storeB && need.stores || o.kind = .fetch && !need.stores then s.aimGlob o.xlate o addr.toNat need 0
  else s.aimEng o.xlate o addr need

/-! ## Issue (R211, R218, R219) -/

/-- Whether a tag of the issuing slot is in flight or set (R211). -/
def State.tagBusy (s : State) (tag : Nat) : Bool := bit (s.me.tags ||| s.me.inflight).toNat tag

/-- The partitioned address of an offset on a core of this module (R23). -/
def State.partAddr (s : State) (core off : Nat) : Word := BitVec.ofNat 64 (2 ^ 56 + s.host.modid * 2 ^ 44 + core * 2 ^ 32 + off)

/-- Whether bytes at an address lie in the region's partition of a core of this module that its core set grants (R221). -/
def State.inAnyPart (s : State) (region : Nat) (addr : Word) (n : Nat) : Bool :=
  let a := addr.toNat
  bits a 56 8 == 1 && bits a 44 12 == s.host.modid && s.grants region (clusterOf (bits a 32 12)) &&
    s.inPart (bits a 32 12) region a (a + n : Nat)

/-- Whether a counter offset names a word of the region's partition or of the hub synchronisation words (R221).
[DEDUCED, log 64] -/
def State.counterOk (s : State) (region coff : Nat) : Bool :=
  match s.region? region with | some g => g.partHas coff 8 | none => false

/-- The kinds that use the stride engine (R218, R220). -/
def EngKind.strides : EngKind → Bool
  | .fetch => true | .push => true | .pushX => true | .pushM => true | .storeB => true | _ => false

/-- The sub of an operation (R218, R157). -/
def EngKind.sub : EngKind → Nat
  | .fetch => 0 | .push => 1 | .pushX => 1 | .pushM => 2 | .storeB => 3 | .gather => 4 | .scatter => 5 | .fabred => 6 | .donate => 7

/-- An operation of the issuing slot, before its number is given, with Relay's membership table as it issues. -/
def State.newOp (s : State) (kind : EngKind) (a b c : Word) (tag scope : Nat) (cnt : Bool) : EngOp :=
  { id := 0, kind := kind, slot := s.cur, tile := tileOf s.myCore, region := s.me.region, a := a, b := b, c := c, ent := 0,
    tag := tag, scope := scope, cnt := cnt, present := if s.pacer.group.isSome then s.pacer.members else [] }

/-- An operation is accepted: its tag is in flight, and the thread goes on (R211). -/
def acceptOp (i : Instr) (o : EngOp) (s : State) : Out :=
  let (id, s) := s.fresh
  let s := s.modMe fun sl => { sl with inflight := sl.inflight ||| (1#64 <<< o.tag) }
  let s := { s with engs := s.engs ++ [{ o with id := id }] }
  done i (if o.spilled.isNone then s.laters [.engineMove id, .engineComplete id] else s)

/-- Step 4 of R219: a command of the stride engine takes an on-chip entry, spills (R220), waits, or traps RING. The ring is that of the
lowest-indexed object of type 3; one with a nonzero reserved field or a base that is no multiple of 64 is none a command can spill to.
[DESIGN CHOICE, log 71] -/
def acceptStride (i : Instr) (o : EngOp) (s : State) : Out :=
  let strq := (s.region? o.region).elim 0 Region.strq
  if s.entryFree o.tile then acceptOp i o s
  else if !s.sectionFree o.tile o.region then waitFor .engineRoom s
  else
    match s.findObj o.region fun e => objType e == 3 with
    | (none, s) => trapAddr .ring 0 0 s
    | (some (_, e), s) =>
      let n := match (s.sectionOf o.tile o.region).getLast? with | some p => (p.spilled.getD 0 + 1) % strq | none => 0
      let va := (bits e 0 64 + o.tile * strq * 64 + 64 * n) % 2 ^ 64
      let words := (range' 0 8).map fun k => Config.freeWord (s.tick + k)
      if objReserved s.host.modid e || bits e 0 6 != 0 then trapAddr .ring 0 (BitVec.ofNat 64 va) s
      else
        match s.aimGlob o.xlateNow o va .w 0 with
        | (.error _, s) => trapAddr .ring 0 (BitVec.ofNat 64 va) s
        | (.ok t, s) =>
          match (s.purgeAround s.myCore t.place).devWrites o.region va words with
          | (.error _, s) => trapAddr .ring 0 (BitVec.ofNat 64 va) s
          | (.ok _, s) => acceptOp i { o with spilled := some n } s

/-- The length of a copy (R221). -/
def EngOp.len (o : EngOp) : Nat := bits o.c.toNat 0 32

/-- The counter field of a copy control word (R221). -/
def EngOp.coff (o : EngOp) : Nat := bits o.c.toNat 32 32

/-- The checks of R219 that the copies share, around those of one form: `obj` for `XINFO`, `far` whether coff is a chip counter
index, `align` the addresses of its own of step 2, `rights` the checks of step 3. [DEDUCED, log 63] -/
def copyChecks (obj : Nat) (o : EngOp) (far : Bool) (align : List Word) (counter : State → Word) (rights : State → Option Word)
    (body : State → Out) (s : State) : Out :=
  if 262144 < o.len || (!o.cnt && o.coff != 0) || (far && 131071 < o.coff) then trapObject obj s
  else if o.a.toNat % 8 != 0 then trapAddr .align 0 o.a s
  else if o.b.toNat % 8 != 0 then trapAddr .align 0 o.b s
  else if o.len % 8 != 0 then trapAddr .align 0 (o.b + BitVec.ofNat 64 o.len) s
  else if o.cnt && !far && o.coff % 8 != 0 then trapAddr .align 0 (counter s) s
  else
    match align.find? fun a => a.toNat % 8 != 0 with
    | some a => trapAddr .align 0 a s
    | none =>
      match rights s with
      | some a => trapAddr .rights 0 a s
      | none => body s

/-- The first address that fails, if any. -/
def firstBad (l : List (Bool × Word)) : Option Word := (l.find? fun p => !p.1).map (·.2)

/-- `FETCH` (R218, R221). -/
def execFetch (a b c tag scope : Nat) (cnt : Bool) (s : State) : Out :=
  let i : Instr := .fetch a b c tag scope cnt
  issueWith i none none none (fun s =>
    let o := s.newOp .fetch (s.g a) (s.g b) (s.g c) tag scope cnt
    let ctr := s.partAddr s.myCore o.coff
    if s.tagBusy tag then trapObject 0 s
    else copyChecks 0 o false [] (fun _ => ctr) (fun s => firstBad
      [(s.inPart s.myCore o.region o.a.toNat (o.a.toNat + o.len : Nat), o.a), (bits o.b.toNat 56 8 == 0, o.b),
       (!cnt || s.counterOk o.region o.coff, ctr)])
      (acceptStride i { o with counter := ctr, members := [o.a] }) s) s

/-- `PUSH` to a core of this module (R218, R221). -/
def execPush (a b c tag scope : Nat) (cnt : Bool) (s : State) : Out :=
  let i : Instr := .push a b c tag scope cnt
  issueWith i none none none (fun s =>
    let o := s.newOp .push (s.g a) (s.g b) (s.g c) tag scope cnt
    let ctr := s.partAddr (bits o.a.toNat 32 12) o.coff
    if s.tagBusy tag then trapObject 0 s
    else copyChecks 0 o false [] (fun _ => ctr) (fun s => firstBad
      [(s.inPart s.myCore o.region o.b.toNat (o.b.toNat + o.len : Nat), o.b), (s.inAnyPart o.region o.a o.len, o.a),
       (!cnt || s.counterOk o.region o.coff, ctr)])
      (acceptStride i { o with counter := ctr, members := [o.a] }) s) s

/-- The export window or counter addresses that one object grants (R330). -/
def exGrants (e : Nat) (addr : Word) : Bool :=
  bits addr.toNat 56 8 == 2 && bits addr.toNat 44 12 == bits e 476 12 && exCovers e addr.toNat

/-- The last byte of a range, or its first byte where it is empty. -/
def lastByte (a : Word) (n : Nat) : Word := if n = 0 then a else a + BitVec.ofNat 64 (n - 1)

/-- Whether an address lies in an export window (R26). -/
def isWindow (addr : Word) : Bool := bits addr.toNat 56 8 == 2 && 2 ^ 40 ≤ bits addr.toNat 0 44

/-- `PUSH.x` to another module's export window (R218, R221, R330). -/
def execPushX (obj a b c tag scope : Nat) (cnt : Bool) (s : State) : Out :=
  let i : Instr := .pushX obj a b c tag scope cnt
  issueWith i none none none (fun s =>
    let o := s.newOp .pushX (s.g a) (s.g b) (s.g c) tag scope cnt
    if s.tagBusy tag then trapObject obj s
    else
      match s.objFor o.region obj 6 with
      | (.error t, s) => t.raise s
      | (.ok e, s) =>
        let ctr := BitVec.ofNat 64 (2 * 2 ^ 56 + bits e 476 12 * 2 ^ 44 + 0x200000 + 8 * o.coff)
        if !bit e 497 then trapObject obj s
        else copyChecks obj o true [] (fun _ => ctr) (fun s => firstBad
          [(s.inPart s.myCore o.region o.b.toNat (o.b.toNat + o.len : Nat), o.b),
           (isWindow o.a && bits o.a.toNat 44 12 != s.host.modid && exGrants e o.a && exGrants e (lastByte o.a o.len), o.a),
           (!cnt || exGrants e ctr, ctr)])
          (acceptStride i { o with counter := ctr, members := [o.a], ent := BitVec.ofNat 512 e }) s) s

/-- The members of an address group (R223). -/
def groupCount (e : Nat) : Nat := bits e 472 16

/-- The member list of an address group (R223). -/
def groupBase (e : Nat) : Word := BitVec.ofNat 64 (bits e 0 64)

/-- An address group with a right, given by its bit, and at most 4,096 members; one of no members is moved nothing (R212, R223).
[DEDUCED, log 65] -/
def withGroup (obj region right : Nat) (body : Nat → State → Out) (s : State) : Out :=
  match s.objFor region obj 2 with
  | (.error t, s) => t.raise s
  | (.ok e, s) => if !bit e right || 4096 < groupCount e then trapObject obj s else body e s

/-- `PUSHM` (R218, R221, R223). -/
def execPushm (obj a b c tag scope : Nat) (cnt : Bool) (s : State) : Out :=
  let i : Instr := .pushm obj a b c tag scope cnt
  issueWith i none none none (fun s =>
    let o := s.newOp .pushM (s.g a) (s.g b) (s.g c) tag scope cnt
    if s.tagBusy tag then trapObject obj s
    else withGroup obj o.region 497 (fun e =>
      copyChecks obj o false [groupBase e] (fun s => s.partAddr s.myCore o.coff) (fun s => firstBad
        [(s.inPart s.myCore o.region o.b.toNat (o.b.toNat + o.len : Nat), o.b), (bits e 56 8 == 0, groupBase e)])
        (acceptStride i { o with ent := BitVec.ofNat 512 e })) s) s

/-- `STOREB` (R218, R221). -/
def execStoreb (a b c tag scope : Nat) (cnt : Bool) (s : State) : Out :=
  let i : Instr := .storeb a b c tag scope cnt
  issueWith i none none none (fun s =>
    let o := s.newOp .storeB (s.g a) (s.g b) (s.g c) tag scope cnt
    let ctr := s.partAddr s.myCore o.coff
    if s.tagBusy tag then trapObject 0 s
    else copyChecks 0 o false [] (fun _ => ctr) (fun s => firstBad
      [(s.inPart s.myCore o.region o.b.toNat (o.b.toNat + o.len : Nat), o.b), (bits o.a.toNat 56 8 == 0, o.a),
       (!cnt || s.counterOk o.region o.coff, ctr)])
      (acceptStride i { o with counter := ctr, members := [o.a] }) s) s

/-! ## Accesses of engines (R234, R235, R245, R259 to R264) -/

/-- Whether an operation may start (R222): it stands on chip, and the accesses its thread issued before it are performed: its requests,
its vector elements and the operations of its matrix queue. Those of a thread that is stopped, other than requests, are not waited for.
[DEDUCED, log 72] -/
def State.engReady (s : State) (o : EngOp) : Bool :=
  let c := s.core (coreOf o.slot)
  o.spilled.isNone && ((s.reqs ++ s.deferred ++ s.heldReqs).all fun q => o.id ≤ q.id || (s.originals 8 q).all fun r => r.src != o.who) &&
    (o.image.isSome || (s.slot o.slot).frozen ||
      ((c.seq.all fun e => o.id ≤ e.id || e.slot != o.slot) && c.mq.all fun m => o.id ≤ m.mark || m.slot != o.slot))

/-- The bridges between an operation's tile and a place. -/
def EngOp.path (o : EngOp) (place : Nat) : List Nat := bridgePath (dieOf (coreOf o.slot)) (homeDie place (dieOf (coreOf o.slot)))

/-- Whether the way of an operation's packets to a place crosses a failed bridge (R266). -/
def State.cutOff (s : State) (o : EngOp) (place : Nat) : Bool := (o.path place).any fun d => (s.bridge d).st == .failed

/-- What an engine's access to a home waits for, if anything: the write-backs of its cluster's L1s (R235), the lock of the line
(R259), a recall (R263), reads that follow a redirect (R264). The state has what it waits for asked. [DEDUCED, log 73] -/
def State.engWaits (s : State) (o : EngOp) (t : Site) (writes : Bool) : Option State :=
  let line := t.place / 128
  let cl := clusterOf (coreOf o.slot)
  if !isHbm t.place || t.away.isSome then none
  else
    let u := if writes then s.purge cl line else (clusterCores cl).foldl (fun t c => t.writeBack c line) s
    if u.backs fun q => q.place / 128 == line && clusterOf (srcCore q.src) == cl then some u
    else if s.lockHeld line then some s
    else if writes && (s.hotOf line).isSome then some (s.ask (.hotLineRecall line))
    else if writes && s.follows o.tile line then some s
    else none

/-- The tile NI's redirect for a line dropped before a write (R264). -/
def State.dropRedirect (s : State) (tile line : Nat) : State :=
  { s with cache := { s.cache with redirects := s.cache.redirects.filter fun r => !(r.tile == tile && r.line == line) } }

/-- The helper's replica that serves a read of the kind counted in R261 (R262): one of a line that is redirected, unless the region is in
capture mode. -/
def State.replicaFor (s : State) (o : EngOp) (t : Site) : Option Line :=
  match s.redirectOf o.tile (t.place / 128) with
  | some r =>
    if (s.captureOf o.region).isSome then none
    else (find s.cache.replicas (r.slice * 2 ^ 32 + t.place / 128)).bind fun l => if l.key = t.key then some l else none
  | none => none

/-- The engine of a kind of operation: the stride engine, the Vault front end, the hub's others. -/
def EngKind.engine (k : EngKind) : Nat :=
  match k with
  | .fetch | .push | .pushX | .pushM | .storeB => 0
  | .gather | .scatter => 1
  | .fabred | .donate => 2

/-- A read of an engine counted at the bank (R261), unless a helper's replica serves it. -/
def State.countEng (s : State) (o : EngOp) (t : Site) : State :=
  if isHbm t.place && (s.replicaFor o t).isNone then s.countAt o.tile o.region t.place t.key else s

/-- An access of an engine performed at its home on this module (R234), where nothing is left to wait for. A source read of a `FETCH` counts
in R261 once for each 64 B of it. -/
def State.engDo (s : State) (o : EngOp) (t : Site) (addr : Word) (op : HomeOp) (v : Word) : Except EngCause Word × State :=
  let line := t.place / 128
  if s.cutOff o t.place then (.error .rights, s.logErr 1 7 (s.threadName o.who) addr)
  else
    let counted := plainLoad op && isHbm t.place && (o.kind == .gather || o.kind == .fetch)
    let s := if counted && o.kind == .fetch && (addr.toNat % 64 == 0 || addr == o.b) then s.countEng o t else s
    let s := if isHbm t.place && !plainLoad op then (s.purge (clusterOf (coreOf o.slot)) line).dropRedirect o.tile line else s
    let q : Req := { id := 0, src := o.who, region := o.region, op := op, addr := addr, place := t.place, v1 := v, source := 7,
                     key := t.key, scope := o.scope, rel := op == .atomic .cadd .d }
    match (if counted then s.replicaFor o t else none), op with
    | some l, .load n =>
      let s := s.charge (engineWork o.tile o.kind.engine) o.region (s.cost 1)
      if l.badWord (t.place % 128 / 8) then (.error .machine, s.logReq q 4) else (.ok (BitVec.ofNat 64 (l.num (t.place % 128) n)), s)
    | _, _ =>
      let lost := s.unitLost t.place t.key
      let s := if isHbm t.place then s.unitLine line t.key (!plainLoad op) else s
      if lost then (.error .rights, s.logErr 1 7 (s.threadName o.who) addr)
      else if s.work.isSome && s.early q then (.ok 0, { s with stalled := true })
      else
        match s.homeStep q with
        | (.answered (.ok w), s) => (.ok w, s)
        | (.answered (.err c), s) => (.error (causeEng c), s)
        | (_, s) => (.error .rights, s)

/-- A word read at a site by an engine. -/
def engLoad (o : EngOp) (r : Except (EngCause × Nat) Site × State) (addr : Word) (len : Nat) :
    Except (EngCause × Nat) Nat × State :=
  match r with
  | (.error e, s) => (.error e, s)
  | (.ok t, s) =>
    match s.engDo o t addr (.load len) 0 with
    | (.error c, s) => (.error (c, 0), s)
    | (.ok v, s) => (.ok v.toNat, s)

/-- The operation remembers how far away it wrote, and that it wrote global memory (R243, R245). -/
def State.noteWrite (s : State) (o : EngOp) (t : Site) : State :=
  s.modEng o.id fun p => { p with wide := Nat.max p.wide t.narrow, wrote := p.wrote || isHbm t.place }

/-- `len` bytes within a word written at a site by an engine. -/
def engStore (o : EngOp) (r : Except (EngCause × Nat) Site × State) (addr : Word) (len v : Nat) :
    Except (EngCause × Nat) Unit × State :=
  match r with
  | (.error e, s) => (.error e, s)
  | (.ok t, s) =>
    match s.engDo o t addr (.store len) (BitVec.ofNat 64 v) with
    | (.error c, s) => (.error (c, 0), s)
    | (.ok _, s) => (.ok (), s.noteWrite o t)

/-- A failure of an operation noted, unless its member, element or rank has failed already. -/
def EngOp.fail (o : EngOp) (f : EngFail) : EngOp :=
  if o.fails.any fun g => g.idx == f.idx then o else { o with fails := o.fails ++ [f] }

/-- Whether a member, element or rank has failed. -/
def EngOp.failed (o : EngOp) (i : Nat) : Bool := o.fails.any fun f => f.idx == i

/-- The failure of lowest index. -/
def EngOp.firstFail (o : EngOp) : Option EngFail :=
  o.fails.foldl (fun m f => match m with | some g => if f.idx < g.idx then some f else m | none => some f) none

/-! ## Bytes of the own scratchpad -/

/-- Bytes of the own scratchpad read, from one word or two. -/
def State.padRead (s : State) (o : EngOp) (addr : Word) (len : Nat) : Except (EngCause × Nat) Nat × State :=
  let n := Nat.min len (8 - addr.toNat % 8)
  match engLoad o (s.aimEng o.xlate o addr .r) addr n with
  | (.error e, s) => (.error e, s)
  | (.ok v, s) =>
    if n = len then (.ok v, s)
    else
      let next := addr + BitVec.ofNat 64 n
      match engLoad o (s.aimEng o.xlate o next .r) next (len - n) with
      | (.error e, s) => (.error e, s)
      | (.ok u, s) => (.ok (v + u * 2 ^ (8 * n)), s)

/-- Bytes of the own scratchpad written, in one word or two. -/
def State.padWrite (s : State) (o : EngOp) (addr : Word) (len v : Nat) : Except (EngCause × Nat) Unit × State :=
  let n := Nat.min len (8 - addr.toNat % 8)
  match engStore o (s.aimEng o.xlate o addr .w) addr n (v % 2 ^ (8 * n)) with
  | (.error e, s) => (.error e, s)
  | (.ok _, s) =>
    let next := addr + BitVec.ofNat 64 n
    if n = len then (.ok (), s) else engStore o (s.aimEng o.xlate o next .w) next (len - n) (v / 2 ^ (8 * n))

/-- Words written to the own scratchpad from an offset on; a word of a home that refuses stays. -/
def State.padWords (s : State) (o : EngOp) (off : Nat) : List Word → State
  | [] => s
  | w :: r => (s.padWrite o (s.partAddr (coreOf o.slot) off) 8 w.toNat).2.padWords o (off + 8) r

/-! ## Copies (R222, R223) -/

/-- Words of a copy. -/
def EngOp.words (o : EngOp) : Nat := o.len / 8

/-- The end, in words, of the 64 B unit of a copy that begins with word w: units follow one another from the first byte of the copy
(R222). [DEDUCED, log 62] -/
def unitEnd (w n : Nat) : Nat := Nat.min n (w + 8)

/-- Words delivered to a member. -/
def EngOp.got (o : EngOp) (m : Nat) : Nat := o.moved.getD m 0

/-- The destination of word w at a member. -/
def EngOp.destOf (o : EngOp) (m w : Nat) : Word := o.members.getD m 0 + BitVec.ofNat 64 (8 * w)

/-- The address of word w of the source. -/
def EngOp.srcOf (o : EngOp) (w : Nat) : Word := o.b + BitVec.ofNat 64 (8 * w)

/-- The state with the words delivered to a member of an operation set. -/
def State.setMoved (s : State) (o : EngOp) (m w : Nat) : State :=
  s.modEng o.id fun p =>
    { p with moved := (range' 0 (Nat.max p.moved.length (m + 1))).map fun k => if k = m then w else p.moved.getD k 0 }

/-- A member of a copy has its bytes, or has failed. -/
def EngOp.served (o : EngOp) (m : Nat) : Bool := o.failed m || o.words ≤ o.got m

/-- A member of a `PUSHM` that is served is to acknowledge, after its counter add (R223). [DEDUCED, log 66] -/
def State.tellMember (s : State) (o : EngOp) (m : Nat) : State :=
  match s.engs.find? (·.id == o.id) with
  | some p =>
    if p.kind = .pushM && p.served m then
      let own := dieOf (coreOf o.slot)
      let there := dieOf (bits (p.members.getD m 0).toNat 32 12)
      if o.cnt then s.travel (.memberReached o.id m) own there 2 24 else s.travel (.pushmMemberAck o.id m) there own 1 16
    else s
  | none => s

/-- A member of a copy fails. -/
def State.failMember (s : State) (o : EngOp) (m : Nat) (c : EngCause) (addr : Word) (level : Nat) : State :=
  (s.modEng o.id fun p => p.fail { idx := m, cause := c, addr := addr, level := level }).tellMember o m

/-- The sites of the destination words of a unit from w on, or the first fault of them: translation, rights, the way there, and what
its home would refuse (R222). -/
def State.unitSites (s : State) (o : EngOp) (m : Nat) (whole : Bool) : Nat → Nat → Except (EngCause × Word × Nat) (List Site) × State
  | 0, _ => (.ok [], s)
  | n + 1, w =>
    let addr := o.destOf m w
    match s.aimCopy o addr .w with
    | (.error (c, l), s) => (.error (c, addr, l), s)
    | (.ok t, s) =>
      let q : Req := { id := 0, src := o.who, region := o.region, op := .store 8, addr := addr, place := t.place, source := 7 }
      let u := s.unitHome t.place t.key true
      if u.stalled then (.ok [], u)
      else if s.cutOff o t.place || s.unitLost t.place t.key then (.error (.rights, addr, 0), s.logErr 1 7 (s.threadName o.who) addr)
      else
        match s.siteErr q with
        | some kind => (.error (.rights, addr, 0), s.logReq q kind)
        | none =>
          if !whole && u.homeMergeBad t.place 8 then (.error (.machine, addr, 0), s.logReq q 4)
          else
            match s.unitSites o m whole n (w + 1) with
            | (.error e, s) => (.error e, s)
            | (.ok l, s) => (.ok (t :: l), s)

/-- The words of a unit written at their sites. -/
def State.unitStores (s : State) (o : EngOp) (m w : Nat) : List Site → State
  | [] => s
  | t :: r => (engStore o (.ok t, s) (o.destOf m w) 8 (o.src.getD w 0).toNat).2.unitStores o m (w + 1) r

/-- A unit of a copy delivered to a member: all of it, or nothing where it faults, and then the copy stops for that member (R222). A unit
that covers a sector of HBM whose check code no data satisfies is written as a whole (R308). -/
def State.putUnit (s : State) (o : EngOp) (m : Nat) : State :=
  let w := o.got m
  let e := unitEnd w o.words
  let whole := decide (e - w = 8) && (o.destOf m w).toNat % 64 == 0
  match (if o.src.length < e then o.srcBad else none) with
  | some f => s.failMember o m f.cause f.addr f.level
  | none =>
    match s.unitSites o m whole (e - w) w with
    | (.error (c, a, l), s) => s.failMember o m c a l
    | (.ok l, s) =>
      let s := match l.head? with
        | some t =>
          let u := s.unitHome t.place t.key true
          if whole && u.homeMergeBad t.place 8 then u.homeSet t.place 64 (wordsNum ((o.src.drop w).take 8)) else s
        | none => s
      ((s.unitStores o m w l).setMoved o m e).tellMember o m

/-- The next word of a copy's source read (R222). -/
def State.readSrc (s : State) (o : EngOp) : State :=
  let addr := o.srcOf o.src.length
  match engLoad o (s.aimCopy o addr .r) addr 8 with
  | (.error (c, l), s) => s.modEng o.id fun p => { p with srcBad := some { idx := 0, cause := c, addr := addr, level := l } }
  | (.ok v, s) => s.modEng o.id fun p => { p with src := p.src ++ [BitVec.ofNat 64 v] }

/-- The address of word k of the member list (R223). -/
def EngOp.listAt (o : EngOp) (k : Nat) : Word := groupBase o.ent.toNat + BitVec.ofNat 64 (8 * k)

/-- A word of a member list that cannot be read fails the operation (R223). -/
def State.failList (s : State) (o : EngOp) (f : EngFail) : State :=
  s.modEng o.id fun p => { p with broken := true, members := [], absent := [], fails := [f] }

/-- The next word of a `PUSHM`'s member list read, and the member checked (R223). [DEDUCED, log 65] The failed mark of one that fails the check
names the destination, the member's address and g(a) added. [DESIGN CHOICE, log 129] -/
def State.readMember (s : State) (o : EngOp) : State :=
  let k := o.members.length
  let addr := o.listAt k
  match engLoad o (s.aimGlob o.xlate o addr.toNat .r 0) addr 8 with
  | (.error (c, l), s) => s.failList o { idx := k, cause := c, addr := addr, level := l }
  | (.ok v, s) =>
    let dst := BitVec.ofNat 64 v + o.a
    let ok := s.inAnyPart o.region dst o.len && dst.toNat % 8 == 0
    let s := s.modEng o.id fun p =>
      let p := { p with members := p.members ++ [dst] }
      if ok then p else { p.fail { idx := k, cause := .rights, addr := dst } with acks := p.acks ++ [k] }
    if ok then s.tellMember o k else s

/-- A unit of `PUSH.x` sent to its module (R222). -/
def State.sendUnit (s : State) (o : EngOp) : State :=
  let w := o.got 0
  let e := unitEnd w o.words
  let addr := o.a + BitVec.ofNat 64 (8 * w)
  match (if o.src.length < e then o.srcBad else none) with
  | some f => s.failMember o 0 f.cause f.addr f.level
  | none =>
    let (id, s) := s.fresh
    match s.relayFor o.region (bits o.a.toNat 44 12) 0 (.push s.host.modid id o.region (s.threadName o.who) addr ((o.src.drop w).take (e - w))) with
    | none => s.failMember o 0 .rights addr 0
    | some s =>
      (s.modEng o.id fun p => { p with asked := [(id, 0, e)], sentAt := s.time, wide := Nat.max p.wide (s.narrowAway (bits o.a.toNat 44 12)) }).later
        (.pushXTimeout o.id) (.time (s.time + 1000000))

/-! ## Vault (R224 to R229) -/

/-- The format of an operation's tensor takes whole bytes. -/
def EngOp.elemBytes (o : EngOp) : Nat := fmtBits (tFmt o.ent.toNat) / 8

/-- Bytes of an element: E, or a row of a tensor of rank 2 (R224). -/
def EngOp.rowBytes (o : EngOp) : Nat := if tRank o.ent.toNat = 2 then tExtent o.ent.toNat 0 * o.elemBytes else o.elemBytes

/-- The fields of a Vault control word (R225). -/
def vaultN (c : Word) : Nat := bits c.toNat 0 13
def vaultWide (c : Word) : Bool := bit c.toNat 13
def vaultRec (c : Word) : Nat := bits c.toNat 28 18
def vaultMap (c : Word) : Nat := bits c.toNat 46 18

/-- Bytes of an index. -/
def indexBytes (c : Word) : Nat := if vaultWide c then 8 else 4

/-- The index of element j. -/
def EngOp.index (o : EngOp) (j : Nat) : Int :=
  let w := (o.src.getD j 0).toNat
  if vaultWide o.c then (w : Int) else sextInt (w % 2 ^ 32) 32

/-- The dimension that an index runs over. -/
def EngOp.dim (o : EngOp) : Nat := if tRank o.ent.toNat = 2 then 1 else 0

/-- Whether element j lies in bounds (R224). -/
def EngOp.inBounds (o : EngOp) (j : Nat) : Bool := decide (0 ≤ o.index j) && decide (o.index j < tExtent o.ent.toNat o.dim)

/-- The address of element j (R224). -/
def EngOp.elemAt (o : EngOp) (j : Nat) : Word :=
  BitVec.ofInt 64 (tBase o.ent.toNat + o.index j * tStride o.ent.toNat o.dim * o.elemBytes)

/-- Piece p of element j: its offset in the element and its bytes. A plain element moves by aligned 8 B words, an adding one by
values (R226, R228). -/
def EngOp.piece (o : EngOp) (j p : Nat) : Nat × Nat :=
  if o.add then (p * o.elemBytes, o.elemBytes)
  else
    let a := (o.elemAt j).toNat % 8
    let lo := if p = 0 then 0 else 8 * p - a
    (lo, Nat.min (8 * (p + 1) - a) o.rowBytes - lo)

/-- The number of pieces of element j. -/
def EngOp.pieceCount (o : EngOp) (j : Nat) : Nat :=
  if o.rowBytes = 0 then 0 else if o.add then o.rowBytes / o.elemBytes else ((o.elemAt j).toNat % 8 + o.rowBytes + 7) / 8

/-- The address of piece p of element j, in the tensor and in the element area. -/
def EngOp.pieceAt (o : EngOp) (j p : Nat) : Word := o.elemAt j + BitVec.ofNat 64 (o.piece j p).1
def EngOp.padAt (o : EngOp) (j p : Nat) : Word := o.a + BitVec.ofNat 64 (j * o.rowBytes + (o.piece j p).1)

/-- The memory key that an operation's tensor asks for (R304). -/
def EngOp.key (o : EngOp) : Nat := bits o.ent.toNat 488 8

/-- The right that an element needs. -/
def EngOp.need (o : EngOp) : Acc3 := if o.kind = .gather then .r else if o.add then .rw else .w

/-- What the pieces of element j from p on name; `last` is a page that is known not to be translated. -/
def State.pieceSites (s : State) (o : EngOp) (j : Nat) : Nat → Nat → Option (Nat × EngCause × Nat) → List (Except (EngCause × Nat) Site) × State
  | 0, _, _ => ([], s)
  | n + 1, p, last =>
    let va := (o.pieceAt j p).toNat
    let known := match last with | some (page, c, l) => if page = va / 65536 then some (c, l) else none | none => none
    let (r, s) := match known with
      | some e => ((Except.error e : Except (EngCause × Nat) Site), s)
      | none => s.aimGlob o.xlate o va o.need o.key
    let last := match r with | .error (c, l) => some (va / 65536, c, l) | .ok _ => last
    let (l, s) := s.pieceSites o j n (p + 1) last
    (r :: l, s)

/-- The first of some outcomes that is a failure of which a test holds. -/
def firstErr (f : EngCause → Bool) (l : List (Except (EngCause × Nat) Site)) : Option (EngCause × Nat) :=
  l.findSome? fun r => match r with | .error (c, n) => if f c then some (c, n) else none | .ok _ => none

/-- The sites of element j, or its fault in the order of R226: of translation, of rights and key, of the way to a home, and of a word
that a write or an add cannot change. -/
def State.elemSites (s : State) (o : EngOp) (j : Nat) : Except (EngCause × Nat) (List Site) × State :=
  let (l, s) := s.pieceSites o j (o.pieceCount j) 0 none
  let sites := l.filterMap fun r => match r with | .ok t => some t | .error _ => none
  match firstErr (· != .rights) l with
  | some e => (.error e, s)
  | none =>
    match firstErr (· == .rights) l with
    | some e => (.error e, s)
    | none =>
      if sites.any fun t => s.cutOff o t.place || s.unitLost t.place t.key then (.error (.rights, 0), s.logErr 1 7 (s.threadName o.who) (o.elemAt j))
      else
        let look := if o.kind = .gather then s else sites.foldl (fun (u : State) t => u.unitHome t.place t.key true) s
        let bad := if o.kind = .gather then none else (range' 0 sites.length).findSome? fun p =>
          let t := sites.getD p { place := 0, narrow := 0 }
          let u := s.atHome t.place t.key
          if (if o.add then u.homeBad t.place else u.homeMergeBad t.place (o.piece j p).2) then some t.place else none
        match look.stalled, bad with
        | true, _ => (.ok sites, look)
        | _, some place => (.error (.machine, 0), s.logErr 4 7 (s.threadName o.who) (BitVec.ofNat 64 (wordOf place)))
        | _, none => (.ok sites, s)

/-- Element j is over. -/
def State.endElem (s : State) (o : EngOp) (j : Nat) : State :=
  s.modEng o.id fun p => { p with ended := p.ended ++ [j], begun := p.begun.filter (·.idx != j) }

/-- Element j fails: a `GATHER` fills its place (R226). -/
def State.failElem (s : State) (o : EngOp) (j : Nat) (c : EngCause) (addr : Word) (level : Nat) : State :=
  let s := s.modEng o.id fun p => p.fail { idx := j, cause := c, addr := addr, level := level }
  let E := o.elemBytes
  let s := if o.kind = .gather then
      (range' 0 (o.rowBytes / Nat.max 1 E)).foldl (fun t i =>
        (t.padWrite o (o.a + BitVec.ofNat 64 (j * o.rowBytes + E * i)) E (tFill o.ent.toNat % 2 ^ (8 * E))).2) s
    else s
  s.endElem o j

/-- A value of an adding `SCATTER` combined with what its target holds (R98). -/
def addValue (fmt old v : Nat) : Nat :=
  match fmtFloat fmt with
  | some F => (fadd F { mode := 0 } old v).1
  | none => (old + v) % 2 ^ fmtBits fmt

/-- The data of the pieces of element j from p on, read in the element area. -/
def State.elemData (s : State) (o : EngOp) (j : Nat) : Nat → Nat → Except (EngCause × Nat) (List Nat) × State
  | 0, _ => (.ok [], s)
  | n + 1, p =>
    match s.padRead o (o.padAt j p) (o.piece j p).2 with
    | (.error e, s) => (.error e, s)
    | (.ok v, s) =>
      match s.elemData o j n (p + 1) with
      | (.error e, s) => (.error e, s)
      | (.ok l, s) => (.ok (v :: l), s)

/-- The pieces of element j from p on written, or added, at their sites (R228). -/
def State.scatterPieces (s : State) (o : EngOp) (j p : Nat) : List (Site × Nat) → State
  | [] => s
  | (t, v) :: r =>
    let addr := o.pieceAt j p
    let len := (o.piece j p).2
    let (v, s) := if o.add then
        match s.engDo o t addr (.load len) 0 with
        | (.ok old, s) => (addValue (tFmt o.ent.toNat) old.toNat v, s)
        | (.error _, s) => (v, s)
      else (v, s)
    (engStore o (.ok t, s) addr len v).2.scatterPieces o j (p + 1) r

/-- Element j is taken up (R226, R228): one that faults is over; one of a `GATHER` is translated, and its pieces are read one by one; one
of a `SCATTER` is written as a whole. [DEDUCED, log 67] One whose data in the element area cannot be read fails with MACHINE and the address of
its target. [DESIGN CHOICE, log 129] -/
def State.takeElem (s : State) (o : EngOp) (j : Nat) : State :=
  let at_ := o.elemAt j
  match (if o.failed j then o.fails.find? fun f => f.idx == j else none) with
  | some f => s.failElem o j f.cause f.addr f.level
  | none =>
    if !o.inBounds j then s.failElem o j .bounds at_ 0
    else
      match s.elemSites o j with
      | (.error (c, l), s) => s.failElem o j c at_ l
      | (.ok sites, s) =>
        if o.kind = .gather then
          if sites = [] then s.endElem o j
          else s.modEng o.id fun p => { p with begun := p.begun ++ [{ idx := j, places := sites.map fun t => (t.place, t.key) }] }
        else
          match s.elemData o j (o.pieceCount j) 0 with
          | (.error (c, l), s) => s.failElem o j c at_ l
          | (.ok l, s) => (s.scatterPieces o j 0 (sites.zip l)).endElem o j

/-- The site of piece p of an element under way. -/
def EngOp.begunSite (o : EngOp) (j p : Nat) : Option Site :=
  (o.begun.find? (·.idx == j)).bind fun e => e.places[p]?.map fun x =>
    { place := x.1, key := x.2, narrow := narrowHbm (coreOf o.slot) x.1 }

/-- The pieces of element j that are not performed. -/
def EngOp.piecesLeft (o : EngOp) (j : Nat) : List Nat := (range' 0 (o.pieceCount j)).filter fun p => !o.pieces.contains (1024 * j + p)

/-- Piece p of element j of a `GATHER` read into its place (R226); the element counts once in R261 for each line that it lies in. -/
def State.readPiece (s : State) (o : EngOp) (j p : Nat) : State :=
  match o.begunSite j p with
  | none => s
  | some t =>
    let first : Bool := p == 0 || (o.begunSite j (p - 1)).elim true fun u => u.place / 128 != t.place / 128
    let s := if first then s.countEng o t else s
    match engLoad o (.ok t, s) (o.pieceAt j p) (o.piece j p).2 with
    | (.error (c, l), s) => s.failElem o j c (o.elemAt j) l
    | (.ok v, s) =>
      match s.padWrite o (o.padAt j p) (o.piece j p).2 v with
      | (.error (c, l), s) => s.failElem o j c (o.elemAt j) l
      | (.ok _, s) =>
        let s := s.modEng o.id fun q => { q with pieces := q.pieces ++ [1024 * j + p] }
        if o.piecesLeft j == [p] then s.endElem o j else s

/-- The address of index j. -/
def EngOp.indexAt (o : EngOp) (j : Nat) : Word := o.b + BitVec.ofNat 64 (indexBytes o.c * j)

/-- The next index of the index vector read; the element of one that cannot be read has failed (R225, R226). -/
def State.readIndex (s : State) (o : EngOp) : State :=
  let j := o.src.length
  match s.padRead o (o.indexAt j) (indexBytes o.c) with
  | (.error (c, l), s) => s.modEng o.id fun p => { (p.fail { idx := j, cause := c, addr := o.indexAt j, level := l }) with src := p.src ++ [0] }
  | (.ok v, s) => s.modEng o.id fun p => { p with src := p.src ++ [BitVec.ofNat 64 v] }

/-- The target words of element j, as the page tables stand. -/
def State.elemWords (s : State) (o : EngOp) (j : Nat) : List Nat :=
  (range' 0 (o.pieceCount j)).map fun p =>
    match (s.xlate o.region (o.pieceAt j p).toNat .r).1 with
    | .ok t => wordOf t.pa
    | .error _ => 2 ^ 64 + wordOf (o.pieceAt j p).toNat

/-- Whether element j may be taken up: at each target word the writes of a `SCATTER` come in ascending order (R228). An element follows an
earlier one while the words of either are not known yet. -/
def State.elemMay (s : State) (o : EngOp) (j : Nat) : Bool :=
  o.kind = .gather || !o.inBounds j ||
    (let mine := s.elemWords o j
     (range' 0 j).all fun i => o.ended.contains i || !o.inBounds i ||
       (let other := s.elemWords o i
        (mine ++ other).all (fun w => w < 2 ^ 64) && other.all fun w => !mine.contains w))

/-! ## Fabric (R231) -/

/-- The fields of a reduce control word (R231). -/
def fabN (c : Word) : Nat := bits c.toNat 0 15
def fabRec (c : Word) : Nat := bits c.toNat 28 18

/-- Words of a member's values. -/
def fabWords (c : Word) : Nat := (2 * fabN c + 7) / 8

/-- Whether an address lies on another module. -/
def State.isFar (s : State) (addr : Word) : Bool :=
  (bits addr.toNat 56 8 == 1 || bits addr.toNat 56 8 == 2) && bits addr.toNat 44 12 != s.host.modid

/-- The next word of a `FABRED`'s member list read: a member of a module outside Relay's membership table at the issue is absent; a member
elsewhere has 1 ms to answer. -/
def State.readRank (s : State) (o : EngOp) : State :=
  let k := o.members.length
  let addr := o.listAt k
  match engLoad o (s.aimGlob o.xlate o addr.toNat .r 0) addr 8 with
  | (.error (c, l), s) => s.failList o { idx := k, cause := c, addr := addr, level := l }
  | (.ok v, s) =>
    let at_ := BitVec.ofNat 64 v + o.b
    let far := s.isFar at_
    let gone := far && !o.present.contains (bits at_.toNat 44 12)
    let bad := at_.toNat % 8 != 0 || (far && !isWindow at_)
    let s := s.modEng o.id fun p =>
      let p := { p with members := p.members ++ [at_] }
      if gone then { p with absent := p.absent ++ [k] } else if bad then p.fail { idx := k, cause := .rights, addr := at_ } else p
    if far && !gone && !bad then s.later (.fabredRankTimeout o.id k) (.time (s.time + 1000000)) else s

/-- Whether a rank has nothing left to read. -/
def EngOp.rankOver (o : EngOp) (k : Nat) : Bool := o.absent.contains k || o.failed k

/-- The words of a rank neither read nor asked for. -/
def EngOp.rankLeft (o : EngOp) (k : Nat) : List Nat :=
  if o.rankOver k then []
  else (range' 0 (fabWords o.c)).filter fun w =>
    !(o.vals.any fun v => v.1 == k && v.2.1 == w) && !(o.asked.any fun v => v.2.1 == k && v.2.2 == w)

/-- A word of a rank read on this module, or asked for elsewhere (R231, R330). -/
def State.askRank (s : State) (o : EngOp) (k w : Nat) : State :=
  let addr := o.destOf k w
  let bad (c : EngCause) (l : Nat) (s : State) : State := s.modEng o.id fun p => p.fail { idx := k, cause := c, addr := addr, level := l }
  match s.aimEng o.xlate o addr .r with
  | (.error (c, l), s) => bad c l s
  | (.ok t, s) =>
    match t.away with
    | none =>
      match s.engDo o t addr (.load 8) 0 with
      | (.error c, s) => bad c 0 s
      | (.ok v, s) => s.modEng o.id fun p => { p with vals := p.vals ++ [(k, w, v)] }
    | some chip =>
      let (id, s) := s.fresh
      match s.relayFor o.region chip 0 (.request s.host.modid id o.region o.scope (s.threadName o.who) (.load 8) addr 0 0) with
      | none => bad .rights 0 s
      | some s => s.modEng o.id fun p => { p with asked := p.asked ++ [(id, k, w)] }

/-- Value i of a rank as `.f32` (R99). -/
def EngOp.rankVal (o : EngOp) (k i : Nat) : Nat :=
  let w := match o.vals.find? fun v => v.1 == k && v.2.1 == i / 4 with | some v => v.2.2.toNat | none => 0
  match unpack bf16 (bits w (16 * (i % 4)) 16) with
  | .nan _ => f32.nan
  | _ => bits w (16 * (i % 4)) 16 * 65536

/-- Result i of a `FABRED` (R99); the chapters give none for a group of no members: it is then a free value. [DESIGN CHOICE, log 122] -/
def EngOp.reduced (o : EngOp) (free i : Nat) : Nat :=
  if o.members = [] then free
  else (range' 1 (o.members.length - 1)).foldl (fun acc k => (fadd f32 { mode := 0 } acc (o.rankVal k i)).1) (o.rankVal 0 i)

/-! ## Moves -/

/-- Whether a member list is read as far as it will be. -/
def EngOp.listed (o : EngOp) : Bool := o.broken || groupCount o.ent.toNat ≤ o.members.length

/-- Whether the next unit for a member has been read, or never will be. -/
def EngOp.unitRead (o : EngOp) (m : Nat) : Bool :=
  o.srcBad.isSome || unitEnd (o.got m) o.words ≤ o.src.length

/-- The moves that a copy still needs: a `PUSHM` reads its list first (R223). -/
def EngOp.copyMoves (o : EngOp) : List EngMove :=
  if o.kind = .pushM && !o.listed then [.member]
  else
    (if o.src.length < o.words && o.srcBad.isNone && !o.broken then [EngMove.src] else []) ++
    (if o.kind = .pushX then (if !o.served 0 && o.asked == [] && o.unitRead 0 then [EngMove.away] else [])
     else ((range' 0 o.members.length).filter fun m => !o.served m && o.unitRead m).map EngMove.unit)

/-- The moves that a Vault operation still needs: the index vector is read in full before an element is written (R225). -/
def State.vaultMoves (s : State) (o : EngOp) : List EngMove :=
  if o.src.length < vaultN o.c then [.index]
  else
    (((range' 0 (vaultN o.c)).filter fun j => !o.ended.contains j && !(o.begun.any fun e => e.idx == j) && s.elemMay o j).map EngMove.elem) ++
      (o.begun.map fun e => (o.piecesLeft e.idx).map fun p => EngMove.piece e.idx p).flatten

/-- The moves that an operation needs and that have not set out; those of a step to come wait for that step. -/
def State.engMoves (s : State) (o : EngOp) : List EngMove :=
  let all := if o.closing then (if o.cnt && o.kind != .pushM && o.relMark.isNone && !o.counted then [EngMove.count] else [])
    else
      match o.kind with
      | .gather => s.vaultMoves o
      | .scatter => s.vaultMoves o
      | .fabred =>
        if !o.listed then [.rank]
        else ((range' 0 o.members.length).map fun k => (o.rankLeft k).map fun w => EngMove.ask k w).flatten
      | .donate => if o.status.isSome && o.ended == [] then [.status] else []
      | _ => o.copyMoves
  all.filter fun m => match o.trips.find? (·.move == m) with | some r => r.left == [] && !r.back | none => true

/-- What an address names, as a list. -/
def siteList (r : Except (EngCause × Nat) Site × State) : List Site × State :=
  match r.1 with | .ok t => ([t], r.2) | .error _ => ([], r.2)

/-- What a move reaches, and whether it writes there. -/
def State.moveSites (s : State) (o : EngOp) : EngMove → List Site × Bool × State
  | .member => let (l, s) := siteList (s.aimGlob o.xlate o (o.listAt o.members.length).toNat .r 0); (l, false, s)
  | .rank => let (l, s) := siteList (s.aimGlob o.xlate o (o.listAt o.members.length).toNat .r 0); (l, false, s)
  | .src => let (l, s) := siteList (s.aimCopy o (o.srcOf o.src.length) .r); (l, false, s)
  | .unit m =>
    let (l, s) := siteList (s.aimCopy o (o.destOf m (o.got m)) .w)
    let (r, s) := siteList (s.aimCopy o (o.destOf m (unitEnd (o.got m) o.words - 1)) .w)
    (if (l.map fun x => x.place / 128) == r.map fun x => x.place / 128 then l else l ++ r, true, s)
  | .away => ([], false, s)
  | .index => ([], false, s)
  | .elem j =>
    if o.failed j || !o.inBounds j then ([], false, s)
    else
      match s.elemSites o j with
      | (.ok l, s) => (if o.kind = .gather then [] else l, true, s)
      | (.error _, s) => ([], false, s)
  | .piece j p => ((o.begunSite j p).toList, false, s)
  | .ask k w => let (l, s) := siteList (s.aimEng o.xlate o (o.destOf k w) .r); (l, false, s)
  | .status => let (l, s) := siteList (s.aimEng o.xlate o o.b .w); (l, true, s)
  | .count => let (l, s) := siteList (s.aimEng o.xlate o o.counter .rw); (l, true, s)

/-- The status word of a `DONATE` written (R157); one that cannot be written is logged. [DEDUCED, log 69] -/
def State.putStatus (s : State) (o : EngOp) : State :=
  let (r, s) := engStore o (s.aimEng o.xlate o o.b .w) o.b 8 (o.status.getD 2)
  let s := match r with | .ok _ => s | .error _ => s.logErr 7 7 (s.threadName o.who) o.b
  s.modEng o.id fun p => { p with ended := [0] }

/-- Step 4 of R212 at a counter on this module: the add, as a `CADD` with release; whether its home refused it. -/
def State.addCounter (s : State) (o : EngOp) (addr : Word) : Bool × State :=
  match s.aimEng o.xlate o addr .rw with
  | (.error _, s) => (false, s)
  | (.ok t, s) =>
    let s := if o.scope < t.narrow then s.countMiss o.who else s
    match s.engDo { o with scope := Nat.max o.scope t.narrow } t addr (.atomic .cadd .d) 1 with
    | (.error _, s) => (false, s)
    | (.ok _, s) => (true, s)

/-- Step 4 of R212: the add, made on this module or sent to another, whose answer is awaited. -/
def State.countUp (s : State) (o : EngOp) : State :=
  let fin (ok : Bool) (s : State) : State := s.modEng o.id fun p => { p with counted := true, cntFail := !ok }
  let send (s : State) (tregion : Nat) : State :=
    let chip := bits o.counter.toNat 44 12
    let s := if o.scope < s.narrowAway chip then s.countMiss o.who else s
    let (id, s) := s.fresh
    match s.relayFor o.region chip tregion (.request s.host.modid id o.region o.scope (s.threadName o.who) (.atomic .cadd .d) o.counter 1 0) with
    | none => fin false s
    | some s =>
      let s := s.modEng o.id fun p => { p with counted := true, asked := [(id, 0, 0)], sentAt := s.time }
      if o.kind = .pushX then s.later (.pushXTimeout o.id) (.time (s.time + 1000000)) else s
  if !s.isFar o.counter then
    let (ok, s) := s.addCounter o o.counter
    fin ok s
  else if o.kind = .pushX then send s 0
  else
    match s.aimEng o.xlate o o.counter .w with
    | (.ok t, s) => send s t.tregion
    | (.error _, s) => fin false s

/-- One move made. -/
def State.makeMove (s : State) (o : EngOp) : EngMove → State
  | .member => s.readMember o
  | .src => s.readSrc o
  | .unit m => s.putUnit o m
  | .away => s.sendUnit o
  | .index => s.readIndex o
  | .elem j => s.takeElem o j
  | .piece j p => s.readPiece o j p
  | .rank => s.readRank o
  | .ask k w => s.askRank o k w
  | .status => s.putStatus o
  | .count => s.countUp o

/-- The virtual channel of a packet of a move, and its bytes, for a number of words of payload there (R254): push data, or a request. -/
def EngMove.packet (m : EngMove) (words : Nat) : Nat × Nat :=
  match m with
  | .unit _ => (2, 16 + 8 * words)
  | .elem _ => (0, 16 + 8 * words)
  | .status => (0, 24)
  | .count => (0, 24)
  | _ => (0, 16)

/-- The bytes of the answer to a packet of a move (R254): a word read, or an acknowledgement. -/
def EngMove.answerBytes : EngMove → Nat
  | .unit _ => 16
  | .elem _ => 16
  | .status => 16
  | _ => 24

/-- The packets of a move set out over the bridges, one for each line it reaches on another die (R257), with their payload in words. -/
def State.setOut (s : State) (o : EngOp) (m : EngMove) (dies : List (Nat × Nat)) : State :=
  let (id, s) := s.fresh
  let s := s.modEng o.id fun p =>
    { p with trips := p.trips ++ [{ id := id, move := m, dies := dies.map (·.1), left := dies.map (·.1) }] }
  dies.foldl (fun s d =>
    let (cls, bytes) := m.packet d.2
    s.travel (.engineTrip o.id id d.1) (dieOf (coreOf o.slot)) d.1 cls bytes) s

/-- The dies, but for its own, of the members of a `PUSHM` that have not failed. -/
def EngOp.castDies (o : EngOp) : List Nat :=
  (((range' 0 o.members.length).filter fun m => !o.failed m).map fun m => dieOf (bits (o.members.getD m 0).toNat 32 12)).eraseDups.filter
    (· != dieOf (coreOf o.slot))

/-- A unit of a `PUSHM` set out along the union of the routes to its members' dies: each bridge carries it once (R346). -/
def State.castOut (s : State) (o : EngOp) (w : Nat) : State :=
  let own := dieOf (coreOf o.slot)
  let dies := o.castDies
  let s := s.modEng o.id fun p => { p with cast := p.cast ++ dies.map fun d => (w, d, false) }
  let bytes := 16 + 8 * (unitEnd w o.words - w)
  let first (d : Nat) : Nat := (bridgePath own d).headD 0
  ((dies.map first).eraseDups).foldl (fun t link =>
    let near := [0, 1, 2, 3].find? fun d => bridgePath own d == [link]
    match near with
    | some d => t.travel (.unitCast o.id w d (dies.filter fun e => e != d && first e == link)) own d 2 bytes
    | none => t) s

/-- A unit of a `PUSHM` has come to a die, whose members take it there, and goes on (R346). -/
def unitCast (id word die : Nat) (onward : List Nat) (s : State) : Out :=
  match s.engs.find? (·.id == id) with
  | none => .fault .notEnabled
  | some o =>
    let s := s.modEng id fun p => { p with cast := p.cast.map fun c => if c.1 = word ∧ c.2.1 = die then (word, die, true) else c }
    let bytes := 16 + 8 * (unitEnd word o.words - word)
    let s := onward.foldl (fun t d => t.travel (.unitCast id word d []) die d 2 bytes) s
    .next (s.askAll [.engineMove id, .engineComplete id])

/-- The answers of a move that came over bridges go back. -/
def State.turnBack (s : State) (o : EngOp) (r : EngTrip) : State :=
  let s := s.modEng o.id fun p =>
    { p with trips := p.trips.map fun q => if q.id = r.id then { q with back := true, left := q.dies } else q }
  r.dies.foldl (fun s d => s.travel (.engineTrip o.id r.id d) d (dieOf (coreOf o.slot)) 1 r.move.answerBytes) s

/-- Whether a unit for a member of a `PUSHM` has come to the member's die by the tree (R346): `none` where it stands on the own die. -/
def EngOp.castDone (o : EngOp) (m : Nat) : Option Bool :=
  let die := dieOf (bits (o.members.getD m 0).toNat 32 12)
  if o.kind != .pushM || die == dieOf (coreOf o.slot) then none
  else some (o.cast.contains (o.got m, die, true))

/-- A move tried: whether it has been made or has set out; else the state with what it waits for asked. -/
def State.tryMove (s : State) (o : EngOp) (m : EngMove) : Bool × State :=
  let (sites, writes, t) := s.moveSites o m
  let sites := sites.filter (·.away.isNone)
  let own := dieOf (coreOf o.slot)
  let lines := (sites.map fun x => x.place / 128).eraseDups
  let dies := (lines.filterMap fun l => (sites.find? fun x => x.place / 128 == l).map fun x =>
    (homeDie x.place own, match m with
      | .unit k => unitEnd (o.got k) o.words - o.got k
      | _ => (sites.filter fun y => y.place / 128 == l).length)).filter (·.1 != own)
  let trip := o.trips.find? (·.move == m)
  let cast : Option Bool := match m with | .unit k => o.castDone k | _ => none
  if t.stalled then (false, s.stallFor t)
  else if cast == some false && !(sites.any fun x => s.cutOff o x.place) then
    match m with
    | .unit k => if o.cast.any fun c => c.1 == o.got k then (false, s) else (true, s.castOut o (o.got k))
    | _ => (false, s)
  else if trip.isNone && cast.isNone && dies != [] && !(sites.any fun x => s.cutOff o x.place) then (true, s.setOut o m dies)
  else
    match sites.findSome? fun x => if s.cutOff o x.place then none else s.engWaits o x writes with
    | some u => (false, u)
    | none =>
      let u := s.makeMove o m
      if u.stalled then (false, s.stallFor u)
      else (true, match trip with | some r => u.turnBack o r | none => u)

/-- A free choice among an operation's moves tried; none if there is no move. -/
def State.moveOnce (s : State) (id : Nat) : Option (Bool × State) :=
  match s.engs.find? (·.id == id) with
  | none => none
  | some o =>
    match s.engMoves o with
    | [] => none
    | m :: r => some (s.tryMove o ((m :: r).getD (Config.freeNat s.tick % (r.length + 1)) m))

/-- A move of an operation between other events: it comes before ENGINE_COMPLETE. -/
def engineMove (id : Nat) (s : State) : Out :=
  match s.engs.find? (·.id == id) with
  | none => .fault .notEnabled
  | some o =>
    if !s.engReady o then stillDue (.engineMove id) s
    else
      match s.moveOnce id with
      | none => .fault .notEnabled
      | some (_, s) => .next (s.ask (.engineMove id))

/-- A packet of a move, or its answer, has crossed its bridges. -/
def engineTrip (id trip die : Nat) (s : State) : Out :=
  match (s.engs.find? (·.id == id)).bind fun o => o.trips.find? (·.id == trip) with
  | none => .fault .notEnabled
  | some r =>
    if !r.left.contains die then .fault .notEnabled
    else
      let left := r.left.erase die
      let s := s.modEng id fun p =>
        { p with trips := if left = [] && r.back then p.trips.filter (·.id != trip)
                          else p.trips.map fun q => if q.id = trip then { q with left := left } else q }
      .next (s.askAll [.engineMove id, .engineComplete id])

/-- All moves that can be made now. -/
def State.moveAll (s : State) (id : Nat) : Nat → State
  | 0 => s
  | n + 1 => match s.moveOnce id with
    | some (true, t) => t.moveAll id n
    | some (false, t) => t
    | none => s

/-! ## Completion (R212, R227) -/

/-- The code of a failure's cause in a record (R227). -/
def failCode : EngCause → Nat
  | .bounds => 1 | .page => 2 | .rights => 3 | .machine => 4

/-- Words 0 to 2 of the completion record (R227). One of status PEER_ABSENT names no read that failed. [DESIGN CHOICE, log 129] -/
def EngOp.record (o : EngOp) : List Word :=
  let gone := o.kind = .fabred && o.absent != []
  let f := if gone then none else o.firstFail
  let w0 := match f with
    | some f => 2 ^ 56 + failCode f.cause * 2 ^ 48 + o.fails.length * 65536 + f.idx % 65536
    | none => (if gone then 2 * 2 ^ 56 else 0) + 0xFFFF
  let w1 := match f with | some f => f.addr | none => 0
  let firstabs := if gone then o.absent.foldl Nat.min 0xFFFF else 0xFFFF
  [BitVec.ofNat 64 w0, w1, BitVec.ofNat 64 (o.absent.length % 65536 * 65536 + firstabs)]

/-- The words of the fault bitmap (R226). -/
def EngOp.faultMap (o : EngOp) : List Word :=
  (range' 0 ((vaultN o.c + 63) / 64)).map fun w =>
    BitVec.ofNat 64 (((o.fails.filter fun f => f.idx / 64 == w).map fun f => 2 ^ (f.idx % 64)).foldl (· + ·) 0)

/-- Step 2 of R212: the bitmap, the record, and the results of a `FABRED`. -/
def State.writeReports (s : State) (o : EngOp) : State :=
  match o.kind with
  | .gather => (s.padWords o (vaultMap o.c) o.faultMap).padWords o (vaultRec o.c) o.record
  | .scatter => (s.padWords o (vaultMap o.c) o.faultMap).padWords o (vaultRec o.c) o.record
  | .fabred =>
    let s := if o.fails = [] && o.absent = [] then
        (range' 0 (fabN o.c)).foldl (fun t i =>
          (t.padWrite o (o.a + BitVec.ofNat 64 (4 * i)) 4 (o.reduced (Config.freeWordAt s.tick i).toNat i)).2) s
      else s
    s.padWords o (fabRec o.c) o.record
  | _ => s

/-- The failed mark that an operation's tag takes (R214, R222, R226, R227). -/
def EngOp.mark (o : EngOp) (age : Nat) : Option FailMark :=
  let counted : Option FailMark :=
    if o.cntFail then some { tag := o.tag, cause := .rights, addr := o.counter, sub := o.kind.sub, age := age } else none
  let moved := if o.kind.strides || o.t then o.firstFail else none
  match moved with
  | some f => some { tag := o.tag, cause := f.cause, addr := f.addr, sub := o.kind.sub, level := f.level, age := age }
  | none => counted

/-- Step 5 of R212: the tag is set, a `PARK` of the thread ends (R126), and the entry is free. -/
def State.finishOp (s : State) (o : EngOp) : State :=
  let bit : Word := 1#64 <<< o.tag
  let s := s.modThread o.who fun sl =>
    { sl with inflight := sl.inflight &&& ~~~bit, tags := sl.tags ||| bit,
              gtags := if o.wrote then sl.gtags ||| bit else sl.gtags &&& ~~~bit,
              failed := match o.mark s.tick with | some m => sl.failed ++ [m] | none => sl.failed }
  let s := match o.image with
    | none => s.endPark o.slot
    | some m => s.later (.threadRestore m)
  let s := { s with engs := s.engs.filter (·.id != o.id) }
  if o.kind.strides then s.later (.strideSpillReturn o.tile) else s

/-- Whether no packet of an operation's moves is on its way; those of an element or a rank that is over meanwhile may have come (R226,
R231). -/
def EngOp.tripsOver (o : EngOp) : Bool := o.trips.all fun r => r.left == [] && !r.back

/-- Whether step 1 of R212 is complete, with the status word of a `DONATE`. -/
def State.movesDone (s : State) (o : EngOp) : Bool :=
  s.engMoves o == [] && o.asked == [] && o.tripsOver &&
    (match o.kind with
     | .pushM => o.broken || (o.listed && (range' 0 o.members.length).all fun m => o.acks.contains m)
     | .donate => o.ended.contains 0
     | .fetch => o.served 0
     | .push => o.served 0
     | .pushX => o.served 0
     | .storeB => o.served 0
     | .gather => o.begun == []
     | .scatter => (range' 0 (vaultN o.c)).all fun j => o.ended.contains j
     | .fabred => true)

/-- The scope at which the add of step 4 releases: it is widened to its counter's (R243). -/
def State.counterScope (s : State) (o : EngOp) (addr : Word) : Nat :=
  Nat.max o.scope (if bits addr.toNat 56 8 = 1 && !s.isFar addr then scopeTo (coreOf o.slot) (bits addr.toNat 32 12)
    else if addr.toNat < 2 ^ 56 then 4 else 5)

/-- The write-backs of the release that an operation's add carries, as a `CADD` of its thread: from `.die` on the dirty lines of the
thread's core set out (R212, R238). -/
def State.startRelease (s : State) (o : EngOp) (addr : Word) : State :=
  let core := coreOf o.slot
  if s.counterScope o addr < 4 || s.l1Settled core then s
  else
    let t := s.writeBackAll core
    t.modEng o.id fun p => { p with relMark := some t.nextId }

/-- Whether the write-backs of an operation's release are not all acknowledged. -/
def State.releasing (s : State) (o : EngOp) : Bool := o.relMark.any fun n => !s.wbBefore (coreOf o.slot) n

/-- Steps 2 and 3 of R212, and step 5 where there is no add. -/
def State.closeOp (s : State) (o : EngOp) : State :=
  let s := s.writeReports o
  let o := (s.engs.find? (·.id == o.id)).getD o
  let s := if o.scope < o.wide && o.kind != .pushM then s.countMiss o.who else s
  if !o.cnt || o.kind = .pushM then s.finishOp o
  else (s.modEng o.id fun p => { p with closing := true }).startRelease o o.counter

/-- The end of an operation that has made its add and got its answer; else ENGINE_COMPLETE comes again. -/
def State.endOp (s : State) (id : Nat) : State :=
  match s.engs.find? (·.id == id) with
  | none => s
  | some o => if o.closing && o.counted && o.asked == [] && o.tripsOver then s.finishOp o else s.ask (.engineComplete id)

/-- ENGINE_COMPLETE (R212): the moves that are left are made, and once nothing is awaited the operation completes. -/
def execEngineComplete (id : Nat) (s : State) : Out :=
  match s.engs.find? (·.id == id) with
  | none => .fault .notEnabled
  | some o =>
    if (!o.closing && !s.engReady o) || s.releasing o then stillDue (.engineComplete id) s
    else
      let s := if o.relMark.isNone then s else s.modEng id fun p => { p with relMark := none }
      let t := s.moveAll id (2 ^ 32)
      match t.engs.find? (·.id == id) with
      | none => .fault .notEnabled
      | some p =>
        if p.closing then
          if p.counted && p.asked == [] && p.tripsOver then .next (t.finishOp p)
          else if o.relMark.isNone && s.engMoves o == [] then stillDue (.engineComplete id) s
          else .next (t.ask (.engineComplete id))
        else if t.movesDone p then .next (((t.closeOp p).moveAll id (2 ^ 32)).endOp id)
        else if s.engMoves o == [] then stillDue (.engineComplete id) s
        else .next (t.ask (.engineComplete id))

/-- PUSHM_MEMBER_ACK (R223): a member's counter add follows its bytes and the release it carries, and the member acknowledges. -/
def execPushmMemberAck (id member : Nat) (s : State) : Out :=
  match s.engs.find? (·.id == id) with
  | none => .fault .notEnabled
  | some o =>
    let core := bits (o.members.getD member 0).toNat 32 12
    let addr := s.partAddr core o.coff
    if o.kind != .pushM || o.members.length ≤ member || !o.served member || o.acks.contains member then .fault .notEnabled
    else if o.cnt && o.relMark.isNone && 4 ≤ s.counterScope o addr && !s.l1Settled (coreOf o.slot) then
      .next ((s.startRelease o addr).later (.pushmMemberAck id member))
    else if o.cnt && s.releasing o then stillDue (.pushmMemberAck id member) s
    else
      let s := if o.scope < scopeTo (coreOf o.slot) core && o.got member != 0 then s.countMiss o.who else s
      let bad (s : State) : State := s.modEng id fun p => p.fail { idx := member, cause := .rights, addr := addr }
      let s := if !o.cnt then s
        else if !s.counterOk o.region o.coff then bad s
        else
          match s.addCounter o addr with
          | (true, s) => s
          | (false, s) => bad s
      .next ((s.modEng id fun p => { p with acks := p.acks ++ [member] }).ask (.engineComplete id))

/-- The counter add of a member has come to it; the member's acknowledgement goes back after it (R223). -/
def memberReached (id member : Nat) (s : State) : Out :=
  match s.engs.find? (·.id == id) with
  | none => .fault .notEnabled
  | some o => .next (s.travel (.pushmMemberAck id member) (dieOf (bits (o.members.getD member 0).toNat 32 12)) (dieOf (coreOf o.slot)) 1 16)

/-- STRIDE_SPILL_RETURN (R220): the spilled command accepted first returns to an on-chip entry. -/
def execStrideSpillReturn (tile : Nat) (s : State) : Out :=
  match s.engs.find? fun o => o.tile == tile && o.spilled.isSome with
  | none => .fault .notEnabled
  | some o =>
    if 32 ≤ s.strideEntries tile false then .fault .notEnabled
    else .next ((s.modEng o.id fun p => { p with spilled := none }).laters [.engineMove o.id, .engineComplete o.id, .strideSpillReturn tile])

/-- PUSH_X_TIMEOUT (R222): the target has not answered within 1 ms. [DEDUCED, log 36] -/
def execPushXTimeout (id : Nat) (s : State) : Out :=
  match s.engs.find? (·.id == id) with
  | none => .fault .notEnabled
  | some o =>
    if o.kind != .pushX || o.asked == [] || s.time < o.sentAt + 1000000 then .fault .notEnabled
    else if o.closing then .next ((s.modEng id fun p => { p with asked := [], cntFail := true }).later (.engineComplete id))
    else
      let addr := o.a + BitVec.ofNat 64 (8 * o.got 0)
      .next (((s.modEng id fun p => { p with asked := [] }).failMember o 0 .rights addr 0).later (.engineComplete id))

/-- FABRED_RANK_TIMEOUT (R231): a rank that has not answered within 1 ms is absent. -/
def execFabredRankTimeout (id rank : Nat) (s : State) : Out :=
  match s.engs.find? (·.id == id) with
  | none => .fault .notEnabled
  | some o =>
    if o.kind != .fabred || o.rankOver rank || o.members.length ≤ rank ||
       (range' 0 (fabWords o.c)).all (fun w => o.vals.any fun v => v.1 == rank && v.2.1 == w) then .fault .notEnabled
    else
      .next ((s.modEng id fun p => { p with absent := p.absent ++ [rank], asked := p.asked.filter fun v => v.2.1 != rank }).later
        (.engineComplete id))

/-- Another module's answer to a request of an engine: a word of a `FABRED`, or a counter add. None if no engine asked. -/
def State.engAnswer (s : State) (id : Nat) (ans : HomeAns) : Option State :=
  match s.engs.find? fun o => o.asked.any fun v => v.1 == id with
  | none => none
  | some o =>
    let (k, w) := match o.asked.find? fun v => v.1 == id with | some v => v.2 | none => (0, 0)
    let addr := o.destOf k w
    some (((s.farWorked o.region).modEng o.id fun p =>
      let p := { p with asked := p.asked.filter fun v => v.1 != id }
      match ans with
      | .ok v => if p.closing then p else { p with vals := p.vals ++ [(k, w, v)] }
      | .err c => if p.closing then { p with cntFail := true } else p.fail { idx := k, cause := causeEng c, addr := addr }
      | _ => p).laters [.engineMove o.id, .engineComplete o.id])

/-- Another module's answer to a unit of `PUSH.x` (R222). -/
def State.engPushed (s : State) (id : Nat) (err : Option Nat) : Option State :=
  match s.engs.find? fun o => o.kind == .pushX && o.asked.any fun v => v.1 == id with
  | none => none
  | some o =>
    let e := match o.asked.find? fun v => v.1 == id with | some v => v.2.2 | none => 0
    let s := (s.farWorked o.region).modEng o.id fun p => { p with asked := [] }
    let s := match err with
      | none => s.setMoved o 0 e
      | some off => s.failMember o 0 .rights (o.a + BitVec.ofNat 64 (8 * o.got 0 + off)) 0
    some (s.laters [.engineMove o.id, .engineComplete o.id])

/-! ## `GATHER`, `SCATTER`, `FABRED` (R218, R219, R224 to R231) -/

/-- The words 3 of a record in the own scratchpad, where its bytes lie in the region's partition: the counter address (R227). -/
def State.recordCounter (s : State) (core region rec : Nat) : Except Nat Word × State :=
  let a := s.partAddr core rec
  let p := corePlace core (rec + 24)
  if s.inPart core region a.toNat (a.toNat + 32 : Nat) then
    let s := s.correct p
    if s.homeBad p then (.error p, s.logErr 4 0 (s.nameOf s.cur) (BitVec.ofNat 64 p))
    else (.ok (BitVec.ofNat 64 (s.homeNum p 8)), s)
  else (.ok 0, s)

/-- Whether the issuing thread may apply `CADD` at a counter, as far as its source can tell (R227): not where its translation fails, for
whatever cause. [DESIGN CHOICE, log 129] -/
def State.counterFits (s : State) (o : EngOp) (addr : Word) : Bool × State :=
  match s.aimEng o.xlateNow o addr .rw with
  | (.ok t, s) => (!isWindow addr && (t.away.isNone || bits addr.toNat 56 8 == 2), s)
  | (.error _, s) => (false, s)

/-- RIGHTS of the counter of step 3 of R219, then acceptance. -/
def acceptCounted (i : Instr) (o : EngOp) (s : State) : Out :=
  if !o.cnt then acceptOp i o s
  else
    match s.counterFits o o.counter with
    | (true, s) => acceptOp i o s
    | (false, s) => trapAddr .rights 0 o.counter s

/-- Whether a tensor meets the conditions of R224. -/
def vaultTensor (e : Nat) : Bool :=
  let E := fmtBits (tFmt e) / 8
  tFmt e != 12 && tFmt e != 13 && bits (tBase e) 56 8 == 0 && tBase e % Nat.max 1 E == 0 &&
    (tRank e == 1 || (tRank e == 2 && tStride e 0 == 1 && tExtent e 0 * E ≤ 4096))

/-- The issue of a Vault operation (R219, R224, R225, R227); `rights` are the bits of the rights it needs. -/
def vaultForm (i : Instr) (o : EngOp) (obj : Nat) (rights : List Nat) (s : State) : Out :=
  let n := vaultN o.c
  let core := s.myCore
  let recAt := s.partAddr core (vaultRec o.c)
  let mapAt := s.partAddr core (vaultMap o.c)
  if s.tagBusy o.tag then trapObject obj s
  else
    match s.objFor o.region obj 1 with
    | (.error t, s) => t.raise s
    | (.ok e, s) =>
      let o := { o with ent := BitVec.ofNat 512 e }
      if !(rights.all fun r => bit e (496 + r)) || bits o.c.toNat 14 14 != 0 || 4096 < n || !vaultTensor e ||
         (o.add && !(4 ≤ tFmt e && tFmt e ≤ 9)) then trapObject obj s
      else if o.a.toNat % o.elemBytes != 0 then trapAddr .align 0 o.a s
      else if o.b.toNat % indexBytes o.c != 0 then trapAddr .align 0 o.b s
      else if vaultMap o.c % 8 != 0 then trapAddr .align 0 mapAt s
      else if vaultRec o.c % 8 != 0 then trapAddr .align 0 recAt s
      else
        match (if o.cnt then s.recordCounter core o.region (vaultRec o.c) else (.ok 0, s)) with
        | (.error _, s) => trapAddr .machine 0 (recAt + 24) s
        | (.ok ctr, s) =>
          if ctr.toNat % 8 != 0 then trapAddr .align 0 ctr s
          else
            match firstBad
              [(s.inPart core o.region o.a.toNat (o.a.toNat + n * o.rowBytes : Nat), o.a),
               (s.inPart core o.region o.b.toNat (o.b.toNat + n * indexBytes o.c : Nat), o.b),
               (s.inPart core o.region mapAt.toNat (mapAt.toNat + 8 * ((n + 63) / 64) : Nat), mapAt),
               (s.inPart core o.region recAt.toNat (recAt.toNat + 32 : Nat), recAt)] with
            | some a => trapAddr .rights 0 a s
            | none => acceptCounted i { o with counter := ctr } s

/-- `GATHER` (R218, R224 to R226). -/
def execGather (obj a b c tag scope : Nat) (t cnt : Bool) (s : State) : Out :=
  let i : Instr := .gather obj a b c tag scope t cnt
  issueWith i none none none (fun s =>
    vaultForm i { s.newOp .gather (s.g a) (s.g b) (s.g c) tag scope cnt with t := t } obj [2] s) s

/-- `SCATTER` (R218, R224, R225, R228). -/
def execScatter (obj a b c tag scope : Nat) (t add cnt : Bool) (s : State) : Out :=
  let i : Instr := .scatter obj a b c tag scope t add cnt
  issueWith i none none none (fun s =>
    vaultForm i { s.newOp .scatter (s.g a) (s.g b) (s.g c) tag scope cnt with t := t, add := add } obj (if add then [3, 4] else [3]) s) s

/-- `FABRED` (R218, R231). [DEDUCED, log 68] -/
def execFabred (obj a b c tag scope : Nat) (cnt : Bool) (s : State) : Out :=
  let i : Instr := .fabred obj a b c tag scope cnt
  issueWith i none none none (fun s =>
    let o := s.newOp .fabred (s.g a) (s.g b) (s.g c) tag scope cnt
    let n := fabN o.c
    let core := s.myCore
    let recAt := s.partAddr core (fabRec o.c)
    if s.tagBusy tag then trapObject obj s
    else withGroup obj o.region 500 (fun e s =>
      let o := { o with ent := BitVec.ofNat 512 e }
      if bits o.c.toNat 15 13 != 0 || bits o.c.toNat 46 18 != 0 || 16384 < n then trapObject obj s
      else if o.a.toNat % 4 != 0 then trapAddr .align 0 o.a s
      else if o.b.toNat % 8 != 0 then trapAddr .align 0 o.b s
      else if fabRec o.c % 8 != 0 then trapAddr .align 0 recAt s
      else if (groupBase e).toNat % 8 != 0 then trapAddr .align 0 (groupBase e) s
      else
        match (if o.cnt then s.recordCounter core o.region (fabRec o.c) else (.ok 0, s)) with
        | (.error _, s) => trapAddr .machine 0 (recAt + 24) s
        | (.ok ctr, s) =>
          if ctr.toNat % 8 != 0 then trapAddr .align 0 ctr s
          else
            match firstBad
              [(s.inPart core o.region o.a.toNat (o.a.toNat + 4 * n : Nat), o.a),
               (s.inPart core o.region recAt.toNat (recAt.toNat + 32 : Nat), recAt), (bits e 56 8 == 0, groupBase e)] with
            | some a => trapAddr .rights 0 a s
            | none => acceptCounted i { o with counter := ctr } s) s) s

/-! ## Donations (R157, R282, R283) -/

/-- The target of a sending-form donation queue object: chip, region and object (R282). -/
def donTarget (e : Nat) : Nat × Nat × Nat := (bits e 476 12, bits e 460 16, bits e 444 16)

/-- The donation of an accepted `DONATE` leaves the module; without a live route the target is absent. -/
def State.sendDonation (s : State) (o : EngOp) : State :=
  let (chip, region, obj) := donTarget o.ent.toNat
  match s.relayFor o.region chip 0 (.donation s.host.modid o.id region obj o.image8) with
  | none => s.later (.donateAnswer o.id 2)
  | some s => s.later (.donateTimeout o.id) (.time (s.time + 1000000))

/-- The counter address of a `DONATE` with `.cnt`, read at issue from g(b) + 8 (R157, R227). -/
def State.donateCounter (s : State) (o : EngOp) : Except (EngCause × Nat) Nat × State :=
  if !o.cnt then (.ok 0, s)
  else
    let at_ := o.b + 8
    let r := s.aimEng o.xlateNow o at_ .r
    let r := match r with
      | (.ok t, s) => (r.1, if isHbm t.place then s.cleanCluster (clusterOf (coreOf o.slot)) (t.place / 128) else s)
      | _ => r
    engLoad o r at_ 8

/-- The home that holds the counter address of a `DONATE` with `.cnt`, while one of the core's requests to it is on its way (R237). -/
def State.counterBehind (s : State) (o : EngOp) : Option Nat :=
  if !o.cnt then none
  else match (s.aimEng o.xlateNow o (o.b + 8) .r).1 with
    | .ok t => if s.homePast (coreOf o.slot) (homeUnit t.place) then none else some (homeUnit t.place)
    | .error _ => none

/-- `DONATE` (R157): the image and the addresses are read and checked at issue. [DEDUCED, log 69] -/
def execDonate (obj a b tag scope : Nat) (cnt : Bool) (s : State) : Out :=
  let i : Instr := .donate obj a b tag scope cnt
  issueWith i none none none (fun s =>
    let o := s.newOp .donate (s.g a) (s.g b) 0 tag scope cnt
    if s.tagBusy tag then trapObject obj s
    else
      match s.objFor o.region obj 4 with
      | (.error t, s) => t.raise s
      | (.ok e, s) =>
        let o := { o with ent := BitVec.ofNat 512 e }
        if bits e 476 12 = s.host.modid then trapObject obj s
        else if o.a.toNat % 64 != 0 then trapAddr .align 0 o.a s
        else if o.b.toNat % 8 != 0 then trapAddr .align 0 o.b s
        else
          match s.counterBehind o with
          | some unit => waitFor (.homePast unit) s
          | none =>
          let (ctr, s) := s.donateCounter o
          match (match ctr with | .ok c => if c % 8 != 0 then some (BitVec.ofNat 64 c) else none | .error _ => none) with
          | some c => trapAddr .align 0 c s
          | none =>
            if bits o.a.toNat 56 8 != 0 then trapAddr .rights 2 o.a s
            else
              match s.readBehind s.cur o.a.toNat 8 with
              | some line => waitFor (.ordered line) s
              | none =>
                match s.threadReads s.cur o.a.toNat 8 with
                | (.error (c, l, x), s) => TrapInfo.raise { c := c, source := 2, level := l, xaddr := BitVec.ofNat 64 x } s
                | (.ok l, s) =>
                  if !imageOk l then trapObject obj s
                  else
                    match s.aimEng o.xlateNow o o.b .w with
                    | (.error (c, lv), s) => TrapInfo.raise { c := engCause c, source := 3, level := lv, xaddr := o.b } s
                    | (.ok _, s) =>
                      match ctr with
                      | .error (c, lv) => TrapInfo.raise { c := engCause c, source := 2, level := lv, xaddr := o.b + 8 } s
                      | .ok ctr =>
                        let id := s.nextId
                        let o := { o with counter := BitVec.ofNat 64 ctr, image8 := l }
                        match acceptCounted i o s with
                        | .next s => .next (match s.engs.find? (·.id == id) with | some p => s.sendDonation p | none => s)
                        | out => out) s

/-- DONATE_ANSWER (R157): the target's status is here. -/
def execDonateAnswer (id status : Nat) (s : State) : Out :=
  match s.engs.find? (·.id == id) with
  | none => .fault .notEnabled
  | some o =>
    if o.kind != .donate || o.status.isSome then .fault .notEnabled
    else .next ((s.modEng id fun p => { p with status := some status }).laters [.engineMove id, .engineComplete id])

/-- DONATE_TIMEOUT (R283): no answer within 1 ms of the group timebase. -/
def execDonateTimeout (id : Nat) (s : State) : Out :=
  match s.engs.find? (·.id == id) with
  | none => .fault .notEnabled
  | some o =>
    if o.kind != .donate || o.status.isSome then .fault .notEnabled
    else .next ((s.modEng id fun p => { p with status := some 2 }).laters [.engineMove id, .engineComplete id])

/-- Whether a reference of a TCB image is null (R34): its valid bit is 0. -/
def nullRef (w : Nat) : Bool := !bit w 31

/-- Whether an image may be donated (R283): well formed, with count 0, no successor and no overflow. -/
def donImageOk (l : List Word) : Bool :=
  let w (i : Nat) : Nat := (l.getD i 0).toNat
  imageOk l && bits (w 0) 32 32 == 0 && nullRef (bits (w 3) 0 32) && nullRef (bits (w 3) 32 32) && nullRef (bits (w 4) 0 32) && w 5 == 0

/-- The receiving-form donation queue object of a region, if the entry is one and its cluster is granted (R282, R283). One whose base is no
multiple of 64 is taken as it stands. [DESIGN CHOICE, log 132] -/
def State.donQueue (s : State) (region obj : Nat) : Option Nat × State :=
  match s.region? region with
  | none => (none, s)
  | some g =>
    if g.halted || g.objcount ≤ obj then (none, s)
    else
      match s.objWords region obj with
      | (.error _, s) => (none, s)
      | (.ok e, s) =>
        let e := e.toNat
        let ok := objType e == 4 && !objReserved s.host.modid e && bits e 476 12 == s.host.modid && bits e 432 4 ≤ 12 &&
          g.coreset.getLsbD (64 * bits e 436 2 + bits e 438 6)
        (if ok then some e else none, s)

/-- The answer of the region manager to a donation (R283), with the image queued where it is 0. [DEDUCED, log 70] -/
def State.takeDonation (s : State) (region obj : Nat) (image : List Word) : Nat × State :=
  match s.donQueue region obj with
  | (none, s) => (3, s)
  | (some e, s) =>
    if !donImageOk image then (3, s)
    else
      let key := region * 65536 + obj
      let (head, l) := (find s.rings key).getD (0, [])
      let room := 2 ^ bits e 432 4
      if room ≤ l.length then (1, s)
      else
        let va := bits e 0 64 + 64 * ((head + l.length) % room)
        match (if 2 ^ 56 ≤ va then (.error (.rights, 0), s) else s.devWrites region va image) with
        | (.error _, s) => (3, s.logErr 7 0 0 (BitVec.ofNat 64 va))
        | (.ok _, s) => (0, { s with rings := put s.rings key (head, l ++ [image]) }.later (.donationDrain region obj))

/-- The event by which the region manager answers a donation. -/
def Donation.event (d : Donation) : Ev := .donationReceive d.chip d.id d.tregion d.tobj d.image

/-- A donation arrives at the region manager, behind those that wait for their answers (R283). -/
def State.donationCame (s : State) (d : Donation) : State := { s with donations := s.donations ++ [d] }.later d.event

/-- DONATION_RECEIVE (R283): the donation that arrived first is answered. -/
def execDonationReceive (srcChip id tregion tobj : Nat) (image : List Word) (s : State) : Out :=
  let d : Donation := { chip := srcChip, id := id, tregion := tregion, tobj := tobj, image := image }
  if !s.donations.contains d then .fault .notEnabled
  else if s.donations.head? != some d then stillDue d.event s
  else
    let s := { s with donations := s.donations.drop 1 }
    let (status, s) := s.takeDonation tregion tobj image
    .next ((s.relaySend srcChip 0 (.donationAnswer id status)).getD s)

/-- DONATION_DRAIN (R283): the oldest queued image becomes a TCB at the designated hub. -/
def execDonationDrain (region obj : Nat) (s : State) : Out :=
  let key := region * 65536 + obj
  match find s.rings key with
  | some (head, image :: rest) =>
    match s.donQueue region obj with
    | (none, _) => .fault .notEnabled
    | (some e, s) =>
      match s.freeTcb? (64 * bits e 436 2 + bits e 438 6) with
      | none => .fault .notEnabled
      | some k =>
        let s := { s with rings := put s.rings key ((head + 1) % 2 ^ bits e 432 4, rest) }
        .next ((s.installTcb k (tcbOfImage image region (s.prioOf region) 0) 0).later (.donationDrain region obj))
  | _ => .fault .notEnabled

end Sys2Proof.Machine
end

