-- ==== Sys2Proof/Machine/Launch.lean ====
section
/-! DEFINITION. Launches (R269 to R272, R277, R30, R31): the checks, the region, its TCBs and its statuses. -/

namespace Sys2Proof.Machine

/-! ## Reading and writing what a launch names (R270) -/

/-- Words at an address of a launch: through a region's translation, or physical for the host. -/
def State.launchReads (s : State) (from_ : Option Nat) (a n : Nat) : Option (List Word) × State :=
  match from_ with
  | some r =>
    if 2 ^ 56 ≤ a then (none, s)
    else match s.devReads r a n with
      | (.ok l, t) => (some l, t)
      | (.error _, t) => (none, t)
  | none =>
    if !isHbm a then (none, s)
    else
      let lost := (range' 0 n).any fun i => s.unitLost (a + 8 * i) 0
      let (l, t) := s.physReads a n
      if lost then (none, t.logErr 1 2 0 (BitVec.ofNat 64 a))
      else if (range' 0 n).any fun i => t.homeBad (a + 8 * i) then (none, t)
      else (some l, t)

/-- The place of an address of a launch, as its reads find it. -/
def State.launchPlace (s : State) (from_ : Option Nat) (a : Nat) : Option (Nat × Nat) × State :=
  match from_ with
  | some r =>
    if 2 ^ 56 ≤ a then (none, s)
    else match s.xlate r a .r with
      | (.ok x, t) => (some (x.pa, x.key), t)
      | (.error _, t) => (none, t)
  | none => (if isHbm a then some (a, 0) else none, s)

/-- Bytes that a launch writes into what it names. -/
def State.launchWrite (s : State) (from_ : Option Nat) (a len v : Nat) : State :=
  match s.launchPlace from_ a with
  | (some (pa, key), t) =>
    if t.unitLost pa key then t.logErr 1 3 0 (BitVec.ofNat 64 a) else (t.unitHome pa key true).homeSet pa len v
  | (none, t) => t

/-! ## The checks (R271) -/

/-- Field FIELD for the words of a descriptor. -/
def descField (l : List Word) : Bool :=
  let w (i : Nat) : Nat := (l.getD i 0).toNat
  bits (w 0) 13 3 != 0 || bits (w 0) 19 13 != 0 || w 1 != 0 || w 2 != 0 || bits (w 3) 0 32 != 0 || 6 ≤ bits (w 0) 16 3 ||
    4096 < bits (w 0) 0 13 || w 7 % 128 != 0 || w 6 % 16 != 0

/-- Whether a reserved field of an RCB is nonzero (R30, R31). -/
def rcbReserved (b : Nat) : Bool :=
  bits b 558 18 != 0 || bits b 436 12 != 0 || bits b 403 13 != 0 || bits b 371 13 != 0 || bits b 339 13 != 0 ||
    bits b 273 15 != 0 || bits b 40 8 != 0 || bits b 62 2 != 0

/-- The effective values of a region from its RCB and its parent (R31). -/
def effective (b : Nat) (rcb : Word) (parent : Option (Nat × Region)) : Region :=
  let own (i : Nat) : Bool := bit b (48 + i) || parent.isNone
  let p : Region := match parent with
    | some (_, g) => g
    | none => { coreset := 0, evq := 0, fltq := 0, dqbase := 0, scrbase := 0, acct := 0, energy := 0, dqlog := 0, strq := 0, scrbytes := 0,
                minslots := 0, maxslots := 0, handler := 0, objcount := 0, objbase := 0, ptroot := 0, rcb := 0, parent := none,
                prio := 0, fdom := false, depth := 0, age := 0 }
  { prio := if own 0 then bits b 36 4 else p.prio
    fdom := if own 1 then bit b 35 else p.fdom
    handler := if own 2 then BitVec.ofNat 32 (bits b 288 32) else p.handler
    ptroot := if own 3 then bits b 128 64 else p.ptroot
    objbase := if own 4 then BitVec.ofNat 64 (bits b 192 64) else p.objbase
    objcount := if own 4 then bits b 256 17 else p.objcount
    coreset := if own 5 then BitVec.ofNat 256 (bits b 768 256) else p.coreset
    maxslots := if own 6 then bits b 320 19 else p.maxslots
    minslots := if own 7 then bits b 352 19 else p.minslots
    scrbytes := if own 8 then bits b 384 19 else p.scrbytes
    scrbase := if own 9 then bits b 544 14 else p.scrbase
    strq := if own 10 then bits b 416 16 else p.strq
    energy := if own 11 then bits b 448 64 else p.energy
    acct := if own 12 then BitVec.ofNat 32 (bits b 512 32) else p.acct
    dqbase := if own 13 then BitVec.ofNat 64 (bits b 576 64) else p.dqbase
    dqlog := if own 13 then bits b 432 4 else p.dqlog
    evq := BitVec.ofNat 64 (bits b 704 64)
    fltq := BitVec.ofNat 64 (bits b 640 64)
    rcb := rcb
    parent := parent.map (·.1)
    depth := match parent with | some (_, g) => g.depth + 1 | none => 0
    age := 0
    collective := p.collective
    capture := p.capture
    replay := p.replay }

/-- Whether the reserved minimums of a parent's live children with one more exceed the parent's own (R31). -/
def State.minsOver (s : State) (issuer : Option Nat) (m : Nat) : Bool :=
  match issuer.bind s.region? with
  | none => false
  | some p =>
    decide (p.minslots < m + ((s.regions.filter fun c => c.2.parent == issuer).map fun c => c.2.minslots).foldl (· + ·) 0)

/-- The status of an RCB's checks, in the order of R31 and R271; 0 when they pass. -/
def State.rcbStatus (s : State) (host : Bool) (b : Nat) (issuer : Option Nat) (g : Region) : Nat :=
  let root := bits b 64 64 = 0
  let parent := issuer.bind s.region?
  if rcbReserved b then 1
  else if host ∧ ¬ root then 11
  else if !host && (match parent with
    | some p => bits b 64 64 != p.rcb.toNat || p.halted
    | none => true) then 11
  else if root ∧ bits b 48 14 ≠ 16383 then 2
  else if 8 ≤ g.depth then 3
  else if g.coreset = 0 || (match parent with | some p => g.coreset &&& ~~~p.coreset != 0 | none => false) then 4
  else if s.minsOver issuer g.minslots then 5
  else if g.objbase.toNat % 64 != 0 || g.ptroot % 4096 != 0 then 1
  else if 262144 < 4096 * g.scrbase + g.scrbytes then 1
  else 0

/-- An entry of a launch with its image. -/
structure LaunchEnt where
  pin : Option Nat
  image : List Word

/-- Whether an entry is refused with status ENTRY. -/
def State.entryBad (s : State) (g : Region) (e : LaunchEnt) : Bool :=
  let succ (i : Nat) : Bool := match i with
    | 0 => bit (e.image.getD 3 0).toNat 31
    | 1 => bit (e.image.getD 3 0).toNat 63
    | _ => bit (e.image.getD 4 0).toNat 31
  !imageOk e.image || (succ 0 && succ 1 && succ 2) ||
    (match e.pin with
     | some k => !g.coreset.getLsbD (clusterOf (coreOf k)) || s.retired (coreOf k) || isSystem k ||
                 64 ≤ slotNo k + (s.core (coreOf k)).landn
     | none => false)

/-- The entries of a launch, read and checked in order; the first failure gives its status. -/
def State.readEntries (s : State) (from_ : Option Nat) (g : Region) : Nat → Nat → Except Nat (List LaunchEnt) × State
  | 0, _ => (.ok [], s)
  | n + 1, a =>
    match s.launchReads from_ a 2 with
    | (none, t) => (.error 10, t)
    | (some l, t) =>
      let lo := (l.getD 0 0).toNat
      let img := (l.getD 1 0).toNat
      if bits lo 18 45 != 0 || (!bit lo 63 && bits lo 0 18 != 0) || img % 64 != 0 then (.error 1, t)
      else
        match t.launchReads from_ img 8 with
        | (none, t) => (.error 10, t)
        | (some w, t) =>
          let core := coreAt (bits lo 16 2) (bits lo 11 5) (bits lo 6 5)
          let e : LaunchEnt := { pin := if bit lo 63 then some (64 * core + bits lo 0 6) else none, image := w }
          if t.entryBad g e then (.error 8, t)
          else
            match t.readEntries from_ g n (a + 16) with
            | (.ok r, t) => (.ok (e :: r), t)
            | (.error c, t) => (.error c, t)

/-- Whether a `pred` field fails R277. -/
def State.predBad (s : State) (pred : TcbRef) (issuer : Option Nat) : Bool :=
  if !refValid pred then false
  else if bits pred.toNat 17 14 != 0 then true
  else
    let t := s.tcb (refKey pred)
    if t.state = 0 then false
    else if t.state = 1 then (match issuer with | some i => s.isAbove t.region i | none => false)
    else true

/-! ## TCBs and the region id -/

/-- Whether a charge for a region id may still be on its way to its counter (R315): for a request or operation under way, or for work at
another module that was answered less than 100 µs ago (R314). -/
def State.chargesDue (s : State) (r : Nat) : Bool :=
  (s.reqs.any fun q => q.region == r && q.src != foreignSrc) || (s.engs.any fun o => o.region == r) ||
    (s.agenda.any fun d => match d.ev with | .billingReceive q _ => q == r | _ => false) ||
    (match find s.host.farWork r with | some t => s.time < t + 100000 | none => false)

/-- The lowest free region id from `i` on (R281, R315). -/
def State.freeRid (s : State) : Nat → Nat → Option Nat
  | 0, _ => none
  | n + 1, i => if (s.region? i).isNone && i != 0 && !s.chargesDue i then some i else s.freeRid n (i + 1)

/-- The FREE TCB of lowest index of a hub beside those taken (R309). -/
def State.takeTcb (s : State) (cl : Nat) (used : List Nat) : Option Nat :=
  (range' (512 * cl) 512).find? fun k => (s.tcb k).state == 0 && !used.contains k

/-- The first cluster from a place of the round-robin on whose hub has a FREE TCB, and the place after it. -/
def State.takeRound (s : State) (cls : List Nat) (used : List Nat) (p : Nat) : Option (Nat × Nat) :=
  (range' p cls.length).findSome? fun i =>
    (s.takeTcb (cls.getD (i % cls.length) 0) used).map fun k => (k, (i + 1) % cls.length)

/-- The TCBs of the entries of a launch, in entry order (R271 step 3). -/
def State.takeTcbs (s : State) (cls : List Nat) : List LaunchEnt → List Nat → Nat → Option (List Nat)
  | [], _, _ => some []
  | e :: r, used, p =>
    match e.pin with
    | some k =>
      match s.takeTcb (clusterOf (coreOf k)) used with
      | none => none
      | some t => (s.takeTcbs cls r (used ++ [t]) p).map (t :: ·)
    | none =>
      match s.takeRound cls used p with
      | none => none
      | some (t, p) => (s.takeTcbs cls r (used ++ [t]) p).map (t :: ·)

/-! ## Performing a launch (R271) -/

/-- The TCB of an entry: its image with L in the first null inline successor. -/
def entryTcb (e : LaunchEnt) (rid prio : Nat) (l : TcbRef) : Tcb :=
  let t := { tcbOfImage e.image rid prio 0 with pin := e.pin }
  if !refValid t.succ0 then { t with succ0 := l } else if !refValid t.succ1 then { t with succ1 := l } else { t with succ2 := l }

/-- Steps 4 to 6 of R271: the TCBs are written, and those of count 0 become READY. -/
def State.placeLaunch (s : State) (rid prio : Nat) (d : List Word) (es : List LaunchEnt) (ts : List Nat) (lk : Nat) : State :=
  let w (i : Nat) : Nat := (d.getD i 0).toNat
  let count := bits (w 0) 0 13
  let l : Tcb := { count := BitVec.ofNat 32 count, succ0 := BitVec.ofNat 32 (w 4), succ1 := BitVec.ofNat 32 (bits (w 4) 32 32),
                   succ2 := BitVec.ofNat 32 (w 5), rscope := if bits (w 0) 16 3 = 0 then 5 else bits (w 0) 16 3, prio := prio,
                   region := rid, state := 1 }
  let s := s.modTcb lk fun _ => l
  let s := (es.zip ts).foldl (fun t (p : LaunchEnt × Nat) =>
    t.modTcb p.2 fun _ => { entryTcb p.1 rid prio (tcbRef lk) with
      state := if (entryTcb p.1 rid prio 0).state = 3 then 3 else 1 }) s
  let s := (es.zip ts).foldl (fun t (p : LaunchEnt × Nat) =>
    if (t.tcb p.2).state = 1 && (t.tcb p.2).count = 0 then t.makeReady p.2 0 else t) s
  if count = 0 then s.makeReady lk 0 else s

/-- The checks of a launch up to the TCBs: the descriptor's words, the region, its entries, its id, the TCBs and L, or the
status. The test of PRED stands behind those of the entries and images. [DESIGN CHOICE, log 130] -/
def State.checkLaunch (s : State) (host : Bool) (issuer : Option Nat) (desc : Nat) :
    Except Nat (List Word × Region × List LaunchEnt × Nat × List Nat × Nat) × State :=
  if desc % 64 != 0 then (.error 1, s)
  else
    match s.launchReads issuer desc 8 with
    | (none, s) => (.error 10, s)
    | (some d, s) =>
      let w (i : Nat) : Nat := (d.getD i 0).toNat
      if descField d then (.error 1, s)
      else
        match s.launchReads issuer (w 7) 16 with
        | (none, s) => (.error 10, s)
        | (some rcb, s) =>
          let b := wordsNum rcb
          let g := effective b (BitVec.ofNat 64 (w 7)) (issuer.bind fun i => (s.region? i).map fun g => (i, g))
          let st := s.rcbStatus host b issuer g
          if st ≠ 0 then (.error st, s)
          else
            match s.readEntries issuer g (bits (w 0) 0 13) (w 6) with
            | (.error c, s) => (.error c, s)
            | (.ok es, s) =>
              if s.predBad (BitVec.ofNat 32 (bits (w 5) 32 32)) issuer then (.error 9, s)
              else
                match s.freeRid 65534 1 with
                | none => (.error 6, s)
                | some rid =>
                  let cls := (range' 0 256).filter fun c => g.coreset.getLsbD c
                  match s.takeTcbs cls es [] 0 with
                  | none => (.error 7, s)
                  | some ts =>
                    match s.takeTcb (cls.headD 0) ts with
                    | none => (.error 7, s)
                    | some lk => (.ok (d, g, es, rid, ts, lk), s)

/-- A launch by a region's thread, or by the host (R271): its status, the region's id and L's key. A descriptor address that is no multiple of
64 gives FIELD with nothing written. [DESIGN CHOICE, log 130] -/
def State.launch (s : State) (host : Bool) (issuer : Option Nat) (desc : Nat) (mark : Region → Region) :
    (Nat × Nat × Nat) × State :=
  match s.checkLaunch host issuer desc with
  | (.error st, s) => ((st, 0, 0), if desc % 64 = 0 then s.launchWrite issuer (desc + 4) 2 st else s)
  | (.ok (d, g, es, rid, ts, lk), s) =>
    let w (i : Nat) : Nat := (d.getD i 0).toNat
    let age := s.host.created + 1
    let s : State := { s with host := { s.host with created := age }, regions := put s.regions rid (mark { g with age := age }) }
    let s := s.launchWrite issuer (w 7) 4 (g.parent.getD 0 * 65536 + rid)
    let s := match s.launchReads issuer (w 7) 1 with
      | (some l, t) => t.launchWrite issuer (w 7 + 4) 1 (bits (l.getD 0 0).toNat 35 5 * 8 + g.depth)
      | (none, t) => t
    let s := s.placeLaunch rid g.prio d es ts lk
    let s := (s.launchWrite issuer (desc + 28) 4 (2 ^ 31 + lk)).charge deviceWork rid (s.cost 12)
    let s := s.charge deviceWork 0 (s.cost 8)
    ((0, rid, lk), s.launchWrite issuer (desc + 4) 4 (rid * 65536))

/-- `SVC #0x100` (R270): the issuing region launches a child. [DEDUCED, log 94] -/
def execSvcLaunch (s : State) : Out :=
  issueWith .svcLaunch none none none (fun s =>
    release 5 s fun s =>
      let s := s.svcStop 0x100
      let ((st, _, lk), s) := s.launch false (some s.me.region) (s.g 4).toNat id
      let s := s.setGreg s.cur 4 { val := if st = 0 then refWord lk else 0 }
      .next (s.svcResume s.cur (BitVec.ofNat 64 st))) s

end Sys2Proof.Machine
end

