-- ==== Sys2Proof/Machine/Hubs.lean ====
section
/-! DEFINITION. Cluster hubs and steal engines: reserves and allocation (R273 to R276), steals (R48 to R50, R335), the landing and
the bounce of strands (R53, R54), owed handlers and events (R290, R292). -/

namespace Sys2Proof.Machine

/-! ## Reserves (R274) -/

/-- The clusters of a region's effective core set, ascending. -/
def Region.clusters (g : Region) : List Nat := (range' 0 256).filter fun c => g.coreset.getLsbD c

/-- share_c(Q). -/
def Region.share (g : Region) (c : Nat) : Nat :=
  match g.clusters.findIdx? (· == c) with
  | none => 0
  | some j => g.minslots / g.clusters.length + b2n (decide (j < g.minslots % g.clusters.length))

/-- held_c(Q): the slots of a cluster held by threads of a region and of its descendants; one kept for a strand in flight, a restore or a
steal counts. -/
def State.heldAt (s : State) (q c : Nat) : Nat :=
  (s.slots.filter fun p => p.2.st != .empty && clusterOf (coreOf p.1) == c && s.isAbove q p.2.region).length

/-- Whether a task TCB of a region or of a descendant, PENDING or READY and no null task, or a resume entry (R279), lies at a cluster.
[DEDUCED, log 93] -/
def State.unstarted (s : State) (q c : Nat) : Bool :=
  (s.tcbs.any fun p => p.1 / 512 == c && (p.2.state == 1 || p.2.state == 2) && p.2.pc != 0 && !refValid p.2.task && s.isAbove q p.2.region) ||
  (s.images.any fun m => m.into.isNone && clusterOf m.core == c && s.isAbove q m.slot.region)

/-- Whether a region is needy at a cluster. -/
def State.needy (s : State) (q c : Nat) : Bool :=
  match s.region? q with
  | none => false
  | some g => s.heldAt q c < g.share c && s.unstarted q c

/-- need_c(Q). -/
def State.need (s : State) (q c : Nat) : Nat :=
  if s.needy q c then (s.region? q).elim 0 fun g => g.share c - s.heldAt q c else 0

/-- The free allocatable slots of a cluster. -/
def State.freeSlots (s : State) (c : Nat) : Nat :=
  ((clusterCores c).map fun core => ((range' 0 64).filter fun i => s.allocatable (64 * core + i)).length).foldl (· + ·) 0

/-- reserve_ok(X, C) of R274 for a region at a cluster. -/
def State.reserveOk (s : State) (x c : Nat) : Bool :=
  s.needy x c ||
    let qs := (s.regions.map (·.1)).filter fun q => s.needy q c && !s.isAbove q x
    let top := qs.filter fun q => !((s.ancestry q).drop 1).any qs.contains
    (top.map fun q => s.need q c).foldl (· + ·) 0 ≤ s.freeSlots c - 1

/-! ## Allocation (R276) -/

/-- Whether a first start of a region may take a slot: the ring of a saved thread of the region keeps its number (R298). -/
def State.ringFree (s : State) (k region : Nat) : Bool :=
  !s.images.any fun m => m.core == coreOf k && m.slot.ring == slotNo k && m.slot.region == region

/-- The lowest-numbered slot of a core that a start of a region may take. -/
def State.startSlot (s : State) (core region : Nat) : Option Nat :=
  ((range' 0 64).map (64 * core + ·)).find? fun k => s.allocatable k && s.ringFree k region

/-- A task TCB starts in a slot (R276, R43). -/
def State.startTcb (s : State) (key k base : Nat) : State :=
  let t := s.tcb key
  let cl := key / 512
  let s := s.modTcb key fun t => { t with state := 3, pin := none }
  let s := s.modHub cl fun h => { h with ready := h.ready.filter (·.2 != key), pinned := h.pinned.filter (·.tcb != some key) }
  let s := s.addHeld t.region
  let join := refValid t.task
  let task := if join then t.task else tcbRef key
  let s := s.startThread k base t.wclass t.region t.pc t.fp (BitVec.ofNat 64 task.toNat) task (if join then t.slink else 0)
  let handler := (s.tcb (refKey task)).handlerOf
  s.modSlot k fun sl => { sl with isHandler := handler }

/-- A resume entry is given a slot; its restore follows (R279, R299). -/
def State.startImage (s : State) (m : Image) (k base : Nat) : State :=
  let cl := clusterOf m.core
  let s := s.modHub cl fun h => { h with pinned := h.pinned.filter (·.image != some m.id) }
  let s := s.addHeld m.slot.region
  let s := s.modSlot k fun sl => { nextOk := sl.nextOk, st := .held, wclass := m.slot.wclass, base := base, region := m.slot.region }
  let images := s.images.map fun n => if n.id = m.id then { n with into := some k } else n
  ({ s with images := images } : State).later (.threadRestore m.id)

/-- A pinned entry started on its core, if it may start there. -/
def State.tryPinned (s : State) (core : Nat) (e : PinEnt) : Option State :=
  match e.tcb, e.image with
  | some key, _ =>
    let t := s.tcb key
    match t.pin, s.freeBase core t.wclass with
    | some k, some b => if s.allocatable k && s.ringFree k t.region && s.admissible t.region then some (s.startTcb key k b) else none
    | _, _ => none
  | none, some id =>
    match s.images.find? (·.id == id) with
    | none => none
    | some m =>
      match s.freeSlot? core, s.freeBase core m.slot.wclass with
      | some k, some b => if s.admissible m.slot.region then some (s.startImage m k b) else none
      | _, _ => none
  | none, none => none

/-- A TCB of the ready queue started on a core, if a test of its region holds and it may start there. -/
def State.tryReady (s : State) (core : Nat) (test : Nat → Bool) (key : Nat) : Option State :=
  let t := s.tcb key
  if !test t.region then none
  else
    match s.startSlot core t.region, s.freeBase core t.wclass with
    | some k, some b => if s.admissible t.region then some (s.startTcb key k b) else none
    | _, _ => none

/-- Members of a queue by level, 15 down to 0, FIFO within a level. -/
def byLevel {α : Type} (prio : α → Nat) (l : List α) : List α :=
  (range' 0 16).flatMap fun i => l.filter fun x => prio x == 15 - i

/-- allocate(C) of R276. -/
def State.allocate (s : State) (core : Nat) : Option State :=
  let cl := clusterOf core
  let h := s.hub cl
  let ready := (byLevel (·.1) h.ready).map (·.2)
  ((byLevel PinEnt.prio (h.pinned.filter (·.core == core))).findSome? (s.tryPinned core)).or
    ((ready.findSome? (s.tryReady core fun r => (s.ancestry r).any fun a => s.needy a cl)).or
      (ready.findSome? (s.tryReady core fun r => s.reserveOk r cl)))

/-- Whether a core asks its hub. -/
def State.asks (s : State) (core : Nat) : Bool :=
  (s.freeSlot? core).isSome && s.agenda.any fun d => match d.ev with | .hubAllocate c => c == core | _ => false

/-- The cores of a cluster in ascending core index from the one after `i` on. -/
def ringAfter (cl i : Nat) : List Nat := (range' (i + 1) 16).map fun j => coreOfCluster cl (j % 16)

/-- Whether an event already stands on the agenda. -/
def State.planned (s : State) (e : Ev) : Bool := s.agenda.any fun d => d.ev == e

/-- A pre-emption at a cluster is considered, now that its slots have changed hands (R278). -/
def State.planPreempt (s : State) (cl : Nat) : State :=
  if s.planned (.preemptDecision cl) then s else s.later (.preemptDecision cl)

/-- HUB_ALLOCATE (R276): the hub serves the asking cores in ring order. [DEDUCED, log 93] -/
def execHubAllocate (core : Nat) (s : State) : Out :=
  let cl := clusterOf core
  if (s.freeSlot? core).isNone then .fault .notEnabled
  else if ((ringAfter cl (s.hub cl).lastServed).takeWhile (· != core)).any s.asks then stillDue (.hubAllocate core) s
  else
    let s := s.modHub cl fun h => { h with lastServed := coreIdx core }
    match s.allocate core with
    | some t => .next (((t.modCore core fun c => { c with refused := false }).later (.hubAllocate core)).planPreempt cl)
    | none =>
      let s := s.modCore core fun c => { c with refused := true }
      let s := if s.planned (.stealSweep core) then s else s.later (.stealSweep core)
      .next (s.planPreempt cl)

/-! ## Steal engines (R49, R50) -/

/-- The slots of a core that are ready, waiting or matrix-busy. -/
def State.busySlots (s : State) (core : Nat) : Nat :=
  ((range' 0 64).filter fun i =>
    let st := s.issueSt (64 * core + i)
    st == .ready || st == .waiting || st == .matrixBusy).length

/-- Distance of two clusters of a die. -/
def clusterDist (a b : Nat) : Nat :=
  let d (x y : Nat) : Nat := if x ≤ y then y - x else x - y
  d (a % 8) (b % 8) + d (a % 64 / 8) (b % 64 / 8)

/-- Whether a core's steal engine follows the schedule of capture mode (R335). -/
def State.captureCore (s : State) (core : Nat) : Bool :=
  s.regions.any fun p => (p.2.capture || p.2.replay) && p.2.coreset.getLsbD (clusterOf core)

/-- The cores in the order of a sweep (R50). -/
def State.probeOrder (s : State) (core : Nat) : List Nat :=
  let cl := clusterOf core
  let i := coreIdx core
  let own := (ringAfter cl i).take 15
  if s.captureCore core then own
  else
    let die := cl / 64
    let mine := (range' 1 14).flatMap fun d => (range' (64 * die) 64).filter fun c => c != cl && clusterDist c cl == d
    let others := (range' 1 3).flatMap fun x => range' (64 * Nat.xor die x) 64
    own ++ (mine ++ others).flatMap fun c => ringAfter c i

/-- The logical heads of the deques of a core: slot key, age, whether spilled, whether claimed. The record that the owner's `DONE` has
begun to refill is its own (R49). -/
def State.heads (s : State) (core : Nat) : List (Nat × Nat × Bool × Bool) :=
  (range' 0 64).filterMap fun i =>
    let k := 64 * core + i
    match (s.slot k).ringAges with
    | a :: r => if r = [] ∧ (s.slot k).waits = .refill then none else some (k, a, true, (s.slot k).ringClaimed)
    | [] => ((s.core core).deque.find? fun e => e.owner == i).map fun e => (k, e.age, false, e.claimed)

/-- The head of a core pushed earliest. -/
def earliest : List (Nat × Nat × Bool × Bool) → Option (Nat × Nat × Bool × Bool)
  | [] => none
  | h :: r => match earliest r with
    | some g => if h.2.1 ≤ g.2.1 then some h else some g
    | none => some h

/-- A spilled head that cannot be read is logged, and the probe moves on. -/
def State.headRec (s : State) (h : Nat × Nat × Bool × Bool) : Option Rec × State :=
  if h.2.2.1 then
    let va := s.ringAddr h.1 (s.slot h.1).ringHead
    match s.ringRead h.1 va with
    | (.ok l, t) => (some (recOf l), t)
    | (.error _, t) => (none, t.logErr 7 0 0 (BitVec.ofNat 64 va))
  else (((s.core (coreOf h.1)).deque.find? fun e => e.owner == slotNo h.1).map (·.rcd), s)

/-- The claim mark of a slot's head set or removed. -/
def State.markHead (s : State) (k : Nat) (on : Bool) : State :=
  if (s.slot k).ringAges != [] then s.modSlot k fun sl => { sl with ringClaimed := on }
  else s.modCore (coreOf k) fun c =>
    match c.deque.find? fun e => e.owner == slotNo k with
    | some e => { c with deque := c.deque.map fun d => if d = e then { d with claimed := on } else d }
    | none => c

/-- The head record of a slot leaves its deque. -/
def State.dropHead (s : State) (k : Nat) : State :=
  if (s.slot k).ringAges != [] then
    let n := Nat.max 1 (s.ringSize k)
    s.modSlot k fun sl => { sl with ringAges := sl.ringAges.drop 1, ringHead := (sl.ringHead + 1) % n, ringClaimed := false }
  else s.modCore (coreOf k) fun c =>
    match c.deque.find? fun e => e.owner == slotNo k with
    | some e => { c with deque := c.deque.erase e }
    | none => c

/-- A sweep over cores: the first record that may be stolen is claimed, and a slot of the thief kept for it (R49, R50). -/
def State.sweep (s : State) (thief : Nat) : List Nat → Option State × State
  | [] => (none, s)
  | c :: rest =>
    match earliest (s.heads c) with
    | none => s.sweep thief rest
    | some h =>
      match s.headRec h with
      | (none, t) => t.sweep thief rest
      | (some r, t) =>
        let ok := r.pub && !h.2.2.2 && t.grants r.region (clusterOf thief) && t.admissible r.region
        match t.startSlot thief r.region, t.freeBase thief r.wclass with
        | some k, some b =>
          if ok then
            let t := (t.markHead h.1 true).addHeld r.region
            let t := t.modSlot k fun sl => { nextOk := sl.nextOk, st := .held, wclass := r.wclass, base := b, region := r.region }
            let t := (t.modCore thief fun x => { x with steal := .claimed h.1 r k }).planPreempt (clusterOf thief)
            (some (t.travel (.stealHubAck thief) (dieOf (coreOf h.1)) (hubDie (refKey r.join)) 0 24), s)
          else t.sweep thief rest
        | _, _ => t.sweep thief rest

/-- The engine rests 256 cycles after a sweep without a find; in capture mode it starts again at a multiple of 1,024. -/
def State.restSteal (s : State) (core : Nat) : State :=
  let now := s.cycle core
  let next := if s.captureCore core then (now / 1024 + 1) * 1024 else now + 256
  (s.modCore core fun c => { c with steal := .resting next }).later (.stealRestExpiry core) (.cycle core next)

/-- A sweep in capture mode goes on with the cores that are left, one every 64 cycles (R335). -/
def State.probeOn (s : State) (core : Nat) (l : List Nat) : State :=
  match l with
  | [] => s.restSteal core
  | _ => (s.modCore core fun c => { c with steal := .probing l }).later (.stealSweep core) (.cycle core (s.cycle core + 64))

/-- A sweep over the cores of an order; in capture mode it probes the first, and the others follow. -/
def State.runSweep (s : State) (core : Nat) (l : List Nat) : State :=
  if s.captureCore core then
    match s.sweep core (l.take 1) with
    | (some t, _) => t
    | (none, t) => t.probeOn core (l.drop 1)
  else
    match s.sweep core l with
    | (some t, _) => t
    | (none, t) => t.restSteal core

/-- Whether a core's steal engine may be active, but for the number of its busy slots (R50). -/
def State.mayProbe (s : State) (core : Nat) : Bool := (s.core core).refused && (s.freeSlot? core).isSome

/-- STEAL_SWEEP (R50): the engine is active while fewer than 4 slots are busy, the hub took nothing and a slot is free. In capture mode a sweep
starts at a multiple of 1,024 of `CYCLE` (R335), and goes on while the engine is active. [DEDUCED, log 90] -/
def execStealSweep (core : Nat) (s : State) : Out :=
  match (s.core core).steal with
  | .idle =>
    if !s.mayProbe core then .fault .notEnabled
    else if s.captureCore core && s.cycle core % 1024 != 0 then
      .next (s.later (.stealSweep core) (.cycle core ((s.cycle core / 1024 + 1) * 1024)))
    else if 4 ≤ s.busySlots core then stillDue (.stealSweep core) s
    else .next (s.runSweep core (s.probeOrder core))
  | .probing l =>
    let s := s.modCore core fun c => { c with steal := .idle }
    if !s.mayProbe core then .next s
    else if 4 ≤ s.busySlots core then .next (s.later (.stealSweep core))
    else .next (s.runSweep core l)
  | _ => .fault .notEnabled

/-- STEAL_REST_EXPIRY (R50). -/
def execStealRestExpiry (core : Nat) (s : State) : Out :=
  match (s.core core).steal with
  | .resting n =>
    if s.cycle core < n then stillDue (.stealRestExpiry core) s
    else .next ((s.modCore core fun c => { c with steal := .idle }).later (.stealSweep core) (.cycle core (s.cycle core)))
  | _ => .fault .notEnabled

/-- The slot kept at a thief is free again. -/
def State.unkeep (s : State) (k region : Nat) : State := ((s.clearSlot k).subHeld region).endChecks region

/-- A refused claim: the mark is removed, the steal ends, and the thief's probe moves on (R49 step 2). -/
def State.refuseSteal (s : State) (core victim : Nat) (r : Rec) (k : Nat) : State :=
  let s := ((s.markHead victim false).unkeep k r.region).modCore core fun c => { c with steal := .idle }
  s.runSweep core (((s.probeOrder core).dropWhile (· != coreOf victim)).drop 1)

/-- STEAL_HUB_ACK (R49 steps 2 and 3). -/
def execStealHubAck (core : Nat) (s : State) : Out :=
  match (s.core core).steal with
  | .claimed victim r k =>
    let key := refKey r.join
    if !(s.heads (coreOf victim)).any (fun h => h.1 == victim && h.2.2.2) then
      .next (((s.unkeep k r.region).modCore core fun c => { c with steal := .idle }).later (.stealSweep core))
    else if (s.tcb key).count = BitVec.allOnes 32 then
      .next ((s.logErr 3 4 0 (refWord key)).refuseSteal core victim r k)
    else
      let s := s.modTcb key fun t => { t with count := t.count + 1 }
      let link := (s.slot victim).slink
      let s := (s.dropHead victim).modSlot victim fun sl => { sl with slink := r.join }
      let s := s.modCore core fun c => { c with steal := .travelling victim r link k }
      .next (s.travel (.stealArrival core) (dieOf (coreOf victim)) (dieOf core) 2 (80 + 4096 * ((range' 0 4).filter (bit r.tvalid)).length))
  | _ => .fault .notEnabled

/-- The claim of a steal meets an error response on its way (R266): it ends as a refused one does. -/
def execStealRefused (core : Nat) (s : State) : Out :=
  match (s.core core).steal with
  | .claimed victim r k => .next (s.refuseSteal core victim r k)
  | _ => .fault .notEnabled

/-- A 4 KiB tile copied from one core's scratchpad to another's (R49 step 4); full/empty bits stay as they are. -/
def State.copyTile (s : State) (src dst n : Nat) : State :=
  if s.scratchSize src < 4096 * (n + 1) || s.scratchSize dst < 4096 * (n + 1) then s
  else
    let a := corePlace src (4096 * n)
    let b := corePlace dst (4096 * n)
    let inTile (p : Nat) : Bool := b ≤ p && p < b + 4096
    let moved := (s.mem.filter fun c => a ≤ c.1 && c.1 < a + 4096).map fun c => (c.1 - a + b, c.2)
    let mem := (s.mem.filter fun c => !inTile c.1)
    let dead := (s.dead.filter fun w => !inTile w) ++ (s.dead.filter fun w => a ≤ w && w < a + 4096).map fun w => w - a + b
    { s with mem := moved.foldl (fun m c => writeByte m c.1 c.2) mem, dead := dead }

/-- STEAL_ARRIVAL (R49 steps 4 and 5). [DEDUCED, log 95] -/
def execStealArrival (core : Nat) (s : State) : Out :=
  match (s.core core).steal with
  | .travelling victim r link k =>
    let s := (range' 0 4).foldl (fun t i => if bit r.tvalid i then t.copyTile (coreOf victim) core (bits r.tiles (6 * i) 6) else t) s
    let base := (s.slot k).base
    let s := s.startThread k base r.wclass r.region r.pc r.fp (BitVec.ofNat 64 r.join.toNat) r.task link
    let handler := (s.tcb (refKey r.task)).handlerOf
    let frozen := s.halted r.region
    let s := s.modSlot k fun sl => { sl with isHandler := handler, st := if frozen then .halted else .ready,
                                             wait := if frozen then .regionHalt else .none }
    let s := s.charge (hubWork (clusterOf core)) r.region (s.cost 4)
    .next (((s.modCore core fun c => { c with steal := .idle }).later (.stealSweep core)).later (.hubAllocate core))
  | _ => .fault .notEnabled

/-! ## Landing and bounce (R53, R54) -/

/-- The lowest free landing slot of a core. -/
def State.landingSlot (s : State) (core : Nat) : Option Nat :=
  let n := (s.core core).landn
  ((range' (64 - n) n).map (64 * core + ·)).find? fun k => (s.slot k).st == .empty

/-- The registers of a message written from a base on. -/
def State.setRegs (s : State) (core base : Nat) (l : List (Word × Bool)) (sents : List Nat) : State :=
  (range' 0 l.length).foldl (fun t i => match l[i]? with
    | some (v, f) => t.setRf core (base + i) { val := v, full := f, sent := sents.getD i 0 }
    | none => t) s

/-- A strand lands in a landing slot (R54, R246). -/
def State.landStrand (s : State) (m : MigMsg) (k : Nat) : State :=
  let core := coreOf k
  let frozen := s.halted m.region
  let handler := (s.tcb (refKey m.task)).handlerOf
  let s := s.modSlot k fun sl =>
    { st := if frozen then .halted else .ready, wait := if frozen then .regionHalt else .none, pc := m.pc, pw := m.pw, region := m.region,
      wclass := 2, base := sl.base, task := m.task, slink := m.slink, ring := slotNo k, fprm := m.fpstat.extractLsb' 8 2,
      fpflags := m.fpstat.extractLsb' 0 6, amig := m.amig, nextOk := sl.nextOk, isHandler := handler }
  let s := s.setRegs core (s.slot k).base m.regs m.sents
  let s := if 4 ≤ scopeTo (coreOf m.src) core then s.dropCleanL1 core else s
  let asked := (s.migs.any fun n => n.id == m.id && n.preempt) || s.agenda.any fun d => d.ev == .preemptRequestArrival m.src
  let migs := s.migs.map fun n => if n.id = m.id then { n with landed := true, at_ := k } else n
  let s := (({ s with migs := migs } : State).dropPreempt m.src).travel (.landingAck m.id) (dieOf core) (dieOf (coreOf m.src)) 1 16
  if asked then s.later (.preemptRequestArrival k) else s

/-- An arrival that finds no room bounces: its message returns to the departing core (R54). -/
def State.bounce (s : State) (m : MigMsg) : State :=
  let migs := s.migs.map fun n => if n.id = m.id then { n with bounce := true } else n
  ({ s with migs := migs } : State).travel (.bounceReturn m.id) (dieOf m.target) (dieOf (coreOf m.src)) 1 224

/-- A strand that an error response keeps at home traps there (R52). -/
def State.stayHome (s : State) (m : MigMsg) (kind : Nat) : State :=
  let s : State := { s with migs := s.migs.filter (·.id != m.id) }
  let s := s.logErr kind 0 (s.nameOf m.src) m.addr
  let s := s.modSlot m.src fun sl => { sl with st := .ready, wait := .none, pc := m.home }
  let s := s.takeTrap m.src .rights 0 0 m.home m.addr 0 0 m.home
  if m.preempt then s.later (.preemptRequestArrival m.src) else s

/-- The way of a migration crosses a failed bridge (R266, R52). -/
def execMigrationError (id : Nat) (s : State) : Out :=
  match s.migs.find? (·.id == id) with
  | none => .fault .notEnabled
  | some m => .next (s.stayHome m 1)

/-- MIGRATION_ARRIVAL (R54, R52): the message lands, queues or bounces; a retired target traps the strand at home. -/
def execMigrationArrival (id : Nat) (s : State) : Out :=
  match s.migs.find? (·.id == id) with
  | none => .fault .notEnabled
  | some m =>
    let c := s.core m.target
    if m.landed || m.bounce || c.landq.any (·.id == id) then .fault .notEnabled
    else if s.behindPair (coreOf m.src) m.target m.id then stillDue (.migrationArrival id) s
    else if s.retired m.target then .next (s.stayHome m 2)
    else
      match s.landingSlot m.target with
      | some k =>
        if c.landq = [] then .next (s.landStrand m k)
        else if c.landq.length < 4 then .next (s.modCore m.target fun c => { c with landq := c.landq ++ [m] })
        else .next (s.bounce m)
      | none =>
        if c.landn != 0 && c.landq.length < 4 then .next (s.modCore m.target fun c => { c with landq := c.landq ++ [m] })
        else .next (s.bounce m)

/-- LANDING_QUEUE_TAKE (R54). -/
def execLandingQueueTake (core : Nat) (s : State) : Out :=
  match (s.core core).landq, s.landingSlot core with
  | m :: _, some k =>
    let s := s.modCore core fun c => { c with landq := c.landq.drop 1 }
    .next ((s.landStrand m k).later (.landingQueueTake core))
  | _, _ => .fault .notEnabled

/-- LANDING_ACK (R53): the departing slot becomes empty and its window free, which may have been the last of its region (R281). -/
def execLandingAck (id : Nat) (s : State) : Out :=
  match s.migs.find? (·.id == id) with
  | none => .fault .notEnabled
  | some m =>
    if !m.landed then .fault .notEnabled
    else .next ((({ s with migs := s.migs.filter (·.id != id) } : State).clearSlot m.src).endChecks m.region)

/-- BOUNCE_RETURN (R54): the held slot is refilled, and an auto-migrating access is performed remotely. -/
def execBounceReturn (id : Nat) (s : State) : Out :=
  match s.migs.find? (·.id == id) with
  | none => .fault .notEnabled
  | some m =>
    if !m.bounce then .fault .notEnabled
    else
      let frozen := s.halted m.region
      let s : State := { s with migs := s.migs.filter (·.id != id) }
      let s := s.setRegs (coreOf m.src) (s.slot m.src).base m.regs m.sents
      let s := s.modSlot m.src fun sl => { sl with
        st := if frozen then .halted else .ready, wait := if frozen then .regionHalt else .none, pc := m.pc, bounced := !m.hop, xprog := if m.hop then 0 else sl.xprog }
      let s := if m.preempt then s.later (.preemptRequestArrival m.src) else s
      .next (s.modCore (coreOf m.src) fun c => { c with bounces := c.bounces + 1 })

/-! ## Handlers and events (R290, R292) -/

/-- HANDLER_OWED_START (R290). -/
def execHandlerOwedStart (cluster : Nat) (s : State) : Out :=
  match (s.hub cluster).owed with
  | [] => .fault .notEnabled
  | r :: _ =>
    if (s.freeTcb? cluster).isNone then .fault .notEnabled
    else
      let s := s.modHub cluster fun h => { h with owed := h.owed.filter (· != r) }
      .next ((s.startHandler r).later (.handlerOwedStart cluster))

/-- EVENT_DELIVERY (R292): the record holds `TIME` at the event; for one that is not on its way, that is now. -/
def execEventDelivery (region code : Nat) (w1 w2 : Word) (s : State) : Out :=
  let mine (e : Told) : Bool := e.event == .eventDelivery region code w1 w2
  let time := (s.told.find? mine).elim s.time Told.time
  .next (({ s with told := s.told.eraseP mine } : State).deliverEvent region code w1 w2 time)

end Sys2Proof.Machine
end

