-- ==== Sys2Proof/Machine/Preempt.lean ====
section
/-! DEFINITION. Pre-emption (R278 to R280, R294, R296 to R299, R182, R207, R232): which thread is saved, the halt, the save image
and the restore. -/

namespace Sys2Proof.Machine

/-! ## The decision (R278, R280) -/

/-- The register ranges in use on a core once some slots are freed; a landing slot keeps its window (R40). -/
def State.rangesWithout (s : State) (core : Nat) (gone : List Nat) : List (Nat × Nat) :=
  (range' 0 64).filterMap fun i =>
    let k := 64 * core + i
    let sl := s.slot k
    if (sl.st != .empty && !gone.contains k) || 64 ≤ i + (s.core core).landn then some (sl.base, sl.size) else none

/-- Whether a TCB would fit a core once some slots and their windows are freed. -/
def State.fitsAfter (s : State) (core : Nat) (gone : List Nat) (t : Tcb) : Bool :=
  ((range' 0 64).any fun i =>
    let k := 64 * core + i
    s.ringFree k t.region && (s.allocatable k || (gone.contains k && !isSystem k && !s.isLanding k))) &&
  (lowestBase (s.rangesWithout core gone) (windowSize t.wclass)).isSome

/-- Whether a thread comes before another among the candidates: lowest prio, youngest region, highest slot number, highest core
index. -/
def State.sooner (s : State) (a b : Nat) : Bool :=
  let key (k : Nat) : Nat × Nat × Nat × Nat :=
    match s.region? (s.slot k).region with
    | some g => (g.prio, g.age, slotNo k, coreIdx (coreOf k))
    | none => (0, 0, slotNo k, coreIdx (coreOf k))
  let (pa, ga, sa, ca) := key a
  let (pb, gb, sb, cb) := key b
  pa < pb || (pa == pb && (gb < ga || (ga == gb && (sb < sa || (sa == sb && cb < ca)))))

/-- A thread put into an ordered list of candidates. -/
def State.rankThread (s : State) (k : Nat) : List Nat → List Nat
  | [] => [k]
  | a :: r => if s.sooner k a then k :: a :: r else a :: s.rankThread k r

/-- Whether the thread in a slot is being pre-empted. -/
def Slot.leaving (sl : Slot) : Bool := match sl.wait with | .preempt _ => true | _ => false

/-- Whether the thread in a slot has stayed parked for 262,144 cycles (R280). -/
def State.isStale (s : State) (k : Nat) : Bool :=
  (s.slot k).st == .parked && (s.slot k).parkedSince + 262144 ≤ s.cycle (coreOf k)

/-- The slots of strands in flight that no pre-emption awaits (R54). -/
def State.flights (s : State) : List Nat := (s.migs.filter fun m => !m.landed && !m.preempt).map MigMsg.src

/-- The candidates for a needy region at a cluster, in order (R278): threads, strands in flight among them, but for those that leave or are being
restored. -/
def State.candidates (s : State) (q c : Nat) : List Nat :=
  let cands := (s.threads ++ s.flights).filter fun k =>
    let v := (s.slot k).region
    clusterOf (coreOf k) == c && !isSystem k && !s.isAbove q v && !s.isAbove v q && !(s.slot k).leaving && (s.slot k).wait != .restore &&
      (match s.region? v with
       | some g => decide (g.share c < s.heldAt v c) && (g.prio < s.prioOf q || (s.isStale k && g.prio ≤ s.prioOf q))
       | none => false)
  cands.foldl (fun l k => s.rankThread k l) []

/-- Candidates taken in order until the TCB fits a core; a region is never taken below its share. -/
def State.takeUntil (s : State) (c : Nat) (t : Tcb) : List Nat → List Nat → Option (List Nat)
  | _, [] => none
  | got, k :: r =>
    let v := (s.slot k).region
    let share := (s.region? v).elim 0 fun g => g.share c
    if s.heldAt v c - (got.filter fun j => s.isAbove v (s.slot j).region).length ≤ share then s.takeUntil c t got r
    else
      let got := got ++ [k]
      if s.fitsAfter (coreOf k) got t then some got else s.takeUntil c t got r

/-- The victims for a TCB of a needy region: the first candidate that makes room by itself, or else several. -/
def State.victims (s : State) (q c : Nat) (t : Tcb) : List Nat :=
  let l := s.candidates q c
  match l.find? fun k => s.fitsAfter (coreOf k) [k] t with
  | some k => [k]
  | none => (s.takeUntil c t [] l).getD []

/-- The needy region and the victims of a pre-emption at a cluster, if one is to start (R278). [DEDUCED, log 74] The TCB that calls for it lies in the
ready queue, not in a pinned list. [DESIGN CHOICE, log 131] -/
def State.preemption (s : State) (c : Nat) : Option (Nat × List Nat) :=
  (byLevel (·.1) (s.hub c).ready).findSome? fun p =>
    let t := s.tcb p.2
    if refValid t.task then none
    else if (clusterCores c).any fun core => (s.tryReady core (fun _ => true) p.2).isSome then none
    else ((s.ancestry t.region).filter fun q => s.needy q c).findSome? fun q =>
      match s.victims q c t with
      | [] => none
      | l => some (q, l)

/-- The threads that are under way to a save image: slots whose thread leaves, those to which a request travels, and those of strands in
flight that a request awaits. -/
def State.departing (s : State) : List Nat :=
  (s.slots.filter fun p => p.2.leaving).map (·.1) ++
    (s.agenda.filterMap fun d => match d.ev with | .preemptRequestArrival k => some k | _ => none) ++
    (s.migs.filter MigMsg.preempt).map MigMsg.src

/-- Whether a pre-emption is under way at a cluster. -/
def State.preempting (s : State) (c : Nat) : Bool := s.departing.any fun k => clusterOf (coreOf k) == c

/-- PREEMPT_DECISION (R278): requests are sent to the victims, charged to the needy region with their restores; it is not started while
the image pool has no room for them beside the saves under way (R297). -/
def execPreemptDecision (cluster : Nat) (s : State) : Out :=
  if s.preempting cluster then stillDue (.preemptDecision cluster) s
  else
    match s.preemption cluster with
    | none => .fault .notEnabled
    | some (q, l) =>
      if 16384 < s.images.length + s.departing.length + l.length then stillDue (.preemptDecision cluster) s
      else .next ((l.foldl (fun t _ => t.charge deviceWork q (t.cost 5)) s).laters (l.map .preemptRequestArrival))

/-- THREAD_STALE (R280). -/
def execThreadStale (k : Nat) (s : State) : Out :=
  let sl := s.slot k
  if sl.stale || !s.isStale k then .fault .notEnabled
  else .next ((s.modSlot k fun sl => { sl with stale := true }).later (.preemptDecision (clusterOf (coreOf k))))

/-! ## The halt (R294, R296, R182, R207) -/

/-- An unfinished capture of a slot is discarded; the `REPF` is issued again (R169, R182). -/
def State.undoCapture (s : State) (k : Nat) : State :=
  match (s.core (coreOf k)).frame with
  | some f => if f.slot = k ∧ f.captured < f.len then (s.discardFrame (coreOf k)).modSlot k fun sl => { sl with pc := f.pc } else s
  | none => s

/-- The fault of earlier work that a boundary takes first (R294), if the thread stands at one. [DEDUCED, log 78] -/
def State.faultFirst (s : State) (k : Nat) : State :=
  let atBoundary : Bool := match (s.slot k).st, (s.slot k).wait with
    | .ready, _ => true
    | _, .reissue _ => true
    | _, _ => false
  match (if atBoundary then s.dueFault k else none) with
  | some f => s.takeFault k f
  | none => s

/-- PREEMPT_REQUEST_ARRIVAL (R296): the thread halts at its boundary. A strand in flight completes its landing or bounce first, and is halted
where it then stands (R54, R158). -/
def execPreemptRequestArrival (k : Nat) (s : State) : Out :=
  let sl := s.slot k
  if sl.st == .held then
    if s.flights.contains k then
      .next { s with migs := s.migs.map fun m => if m.src = k ∧ !m.landed then { m with preempt := true } else m }
    else .fault .notEnabled
  else if sl.st == .empty || sl.leaving || sl.wait == .restore then .fault .notEnabled
  else
    let s := (s.undoCapture k).faultFirst k
    let s := s.withdraw k
    let s := match (s.slot k).waits with
      | .acc => s.modCore (coreOf k) fun c => { c with acc := none }
      | _ => s
    let s := s.modSlot k fun sl =>
      let rcd : Bool := match sl.waits with | .record _ => true | _ => false
      if sl.frozen then { sl with wait := .preempt rcd } else sl.quiesce (.preempt rcd)
    .next (s.later (.preemptSaveComplete k))

/-! ## The save (R296 to R298) -/

/-- Whether everything outstanding of a halted thread has landed. [DEDUCED, log 75] -/
def State.saveReady (s : State) (k : Nat) : Bool :=
  let sl := s.slot k
  let c := s.core (coreOf k)
  let landed : Bool := match sl.bwait with
    | .reply _ => false | .divide _ _ _ _ => false | .refill => false | _ => true
  landed && sl.unack = 0 && (c.vowner != some k || c.seq.all fun e => e.pending == [])

/-- What is left of a `VCLAIM`, `FENCE`, `FLUSH` or `INVAL` under way at the halt, which completes (R158, R182): none while a write-back is on its way; else
whether it is over. A `FENCE` behind vector steps that the halt has stopped, or with a remote-store error to report, is issued again. -/
def State.endForm (s : State) (k : Nat) : Option (Bool × State) :=
  let sl := s.slot k
  let core := coreOf k
  let fin (t : State) : Option (Bool × State) := some (true, (t.advance k 4).modSlot k Slot.settle)
  match sl.bwait with
  | .reissue (.claimQuiet q g) => if s.vecQuiet k then fin (s.claimLanes k q g) else none
  | _ =>
  if !sl.completes then some (true, s)
  else
    match sl.bwait with
    | .reissue (.lineDone scope line inval) =>
      if !s.condHolds k (.lineDone scope line inval) then none
      else fin (if inval then (s.dropCopies core scope line).dropFetched core scope line else s)
    | .reissue _ =>
      if sl.failStore.isSome || !s.vecQuiet k then some (true, s.modSlot k fun sl => { sl.settle with relMark := none, completes := false })
      else
        match sl.relMark with
        | some n => if s.wbBefore core n then fin s else none
        | none =>
          if s.l1Settled core then fin s
          else some (false, (s.writeBackAll core).modSlot k fun sl => { sl with relMark := some (s.writeBackAll core).nextId })
    | _ => some (true, s)

/-- The vector context of a slot as its image holds it (R182). -/
def State.saveVector (s : State) (k : Nat) : Option VSave :=
  let core := coreOf k
  let c := s.core core
  if c.vowner = some k then
    some { regs := (range' 0 2048).map fun i => s.lane core (i / 64) (i % 64), seq := c.seq, frame := c.frame, vpend := c.vpend,
           lanes := s.grantOf core }
  else none

/-- The matrix state of a slot's core as its image holds it (R207): queued operations are not started, rows done are kept. -/
def State.saveMatrix (s : State) (k : Nat) : Option MSave :=
  let core := coreOf k
  let c := s.core core
  if c.mclaim = some k then
    some { splane := (find s.planes (2 * core)).getD [], hplane := (find s.planes (2 * core + 1)).getD [], stype := c.stype,
           htype := c.htype, scale := c.scale, mflags := c.mflags, mq := c.mq.map fun o => { o with started := false },
           accs := (s.ownedArrays core).map fun j => (j, (range' 0 1024).map fun i => s.acc (tileOf core) j (i / 32) (i % 32)) }
  else none

/-- The queues that a slot alone of its region binds (R56). -/
def State.lastBound (s : State) (k : Nat) : List Nat :=
  let core := coreOf k
  (boundQueues (s.slot k).portmap.toNat).filter fun q =>
    (range' 0 64).all fun i =>
      let j := 64 * core + i
      j == k || (s.slot j).st == .empty || (s.slot j).region != (s.slot k).region || !(boundQueues (s.slot j).portmap.toNat).contains q

/-- Claims of thieves on the head record of a saved thread end (R298). -/
def State.unclaim (s : State) (k : Nat) : State :=
  s.cores.foldl (fun t p => match p.2.steal with
    | .claimed v r slot =>
      if v = k then ((t.unkeep slot r.region).modCore p.1 fun c => { c with steal := .idle }).later (.stealSweep p.1) else t
    | _ => t) s

/-- The vector context and the matrix claim of a saved thread's core are given up; streams stay in their buffers (R182, R207). -/
def State.giveUp (s : State) (k : Nat) : State :=
  let core := coreOf k
  let s := if (s.core core).vowner = some k then
      (s.freeVector core).modCore core fun c => { c with seq := [], frame := none, vpend := [] }
    else s
  if (s.core core).mclaim = some k then
    let r := (s.slot k).region
    let s := s.modTile (tileOf core) fun t => if t.arrayBusy = some core then { t with arrayBusy := none } else t
    let ask (s : State) : State := s.askMatrix core
    let s := ask s
    s.modCore core fun c => { c with mclaim := none, mlast := some r, mq := [], acc := none }
  else s

/-- The lowest image of the pool that is free (R297). -/
def State.freeImage (s : State) : Nat :=
  ((range' 0 (s.images.length + 1)).find? fun i => !s.images.any fun m => m.id == i).getD 0

/-- The thread in a slot saved, its slot freed, and a resume entry left (R296 to R298, R279). -/
def State.saveThread (s : State) (k : Nat) : State :=
  let core := coreOf k
  let sl := s.slot k
  let id := s.freeImage
  let qs := s.lastBound k
  let mine (e : DqEnt) : Bool := e.owner == slotNo k
  let m : Image :=
    { id := id, core := core, origin := k, slot := { sl with ringClaimed := false, stale := false, noBorrow := false },
      regs := (range' 0 sl.size).map fun r => s.greg k r, queues := qs.map fun q => (q, s.queue core q),
      deque := ((s.core core).deque.filter mine).map fun e => { e with claimed := false },
      vector := s.saveVector k, matrix := s.saveMatrix k }
  let s := s.unclaim k
  let s := qs.foldl (fun t q => t.setQueue core q []) s
  let s := (s.modCore core fun c => { c with deque := c.deque.filter fun e => !mine e }).giveUp k
  let s := s.modRegion sl.region fun g => { g with recq := g.recq.map fun j => if j = k then 2 ^ 20 + id else j }
  let engs := s.engs.map fun o => if o.slot = k ∧ o.image = none then { o with image := some id } else o
  let s : State := { s with images := s.images ++ [m], engs := engs }
  let s := (s.clearSlot k).subHeld sl.region
  let prio := (s.tcb (refKey sl.task)).prio
  let s := s.modHub (clusterOf core) fun h => { h with pinned := h.pinned ++ [{ core := core, prio := prio, tcb := none, image := some id }] }
  s.askHub (clusterOf core)

/-! ## Images as bytes of the pool (R297) -/

/-- Byte `i` of a number. -/
def byteOf (n i : Nat) : Byte := BitVec.ofNat 8 (n / 256 ^ i)

/-- A number with byte `i` replaced. -/
def withByte (n i : Nat) (b : Byte) : Nat := n - n / 256 ^ i % 256 * 256 ^ i + b.toNat * 256 ^ i

/-- A byte of an image whose place R297 gives: of its general registers and their full/empty bits, its hardware queues, its on-chip deque
entries, its vector registers and its accumulator arrays. The places within the other parts are not given. -/
def Image.byte (m : Image) (off : Nat) : Option Byte :=
  let i := off % 8
  if 0x100 ≤ off && off < 0x500 then some (byteOf (m.regs.getD ((off - 0x100) / 8) {}).val.toNat i)
  else if 0x500 ≤ off && off < 0x510 then
    some (BitVec.ofNat 8 (((range' 0 8).map fun j => b2n (m.regs.getD (8 * (off - 0x500) + j) {}).full * 2 ^ j).foldl (· + ·) 0))
  else if 0x600 ≤ off && off < 0xA00 then
    match ((find m.queues ((off - 0x600) / 128)).getD [])[(off - 0x600) % 128 / 8]? with
    | some (.word v) => some (byteOf v.toNat i)
    | _ => some 0
  else if 0xA00 ≤ off && off < 0xE00 then
    match m.deque[(off - 0xA00) / 32]? with
    | some e => some (byteOf ((recWords e.rcd).getD (off % 32 / 8) 0).toNat i)
    | none => some 0
  else if 0x1200 ≤ off && off < 0x3200 then m.vector.map fun v => byteOf (v.regs.getD ((off - 0x1200) / 4) 0).toNat (off % 4)
  else if 0x5300 ≤ off && off < 0xF300 then
    m.matrix.map fun x => byteOf ((x.accs.flatMap (·.2)).getD ((off - 0x5300) / 5) 0).toNat ((off - 0x5300) % 5)
  else none

/-- An image with a byte of its general registers, of their full/empty bits, or of its vector registers replaced (R297). -/
def Image.setByte (m : Image) (off : Nat) (b : Byte) : Image :=
  if 0x100 ≤ off && off < 0x500 then
    let at_ := (off - 0x100) / 8
    let r := m.regs.getD at_ {}
    { m with regs := setAt m.regs at_ { r with val := BitVec.ofNat 64 (withByte r.val.toNat (off % 8) b) } }
  else if 0x500 ≤ off && off < 0x510 then
    { m with regs := (m.regs.zip (range' 0 m.regs.length)).map fun p =>
        if p.2 / 8 = off - 0x500 then { p.1 with full := b.getLsbD (p.2 % 8) } else p.1 }
  else if 0x1200 ≤ off && off < 0x3200 then
    let at_ := (off - 0x1200) / 4
    { m with vector := m.vector.map fun v =>
        { v with regs := setAt v.regs at_ (BitVec.ofNat 32 (withByte (v.regs.getD at_ 0).toNat (off % 4) b)) } }
  else m

/-- The image that stands at a physical address of the pool, with the offset of the address in it (R297). -/
def State.imageAt (s : State) (pa : Nat) : Option (Image × Nat) :=
  (s.images.find? fun m => Config.imagePool + 65536 * m.id ≤ pa && pa < Config.imagePool + 65536 * (m.id + 1)).map fun m =>
    (m, pa - (Config.imagePool + 65536 * m.id))

/-- A word of an image of the pool; bytes whose places R297 does not give are free values. [DESIGN CHOICE, log 128] -/
def State.imageWord (s : State) (m : Image) (off : Nat) : Word :=
  BitVec.ofNat 64 (leNat ((range' off 8).map fun i => (m.byte i).getD (BitVec.ofNat 8 (Config.freeWordAt s.tick i).toNat)))

/-- A word written into an image of the pool. [DESIGN CHOICE, log 128] -/
def State.setImageWord (s : State) (m : Image) (off : Nat) (v : Word) : State :=
  let new := (range' 0 8).foldl (fun n i => n.setByte (off + i) (byteOf v.toNat i)) m
  { s with images := s.images.map fun n => if n.id = m.id then new else n }

/-- PREEMPT_SAVE_COMPLETE (R296). -/
def execPreemptSaveComplete (k : Nat) (s : State) : Out :=
  if !(s.slot k).leaving then .fault .notEnabled
  else if !s.saveReady k then stillDue (.preemptSaveComplete k) s
  else
    match s.endForm k with
    | none => stillDue (.preemptSaveComplete k) s
    | some (false, t) => .next (t.later (.preemptSaveComplete k))
    | some (true, t) => .next (t.saveThread k)

/-! ## The restore (R299) -/

/-- A deque entry put among those of a core, by age. -/
def byAge (e : DqEnt) : List DqEnt → List DqEnt
  | [] => [e]
  | a :: r => if e.age < a.age then e :: a :: r else a :: byAge e r

/-- One entry of a core's full deque moved to its owner's ring for a restore in a slot; a fault is logged and the entry passed over,
whoever owns it. -/
def State.spillOne (s : State) (k : Nat) : Option State :=
  let l := (s.core (coreOf k)).deque
  match s.spillFrom k l with
  | .ok t => some t
  | .full _ => none
  | .fault _ _ va t =>
    match (t.logErr 7 0 0 (BitVec.ofNat 64 va)).spillFrom k (l.filter fun e => e.owner != slotNo k) with
    | .ok u => some u
    | _ => none

/-- A saved deque written back for a slot: room is made as by a push (R46). None while no room can be made. The entries belong to the slot
that the restore has been given; the slot field within a record stays as `SPAWN` wrote it. [DEDUCED, log 76] -/
def State.restoreDeque (s : State) (k : Nat) : List DqEnt → Option State
  | [] => some s
  | e :: r =>
    let put (t : State) : Option State :=
      (t.modCore (coreOf k) fun c => { c with deque := byAge { e with owner := slotNo k } c.deque }).restoreDeque k r
    if (s.core (coreOf k)).deque.length < 32 then put s else (s.spillOne k).bind put

/-- The vector context restored with a negotiation (R182). -/
def State.restoreVector (s : State) (k : Nat) (v : VSave) : State :=
  let core := coreOf k
  let lanes := (range' 0 2048).map fun i => (i, v.regs.getD i 0)
  let s := lanes.foldl (fun t p => t.setLane core (p.1 / 64) (p.1 % 64) p.2) s
  let s := s.modCore core fun c => { c with
    vowner := some k, seq := v.seq.map fun e => { e with slot := k }, frame := v.frame.map fun f => { f with slot := k },
    vpend := v.vpend.map fun p => { p with slot := k } }
  ((s.renegotiate k v.lanes).later (.vectorStep core)).laters (v.vpend.map fun _ => .vectorPendingWrite core)

/-- The matrix state restored over what the core holds (R207). -/
def State.restoreMatrix (s : State) (k : Nat) (m : MSave) : State :=
  let core := coreOf k
  let tile := tileOf core
  let s : State := { s with planes := put (put s.planes (2 * core) m.splane) (2 * core + 1) m.hplane }
  let s := (m.accs.filter fun p => (s.ownedArrays core).contains p.1).foldl (fun t p =>
    (range' 0 1024).foldl (fun t i => t.setAcc tile p.1 (i / 32) (i % 32) (p.2.getD i 0)) t) s
  let s := s.modCore core fun c => { c with
    mclaim := some k, stype := m.stype, htype := m.htype, scale := m.scale, mflags := m.mflags, mq := m.mq.map fun o => { o with slot := k } }
  s.askMatrix core

/-- Whether no other region's thread on the core of an image binds a queue that the image holds (R56). [DEDUCED, log 76] -/
def State.queuesFree (s : State) (m : Image) : Bool :=
  m.queues.all fun p => (range' 0 64).all fun i =>
    let sl := s.slot (64 * m.core + i)
    sl.st == .empty || sl.st == .held || sl.region == m.slot.region || !(boundQueues sl.portmap.toNat).contains p.1

/-- The state with an image changed. -/
def State.modImage (s : State) (id : Nat) (f : Image → Image) : State :=
  { s with images := s.images.map fun m => if m.id = id then f m else m }

/-- R299 step 2: the registers, queues, deque entries and slot registers are written in the slot that the thread has been given, where
what is still outstanding for it lands from now on. A queue that the image holds is written over what other slots of the region have
put into it meanwhile. None while the deque has no room. [DEDUCED, log 76] -/
def State.writeImage (s : State) (m : Image) (k : Nat) : Option State :=
  let core := coreOf k
  let at_ := s.slot k
  let s := s.modSlot k fun _ => { m.slot with
    st := .halted, wait := .restore, base := at_.base, nextOk := at_.nextOk, parkedSince := s.cycle core }
  (s.restoreDeque k m.deque).map fun s =>
    let s := (range' 0 m.regs.length).foldl (fun t r => t.setGreg k r (m.regs.getD r {})) s
    let s := m.queues.foldl (fun t p => t.setQueue core p.1 p.2) s
    let s := s.modRegion m.slot.region fun g => { g with recq := g.recq.map fun j => if j = 2 ^ 20 + m.id then k else j }
    let engs := s.engs.map fun o => if o.image = some m.id then { o with slot := k, image := none } else o
    ({ s with engs := engs } : State).modImage m.id fun n => { n with written := true, slot := { n.slot with bwait := .none }, deque := [] }

/-- R299 steps 6 and 7, with the vector and the matrix work that goes on (R182, R207): an acquire at `.mod`, which drops all that `acquire_tags` drops for the tags that are set, and the thread goes on in
its saved state; the image is free. -/
def State.endRestore (s : State) (m : Image) (k : Nat) : State :=
  let core := coreOf k
  let s : State := { s with images := s.images.filter (·.id != m.id) }
  let s := s.modSlot k fun sl => { sl with st := sl.before, wait := sl.bwait, before := .ready, bwait := .none, parkedSince := s.cycle core }
  let s := s.acquire 5 core
  let s := if s.halted (s.slot k).region then s.haltThread k else s
  let s := if (s.core core).vowner = some k then s.later (.vectorStep core) else s
  s.askMatrix core

/-- THREAD_RESTORE (R299): the step of a restore that comes next. -/
def execThreadRestore (image : Nat) (s : State) : Out :=
  match s.images.find? (·.id == image) with
  | none => .fault .notEnabled
  | some m =>
    match m.into with
    | none => .fault .notEnabled
    | some k =>
      let again (t : State) : Out := .next (t.later (.threadRestore image))
      if !m.written then
        if !s.queuesFree m then stillDue (.threadRestore image) s
        else match s.writeImage m k with
          | none => stillDue (.threadRestore image) s
          | some t => again t
      else
        match m.vector, m.matrix with
        | some v, _ =>
          if (s.core m.core).vowner.isSome then stillDue (.threadRestore image) s
          else again ((s.restoreVector k v).modImage image fun n => { n with vector := none })
        | none, some x =>
          if (s.core m.core).mclaim.isSome || (s.core m.core).mq != [] then stillDue (.threadRestore image) s
          else again ((s.restoreMatrix k x).modImage image fun n => { n with matrix := none })
        | none, none => if (s.slot k).inflight != 0 then stillDue (.threadRestore image) s else .next (s.endRestore m k)

end Sys2Proof.Machine
end

