-- ==== Sys2Proof/Machine/Pacer.lean ====
section
/-! DEFINITION. Pacer (R316 to R323): a member's adoption of epochs, the leader's epochs, announcements, hard drops, raises,
heartbeats, silence and slack. -/

namespace Sys2Proof.Machine

/-- The state with its Pacer state changed. -/
def State.modPacer (s : State) (f : Pacer → Pacer) : State := { s with pacer := f s.pacer }

/-- Whether this module leads its group. -/
def State.leads (s : State) : Bool := s.pacer.group.isSome && s.pacer.leader == s.host.modid

/-- The ceiling set at a time: it counts as a change where the value changes, and the slack level follows it (R321). -/
def Pacer.setCeiling (p : Pacer) (level time : Nat) (hard : Bool) : Pacer :=
  if level = p.ceiling then p else { p with ceiling := level, slack := level, lastChange := time, hard := hard }

/-- The pending ceiling applied (R316). A hard drop counts as a change of its own; the own ceiling of a module that dropped ends with
the E of its drop, or with a C at or below it (R318). [DEDUCED, log 39] -/
def Pacer.applyPend (p : Pacer) : Pacer :=
  match p.pend with
  | none => p
  | some (level, e) =>
    let q := p.setCeiling level e p.pendHard
    { q with pend := none, pendHard := false,
             lastChange := if p.pendHard then e else q.lastChange, hard := p.pendHard || q.hard,
             dropped := p.dropped.filter fun d => d < level && e < p.dropEnd }

/-- A pending ceiling whose time has come is applied before anything else is made of it (R316). -/
def State.settlePend (s : State) : State :=
  match s.pacer.pend with
  | some (_, e) => if e ≤ s.time then s.modPacer Pacer.applyPend else s
  | none => s

/-- PACE_CHANGE to every region of the module (R316, R292); captured regions record it, replayed ones have theirs from the buffer.
[DEDUCED, log 40] -/
def State.paceChanged (s : State) (m : EpochMsg) (level time : Nat) : State :=
  (s.regions.map (·.1)).foldl (fun t r =>
    match t.captureOf r with
    | some c =>
      if c.replay then t
      else (if c.region = r then t.record c (.input (.pacer m)) 48 else t).tell r 3 (BitVec.ofNat 64 level) (BitVec.ofNat 64 time)
    | none => t.tell r 3 (BitVec.ofNat 64 level) (BitVec.ofNat 64 time)) s

/-- The silence of a member is counted from now on (R320). -/
def State.hearNow (s : State) (chip : Nat) : State :=
  let s := s.modPacer fun p => { p with lastHeard := put p.lastHeard chip s.time }
  let gone (d : Due) : Bool := match d.ev with | .memberSilence c => c == chip | .leaderSilence => chip == s.pacer.leader | _ => false
  let s : State := { s with agenda := s.agenda.filter fun d => !gone d }
  if chip = s.host.modid then s
  else s.later (if chip = s.pacer.leader then .leaderSilence else .memberSilence chip) (.time (s.time + 1000000))

/-- Whether an event of the agenda belongs to membership in a group: its heartbeats, windows, silences and pending ceiling. -/
def ofGroup (d : Due) : Bool :=
  match d.ev with
  | .pacerHeartbeat | .slackWindowEnd | .pacerCeilingApply | .memberSilence _ | .leaderSilence => true
  | _ => false

/-- The module stands outside every group (R320): its ceiling is its own proposal, and nothing of the group is due at it any more. -/
def State.outside (s : State) : State :=
  let s : State := { s with agenda := s.agenda.filter fun d => !ofGroup d }
  (s.modPacer fun p => { (p.setCeiling p.limit s.time false) with
    group := none, applied := none, members := [], leader := 0, pend := none, pendHard := false, dropped := none, adopted := none,
    announced := none, slack := p.limit, proposals := [], lastHeard := [], offsets := [], bites := [], joining := [], leaving := [],
    winCycles := 0, winIdle := 0 }).updatePage

/-- GROUP_MEMBER_LOST to each collective region (R320, R292). [DEDUCED, log 41] -/
def State.memberLost (s : State) (chip : Nat) : State :=
  s.tellAll ((s.regions.filter fun p => p.2.collective).map fun p =>
    { region := p.1, code := 2, w1 := BitVec.ofNat 64 chip, w2 := BitVec.ofNat 64 s.pacer.epoch, time := s.time })

/-- The members that an epoch removes for their silence: nothing has been heard of them for half of R320's millisecond, and they have not
been told lost before. [DESIGN CHOICE, log 119] -/
def State.lostBy (s : State) (m : EpochMsg) : List Nat :=
  s.pacer.members.filter fun c =>
    !m.members.contains c && (match find s.pacer.lastHeard c with | some t => t + 500000 ≤ s.time | none => false)

/-- A member adopts an epoch message (R316): the ceiling, what is pending, and the membership. [DEDUCED, log 45] -/
def State.adopt (s : State) (m : EpochMsg) : State :=
  let s := s.settlePend
  if !m.members.contains s.host.modid then s.outside
  else
    let old := s.pacer
    let fresh := old.group.isNone
    let lost := s.lostBy m
    let repeated := !fresh && m.pend.isSome && (old.pend == m.pend || (old.adopted == m.pend && m.pend.all fun q : Nat × Nat => q.2 ≤ s.time))
    let s := s.modPacer fun p => { p with
      group := some m.group, applied := none, epoch := m.epoch, leader := m.leader, members := m.members,
      proposals := p.proposals.filter fun q => m.members.contains q.1,
      lastHeard := p.lastHeard.filter fun q => m.members.contains q.1,
      offsets := p.offsets.filter fun q => m.members.contains q.1,
      bites := p.bites.filter fun q => m.members.contains q.1 }
    let s := (m.members.filter fun c => fresh || !old.members.contains c).foldl State.hearNow s
    let s := lost.foldl State.memberLost s
    let s := if (repeated && old.pend.isNone) || old.ceiling = m.ceiling then s
      else (s.modPacer fun p => p.setCeiling m.ceiling s.time m.hard).paceChanged m m.ceiling s.time
    let s := match m.pend with
      | some (level, e) =>
        if repeated then s
        else
          let s := s.modPacer fun p => { p with pend := some (level, e), pendHard := m.hard, adopted := some (level, e),
                                                hardDrops := p.hardDrops + b2n m.hard, late := p.late + b2n (e < s.time) }
          let s := s.paceChanged m level e
          if e ≤ s.time then s.modPacer Pacer.applyPend else s.later .pacerCeilingApply (.time e)
      | none => s.modPacer fun p => { p with
          pend := none, pendHard := false, dropped := p.dropped.filter fun _ => old.pend.all fun q : Nat × Nat => q.2 < p.dropEnd }
    let s := if fresh then
        (s.later .pacerHeartbeat (.time (s.time + 50000))).later .slackWindowEnd (.time ((s.time / 1000000 + 1) * 1000000))
      else s
    s.updatePage

/-- The lowest of some chip ids. -/
def lowestChip (l : List Nat) (d : Nat) : Nat := l.foldl Nat.min (l.headD d)

/-- Whether the announcement that a join makes is still to be handled (R320). -/
def State.joinStands (s : State) (chip : Nat) : Bool :=
  s.agenda.any fun d => match d.ev with | .leaderAnnounceHandle c _ _ _ => c == chip | _ => false

/-- The leader issues an epoch with a pending ceiling (R316): the membership takes in who joins and loses who leaves, and the lowest chip
id leads. It goes to the members, to those it removes as well, and the leader adopts it as every member does. -/
def State.issueWith (s : State) (pend : Option (Nat × Nat)) (hard : Bool) : State :=
  let p := s.pacer
  let members := (p.joining.foldl insertNat p.members).filter fun c => !p.leaving.contains c
  let m : EpochMsg := { group := p.group.getD 0, epoch := (p.epoch + 1) % 2 ^ 32, ceiling := p.ceiling, pend := pend, hard := hard,
                        leader := lowestChip members s.host.modid, members := members }
  let s := s.modPacer fun p => { p with joining := p.joining.filter s.joinStands, leaving := [], proposals := p.proposals.filter fun q => members.contains q.1 }
  let s := ((p.members.foldl insertNat members).filter (· != s.host.modid)).foldl (fun t c => (t.relaySend c 0 (.epoch m)).getD t) s
  s.adopt m

/-- The leader issues an epoch that leaves what is pending as it is. -/
def State.issueEpoch (s : State) : State :=
  let s := s.settlePend
  s.issueWith s.pacer.pend s.pacer.pendHard

/-- PACER_EPOCH_RECEIVE (R316). -/
def execPacerEpochReceive (m : EpochMsg) (s : State) : Out :=
  if s.pacer.group != some m.group && s.pacer.applied != some m.group then .fault .notEnabled
  else .next ((s.hearNow m.leader).adopt m)

/-- The least proposal of the members, and of one more chip. -/
def Pacer.least (p : Pacer) : Nat := ((p.members.filterMap fun c => find p.proposals c).foldl Nat.min 30)

/-- PACER_CEILING_APPLY (R316). -/
def execPacerCeilingApply (s : State) : Out :=
  match s.pacer.pend with
  | none => .fault .notEnabled
  | some (_, e) => if s.time < e then stillDue .pacerCeilingApply s else .next (s.modPacer Pacer.applyPend)

/-- The earliest bite time among the announcements that stand at the least proposal (R317). -/
def Pacer.bite (p : Pacer) (m : Nat) (d : Nat) : Nat :=
  let l := p.members.filterMap fun c => if find p.proposals c = some m then find p.bites c else none
  match l with | [] => d | b :: r => r.foldl Nat.min b

/-- What is to be pending after an announcement, with its hard flag (R317 to R319): P is the least of the proposals as they stand, and
never above C, which R319 alone raises. A hard drop leaves a pending P below its own; another announcement cancels what is pending where
no proposal is below C. [DEDUCED, log 38] -/
def Pacer.lower (p : Pacer) (e : Nat) (hard : Bool) : Option (Nat × Nat) × Bool :=
  let m := p.least
  match p.pend, hard with
  | none, true => (some (Nat.min m p.ceiling, e), true)
  | none, false => (if p.ceiling ≤ m then none else some (m, e), false)
  | some (level, e0), true => if level < m then (some (level, e0), p.pendHard) else (some (Nat.min m p.ceiling, e), true)
  | some (level, e0), false =>
    if p.ceiling ≤ m then (if level < p.ceiling || m < level then (none, false) else (some (level, e0), p.pendHard))
    else if level = m then (some (m, Nat.min e e0), p.pendHard)
    else (some (m, e), false)

/-- The state in which a chip's proposal is noted (R320): one that has risen announces nothing any more. -/
def State.noteProposal (s : State) (chip level : Nat) : State :=
  s.modPacer fun p => { p with
    proposals := put p.proposals chip level,
    bites := if (find p.proposals chip).any fun l => l < level then del p.bites chip else p.bites }

/-- The leader looks whether it may raise the ceiling, with a lead of at least 200 µs (R319). -/
def State.askRaise (s : State) : State := s.later (.leaderRaise (200000 + Config.freeNat s.tick))

/-- LEADER_ANNOUNCE_HANDLE (R317, R318, R320): an announcement that comes too late is rejected; at every other one the leader issues an
epoch; a join acts as an announcement that bites 200 µs after it, and enters the membership. -/
def execLeaderAnnounceHandle (chip level bite : Nat) (hard : Bool) (s : State) : Out :=
  let joins := s.pacer.joining.contains chip
  if !s.leads || !(joins || s.pacer.members.contains chip) then .fault .notEnabled
  else if !hard && !joins && bite < s.time + 200000 then
    .next (if chip = s.host.modid then s.later .announceRejected
           else (s.relaySend chip 0 (.reject (s.pacer.group.getD 0))).getD s)
  else
    let s := s.settlePend
    let e := if hard then bite + 200000 else if joins then Nat.max bite (s.time + 200000) else bite
    let s := s.modPacer fun p => { p with members := if joins then insertNat p.members chip else p.members }
    let s := (s.noteProposal chip level).modPacer fun p => { p with bites := if hard then del p.bites chip else put p.bites chip e }
    let (pend, hard) := s.pacer.lower (if hard then e else s.pacer.bite s.pacer.least e) hard
    .next (s.issueWith pend hard)

/-- The members but this module. -/
def State.peers (s : State) : List Nat := s.pacer.members.filter (· != s.host.modid)

/-- An announcement on its way to the leader. -/
def State.announce (s : State) (level bite : Nat) (hard : Bool) : State :=
  if s.leads then s.later (.leaderAnnounceHandle s.host.modid level bite hard)
  else (s.relaySend s.pacer.leader 0 (.announce s.host.modid (s.pacer.group.getD 0) level bite hard)).getD s

/-- A hard drop (R318): the own ceiling falls at once, and the leader is told. -/
def State.dropTo (s : State) (level : Nat) : State :=
  (s.modPacer fun p => { p with limit := level, dropped := some level, dropEnd := s.time + 200000, announced := none }).announce
    level s.time true

/-- Outside every group the ceiling is the proposal at once (R320). -/
def State.ownCeiling (s : State) (level : Nat) : State :=
  s.modPacer fun p => { (p.setCeiling level s.time false) with limit := level, slack := level }

/-- PACER_ANNOUNCE (R317): a fall that the models predict is announced, or, less than 200 µs ahead, dropped to at once. -/
def execPacerAnnounce (level bite : Nat) (s : State) : Out :=
  if s.pacer.limit ≤ level then .fault .notEnabled
  else if s.pacer.group.isNone then .next (s.ownCeiling level)
  else if bite < s.time + 200000 then .next (s.dropTo level)
  else .next ((s.modPacer fun p => { p with limit := level, announced := some level }).announce level bite false)

/-- ANNOUNCE_REJECTED (R317): the member drops to the value it announced. -/
def execAnnounceRejected (s : State) : Out :=
  match s.pacer.group, s.pacer.announced with
  | some _, some level => .next (s.dropTo level)
  | _, _ => .fault .notEnabled

/-- HARD_DROP (R318). [DEDUCED, log 39] -/
def execHardDrop (level : Nat) (s : State) : Out :=
  if s.pacer.limit ≤ level then .fault .notEnabled
  else if s.pacer.group.isNone then .next (s.ownCeiling level)
  else .next (s.dropTo level)

/-- LEADER_RAISE (R319). [DESIGN CHOICE, log 42] -/
def execLeaderRaise (lead : Nat) (s : State) : Out :=
  let p := s.pacer
  if !s.leads || lead < 200000 || p.pend.isSome || s.time < p.lastChange + 10000000 || 30 ≤ p.ceiling ||
     p.members.any fun c => (find p.proposals c).getD 0 < p.ceiling + 2 then .fault .notEnabled
  else .next (s.issueWith (some (Nat.min (p.ceiling + 2) 30, s.time + lead)) false)

/-- The heartbeat of this module (R320, R334). -/
def State.heartbeat (s : State) : RelayBody :=
  .heartbeat s.host.modid (s.pacer.group.getD 0) s.pacer.limit s.pacer.epoch s.time

/-- PACER_HEARTBEAT (R320): every 50 µs to every other member. [DEDUCED, log 37] -/
def execPacerHeartbeat (s : State) : Out :=
  if s.pacer.group.isNone then .fault .notEnabled
  else
    let s := s.peers.foldl (fun t c => (t.relaySend c 0 s.heartbeat).getD t) s
    let s := s.noteProposal s.host.modid s.pacer.limit
    let s := if s.leads then s.askRaise else s
    .next (s.later .pacerHeartbeat (.time (s.time + 50000)))

/-- PROPOSAL_CHANGE (R320): a rise goes to the leader at once; outside every group the ceiling follows. -/
def execProposalChange (level : Nat) (s : State) : Out :=
  if level = s.pacer.limit || 30 < level then .fault .notEnabled
  else if s.pacer.group.isNone then .next (s.ownCeiling level)
  else if level < s.pacer.limit then .fault .notEnabled
  else
    let s := s.modPacer fun p => { p with limit := level }
    let s := (s.noteProposal s.host.modid level).modPacer fun p => { p with bites := del p.bites s.host.modid }
    .next (if s.leads then s.askRaise else (s.relaySend s.pacer.leader 0 s.heartbeat).getD s)

/-- Whether a member has been silent for 1 ms. -/
def State.silentNow (s : State) (chip : Nat) : Bool :=
  s.pacer.group.isSome && s.pacer.members.contains chip && chip != s.host.modid &&
    (match find s.pacer.lastHeard chip with | some t => t + 1000000 ≤ s.time | none => false)

/-- Whether a member is live as this module hears it: it is this module, or it has been heard within 1 ms and not been told lost. -/
def State.live (s : State) (chip : Nat) : Bool :=
  chip == s.host.modid || (match find s.pacer.lastHeard chip with | some t => s.time < t + 1000000 | none => false)

/-- The leader removes the members that are silent, at an epoch that it issues for it and at which every member tells its collective
regions (R320). -/
def State.removeDead (s : State) : State :=
  ((s.modPacer fun p => { p with leaving := (p.members.filter fun c => !s.live c).foldl insertNat p.leaving }).issueEpoch).askRaise

/-- A member other than the leader tells its collective regions of a silent one, once (R320). -/
def State.tellLost (s : State) (chip : Nat) : State :=
  (s.memberLost chip).modPacer fun p => { p with lastHeard := del p.lastHeard chip }

/-- A silent leader is replaced by the live member of the next lowest chip id (R320). -/
def State.replaceLeader (s : State) : State :=
  let old := s.pacer.leader
  let rest := s.pacer.members.filter fun c => c != old && s.live c
  let s := s.settlePend.modPacer fun p => { p with leader := lowestChip rest s.host.modid }
  if s.leads then s.removeDead
  else (s.tellLost old).hearNow s.pacer.leader

/-- MEMBER_SILENCE (R320). -/
def execMemberSilence (chip : Nat) (s : State) : Out :=
  if !s.silentNow chip then .fault .notEnabled
  else if chip = s.pacer.leader then .next s.replaceLeader
  else .next (if s.leads then s.removeDead else s.tellLost chip)

/-- LEADER_SILENCE (R320). -/
def execLeaderSilence (s : State) : Out := if !s.silentNow s.pacer.leader then .fault .notEnabled else .next s.replaceLeader

/-- SLACK_WINDOW_END (R321). -/
def execSlackWindowEnd (s : State) : Out :=
  if s.pacer.group.isNone then .fault .notEnabled
  else
    let p := s.pacer
    let slack := if p.winCycles = 0 then p.slack
      else if p.winCycles ≤ 4 * p.winIdle then p.slack - 1
      else if 10 * p.winIdle < p.winCycles then Nat.min (p.slack + 1) p.ceiling
      else p.slack
    let s := s.modPacer fun p => { p with slack := slack, winCycles := 0, winIdle := 0 }
    .next (s.updatePage.later .slackWindowEnd (.time ((s.time / 1000000 + 1) * 1000000)))

end Sys2Proof.Machine
end

