-- ==== Sys2Proof/Machine/Relay.lean ====
section
/-! DEFINITION. Relay (R254, R330, R333, R336): what a packet of another module does here, the forwarding of packets, and the
links of the sixteen ports. -/

namespace Sys2Proof.Machine

/-! ## What an access of another module names (R330) -/

/-- The rights that an operation needs (R130, R137, R140, R148). -/
def needOf : HomeOp → Acc3
  | .load _ => .r
  | .fill => .r
  | .ldff => .r
  | .feq => .r
  | .htest => .r
  | .cwait => .r
  | .cread => .r
  | .store _ => .w
  | .stf => .w
  | .sete => .w
  | _ => .rw

/-- The source of an operation in `XCAUSE` (R286). -/
def sourceOf : HomeOp → Nat
  | .load _ => 2
  | .fill => 2
  | .cwait => 2
  | .cread => 2
  | .store _ => 3
  | _ => 4

/-- The region and the address in it that an export window address names at its target, if the export is registered (R329, R330). -/
def State.windowAt (s : State) (addr : Nat) : Option (Nat × Nat) × State :=
  let off := bits addr 0 44 - 2 ^ 40
  if bits addr 0 44 < 2 ^ 40 || 256 ≤ off / 2 ^ 34 then (none, s)
  else
    match find s.host.exports (off / 2 ^ 34) with
    | none => (none, s)
    | some (region, i) =>
      match s.objWords region i with
      | (.error _, s) => (none, s)
      | (.ok e, s) =>
        if isExport s.host.modid s.host.modid e.toNat && off % 2 ^ 34 < exLen e.toNat then
          (some (region, (bits e.toNat 0 64 + off % 2 ^ 34) % 2 ^ 56), s)
        else (none, s)

/-- A window address translated in its region (R330); the region, the place and its memory key, or the cause of the refusal. -/
def State.windowSite (s : State) (addr : Nat) (need : Acc3) : Except Cause (Nat × Trans) × State :=
  match s.windowAt addr with
  | (none, s) => (.error .rights, s)
  | (some (region, va), s) =>
    match s.xlate region va need with
    | (.error (.machine, _), s) => (.error .machine, s)
    | (.error _, s) => (.error .rights, s)
    | (.ok t, s) => (if need.stores && s.inObjTable t.pa then .error .rights else .ok (region, t), s)

/-- The first of some regions whose inbound exports cover a chip counter (R330). -/
def State.counterOwner (s : State) (addr : Nat) : List Nat → Option Nat × State
  | [] => (none, s)
  | r :: rest =>
    match s.findObj r fun e => isExport s.host.modid s.host.modid e && exCovers e addr with
    | (some _, s) => (some r, s)
    | (none, s) => s.counterOwner addr rest

/-- What an access of another module names here: the region it is addressed to, its place and memory key (R330). -/
def State.foreignSite (s : State) (addr : Word) (tregion : Nat) (need : Acc3) : Except Cause (Nat × Nat × Nat) × State :=
  let a := addr.toNat
  let off := bits a 0 44
  if bits a 44 12 != s.host.modid then (.error .rights, s)
  else if bits a 56 8 = 1 then
    (if (s.region? tregion).isSome then .ok (tregion, (coreSite 0 (bits a 32 12) (bits a 0 32)).place, 0) else .error .rights, s)
  else if bits a 56 8 != 2 then (.error .rights, s)
  else if 2 ^ 40 ≤ off then
    match s.windowSite a need with
    | (.error c, s) => (.error c, s)
    | (.ok (r, t), s) => (.ok (r, t.pa, t.key), s)
  else if 0x200000 ≤ off && off < 0x300000 then
    match s.counterOwner a (s.regions.map (·.1)) with
    | (none, s) => (.error .rights, s)
    | (some r, s) => (.ok (r, chipPlace off, 0), s)
  else (.error .rights, s)

/-! ## Inputs of captured and replayed regions (R335, R336) -/

/-- The bytes of a packet's header and payload (R254). -/
def pktBytes : RelayBody → Nat
  | .request _ _ _ _ _ op _ _ _ => reqBytes { id := 0, src := 0, region := 0, op := op, addr := 0, place := 0 }
  | .answer _ a => repBytes a
  | .push _ _ _ _ _ l => 16 + 8 * l.length
  | .donation _ _ _ _ _ => 80
  | _ => 24

/-- An input from outside to a region: recorded where the region is captured, refused where it is replayed. -/
def State.inputTo (s : State) (region : Nat) (i : ExtInput) (bytes : Nat) : Option State :=
  match s.captureOf region with
  | none => some s
  | some c => if c.replay then none else some (s.record c (.input i) (bytes + 16))

/-! ## Packets delivered here -/

/-- An access of another module, from a live packet or from a replay's buffer; a live one to a replayed region is refused. -/
def State.foreignAccess (s : State) (live : Bool) (p : RelayPkt) : State :=
  match p.body with
  | .request chip rid region scope who op addr v1 v2 =>
    let (id, s) := s.fresh
    let q : Req := { id := id, src := foreignSrc, chip := if live then chip else s.host.modid, who := who, region := region, op := op,
                     addr := addr, place := awayPlace, v1 := v1, v2 := v2, scope := scope, source := sourceOf op, rid := rid,
                     tregion := p.tregion }
    match s.foreignSite addr p.tregion (needOf op) with
    | (.error c, s) => s.refuse q c (if c = .machine then 4 else 1)
    | (.ok (r, place, key), s) =>
      match (if live then s.inputTo r (.relay p) (pktBytes p.body) else some s) with
      | none => s.refuse q .rights 1
      | some s => { s with reqs := s.reqs ++ [{ q with place := place, key := key }] }.later (.homeAccess id)
  | _ => s

/-- The words of a unit written at their homes from a place on. -/
def State.unitWords (s : State) (place : Nat) : List Word → State
  | [] => s
  | w :: r => ((s.homeSet place 8 w.toNat).passes place).unitWords (place + 8) r

/-- A unit of `PUSH.x` of another module: all of it is written, or nothing; the answer gives the offset of the first byte that
faulted (R222, R330). -/
def State.foreignPush (s : State) (live : Bool) (p : RelayPkt) : Option Nat × State :=
  match p.body with
  | .push chip _ region who addr data =>
    let n := 8 * data.length
    let log (kind : Nat) (s : State) : Option Nat × State := (some 0, s.logErr kind 4 who addr)
    if bits addr.toNat 56 8 != 2 || bits addr.toNat 44 12 != s.host.modid then log 1 s
    else
      match s.windowSite addr.toNat .w with
      | (.error c, s) => log (if c = .machine then 4 else 1) s
      | (.ok (r, t), s) =>
        match (if live then s.inputTo r (.relay p) (pktBytes p.body) else some s) with
        | none => log 1 s
        | some s =>
          let lost := s.unitLost t.pa t.key
          let s := s.unitHome t.pa t.key true
          let whole := n = 64 && t.pa % 64 = 0
          if lost then log 1 s
          else if !whole && s.homeMergeBad t.pa 8 then log 4 s
          else
            let s := if whole then (s.homeSet t.pa 64 (wordsNum data)).unitWords t.pa data else s.unitWords t.pa data
            let q : Req := { id := 0, src := foreignSrc, chip := if live then chip else s.host.modid, region := region, op := .store 8,
                             addr := addr, place := t.pa }
            (none, s.chargeReq q (s.cost 1))
  | _ => (some 0, s)

/-- An answer of another module, to a thread's request or to an engine's. -/
def State.takeAnswer (s : State) (id : Nat) (a : HomeAns) : State :=
  match s.reqs.find? fun q => q.id == id && q.away.isSome with
  | some q => (s.answer { q with locked := false } a).farWorked q.region
  | none => (s.engAnswer id a).getD s

/-- Records an answer as an input of the region that asked, under the name of the slot that asked. -/
def State.noteAnswer (s : State) (id : Nat) (body : Nat → RelayBody) : State :=
  let note (s : State) (region who : Nat) : State :=
    let b := body who
    (s.inputTo region (.relay { target := s.host.modid, tregion := 0, body := b }) (pktBytes b)).getD s
  match s.reqs.find? fun q => q.id == id && q.away.isSome with
  | some q => note s q.region q.src
  | none =>
    match s.engs.find? fun o => o.id == id || o.asked.any fun v => v.1 == id with
    | some o => note s o.region o.who
    | none => s

/-- What a packet that reaches no module by Relay does: its source gets an error response (R333). -/
def State.bouncePkt (s : State) (p : RelayPkt) : State :=
  let back (chip : Nat) (mine : State → State) (body : RelayBody) : State :=
    if chip = s.host.modid then mine s else (s.relaySend chip 0 body).getD s
  match p.body with
  | .request chip id _ _ _ _ _ _ _ => back chip (fun s => s.takeAnswer id (.err .rights)) (.answer id (.err .rights))
  | .push chip id _ _ _ _ => back chip (fun s => (s.engPushed id (some 0)).getD s) (.pushAnswer id (some 0))
  | .donation chip id _ _ _ => back chip (fun s => s.later (.donateAnswer id 2)) (.donationAnswer id 2)
  | _ => s

/-- Whether a message of a group concerns this module. -/
def State.inGroup (s : State) (group : Nat) : Bool := s.pacer.group == some group

/-- A request to another module stands deferred there: its thread parks (R138, R216), or, if it is to stop, takes the request back.
[DESIGN CHOICE, log 109] -/
def State.deferredAway (s : State) (id : Nat) : State :=
  match s.reqs.find? fun q => q.id == id && q.away.isSome && q.src < 2 ^ 20 with
  | none => s
  | some q =>
    let core := coreOf q.src
    if (s.slot q.src).waits != .reply id then s
    else if (s.slot q.src).frozen then s.takeBack q (q.away.getD 0)
    else s.modSlot q.src fun sl => { (sl.become .parked (.deferred id)) with parkedSince := s.cycle core, stale := false }

/-- Another module takes back a request that stands deferred here; one already answered stays answered. -/
def State.withdrawFor (s : State) (chip rid : Nat) : State :=
  match s.deferred.find? fun q => q.src == foreignSrc && q.chip == chip && q.rid == rid with
  | none => s
  | some q =>
    let s := { s with deferred := s.deferred.filter (·.id != q.id) }
    (s.relaySend chip 0 (.answer rid .nack)).getD s

/-- A packet delivered to this module (R330, R333). -/
def State.deliver (s : State) (p : RelayPkt) : State :=
  match p.body with
  | .request _ _ _ _ _ _ _ _ _ => s.foreignAccess true p
  | .answer id a => (s.noteAnswer id fun k => .answer k a).takeAnswer id a
  | .push chip id _ _ _ _ =>
    let (err, s) := s.foreignPush true p
    (s.relaySend chip 0 (.pushAnswer id err)).getD s
  | .deferred id => s.deferredAway id
  | .withdraw chip id => s.withdrawFor chip id
  | .pushAnswer id err => let s := s.noteAnswer id fun k => .pushAnswer k err
                          (s.engPushed id err).getD s
  | .donation chip id tregion tobj image =>
    match s.inputTo tregion (.relay p) (pktBytes p.body) with
    | some s => s.donationCame { chip := chip, id := id, tregion := tregion, tobj := tobj, image := image }
    | none => (s.relaySend chip 0 (.donationAnswer id 3)).getD s
  | .donationAnswer id status => (s.noteAnswer id fun k => .donationAnswer k status).later (.donateAnswer id status)
  | .epoch m => s.later (.pacerEpochReceive m)
  | .heartbeat chip group level _ time =>
    if s.inGroup group && s.pacer.members.contains chip then
      (((s.hearNow chip).modPacer fun p => { p with offsets := put p.offsets chip ((time : Int) - s.time) }).noteProposal chip level).askRaise
    else s
  | .announce chip group level bite hard =>
    if s.inGroup group then (s.hearNow chip).later (.leaderAnnounceHandle chip level bite hard) else s
  | .reject group => if s.inGroup group then s.later .announceRejected else s
  | .join chip group level =>
    if s.inGroup group && s.leads then
      ((s.hearNow chip).modPacer fun p => { p with joining := insertNat p.joining chip }).later (.leaderAnnounceHandle chip level (s.time + 200000) false)
    else if s.inGroup group then (s.relaySend s.pacer.leader 0 p.body).getD s
    else s
  | .leave chip group =>
    if s.inGroup group && s.leads then ((s.modPacer fun p => { p with leaving := insertNat p.leaving chip }).issueEpoch).askRaise else s
  | .billing region nj => s.later (.billingReceive region nj)

/-- A packet of a frame: delivered here, or forwarded by the lowest live port of its chip's route mask (R333). -/
def State.routePkt (s : State) (p : RelayPkt) : State :=
  if p.target = s.host.modid then s.deliver p
  else (s.relaySend p.target p.tregion p.body).getD (s.bouncePkt p)

/-! ## Links (R333, as R265 and R266) -/

/-- The state with a port changed. -/
def State.modPort (s : State) (p : Nat) (f : Port → Port) : State := { s with ports := put s.ports p (f (s.port p)) }

/-- RELAY_FRAME_RECEIVE (R333): the next frame in order is accepted and its packets are taken; one already accepted is discarded;
a gap in the numbers is a loss. The receiver acknowledges what it has accepted (R265). [DEDUCED, log 32; DEDUCED, log 33; DEDUCED, log 35] -/
def execRelayFrameReceive (port frame : Nat) (pkts : List RelayPkt) (s : State) : Out :=
  let t := s.port port
  if t.st != .up then .fault .notEnabled
  else if frame = (t.accepted + 1) % 4096 then
    let s := s.modPort port fun t => { t with accepted := frame }
    .next (pkts.foldl State.routePkt { s with out := s.out ++ [.accepted port frame] })
  else if seqAfter t.accepted frame then .next (s.later (.relayLinkRetrain port))
  else .next s

/-- RELAY_LINK_RETRAIN (R333, R266): what arrives until the link has recovered is discarded. -/
def execRelayLinkRetrain (port : Nat) (s : State) : Out :=
  if (s.port port).st != .up then .fault .notEnabled
  else
    let s := s.modPort port fun t => { t with st := .retraining s.time }
    .next ((s.later (.relayLinkRetrainDone port)).later (.relayPortTimeout port) (.time (s.time + 1000000)))

/-- How many of the frames that wait for an acknowledgement the other side reports as accepted: a free value of the outside. -/
def State.reported (s : State) (port : Nat) : Nat := Config.freeNat s.tick % ((s.port port).replay.length + 1)

/-- The other side acknowledges some of the frames that wait for it, cumulatively (R265): at least one, a free number, since what the outside
does is open; those that waited for room are sent. [DEDUCED, log 33] -/
def relayAck (port : Nat) (s : State) : Out :=
  let t := s.port port
  if t.st != .up || t.replay = [] then .fault .notEnabled
  else
    let n := 1 + Config.freeNat s.tick % t.replay.length
    .next ((s.modPort port fun t => { t with replay := t.replay.drop n }).portPump port)

/-- RELAY_LINK_RETRAIN_DONE (R333, R266): within 1 ms; each receiver reports its last accepted frame, and the later ones are sent again in
order, before those that waited. -/
def execRelayLinkRetrainDone (port : Nat) (s : State) : Out :=
  match (s.port port).st with
  | .retraining since =>
    if since + 1000000 ≤ s.time then .fault .notEnabled
    else
      let t := s.port port
      let s := s.modPort port fun t => { t with st := .up, replay := [], held := t.replay.drop (s.reported port) ++ t.held }
      .next (({ s with out := s.out ++ [.accepted port t.accepted] } : State).portPump port)
  | _ => .fault .notEnabled

/-- RELAY_PORT_TIMEOUT (R333): a port that has not recovered within 1 ms leaves every route mask; the requests it holds get error
responses. [DEDUCED, log 34] -/
def execRelayPortTimeout (port : Nat) (s : State) : Out :=
  match (s.port port).st with
  | .retraining since =>
    if s.time < since + 1000000 then stillDue (.relayPortTimeout port) s
    else
      let t := s.port port
      let lost := ((t.replay.drop (s.reported port) ++ t.held).map (·.2)).flatten
      let s := s.modPort port fun t => { t with st := .failed, replay := [], held := [] }
      .next (lost.foldl State.bouncePkt s)
  | _ => .fault .notEnabled

/-! ## Replayed inputs (R336) -/

/-- Whether an input is the next of a replay: no recorded access or input stands before it. -/
def Capture.due (c : Capture) (i : ExtInput) : Bool :=
  match c.recs.find? fun r => match r with | .read _ _ _ => false | _ => true with
  | some r => r == .input i
  | none => false

/-- An answer recorded under the slot that asked lands at what the slot now waits for. -/
def State.replayAnswer (s : State) (k : Nat) (a : HomeAns) : State :=
  match s.reqs.find? fun q => q.src == k && q.away.isSome && q.locked with
  | some q => s.answer { q with locked := false } a
  | none =>
    match s.engs.find? fun o => o.who == k && o.asked != [] with
    | some o => match o.asked with | v :: _ => (s.engAnswer v.1 a).getD s | [] => s
    | none => s

/-- What a recorded packet does when its turn has come. -/
def State.replayPkt (s : State) (p : RelayPkt) : State :=
  match p.body with
  | .request _ _ _ _ _ _ _ _ _ => s.foreignAccess false p
  | .push _ _ _ _ _ _ => (s.foreignPush false p).2
  | .answer k a => s.replayAnswer k a
  | .pushAnswer k err =>
    match s.engs.find? fun o => o.kind == .pushX && o.who == k && o.asked != [] with
    | some o => match o.asked with | v :: _ => (s.engPushed v.1 err).getD s | [] => s
    | none => s
  | .donation _ _ tregion tobj image => (s.takeDonation tregion tobj image).2
  | .donationAnswer k status =>
    match s.engs.find? fun o => o.kind == .donate && o.who == k && o.status.isNone with
    | some o => s.later (.donateAnswer o.id status)
    | none => s
  | _ => s

/-- The bytes of an external write put at an export window as far as it may be (R325, R330); none where the target check fails. -/
def State.windowWrite (s : State) (exno off : Nat) : List Byte → Option State
  | [] => some s
  | b :: r =>
    match s.windowSite (2 ^ 40 + exno * 2 ^ 34 + off) .w with
    | (.error _, _) => none
    | (.ok (_, t), s) =>
      let lost := s.unitLost t.pa t.key
      let s := s.unitHome t.pa t.key true
      if lost || s.homeMergeBad t.pa 1 then none else ((s.homeSet t.pa 1 b.toNat).passes t.pa).windowWrite exno (off + 1) r

/-- REPLAY_EXTERNAL_INPUT (R336): the input that the buffer gives next. -/
def execReplayExternalInput (region : Nat) (input : ExtInput) (s : State) : Out :=
  match s.host.captures.find? fun c => c.region == region && c.replay with
  | none => .fault .notEnabled
  | some c =>
    if !c.recs.contains (.input input) then .fault .notEnabled
    else if !c.due input then stillDue (.replayExternalInput region input) s
    else
      let caps := s.host.captures.map fun d => if d = c then { d with recs := d.recs.erase (.input input) } else d
      let s : State := { s with host := { s.host with captures := caps } }
      match input with
      | .exwr exno off data => .next ((s.windowWrite exno off data).getD s)
      | .relay p => .next (s.replayPkt p)
      | .pacer m =>
        let (level, e) := m.pend.getD (m.ceiling, s.time)
        let who := (s.regions.map (·.1)).filter fun r => s.isAbove region r
        .next (s.tellAll (who.map fun r => { region := r, code := 3, w1 := BitVec.ofNat 64 level, w2 := BitVec.ofNat 64 e, time := s.time }))

end Sys2Proof.Machine
end

