-- ==== Sys2Proof/Machine/Host.lean ====
section
/-! DEFINITION. The control endpoints (R324 to R328) and what each command does (R293, R295, R315, R320, R325 to R338, R343). -/

namespace Sys2Proof.Machine

/-! ## Control frames (R324 to R327) -/

/-- A status and the body of a reply, with the state after a command. -/
abbrev Reply := Nat × List Word × State

/-- A status without a body. -/
def plain (status : Nat) (s : State) : Reply := (status, [], s)

/-- An endpoint of the two. -/
def State.endpoint (s : State) (ep : Nat) : Endpoint := if ep = 0 then s.host.epA else s.host.epB

/-- The state with an endpoint set. -/
def State.setEndpoint (s : State) (ep : Nat) (e : Endpoint) : State :=
  { s with host := if ep = 0 then { s.host with epA := e } else { s.host with epB := e } }

/-- A reply leaves by the host port. -/
def State.sendReply (s : State) (ep seq status : Nat) (body : List Word) : State :=
  { s with out := s.out ++ [.reply ep seq status body] }

/-- Whether a command needs `CTLSEM` (R325). -/
def needsSem (code : Nat) : Bool := [2, 3, 13, 14, 15, 16, 18].contains code

/-- A frame of the holder of `CTLSEM` arrived (R327): its second is counted from now on. -/
def State.seen (s : State) (ep : Nat) : State :=
  if s.host.sem = some ep then
    let agenda := s.agenda.filter fun d => d.ev != .ctlsemTimeout
    ({ s with agenda := agenda, host := { s.host with semSeen := s.time } } : State).later .ctlsemTimeout (.time (s.time + 1000000000))
  else s

/-- The longest body (R324). -/
def maxBody : Nat := 8960

/-- A holder of `CTLSEM` that has sent nothing for 1 s has lost it (R327). -/
def State.semLapse (s : State) : State :=
  if s.host.semSeen + 1000000000 ≤ s.time then { s with host := { s.host with sem := none } } else s

/-- A command of an endpoint (R324, R325): it is performed in sequence order, after its signature and the semaphore where it needs
them, and where its body is well formed (R326); `args` are the numbers of its body. In recovery only ATTEST and FWUPD are answered
(R337); before the boot has begun nothing is. [DEDUCED, log 49] -/
def control (h : CtlHdr) (code : Nat) (args : List Nat) (body : State → Reply) (s : State) : Out :=
  if 1 < h.ep then .fault .notEnabled
  else if s.host.stage = 0 then .next s
  else
    let s := s.semLapse.seen h.ep
    let e := s.endpoint h.ep
    if h.seq = (e.last + 1) % 2 ^ 64 then
      let (status, words, t) :=
        if s.host.stage = 1 && code != 14 && code != 21 then plain 9 s
        else if needsSem code && !Config.signatureOk ([h.ep, h.seq, code] ++ args) h.sig then plain 3 s
        else if needsSem code && s.host.sem != some h.ep then plain 2 s
        else if (h.illFormed || maxBody < h.len) && decide (1 ≤ code ∧ code ≤ 21) then plain 5 s
        else body s
      .next ((t.setEndpoint h.ep { last := h.seq, reply := some (status, words) }).sendReply h.ep h.seq status words)
    else
      match e.reply with
      | some (status, words) =>
        if h.seq = e.last then .next (s.sendReply h.ep h.seq status words) else .next (s.sendReply h.ep h.seq 1 [])
      | none => .next (s.sendReply h.ep h.seq 1 [])

/-- Bytes as numbers. -/
def byteNums (l : List Byte) : List Nat := l.map BitVec.toNat

/-- The words of a list of bytes, the first byte lowest. -/
def wordsOf (l : List Byte) : List Word :=
  (range' 0 ((l.length + 7) / 8)).map fun i => BitVec.ofNat 64 (leNat ((l.drop (8 * i)).take 8))

/-! ## Regions -/

/-- The regions below and at a region. -/
def State.subtree (s : State) (r : Nat) : List Nat := (s.regions.map (·.1)).filter fun q => s.isAbove r q

/-- A launch by the host may be captured, or replay a capture (R335, R336): the capture that goes with it. -/
def State.captureFor (s : State) (rid flags base len : Nat) : List Capture :=
  if bit flags 2 then
    match s.host.captures.find? fun c => c.base == base && !c.replay with
    | some c => [{ c with region := rid, replay := true, live := true, len := len }]
    | none => []
  else if bit flags 1 then [{ region := rid, base := base, len := len, chip := s.host.modid, map := s.host.retired }]
  else []

/-- Whether a replay's buffer is a capture of this module as it stands (R336). -/
def State.replayOk (s : State) (base : Nat) : Bool :=
  s.host.captures.any fun c => c.base == base && !c.replay && c.chip == s.host.modid && c.map == s.host.retired

/-- LAUNCH (R270, R271, R335, R336, R339): accepted from stage 4 on, and answered REFUSED
before. [DESIGN CHOICE, log 120; DEDUCED, log 58] -/
def execLaunch (h : CtlHdr) (desc flags capBase capLen : Nat) (s : State) : Out :=
  control h 1 [desc, flags, capBase, capLen] (fun s =>
    if !s.host.chipSet then plain 7 s
    else if s.host.stage < 4 then plain 8 s
    else if 8 ≤ flags || ((bit flags 1 || bit flags 2) && 2 ^ 39 < capBase + capLen) then plain 5 s
    else if bit flags 2 && !s.replayOk capBase then plain (0x100 + 12) s
    else
      let mark (g : Region) : Region := { g with collective := bit flags 0, capture := bit flags 1 || bit flags 2, replay := bit flags 2 }
      let ((st, rid, _), s) := s.launch true none desc mark
      if st != 0 then plain (0x100 + st) s
      else
        let new := s.captureFor rid flags capBase capLen
        let s : State := { s with host := { s.host with captures := s.host.captures ++ new } }
        let inputs := new.flatMap fun c => if c.replay then
            c.recs.filterMap fun r => match r with | .input i => some (Ev.replayExternalInput rid i) | _ => none
          else []
        (0, [BitVec.ofNat 64 rid], s.laters inputs)) s

/-- REGCTL_HALT (R325, R33). [DEDUCED, log 53] -/
def execRegctlHalt (h : CtlHdr) (region : Nat) (s : State) : Out :=
  control h 6 [region, 0] (fun s => if (s.region? region).isNone then plain 6 s else plain 0 (s.haltRegion region 0)) s

/-- A thread that its region's halt stopped goes on at its boundary (R293). -/
def State.resumeSlot (s : State) (k : Nat) : State :=
  match (s.slot k).wait with
  | .regionHalt => s.modSlot k fun sl => { sl with st := sl.before, wait := sl.bwait, before := .ready, bwait := .none }
  | _ => s

/-- The units of a core look again at what they may do. -/
def State.wakeCore (s : State) (core : Nat) : State := (s.askMatrix core).laters [.vectorStep core, .landingQueueTake core, .stealSweep core]

/-- A region and what halted with it are admitted again (R293). -/
def State.resumeRegion (s : State) (r : Nat) : State :=
  let qs := (s.subtree r).filter fun q => s.halted q
  let s := qs.foldl (fun t q => t.modRegion q fun g => { g with halted := false }) s
  let ks := s.threads.filter fun k => qs.contains (s.slot k).region
  let s := ks.foldl State.resumeSlot s
  let s := (ks.map coreOf).eraseDups.foldl State.wakeCore s
  let s := ((range' 0 256).filter (s.grants r)).foldl State.askHub s
  let s := qs.foldl State.startHandler s
  s.laters (s.rings.map fun p => .donationDrain (p.1 / 65536) (p.1 % 65536))

/-- REGCTL_RESUME (R293, R328): a region that runs is left as it is. -/
def execRegctlResume (h : CtlHdr) (region : Nat) (s : State) : Out :=
  control h 6 [region, 1] (fun s =>
    if (s.region? region).isNone then plain 6 s
    else if s.halted region then plain 0 (s.resumeRegion region) else plain 0 s) s

/-- The number of an image that no thread has. -/
def goneImage : Nat := 2 ^ 29

/-- The slot that an event of the agenda concerns, of those that a thread's own work lists. -/
def evSlot : Ev → Option Nat
  | .divideComplete k => some k
  | .retryParkExpiry k => some k
  | .parkTimeout k => some k
  | .dequeRefillArrival k => some k
  | .preemptRequestArrival k => some k
  | .preemptSaveComplete k => some k
  | .threadStale k => some k
  | _ => none

/-- The TCB that an event of the agenda concerns. -/
def evTcb : Ev → Option Nat
  | .tcbDecrement key _ => some key
  | .taskRetire key _ => some key
  | .retireDec key _ _ _ => some key
  | .retireStep key _ _ => some key
  | _ => none

/-- What was on its way for a thread that is freed lands nowhere. -/
def State.cutLoose (s : State) (k : Nat) : State :=
  let cut (q : Req) : Req := if q.src = k then { q with src := 2 ^ 20 + goneImage, dest := .ack } else q
  { s with
    reqs := s.reqs.map cut
    deferred := s.deferred.filter fun q => q.src != k
    heldReqs := s.heldReqs.filter fun q => q.src != k
    reps := s.reps.filter fun r => r.req.src != k
    splits := s.splits.map fun p => { p with first := cut p.first, second := cut p.second }
    sendrs := s.sendrs.filter (·.src != k)
    migs := s.migs.filter (·.src != k)
    cores := s.cores.map fun (p : Nat × CoreRec) => (p.1, { p.2 with landq := p.2.landq.filter (·.src != k) })
    agenda := s.agenda.filter fun d => evSlot d.ev != some k
    walks := s.walks.filter (·.slot != k)
    engs := s.engs.map fun o => if o.slot = k ∧ o.image = none then { o with image := some goneImage } else o }

/-- A thread of an ending region is freed without a retirement (R293, R47): its claims and its records go with it. -/
def State.dropThread (s : State) (k : Nat) : State :=
  let core := coreOf k
  let s := s.withdraw k |>.cutLoose k
  let s := if (s.core core).vowner = some k then
      (s.freeVector core).modCore core fun c => { c with seq := [], frame := none, vpend := [] }
    else s
  let s := if (s.core core).mclaim = some k then
      ((s.modTile (tileOf core) fun t => if t.arrayBusy = some core then { t with arrayBusy := none } else t).modCore core fun c =>
        { c with mq := [], acc := none }).freeMatrix core
    else s
  (s.modCore core fun c => { c with deque := c.deque.filter fun e => e.owner != slotNo k }).clearSlot k

/-- A steal of a record of an ending region is given up. -/
def State.dropSteal (s : State) (core : Nat) (rs : List Nat) : State :=
  let gone (slot : Nat) : State := (s.clearSlot slot).modCore core fun c => { c with steal := .idle }
  match (s.core core).steal with
  | .claimed _ r slot => if rs.contains r.region then gone slot else s
  | .travelling _ r _ slot => if rs.contains r.region then gone slot else s
  | _ => s

/-- The end of a halted region and its descendants (R293, R281). -/
def State.endRegion (s : State) (r : Nat) : State :=
  let rs := s.subtree r
  let held := (s.region? r).elim 0 Region.held
  let above := (s.ancestry r).drop 1
  let s := (s.slots.filterMap fun p => if p.2.st != .empty && rs.contains p.2.region then some p.1 else none).foldl State.dropThread s
  let s := (s.cores.map (·.1)).foldl (fun t c => t.dropSteal c rs) s
  let dead (o : EngOp) : Bool := match o.image with
    | some i => s.images.any fun m => m.id == i && rs.contains m.slot.region
    | none => false
  let gone (i : Nat) : Bool := s.images.any fun m => m.id == i && rs.contains m.slot.region
  let keys := s.tcbs.filterMap fun p => if p.2.state != 0 && rs.contains p.2.region then some p.1 else none
  let s : State := { s with
    engs := s.engs.map fun o => if dead o then { o with image := some goneImage } else o
    hubs := s.hubs.map fun (p : Nat × HubRec) => (p.1, { p.2 with
      ready := p.2.ready.filter fun e => !keys.contains e.2
      pinned := p.2.pinned.filter fun e => !(e.image.elim false gone) && !(e.tcb.elim false keys.contains)
      owed := p.2.owed.filter fun q => !rs.contains q })
    images := s.images.filter fun m => !rs.contains m.slot.region
    agenda := s.agenda.filter fun d => !((evTcb d.ev).elim false keys.contains)
    deferred := s.deferred.filter fun q => !(q.src == foreignSrc && rs.contains q.tregion) }
  let s := above.foldl (fun t a => t.modRegion a fun g => { g with held := g.held - held }) s
  let s := rs.foldl (fun t q => t.modRegion q fun g => { g with held := 0 }) s
  let s := keys.foldl State.releaseTcb s
  let deepest (n : Nat) : List Nat := rs.filter fun q => (s.region? q).elim false fun g => g.depth == n
  let s := ((range' 0 9).reverse.flatMap deepest).foldl State.endCheck s
  (above.foldl State.endCheck s)

/-- REGCTL_END (R293, R328): a region that runs is left as it is. [DEDUCED, log 27; DEDUCED, log 54] -/
def execRegctlEnd (h : CtlHdr) (region : Nat) (s : State) : Out :=
  control h 6 [region, 2] (fun s =>
    if (s.region? region).isNone then plain 6 s
    else if s.halted region then plain 0 (s.endRegion region) else plain 0 s) s

/-! ## Memory -/

/-- The words of physical memory for `MEMRD`, of the save images where the pool stands (R297); one that cannot be read is logged and has no value of its own (R307, R295). -/
def State.hostReads (s : State) (pa : Nat) : Nat → List Word × State
  | 0 => ([], s)
  | n + 1 =>
    let lost := s.unitLost pa 0
    let t := (s.unitHome pa 0 false).correct (wordOf pa)
    let (w, t) := match s.imageAt pa with
      | some (m, off) => (s.imageWord m off, s)
      | none => if lost then (Config.freeWordAt t.tick pa, t.logErr 1 2 0 (BitVec.ofNat 64 pa))
                  else if t.homeBad pa then (Config.freeWordAt t.tick pa, t.logErr 4 2 0 (BitVec.ofNat 64 pa))
                  else (BitVec.ofNat 64 (t.homeNum pa 8), t)
    let (l, u) := t.hostReads (pa + 8) n
    (w :: l, u)

/-- Whether a range is one of physical memory as `MEMRD` and `MEMWR` take it (R325). -/
def physOk (addr len : Nat) : Bool := len ≤ 8192 && len % 8 == 0 && addr % 8 == 0 && addr + len ≤ 2 ^ 39

/-- MEMRD (R325). [DEDUCED, log 51] -/
def execMemrd (h : CtlHdr) (addr len : Nat) (s : State) : Out :=
  control h 2 [addr, len] (fun s =>
    if !physOk addr len then plain 5 s
    else
      let (l, t) := s.hostReads addr (len / 8)
      (0, l, t)) s

/-- The words of a `MEMWR` written at their homes. -/
def State.hostWrites (s : State) (pa : Nat) : List Word → State
  | [] => s
  | w :: r =>
    let lost := s.unitLost pa 0
    let t := s.unitHome pa 0 true
    let t := match s.imageAt pa with
      | some (m, off) => s.setImageWord m off w
      | none => if lost then t.logErr 1 3 0 (BitVec.ofNat 64 pa) else if t.homeMergeBad pa 8 then t.logErr 4 3 0 (BitVec.ofNat 64 pa) else (t.homeSet pa 8 w.toNat).passes pa
    t.hostWrites (pa + 8) r

/-- MEMWR (R325). -/
def execMemwr (h : CtlHdr) (addr : Nat) (data : List Byte) (s : State) : Out :=
  control h 3 ([addr] ++ byteNums data) (fun s =>
    if !physOk addr data.length then plain 5 s else plain 0 (s.hostWrites addr (wordsOf data))) s

/-- The kind of log entry for an access to a window that a cause refuses (R295). -/
def causeKind (c : Cause) : Nat := if c = .machine then 4 else 1

/-- The bytes of an export window (R330); where the target check fails or a word cannot be read, the kind of its log entry. -/
def State.windowRead (s : State) (exno off : Nat) : Nat → Except Nat (List Byte) × State
  | 0 => (.ok [], s)
  | n + 1 =>
    match s.windowSite (2 ^ 40 + exno * 2 ^ 34 + off) .r with
    | (.error c, t) => (.error (causeKind c), t)
    | (.ok (_, x), t) =>
      let lost := t.unitLost x.pa x.key
      let t := (t.unitHome x.pa x.key false).correct (wordOf x.pa)
      if lost then (.error 1, t)
      else if t.homeBad x.pa then (.error 4, t)
      else
        let b : Byte := BitVec.ofNat 8 (t.homeNum x.pa 1)
        match t.windowRead exno (off + 1) n with
        | (.ok l, u) => (.ok (b :: l), u)
        | (.error e, u) => (.error e, u)

/-- The address of a byte of an export window of this module. -/
def State.windowAddr (s : State) (exno off : Nat) : Word := BitVec.ofNat 64 (2 ^ 57 + s.host.modid * 2 ^ 44 + 2 ^ 40 + exno * 2 ^ 34 + off)

/-- EXRD (R325, R330). [DEDUCED, log 52] -/
def execExrd (h : CtlHdr) (exno off len : Nat) (s : State) : Out :=
  control h 4 [exno, off, len] (fun s =>
    if 256 ≤ exno || maxBody < len || 2 ^ 34 < off + len then plain 5 s
    else
      match s.windowRead exno off len with
      | (.ok l, t) => (0, wordsOf l, t)
      | (.error kind, t) => plain 8 (t.logErr kind 2 0 (s.windowAddr exno off))) s

/-- Whether an export window takes bytes, before any is written; if not, the kind of the log entry. A window found away is left to the
write itself, which is put off for it. -/
def State.windowRefuses (s : State) (exno off : Nat) : Nat → Option Nat
  | 0 => none
  | n + 1 =>
    match s.windowSite (2 ^ 40 + exno * 2 ^ 34 + off) .w with
    | (.error c, _) => some (causeKind c)
    | (.ok (_, x), t) =>
      if t.unitLost x.pa x.key then some 1 else if (t.atHome x.pa x.key).homeMergeBad x.pa 1 then some 4 else s.windowRefuses exno (off + 1) n

/-- EXWR (R325, R330, R335, R336). -/
def execExwr (h : CtlHdr) (exno off : Nat) (data : List Byte) (s : State) : Out :=
  control h 5 ([exno, off] ++ byteNums data) (fun s =>
    if 256 ≤ exno || maxBody < data.length || 2 ^ 34 < off + data.length then plain 5 s
    else
      let refused (kind : Nat) (t : State) : Reply := plain 8 (t.logErr kind 3 0 (s.windowAddr exno off))
      match s.windowRefuses exno off data.length with
      | some kind => refused kind s
      | none =>
        let region := match s.windowAt (2 ^ 40 + exno * 2 ^ 34 + off) with | (some (r, _), _) => r | _ => 0
        match s.inputTo region (.exwr exno off data) data.length with
        | none => refused 1 s
        | some t =>
          match t.windowWrite exno off data with
          | some u => plain 0 u
          | none => refused 1 t) s

/-! ## Objects, log, counters, housekeeping -/

/-- SETOBJ (R325, R127, R329, R331). [DEDUCED, log 55] -/
def execSetobj (h : CtlHdr) (region index : Nat) (image : List Word) (s : State) : Out :=
  control h 7 ([region, index] ++ image.map BitVec.toNat) (fun s =>
    match s.region? region with
    | none => plain 6 s
    | some g =>
      if image.length != 8 then plain 5 s
      else if g.objcount ≤ index then plain 8 s
      else
        let e := wordsNum image
        match s.xlate region (g.objAddr index) .r with
        | (.error _, t) => plain 8 t
        | (.ok x, t) =>
          if 7 ≤ objType e || objReserved t.host.modid e || t.objRefused region index e then plain 8 t
          else plain 0 (((t.purgeAround 0 x.pa).putObj x.pa x.key e).objRegister region index e)) s

/-- The words of an entry of the device error log, lowest first (R295). -/
def logWords (e : LogEnt) : List Word := [BitVec.ofNat 64 e.time, e.address, e.requester, BitVec.ofNat 64 (e.source * 256 + e.kind)]

/-- LOGRD (R295, R325). [DESIGN CHOICE, log 31] -/
def execLogrd (h : CtlHdr) (s : State) : Out :=
  control h 8 [] (fun s =>
    let l := s.host.log.flatMap logWords
    (0, l ++ List.replicate (256 - l.length) 0 ++ [BitVec.ofNat 64 s.host.logCount], s)) s

/-- ENERGYRD (R315, R325). [DEDUCED, log 56] -/
def execEnergyrd (h : CtlHdr) (region : Nat) (s : State) : Out :=
  control h 9 [region] (fun s =>
    if region = 0 then (0, [BitVec.ofNat 64 s.host.spent0, 0], s)
    else
      match s.region? region with
      | none => plain 6 s
      | some g => (0, [BitVec.ofNat 64 g.spent, BitVec.ofNat 64 g.acct.toNat], s)) s

/-- HKRD (R343). -/
def execHkrd (h : CtlHdr) (off : Nat) (s : State) : Out :=
  control h 10 [off] (fun s => if off % 8 != 0 || 0x400 ≤ off then plain 5 s else (0, [s.hkWord off], s)) s

/-! ## The semaphore (R327) -/

/-- SEMTAKE: where one of endpoint A comes in the same cycle, that of B follows it; one of A that is due later does not hold it up. -/
def execSemtake (h : CtlHdr) (s : State) : Out :=
  if h.ep = 1 && s.agenda.any fun d => s.ripe d && (match d.ev with | .semtake g => g.ep == 0 | _ => false) then stillDue (.semtake h) s
  else control h 11 [] (fun s =>
    match s.host.sem with
    | some _ => plain 2 s
    | none => plain 0 (({ s with host := { s.host with sem := some h.ep } } : State).seen h.ep)) s

/-- SEMGIVE. -/
def execSemgive (h : CtlHdr) (s : State) : Out :=
  control h 12 [] (fun s => if s.host.sem = some h.ep then plain 0 { s with host := { s.host with sem := none } } else plain 2 s) s

/-- CTLSEM_TIMEOUT (R327). -/
def execCtlsemTimeout (s : State) : Out :=
  if s.host.sem.isNone || s.time < s.host.semSeen + 1000000000 then .fault .notEnabled
  else .next { s with host := { s.host with sem := none } }

/-- FOREIGN_FRAME (R324). -/
def execForeignFrame (s : State) : Out := .next { s with host := { s.host with hkdrop := s.host.hkdrop + 1 } }

/-- CONTROL_BADCMD (R325). -/
def execControlBadcmd (h : CtlHdr) (code : Nat) (s : State) : Out :=
  if 1 ≤ code ∧ code ≤ 21 then .fault .notEnabled else control h code [] (plain 4) s

/-! ## Keys (R304, R305, R338) -/

/-- The lines under a key written back and dropped, in every cache, and the TLB entries that name it (R305). -/
def State.dropKey (s : State) (key : Nat) : State :=
  let l1 := (s.cache.l1.filter fun p => p.2.key == key).map (·.1)
  let s := l1.foldl (fun t i => (t.cleanL1 (i / 2 ^ 32) (i % 2 ^ 32)).dropL1 (i / 2 ^ 32) (i % 2 ^ 32)) s
  let l2 := (s.cache.l2.filter fun p => p.2.key == key).map (·.1)
  let s := l2.foldl (fun t l => (t.cleanL2 l).dropL2 l) s
  let msc := (s.cache.msc.filter fun p => p.2.key == key).map (·.1)
  let s := msc.foldl (fun t l => (t.cleanMsc l).dropMsc l) s
  let s := s.noFills fun _ _ => true
  let s : State := { s with cache := { s.cache with ic := s.cache.ic.filter fun p => p.2.key != key } }
  let tlb := s.tlb.filter fun e => bits e.pte.toNat 56 8 != key
  { s with tlb := tlb, walks := s.walks.map fun w => { w with stale := true } }

/-- KEYLOAD_CLEAR (R338). -/
def execKeyloadClear (h : CtlHdr) (slot : Nat) (s : State) : Out :=
  control h 13 [slot, 0] (fun s =>
    if 256 ≤ slot then plain 5 s
    else if slot = 0 then plain 8 s
    else
      let s := s.dropKey slot
      plain 0 { s with host := { s.host with keys := del s.host.keys slot } }) s

/-- KEYLOAD_LOAD (R338). -/
def execKeyloadLoad (h : CtlHdr) (slot owner : Nat) (wrapped : List Byte) (s : State) : Out :=
  control h 13 ([slot, 1, owner] ++ byteNums wrapped) (fun s =>
    if 256 ≤ slot || wrapped.length != 72 then plain 5 s
    else if slot = 0 || (find s.host.keys slot).isSome then plain 8 s
    else
      match s.region? owner, Config.unwrap wrapped with
      | none, _ => plain 6 s
      | some _, none => plain 8 s
      | some g, some pair =>
        if g.parent.isSome then plain 5 s
        else plain 0 { s with host := { s.host with keys := put s.host.keys slot { pair := pair, owner := owner } } }) s

/-! ## Firmware, identity, attestation -/

/-- FWUPD (R325, R326, R339): a chunk is staged, unless the image is rejected. [DEDUCED, log 50] -/
def execFwupd (h : CtlHdr) (chunk : List Byte) (s : State) : Out :=
  control h 14 (byteNums chunk) (fun s =>
    if maxBody < chunk.length then plain 5 s
    else if Config.chunksRejected (s.host.fwStaged ++ chunk) then plain 8 s
    else plain 0 { s with host := { s.host with fwStaged := s.host.fwStaged ++ chunk } }) s

/-- The module after RESET (R325, R339): as after power-on, but for the firmware store, what is staged, and what lies outside it. -/
def State.fullReset (s : State) : State :=
  { State.reset with
    host := { State.reset.host with fwStaged := s.host.fwStaged, firmware := s.host.firmware }
    timeBefore := s.timeBefore + s.now - s.lagged, lastIssue := s.tick, out := s.out, nextId := s.nextId, tick := s.tick }

/-- RESET (R325): the reply leaves, and nothing of it is stored after the reset (R324). [DEDUCED, log 57] -/
def execReset (h : CtlHdr) (s : State) : Out :=
  match control h 15 [] (plain 0) s with
  | .next t =>
    if (t.endpoint h.ep).last = h.seq && (t.endpoint h.ep).reply == some (0, []) && (s.endpoint h.ep).last != h.seq then .next t.fullReset
    else .next t
  | o => o

/-- SETCHIP (R325, R339). -/
def execSetchip (h : CtlHdr) (chip : Nat) (s : State) : Out :=
  control h 16 [chip] (fun s =>
    if 4096 ≤ chip then plain 5 s
    else if s.regions != [] then plain 8 s
    else plain 0 { s with host := { s.host with modid := chip, chipSet := true } }) s

/-- The words of the attestation report (R337). -/
def State.report (s : State) (nonce : List Byte) : List Word :=
  let image := s.host.firmware.getD Config.firmware
  let l := wordsOf nonce ++ Config.hash (byteNums image) ++ Config.hash (Config.firmwareConfig image) ++
    [BitVec.ofNat 64 s.host.modid, BitVec.ofNat 64 s.liveCount] ++ Config.hash s.host.retired
  l ++ Config.attestSig l

/-- ATTEST (R337). [DEDUCED, log 59] -/
def execAttest (h : CtlHdr) (nonce : List Byte) (s : State) : Out :=
  control h 21 (byteNums nonce) (fun s => if nonce.length != 32 then plain 5 s else (0, s.report nonce, s)) s

/-! ## Groups, routes, queues, captures -/

/-- GROUP_JOIN (R320, R325): a group without a live member is created, otherwise its leader is asked. [DEDUCED, log 43] -/
def execGroupJoin (h : CtlHdr) (group : Nat) (s : State) : Out :=
  control h 17 [0, group] (fun s =>
    if s.pacer.group.isSome then plain 8 s
    else
      match Config.groupLeader group s.tick with
      | some chip =>
        let s := s.modPacer fun p => { p with applied := some group }
        plain 0 ((s.relaySend chip 0 (.join s.host.modid group s.pacer.limit)).getD s)
      | none =>
        let p := s.pacer
        let s := s.modPacer fun p => { p with
          group := some group, epoch := 1, ceiling := p.limit, slack := p.limit, leader := s.host.modid, members := [s.host.modid],
          pend := none, lastChange := s.time, proposals := [(s.host.modid, p.limit)], winCycles := 0, winIdle := 0 }
        let m : EpochMsg := { group := group, epoch := 1, ceiling := p.limit, pend := none, hard := false, leader := s.host.modid,
                              members := [s.host.modid] }
        let s := if p.ceiling = p.limit then s else s.paceChanged m p.limit s.time
        let s := s.later .pacerHeartbeat (.time (s.time + 50000))
        plain 0 (s.updatePage.later .slackWindowEnd (.time ((s.time / 1000000 + 1) * 1000000)))) s

/-- GROUP_LEAVE (R320, R325): a member leaves at the next epoch; a leader's last epoch hands the group over. [DEDUCED, log 44] -/
def execGroupLeave (h : CtlHdr) (group : Nat) (s : State) : Out :=
  control h 17 [1, group] (fun s =>
    if s.pacer.group != some group then plain 8 s
    else if s.leads then
      if s.peers = [] then plain 0 s.outside
      else plain 0 (s.modPacer fun p => { p with leaving := insertNat p.leaving s.host.modid }).issueEpoch
    else plain 0 ((s.relaySend s.pacer.leader 0 (.leave s.host.modid group)).getD s)) s

/-- ROUTE (R333): ports of the mask that were taken out of every mask are restored. -/
def execRoute (h : CtlHdr) (chip mask : Nat) (s : State) : Out :=
  control h 18 [chip, mask] (fun s =>
    if 4096 ≤ chip || 65536 ≤ mask then plain 5 s
    else
      let s : State := { s with host := { s.host with routes := put s.host.routes chip mask } }
      let back := (range' 0 16).filter fun p => bit mask p && (s.port p).st == .failed
      plain 0 (back.foldl (fun t p => t.modPort p fun x => { x with st := .up }) s)) s

/-- WQCFG (R325, R347). -/
def execWqcfg (h : CtlHdr) (queue addr port : Nat) (s : State) : Out :=
  control h 19 [queue, addr, port] (fun s =>
    if 4 ≤ queue then plain 5 s
    else plain 0 (({ s with host := { s.host with wqcfg := put s.host.wqcfg queue (addr, port) } } : State).later (.wicketEgress queue))) s

/-- CAPRD (R335): bytes of the buffer of a region's capture. -/
def execCaprd (h : CtlHdr) (region off len : Nat) (s : State) : Out :=
  control h 20 [region, off, len] (fun s =>
    match (s.host.captures.filter fun c => c.region == region && !c.replay).getLast? with
    | none => plain 6 s
    | some c =>
      if maxBody < len || c.len < off + len || len % 8 != 0 || off % 8 != 0 || c.base % 8 != 0 then plain 5 s
      else
        let (l, t) := s.hostReads (c.base + off) (len / 8)
        (0, l, t)) s

/-! ## Wicket egress (R332, R347) -/

/-- The place of entry n of a queue. -/
def wicketEntry (queue n : Nat) : Nat := chipPlace (queue * 0x40000 + 64 * (n % 4096))

/-- The UDP payload of a frame of a queue (R347): every number in it stands little-endian, as R347 says of e. [DEDUCED, log 127] -/
def wicketPayload (queue kind e tag : Nat) (data : List Byte) : List Byte :=
  leBytes 2 0xC7A6 ++ leBytes 1 queue ++ leBytes 1 kind ++ leBytes 8 e ++ leBytes 6 tag ++ leBytes 1 data.length ++ leBytes 5 0 ++ data

/-- WICKET_EGRESS (R332, R347): the head entry leaves as a frame or as a withheld notice, and its words become empty. -/
def execWicketEgress (queue : Nat) (s : State) : Out :=
  let e := (find s.host.egress queue).getD 0
  let p := wicketEntry queue e
  match find s.host.wqcfg queue with
  | none => .fault .notEnabled
  | some dest =>
    if !s.feRaw p || !s.feRaw (p + 56) || 4 ≤ queue then .fault .notEnabled
    else
      let head := s.homeNum p 8
      let len := bits head 0 6
      let free := bits (s.homeNum (p + 56) 8) 0 2 = 1 && len ≤ 48 && bits head 6 10 = 0
      let frame : OutFrame := .udp (Config.moduleAddr, 47001) dest
        (wicketPayload queue (if free then 1 else 2) e (bits head 16 48) (if free then readBytes s.mem (p + 8) len else []))
      let s := (range' 0 8).foldl (fun t i => t.setFeRaw (p + 8 * i) false) s
      let s : State := { s with out := s.out ++ [frame], host := { s.host with egress := put s.host.egress queue (e + 1) } }
      let s := (range' 0 8).foldl (fun t i => t.passes (p + 8 * i)) s
      .next (s.later (.wicketEgress queue))

end Sys2Proof.Machine
end

