-- ==== Sys2Proof/Machine/Power.lean ====
section
/-! DEFINITION. The levels and shutters of tiles and cores (R310 to R312) and the billing of energy (R314, R315). -/

namespace Sys2Proof.Machine

/-! ## Levels (R310, R311) -/

/-- Whether a tile stands at a cycle whose number is a multiple of 64. -/
def State.atLap (s : State) (tile : Nat) : Bool := s.cycle (coreOfTile tile 0) % 64 == 0

/-- LEVEL_CHANGE (R311): at a cycle that is a multiple of 64 the tile's clock stops for its new level, for a
free number of nanoseconds up to 2,000. [DESIGN CHOICE, log 46] -/
def execLevelChange (tile : Nat) (s : State) : Out :=
  let t := s.tile tile
  if t.stopped || s.levelTarget tile = t.level then .fault .notEnabled
  else if !s.atLap tile then stillDue (.levelChange tile) s
  else
    let s := s.charge deviceWork 0 (s.cost 6)
    .next ((s.modTile tile fun t => { t with stopped := true, target := some (s.levelTarget tile) }).later (.clockRestart tile) (.time (s.time + Config.freeNat s.tick % 2001)))

/-- CLOCK_RESTART (R311): the clock runs again, at the cycle at which it stopped. -/
def execClockRestart (tile : Nat) (s : State) : Out :=
  let t := s.tile tile
  if !t.stopped then .fault .notEnabled
  else .next (s.modTile tile fun t => { t with stopped := false, edge := s.now, level := t.target.getD t.level, target := none })

/-! ## Shutters (R312) -/

/-- Whether position `a` of a core is shuttered before position `b`, of those that hold threads. -/
def State.shutsBefore (s : State) (core a b : Nat) : Bool :=
  let key (i : Nat) : Nat × Nat := match s.region? (s.slot (64 * core + i)).region with | some g => (g.prio, g.age) | none => (0, 0)
  let (pa, ga) := key a
  let (pb, gb) := key b
  pa < pb || (pa == pb && (gb < ga || (ga == gb && b < a)))

/-- A position put into the order of shuttering. -/
def State.shutRank (s : State) (core i : Nat) : List Nat → List Nat
  | [] => [i]
  | a :: r => if s.shutsBefore core i a then i :: a :: r else a :: s.shutRank core i r

/-- The positions of a core in the order in which they are shuttered (R312). -/
def State.shutOrder (s : State) (core : Nat) : List Nat :=
  let ps := ((range' 0 64).filter fun i => !isSystem (64 * core + i)).reverse
  let idle (i : Nat) : Bool := (s.slot (64 * core + i)).st == .empty || (s.slot (64 * core + i)).st == .held
  ps.filter idle ++ (ps.filter fun i => !idle i).foldl (fun l i => s.shutRank core i l) []

/-- SHUTTER_UPDATE (R312): at a cycle that is a multiple of 64 the set of `count` shuttered positions is chosen afresh. -/
def execShutterUpdate (core count : Nat) (s : State) : Out :=
  if 48 < count then .fault .notEnabled
  else if s.cycle core % 64 != 0 then stillDue (.shutterUpdate core count) s
  else
    let mask : BitVec 64 := BitVec.ofNat 64 ((((s.shutOrder core).take count).map fun i => 2 ^ i).foldl (· + ·) 0)
    .next (s.modCore core fun c => { c with shut := mask })

/-! ## Billing (R314, R315) -/

/-- The charges of another module's region on their way home; without a live route they stay. -/
def State.sendBill (s : State) (tag nj : Nat) : State :=
  match s.relaySend (tag / 65536) 0 (.billing (tag % 65536) nj) with
  | some t => { t with host := { t.host with bills := del t.host.bills tag } }
  | none => s

/-- BILLING_SEND (R314); the leakage of the period is region 0's (R315). [DEDUCED, log 48] -/
def execBillingSend (s : State) : Out :=
  let s := s.charge deviceWork 0 (s.cost 7)
  let s := s.host.bills.foldl (fun t p => t.sendBill p.1 p.2) s
  let s : State := { s with host := { s.host with lastBill := s.time } }
  .next (s.later .billingSend (.time (s.time + 10000)))

/-- BILLING_RECEIVE (R314, R315): a charge for a region that has ended goes to region 0. -/
def execBillingReceive (region nj : Nat) (s : State) : Out := .next (s.credit region nj)

end Sys2Proof.Machine
end

