-- ==== Sys2Proof/Machine/Transfer.lean ====
section
/-! DEFINITION. Loads, stores, full/empty operations, fences, cache forms, `TLBINV`, `HOP`, `SENDR`, hurdles, atomics and
counters: majors 0x18 to 0x1F, 0x38 and the counter forms of 0x22 (chapter 11; R128, R216). -/

namespace Sys2Proof.Machine

/-! ## Loads and stores (R134 to R136) -/

/-- The address of the signed M form (R130). -/
def eaM (s : State) (b o : Nat) : Word := s.g b + sext o 9 * 8

/-- The address of the unsigned M form (R130). -/
def eaN (s : State) (b o : Nat) : Word := s.g b + BitVec.ofNat 64 (8 * o)

def execLdD (t b g o : Nat) (s : State) : Out :=
  issueWith (.ldD t b g o) none none (some t) (fun s => loadInto (.ldD t b g o) t (eaM s b o) 8 6 (g == 1) s) s
def execStD (t b g o : Nat) (s : State) : Out :=
  peek (.stD t b g o) (some t) none none (fun v _ s => storeFrom (.stD t b g o) (eaM s b o) 8 v (g == 1) (takeBoth (some t) none) s) s
def execLd (t b i y : Nat) (s : State) : Out :=
  issueWith (.ld t b i y) none none (some t) (fun s =>
    loadInto (.ld t b i y) t (s.g b + BitVec.ofNat 64 (i * typeBytes y)) (typeBytes y) y false s) s
def execLdx (t b x y : Nat) (s : State) : Out :=
  issueWith (.ldx t b x y) none none (some t) (fun s =>
    loadInto (.ldx t b x y) t (s.g b + s.g x * BitVec.ofNat 64 (typeBytes y)) (typeBytes y) y false s) s
def execSt (t b i y : Nat) (s : State) : Out :=
  peek (.st t b i y) (some t) none none (fun v _ s =>
    storeFrom (.st t b i y) (s.g b + BitVec.ofNat 64 (i * typeBytes y)) (typeBytes y) v false (takeBoth (some t) none) s) s
def execStx (t b x y : Nat) (s : State) : Out :=
  peek (.stx t b x y) (some t) none none (fun v _ s =>
    storeFrom (.stx t b x y) (s.g b + s.g x * BitVec.ofNat 64 (typeBytes y)) (typeBytes y) v false (takeBoth (some t) none) s) s

/-- The elements of an `LDM` from element k on (R136): those at hand in this step; a remote one is awaited. -/
def ldmFrom (i : Instr) (d a n : Nat) : Nat → Nat → State → Out
  | 0, _, s => done i s
  | fuel + 1, k, s =>
    if n ≤ k then done i s
    else
      let addr := s.g a + BitVec.ofNat 64 (8 * k)
      migrateOr addr false (fun s =>
        match s.loadOne addr 8 (BitVec.ofNat 64 k) with
        | .val v s =>
          ldmFrom i d a n fuel (k + 1)
            ((s.setG (d + k) (BitVec.ofNat 64 v)).modMe fun sl => { sl with xprog := BitVec.ofNat 64 (k + 1), mid := true })
        | .stop o => o
        | .remote t s =>
          sendTo i { op := .load 8, need := .r, size := 8, source := 2, dst := some (d + k), elem := true } addr t
            (fun s => s.modMe fun sl => { sl with xprog := BitVec.ofNat 64 k, mid := true }) s) s

def execLdm (d a n : Nat) (s : State) : Out :=
  issueWith (.ldm d a n) none none none (fun s =>
    if (s.g a).toNat % 8 != 0 then trapAddr .align 0 (s.g a) s
    else ldmFrom (.ldm d a n) d a (n + 1) 129 (bits s.me.xprog.toNat 0 7) s) s

/-- The elements of an `STM` from element k on (R136). -/
def stmFrom (i : Instr) (d a n : Nat) : Nat → Nat → State → Out
  | 0, _, s => done i s
  | fuel + 1, k, s =>
    if n ≤ k then done i s
    else
      let addr := s.g a + BitVec.ofNat 64 (8 * k)
      migrateOr addr false (fun s =>
        match s.storeOne addr 8 (s.g (d + k)) (BitVec.ofNat 64 k) with
        | .ok s => stmFrom i d a n fuel (k + 1) (s.modMe fun sl => { sl with xprog := BitVec.ofNat 64 (k + 1), mid := true })
        | .stop o => o) s

def execStm (d a n : Nat) (s : State) : Out :=
  issueWith (.stm d a n) none none none (fun s =>
    if (s.g a).toNat % 8 != 0 then trapAddr .align 0 (s.g a) s
    else stmFrom (.stm d a n) d a (n + 1) 129 (bits s.me.xprog.toNat 0 7) s) s

/-! ## Full/empty operations (R137) -/

def execLdfe (t b c o : Nat) (s : State) : Out :=
  issueWith (.ldfe t b c o) none none (some t) (fun s =>
    accessAt (.ldfe t b c o) { op := .ldfe, need := .rw, size := 8, scope := c, acq := true, dst := some t } (eaN s b o) false id s) s
def execLdff (t b c o : Nat) (s : State) : Out :=
  issueWith (.ldff t b c o) none none (some t) (fun s =>
    accessAt (.ldff t b c o) { op := .ldff, need := .r, size := 8, scope := c, acq := true, dst := some t } (eaN s b o) false id s) s
def execStfe (t b c o : Nat) (s : State) : Out :=
  peek (.stfe t b c o) (some t) none none (fun v _ s => release c s fun s =>
    accessAt (.stfe t b c o) { op := .stfe, need := .rw, size := 8, v1 := v, scope := c, rel := true } (eaN s b o) false (takeBoth (some t) none) s) s
def execStf (t b c o : Nat) (s : State) : Out :=
  peek (.stf t b c o) (some t) none none (fun v _ s => release c s fun s =>
    accessAt (.stf t b c o) { op := .stf, need := .w, size := 8, v1 := v, scope := c, rel := true } (eaN s b o) false (takeBoth (some t) none) s) s
def execSete (b c o : Nat) (s : State) : Out :=
  issueWith (.sete b c o) none none none (fun s =>
    accessAt (.sete b c o) { op := .sete, need := .w, size := 8, scope := c } (eaN s b o) false id s) s
def execFeq (t b c o : Nat) (s : State) : Out :=
  issueWith (.feq t b c o) none none (some t) (fun s =>
    accessAt (.feq t b c o) { op := .feq, need := .r, size := 8, scope := c, dst := some t } (eaN s b o) false id s) s

/-- What a register-form read acquires: what the `SENDR` that filled the register released (R137, R144, R247). Clean lines are dropped
where that release had a scope of `.die` or wider, so that the reader is ordered after the sender's writes. [DEDUCED, log 110] -/
def State.acquireReg (s : State) (r : Reg) : State := s.acquire r.sent s.myCore

/-- `LDFE.strand` (R137). -/
def execLdfeStrand (t b : Nat) (s : State) : Out :=
  issueWith (.ldfeStrand t b) none none none (fun s =>
    let r := s.greg s.cur b
    if !r.full then parkFor (.regFull b) s
    else acquiring s fun s =>
      done (.ldfeStrand t b) (((s.acquireReg r).setGreg s.cur b { r with full := false }).setG t r.val)) s
/-- `LDFF.strand` (R137). -/
def execLdffStrand (t b : Nat) (s : State) : Out :=
  issueWith (.ldffStrand t b) none none none (fun s =>
    let r := s.greg s.cur b
    if !r.full then parkFor (.regFull b) s
    else acquiring s fun s => done (.ldffStrand t b) ((s.acquireReg r).setG t r.val)) s
/-- `SETE.strand` (R137). -/
def execSeteStrand (t : Nat) (s : State) : Out :=
  issueWith (.seteStrand t) none none none (fun s =>
    done (.seteStrand t) (s.setGreg s.cur t { (s.greg s.cur t) with full := false })) s
/-- `FEQ.strand` (R137). -/
def execFeqStrand (t b : Nat) (s : State) : Out :=
  issueWith (.feqStrand t b) none none none (fun s =>
    done (.feqStrand t b) (s.setG t (BitVec.ofNat 64 (b2n (s.greg s.cur b).full)))) s

/-! ## Fences and cache forms (R142, R143, R248) -/

def execFence (c : Nat) (s : State) : Out :=
  issueWith (.fence c) none none none (fun s =>
    completing s.cur (release c s fun s => done (.fence c) (s.acquire c s.myCore))) s

/-- A cache form on the line of an effective address (R143): only global addresses, translated with a right. [DEDUCED, log 100] -/
def lineForm (i : Instr) (need : Acc3) (b o : Nat) (body : Trans → Word → State → Out) (s : State) : Out :=
  issueWith i none none none (fun s =>
    let addr := s.g b + sext o 9 * 64
    if bits addr.toNat 56 8 != 0 then trapAddr .rights 0 addr s
    else
      match s.xlateFor s.cur addr.toNat need 2 0 with
      | .fault c s => trapAddr c 2 addr s
      | .miss s => .next s
      | .ok t s => body t addr s) s

/-- A cache form whose scope contains the line's home goes there, behind the core's earlier requests to it (R237, R248), and the thread
waits until it is performed. -/
def sendForm (i : Instr) (op : HomeOp) (c : Nat) (t : Trans) (addr : Word) (s : State) : Out :=
  let (id, s) := s.fresh
  let die := dieOf s.myCore
  let q : Req := { id := id, src := s.cur, region := s.me.region, op := op, addr := addr, place := t.pa, scope := c, dest := .discard,
                   key := t.key, len := i.len, hops := bridgePath die (homeDie t.pa die) }
  .next ((s.modMe fun sl => { sl with st := .waiting, wait := .reply id, nacks := 0 }).emit q)

/-- Whether a scope taken from the issuing core contains a line's home (R20, R143). -/
def State.homeWithin (s : State) (c : Nat) (t : Trans) : Bool := narrowHbm s.myCore t.pa ≤ c

/-- The write-backs of a line by the L1s within a scope (R143): they set out, and the instruction goes on once they are acknowledged. -/
def backWithin (c line : Nat) (inval : Bool) (s : State) (body : State → Out) : Out :=
  let k := s.cur
  completing k <|
    if s.me.relMark.isSome then body s
    else
      let t := ((s.l1Holders line).filter (within c s.myCore)).foldl (fun t h => t.writeBack h line) s
      if t.condHolds k (.lineDone c line inval) then body t
      else waitFor (.lineDone c line inval) (t.modMe fun sl => { sl with relMark := some t.nextId })

/-- `DISCARD` (R143, R248): at its home, or on the L1 copies within a scope that does not contain it. -/
def execDiscard (b c o : Nat) (s : State) : Out :=
  let i : Instr := .discard b c o
  lineForm i .rw b o (fun t addr s =>
    if s.homeWithin c t then sendForm i .discard c t addr s else done i (s.dropCopies s.myCore c (t.pa / 128))) s
/-- `FLUSH` (R143). -/
def execFlush (b c o : Nat) (s : State) : Out :=
  let i : Instr := .flush b c o
  lineForm i .r b o (fun t addr s =>
    if s.homeWithin c t then sendForm i .flush c t addr s else backWithin c (t.pa / 128) false s (done i)) s
/-- `INVAL` (R143). -/
def execInval (b c o : Nat) (s : State) : Out :=
  let i : Instr := .inval b c o
  lineForm i .r b o (fun t addr s =>
    if s.homeWithin c t then sendForm i .inval c t addr s
    else backWithin c (t.pa / 128) true s fun s =>
      done i ((s.dropCopies s.myCore c (t.pa / 128)).dropFetched s.myCore c (t.pa / 128))) s

/-- A `PREF`'s request sets out (R143): for the L1 at `.core` to `.clus`, for the home's L2 at `.die`, for the MSC at `.mod`. It has no
visible effect. -/
def State.prefetch (s : State) (core scope : Nat) (t : Trans) (addr : Word) : State :=
  if scope < 4 && (!t.cached || (s.l1 core (t.pa / 128)).isSome) then s
  else
    let (id, s) := s.fresh
    let die := dieOf core
    s.emit { id := id, src := unitSrc core, region := s.me.region, op := if scope < 4 then .fill else .touch, addr := addr, place := t.pa,
             scope := scope, dest := .pref, key := t.key, hops := bridgePath die (homeDie t.pa die) }

/-- `PREF` (R143): an address that would fault makes it a `NOP`. -/
def execPref (b c o : Nat) (s : State) : Out :=
  issueWith (.pref b c o) none none none (fun s =>
    let addr := s.g b + sext o 9 * 64
    if bits addr.toNat 56 8 != 0 then done (.pref b c o) s
    else
      match s.xlate s.me.region addr.toNat .r with
      | (.ok x, t) => done (.pref b c o) (t.prefetch t.myCore c x addr)
      | (.error _, t) => done (.pref b c o) t) s

/-! ## `TLBINV` (R128) -/

/-- Whether a TLB holder lies within a scope taken from a core. -/
def holderWithin (scope core h : Nat) : Bool := within scope core (if h < 4096 then h else coreOfTile (h - 4096) 0)

/-- Drops a region's translations within a scope, for the page of any size that contains an address or all of them (R128). -/
def State.tlbInv (s : State) (core scope region : Nat) (va : Option Nat) : State :=
  let hit (level page : Nat) : Bool := match va with | some a => a / 2 ^ pageBits level == page | none => true
  let near (w : Walk) : Bool := match va with | some a => a / 2 ^ 30 == w.va.toNat / 2 ^ 30 | none => true
  let tlb := s.tlb.filter fun e => !(holderWithin scope core e.holder && e.region == region && hit e.level e.page)
  let walks := s.walks.map fun w =>
    if w.region == region && within scope core (coreOfTile w.tile 0) && near w then { w with stale := true } else w
  { s with tlb := tlb, walks := walks }

/-- The end of a `TLBINV` whose drops are made (R128): it waits for the elements of Vault operations within its scope that are translated
and not yet performed (R229). -/
def endTlbinv (i : Instr) (scope : Nat) (s : State) : Out :=
  if s.elemsQuiet s.myCore scope s.me.region then done i s else waitFor (.elemsDone scope) s

def execTlbinvPage (b c : Nat) (s : State) : Out :=
  issueWith (.tlbinvPage b c) none none none (fun s =>
    let addr := s.g b
    if bits addr.toNat 56 8 != 0 then trapAddr .rights 0 addr s
    else release c s fun s => endTlbinv (.tlbinvPage b c) c (s.tlbInv s.myCore c s.me.region (some addr.toNat))) s
def execTlbinvRegion (c : Nat) (s : State) : Out :=
  issueWith (.tlbinvRegion c) none none none (fun s =>
    release c s fun s => endTlbinv (.tlbinvRegion c) c (s.tlbInv s.myCore c s.me.region none)) s

/-! ## `HOP` (R52, R146, R215) -/

/-- [DEDUCED, log 89] -/
def execHop (b o : Nat) (s : State) : Out :=
  issueWith (.hop b o) none none none (fun s =>
    let addr := eaM s b o
    if !s.me.strand then trapIllegal (.hop b o) s
    else
      match s.scratchOwner addr with
      | none => trapAddr .rights 0 addr s
      | some c =>
        if c = s.myCore then done (.hop b o) s
        else if !s.grants s.me.region (clusterOf c) then trapAddr .rights 0 addr s
        else if s.stuck s.cur then trapIllegal (.hop b o) s
        else whenAcked s fun s =>
          if s.me.inflight != 0 then parkFor .opsDone s
          else if s.me.tags != 0 then trapIllegal (.hop b o) s
          else release (scopeTo s.myCore c) s fun s => .next (s.depart c (s.me.pc + 4) addr true)) s

/-! ## `SENDR` (R144) -/

/-- [DEDUCED, log 101] -/
def execSendr (t b c r : Nat) (s : State) : Out :=
  issueWith (.sendr t b c r) none none none (fun s =>
    let addr := s.g b
    let a := addr.toNat
    if bits a 56 8 != 1 || bits a 44 12 != s.host.modid || bits a 6 26 != 0 || !s.grants s.me.region (clusterOf (bits a 32 12)) then
      trapAddr .rights 0 addr s
    else release c s fun s =>
      let (id, s) := s.fresh
      let m : Sendr := { id := id, src := s.cur, target := 64 * bits a 32 12 + bits a 0 6, reg := r, val := s.g t, scope := c, addr := addr }
      let s := { s with sendrs := s.sendrs ++ [m] }
      let s := if c < scopeTo s.myCore (bits a 32 12) then s.later (.scopeMissReturn id) else s.sendSendr m
      .next (s.modMe fun sl => { sl with st := .waiting, wait := .reply id, nacks := 0 })) s

/-- SENDR_DELIVERY (R144, R257): the register is written, or the sender is to get a NACK or an error response. The answer goes back. -/
def execSendrDelivery (id : Nat) (s : State) : Out :=
  match s.sendrs.find? (·.id == id) with
  | none => .fault .notEnabled
  | some m =>
    if s.behindPair (coreOf m.src) (coreOf m.target) m.at_ then stillDue (.sendrDelivery id) s else
    let sl := s.slot m.target
    let core := coreOf m.target
    let answer (s : State) (n : Nat) : Out := .next (s.travel (.sendrAnswer id n) (dieOf core) (dieOf (coreOf m.src)) 1 16)
    if s.retired core then answer (s.logErr 2 4 (s.nameOf m.src) m.addr) 2
    else if sl.st = .empty || sl.st = .held || sl.size ≤ m.reg then answer (s.logErr 1 4 (s.nameOf m.src) m.addr) 2
    else if sl.st = .halted || (s.greg m.target m.reg).full || (s.greg m.target m.reg).pend then answer s 1
    else answer ((s.setGreg m.target m.reg { val := m.val, sent := m.scope }).endPark m.target) 0

/-- The answer of a register delivery at its source (R144, R139, R158). -/
def execSendrAnswer (id ans : Nat) (s : State) : Out :=
  match s.sendrs.find? (·.id == id) with
  | none => .fault .notEnabled
  | some m =>
    let gone : State := { s with sendrs := s.sendrs.filter (·.id != id) }
    let me := s.slot m.src
    if ans = 0 then .next ((gone.advance m.src 4).modSlot m.src fun sl => { sl.settle with nacks := 0 })
    else if ans = 1 then
      if me.frozen then .next (gone.modSlot m.src fun sl => { sl.settle with nacks := 0 })
      else if me.nacks < me.retry.toNat then .next ((s.modSlot m.src fun sl => { sl with nacks := sl.nacks + 1 }).sendSendr m)
      else
        let now := s.cycle (coreOf m.src)
        let due := now + me.parkint.toNat
        .next ((s.modSlot m.src fun sl =>
          { (sl.become .parked (.retry id due)) with parkedSince := now, stale := false }).later (.retryParkExpiry m.src) (.cycle (coreOf m.src) due))
    else
      let gone := if ans = 3 then gone.logErr 1 4 (s.nameOf m.src) m.addr else gone
      .next (gone.takeTrap m.src .rights 4 0 me.pc m.addr 0 0 me.pc)

/-! ## Hurdles (R147, R148) -/

def execArrive (t b c o : Nat) (s : State) : Out :=
  issueWith (.arrive t b c o) none none none (fun s => release c s fun s =>
    accessAt (.arrive t b c o) { op := .arrive, need := .rw, size := 8, scope := c, rel := true, dst := some t, port := false } (eaN s b o) false id s) s
def execArriveRelaxed (t b c o : Nat) (s : State) : Out :=
  issueWith (.arriveRelaxed t b c o) none none none (fun s =>
    accessAt (.arriveRelaxed t b c o) { op := .arrive, need := .rw, size := 8, scope := c, dst := some t, port := false }
      (eaN s b o) false id s) s
def execHwait (t b c o : Nat) (s : State) : Out :=
  issueWith (.hwait t b c o) none none none (fun s =>
    accessAt (.hwait t b c o) { op := .hwait, need := .rw, size := 8, v1 := s.g t, scope := c, acq := true } (eaN s b o) false id s) s
def execHtest (t b c o : Nat) (s : State) : Out :=
  issueWith (.htest t b c o) none none none (fun s =>
    accessAt (.htest t b c o) { op := .htest, need := .r, size := 8, scope := c, acq := true, dst := some t, port := false }
      (eaN s b o) false id s) s

/-! ## Atomics (R140, R141) -/

/-- The width of an atomic by its code (R71). -/
def atomWidth (w : Nat) : AtomW := if w = 0 then .d else if w = 1 then .s32 else if w = 2 then .n32 else .f32

/-- An atomic: a release before its step where it has `.rel` or `.ar`, an acquire after it where it has `.acq` or `.ar`. -/
def atomicForm (i : Instr) (op : AtomOp) (a b c scope ord w : Nat) (s : State) : Out :=
  peek i (some c) none (some a) (fun v _ s =>
    let aw := atomWidth w
    let want : Want := { op := .atomic op aw, need := .rw, size := atomBytes op aw,
                         v1 := if op = .cadd ∧ aw ≠ .d then BitVec.ofNat 64 (v.toNat % 2 ^ 32) else v,
                         v2 := if op = .cas then s.g (c + 1) else 0, scope := scope, acq := ord == 1 || ord == 3, rel := decide (2 ≤ ord),
                         dst := some a }
    let go (s : State) : Out := accessAt i want (s.g b) false (takeBoth (some c) none) s
    if 2 ≤ ord then release scope s go else go s) s

def execAadd (a b c scope ord w : Nat) (s : State) : Out := atomicForm (.aadd a b c scope ord w) .add a b c scope ord w s
def execAfadd (a b c scope ord w : Nat) (s : State) : Out := atomicForm (.afadd a b c scope ord w) .fadd a b c scope ord w s
def execAmin (a b c scope ord w : Nat) (s : State) : Out := atomicForm (.amin a b c scope ord w) .min a b c scope ord w s
def execAmax (a b c scope ord w : Nat) (s : State) : Out := atomicForm (.amax a b c scope ord w) .max a b c scope ord w s
def execAminn (a b c scope ord w : Nat) (s : State) : Out := atomicForm (.aminn a b c scope ord w) .minn a b c scope ord w s
def execAmaxn (a b c scope ord w : Nat) (s : State) : Out := atomicForm (.amaxn a b c scope ord w) .maxn a b c scope ord w s
def execAand (a b c scope ord w : Nat) (s : State) : Out := atomicForm (.aand a b c scope ord w) .and a b c scope ord w s
def execAor (a b c scope ord w : Nat) (s : State) : Out := atomicForm (.aor a b c scope ord w) .or a b c scope ord w s
def execAxor (a b c scope ord w : Nat) (s : State) : Out := atomicForm (.axor a b c scope ord w) .xor a b c scope ord w s
def execAswp (a b c scope ord w : Nat) (s : State) : Out := atomicForm (.aswp a b c scope ord w) .swp a b c scope ord w s
def execAcas (a b c scope ord w : Nat) (s : State) : Out := atomicForm (.acas a b c scope ord w) .cas a b c scope ord w s
def execCadd (a b c scope ord w : Nat) (s : State) : Out := atomicForm (.cadd a b c scope ord w) .cadd a b c scope ord w s

/-! ## Counters (R216) -/

def execCwait (a b : Nat) (s : State) : Out :=
  peek (.cwait a b) (some b) none none (fun v _ s =>
    accessAt (.cwait a b) { op := .cwait, need := .r, size := 8, v1 := v, scope := 0, acq := true, source := 2 } (s.g a) false
      (takeBoth (some b) none) s) s
def execCread (d a : Nat) (s : State) : Out :=
  issueWith (.cread d a) none none (some d) (fun s =>
    accessAt (.cread d a) { op := .cread, need := .r, size := 8, scope := 0, acq := true, source := 2, dst := some d } (s.g a) false id s) s

end Sys2Proof.Machine
end

