-- ==== Sys2Proof/Machine/Walks.lean ====
section
/-! DEFINITION. The walkers of a tile (R300 to R304): a miss is taken by one of four walkers; a walk ends by installing a leaf in
the TLBs, by a fault of the access that started it, or, after a `TLBINV`, without a result (R128). -/

namespace Sys2Proof.Machine

/-- TRANSLATION_WALK (R302, R303): a free walker of the tile takes the pending translation. -/
def execTranslationWalk (id : Nat) (s : State) : Out :=
  match s.walks.find? (·.id == id) with
  | none => .fault .notEnabled
  | some w =>
    if w.begun then .fault .notEnabled
    else if 4 ≤ (s.walks.filter fun v => v.tile == w.tile && v.begun).length then stillDue (.translationWalk id) s
    else
      let walks := s.walks.map fun v => if v.id = id then { v with begun := true } else v
      .next (({ s with walks := walks } : State).later (.walkComplete id))

/-- Whether a thread waits for a walk. -/
def State.waitsWalk (s : State) (k id : Nat) : Bool :=
  match (s.slot k).st, (s.slot k).wait with
  | .waiting, .reissue (.walk i) => i == id
  | _, _ => false

/-- The page of a leaf holds the address of a pending translation of the same tile and region, which needs no walk of its own
(R303). -/
def Walk.served (w : Walk) (e : TlbEnt) : Bool :=
  4096 + w.tile == e.holder && w.region == e.region && w.failed.isNone && w.va.toNat % 2 ^ 56 / 2 ^ pageBits e.level == e.page

/-- WALK_COMPLETE (R301, R302, R303): the leaf is installed in the tile's TLB and the core's with A set, and D for a store, and every
pending translation of its page is served. A fault traps the thread whose access started the walk, with the address of word 1 where that is
fetched (R59), or is taken up by the unit that did; other waiters issue again. -/
def execWalkComplete (id : Nat) (s : State) : Out :=
  match s.walks.find? (·.id == id) with
  | none => .fault .notEnabled
  | some w =>
    if !w.begun then .fault .notEnabled
    else
      let s : State := { s with walks := s.walks.filter (·.id != id) }
      if w.stale then .next s
      else
        match s.walk w.region (w.va.toNat % 2 ^ 56) w.need with
        | (.leaf pte level _, t) =>
          let e : TlbEnt := { holder := 4096 + w.tile, region := w.region, level := level,
                              page := w.va.toNat % 2 ^ 56 / 2 ^ pageBits level, pte := BitVec.ofNat 64 pte }
          let t : State := { t with walks := t.walks.filter fun v => !v.served e }
          .next ((t.tlbInstall e).tlbInstall { e with holder := w.core })
        | (.fault c level at_, t) =>
          if w.unit then .next { t with walks := t.walks ++ [{ w with failed := some (c, level) }] }
          else if s.waitsWalk w.slot id then
            let pc := (t.slot w.slot).pc
            let word1 : Bool := w.source == 1 && w.va != pc
            let addr := if c = .machine && !word1 then BitVec.ofNat 64 at_ else w.shown.getD w.va
            .next (t.takeTrap w.slot c w.source level pc addr w.xprog 0 pc)
          else .next t

end Sys2Proof.Machine
end

