-- ==== Sys2Proof/Machine/Agenda.lean ====
section
/-! DEFINITION. What an event of the agenda does: the meaning that exec gives the event's constructor of Instr. -/

namespace Sys2Proof.Machine

/-- What an event of the agenda does to the machine. -/
def runEvent (e : Ev) (s : State) : Out :=
  match e with
  | .divideComplete k => execDivideComplete k s
  | .replyArrival id => execReplyArrival id s
  | .remoteStoreAck id => execRemoteStoreAck id s
  | .homeAccess id => execHomeAccess id s
  | .nackReceived id => execNackReceived id s
  | .retryParkExpiry k => execRetryParkExpiry k s
  | .parkTimeout k => execParkTimeout k s
  | .scopeMissReturn id => execScopeMissReturn id s
  | .omegaCombine id0 id1 => execOmegaCombine id0 id1 s
  | .combinedReplySplit id => execCombinedReplySplit id s
  | .bankMissFill line => execBankMissFill line s
  | .conflictQueueServe line => execConflictQueueServe line s
  | .hotWindowEnd bank => execHotWindowEnd bank s
  | .hotReplicaAck line => execHotReplicaAck line s
  | .redirectInstall tile line => execRedirectInstall tile line s
  | .hotLineRecall line => execHotLineRecall line s
  | .recallWithdraw line who => execRecallWithdraw line who s
  | .recallComplete line => execRecallComplete line s
  | .helperEvictReport line slice => execHelperEvictReport line slice s
  | .redirectDrain id => execRedirectDrain id s
  | .bridgeFlitReceive dir => execBridgeFlitReceive dir s
  | .bridgeAckReceive dir n => execBridgeAckReceive dir n s
  | .bridgeRetrain dir => execBridgeRetrain dir s
  | .bridgeRetrainDone dir => execBridgeRetrainDone dir s
  | .bridgeFailTimeout dir => execBridgeFailTimeout dir s
  | .relayFrameReceive port frame pkts => execRelayFrameReceive port frame pkts s
  | .relayPortTimeout port => execRelayPortTimeout port s
  | .sendrDelivery id => execSendrDelivery id s
  | .hubAllocate core => execHubAllocate core s
  | .stealSweep core => execStealSweep core s
  | .stealRestExpiry core => execStealRestExpiry core s
  | .stealHubAck core => execStealHubAck core s
  | .stealArrival core => execStealArrival core s
  | .tcbDecrement key requester => execTcbDecrement key requester s
  | .taskRetire key requester => execTaskRetire key requester s
  | .dequeRefillArrival k => execDequeRefillArrival k s
  | .migrationArrival id => execMigrationArrival id s
  | .landingQueueTake core => execLandingQueueTake core s
  | .landingAck id => execLandingAck id s
  | .bounceReturn id => execBounceReturn id s
  | .landnRaiseComplete core => execLandnRaiseComplete core s
  | .vectorStep core => execVectorStep core s
  | .vectorPendingWrite core => execVectorPendingWrite core s
  | .vectorElementReply id => execVectorElementReply id s
  | .matrixArraySelect tile => execMatrixArraySelect tile s
  | .matrixOpStart core => execMatrixOpStart core s
  | .matrixOpRetire core => execMatrixOpRetire core s
  | .accAccessAttempt core => execAccAccessAttempt core s
  | .engineComplete id => execEngineComplete id s
  | .strideSpillReturn tile => execStrideSpillReturn tile s
  | .pushmMemberAck id member => execPushmMemberAck id member s
  | .pushXTimeout id => execPushXTimeout id s
  | .fabredRankTimeout id rank => execFabredRankTimeout id rank s
  | .donateAnswer id status => execDonateAnswer id status s
  | .donateTimeout id => execDonateTimeout id s
  | .donationReceive srcChip id tregion tobj image => execDonationReceive srcChip id tregion tobj image s
  | .donationDrain region obj => execDonationDrain region obj s
  | .handlerOwedStart cluster => execHandlerOwedStart cluster s
  | .eventDelivery region code w1 w2 => execEventDelivery region code w1 w2 s
  | .preemptDecision cluster => execPreemptDecision cluster s
  | .preemptRequestArrival k => execPreemptRequestArrival k s
  | .preemptSaveComplete k => execPreemptSaveComplete k s
  | .threadRestore image => execThreadRestore image s
  | .threadStale k => execThreadStale k s
  | .translationWalk id => execTranslationWalk id s
  | .walkComplete id => execWalkComplete id s
  | .levelChange tile => execLevelChange tile s
  | .clockRestart tile => execClockRestart tile s
  | .shutterUpdate core count => execShutterUpdate core count s
  | .billingSend => execBillingSend s
  | .billingReceive region nj => execBillingReceive region nj s
  | .pacerEpochReceive m => execPacerEpochReceive m s
  | .pacerCeilingApply => execPacerCeilingApply s
  | .pacerAnnounce level bite => execPacerAnnounce level bite s
  | .leaderAnnounceHandle chip level bite hard => execLeaderAnnounceHandle chip level bite hard s
  | .announceRejected => execAnnounceRejected s
  | .hardDrop level => execHardDrop level s
  | .leaderRaise lead => execLeaderRaise lead s
  | .pacerHeartbeat => execPacerHeartbeat s
  | .proposalChange level => execProposalChange level s
  | .memberSilence chip => execMemberSilence chip s
  | .leaderSilence => execLeaderSilence s
  | .slackWindowEnd => execSlackWindowEnd s
  | .launch h desc flags capBase capLen => execLaunch h desc flags capBase capLen s
  | .memrd h addr len => execMemrd h addr len s
  | .memwr h addr data => execMemwr h addr data s
  | .exrd h exno off len => execExrd h exno off len s
  | .exwr h exno off data => execExwr h exno off data s
  | .regctlHalt h region => execRegctlHalt h region s
  | .regctlResume h region => execRegctlResume h region s
  | .regctlEnd h region => execRegctlEnd h region s
  | .setobj h region index image => execSetobj h region index image s
  | .logrd h => execLogrd h s
  | .energyrd h region => execEnergyrd h region s
  | .hkrd h off => execHkrd h off s
  | .semtake h => execSemtake h s
  | .semgive h => execSemgive h s
  | .keyloadClear h slot => execKeyloadClear h slot s
  | .keyloadLoad h slot owner wrapped => execKeyloadLoad h slot owner wrapped s
  | .fwupd h chunk => execFwupd h chunk s
  | .reset h => execReset h s
  | .setchip h chip => execSetchip h chip s
  | .groupJoin h group => execGroupJoin h group s
  | .groupLeave h group => execGroupLeave h group s
  | .route h chip mask => execRoute h chip mask s
  | .wqcfg h queue addr port => execWqcfg h queue addr port s
  | .caprd h region off len => execCaprd h region off len s
  | .attest h nonce => execAttest h nonce s
  | .controlBadcmd h code => execControlBadcmd h code s
  | .foreignFrame => execForeignFrame s
  | .ctlsemTimeout => execCtlsemTimeout s
  | .wicketEgress queue => execWicketEgress queue s
  | .replayHeldAccess id => execReplayHeldAccess id s
  | .powerOnReset => execPowerOnReset s
  | .discoveryFloodReceive core round => execDiscoveryFloodReceive core round s
  | .discoveryAnswer core round => execDiscoveryAnswer core round s
  | .discoveryTimeout => execDiscoveryTimeout s
  | .relayLinkRetrain port => execRelayLinkRetrain port s
  | .relayLinkRetrainDone port => execRelayLinkRetrainDone port s
  | .lineEviction level line => execLineEviction level line s
  | .patrolScrub place => execPatrolScrub place s
  | .replayExternalInput region input => execReplayExternalInput region input s
  | .engineMove id => engineMove id s
  | .engineTrip id trip die => engineTrip id trip die s
  | .sendrAnswer id ans => execSendrAnswer id ans s
  | .migrationError id => execMigrationError id s
  | .stackRead line => execStackRead line s
  | .fillFailed line => execFillFailed line s
  | .hotCopy line => execHotCopy line s
  | .stealRefused core => execStealRefused core s
  | .retireDec key i ref requester => execRetireDec key i ref requester s
  | .retireStep key i requester => execRetireStep key i requester s
  | .visitHome id => visitHome id s
  | .visitDone id => visitDone id s
  | .visitCut id => visitCut id s
  | .linePass line => linePass line s
  | .unitCast id word die onward => unitCast id word die onward s
  | .memberReached id member => memberReached id member s
  | .packetEnd => packetEnd s
  | .relayAck port => relayAck port s

end Sys2Proof.Machine
end

