-- ==== Sys2Proof/Machine/Cycle.lean ====
section
/-! DEFINITION. What a cycle of a core does around the instruction it issues: its tile's clock, the falling due of the tile's level and of the cores' shutters, and words that are no instruction. -/

namespace Sys2Proof.Machine

/-- ILLEGAL of words that are no instruction (R63): `XINFO` holds word 0, and word 1 for a wide major, 0x3F among them (R59).
[DESIGN CHOICE, log 116] -/
def illegalWords (w x : Nat) (s : State) : State :=
  let s := if s.capturing then s.discardFrame s.myCore else s
  s.trapAt .illegal 0 0 0 0 (BitVec.ofNat 64 (w + (if isWide w then x * 2 ^ 32 else 0)))

/-- Whether a core holds a thread of a collective region (R321). -/
def State.holdsCollective (s : State) (core : Nat) : Bool :=
  (s.regions.any fun p => p.2.collective) && s.slots.any fun p =>
    p.1 / 64 == core && p.2.st != .empty && p.2.st != .held && (s.region? p.2.region).elim false Region.collective

/-- The cycle of a core that holds a thread of a collective region counts in the window of R321, an empty one as idle. -/
def State.countWindow (s : State) (core : Nat) (issued : Bool) : State :=
  if s.pacer.group.isSome && s.holdsCollective core && !(s.tile (tileOf core)).turned.contains core then
    s.modPacer fun p => { p with winCycles := p.winCycles + 1, winIdle := p.winIdle + b2n (!issued) }
  else s

/-- The slots of a core that have been parked for 262,144 cycles (R280). -/
def State.staleSlots (s : State) (core : Nat) : List Nat :=
  (s.slots.filter fun p => p.1 / 64 == core && p.2.st == .parked && !p.2.stale && p.2.parkedSince + 262144 ≤ s.cycle core).map (·.1)

/-- What falls due on a core at a cycle that is a multiple of 64: its shutters (for a number of positions that the power model
chooses), and threads that have become stale (R312, R280). [DESIGN CHOICE, log 47] -/
def State.coreLap (s : State) (core : Nat) : State :=
  let now := When.cycle core (s.cycle core)
  (s.staleSlots core).foldl (fun t k => t.later (.threadStale k) now)
    (s.later (.shutterUpdate core (Config.freeNat (64 * s.tick + coreInTile core) % 49)) now)

/-- What falls due on a tile at a cycle that is a multiple of 64, before anything issues at it: its level (R311), and what falls due
on its cores. -/
def State.lap (s : State) (tile : Nat) : State :=
  let t := s.tile tile
  if t.cycle % 64 != 0 then s
  else
    let s := if !t.stopped && s.levelTarget tile != t.level then s.later (.levelChange tile) (.cycle (coreOfTile tile 0) t.cycle) else s
    (tileCores tile).foldl State.coreLap s

/-- The record of a tile brought up to the present moment, as its clock has run on while nothing stood on it (R121). Where laps have
passed, the shutters were last chosen while every position was empty (R312). -/
def State.syncTile (s : State) (tile : Nat) : State :=
  let old := s.tile tile
  let new := old.upTo s.now
  let s := s.modTile tile fun t => { t.upTo s.now with fresh := false }
  if old.cycle / 64 = new.cycle / 64 then s
  else (tileCores tile).foldl (fun t c =>
    let ps := ((range' 0 64).filter fun i => !isSystem (64 * c + i)).reverse
    let count := Config.freeNat (64 * s.tick + coreInTile c) % 49
    t.modCore c fun r => { r with shut := BitVec.ofNat 64 (((ps.take count).map fun i => 2 ^ i).foldl (· + ·) 0) }) s

/-- The moment at which a core's issue cycle begins: time stands at its tile's edge, and the tile's record is up to date. -/
def State.beginCycle (s : State) (core : Nat) : State :=
  let t : State := s.syncTile (tileOf core)
  t.onTo (Nat.max t.now (t.tile (tileOf core)).edge)

/-- Whether a tile on which nothing stood comes to stand at a cycle that is a multiple of 64, at which something may fall due before
anything issues (R311, R312). -/
def State.atNewLap (s : State) (tile : Nat) : Bool :=
  let t := (s.tile tile).upTo s.now
  (s.tile tile).cycle / 64 != t.cycle / 64 && t.cycle % 64 == 0

/-- A core has had its issue cycle: when every core of its tile has, the tile's next cycle comes (R121). -/
def State.turnOver (s : State) (core : Nat) : State :=
  let tile := tileOf core
  let s := s.modTile tile fun t => { t with turned := t.turned ++ [core] }
  if (s.tileTurns tile).all fun c => (s.tile tile).turned.contains c then
    (s.modTile tile fun t => { t with cycle := t.cycle + 1, edge := t.edge + period t.level, turned := [] }).lap tile
  else s

/-- A core's issue cycle has passed, with an issue or without one. -/
def endCycle (core : Nat) (issued : Bool) : Out → Out
  | .next s =>
    let t := (s.countWindow core issued).turnOver core
    .next { t with tick := t.tick + 1, lastIssue := t.tick }
  | .fault f => .fault f
  | .refused r => .refused r

end Sys2Proof.Machine
end

