-- ==== Sys2Proof/Machine/Dispatch.lean ====
section
/-! DEFINITION. The meaning of every instruction and event: one arm a row of spec/opcode_table.json. -/

namespace Sys2Proof.Machine

/-- What an instruction or an event does to the machine. -/
def exec (i : Instr) (s : State) : Host.Outcome State Fault Refusal :=
  match i with
  | .add d a b => Sys2Proof.Machine.execAdd d a b s
  | .sub d a b => Sys2Proof.Machine.execSub d a b s
  | .mul d a b => Sys2Proof.Machine.execMul d a b s
  | .mulh d a b => Sys2Proof.Machine.execMulh d a b s
  | .mulhn d a b => Sys2Proof.Machine.execMulhn d a b s
  | .div d a b => Sys2Proof.Machine.execDiv d a b s
  | .divn d a b => Sys2Proof.Machine.execDivn d a b s
  | .rem d a b => Sys2Proof.Machine.execRem d a b s
  | .remn d a b => Sys2Proof.Machine.execRemn d a b s
  | .min d a b => Sys2Proof.Machine.execMin d a b s
  | .max d a b => Sys2Proof.Machine.execMax d a b s
  | .minn d a b => Sys2Proof.Machine.execMinn d a b s
  | .maxn d a b => Sys2Proof.Machine.execMaxn d a b s
  | .abs d a => Sys2Proof.Machine.execAbs d a s
  | .and d a b => Sys2Proof.Machine.execAnd d a b s
  | .or d a b => Sys2Proof.Machine.execOr d a b s
  | .xor d a b => Sys2Proof.Machine.execXor d a b s
  | .andn d a b => Sys2Proof.Machine.execAndn d a b s
  | .orn d a b => Sys2Proof.Machine.execOrn d a b s
  | .xnor d a b => Sys2Proof.Machine.execXnor d a b s
  | .shl d a b => Sys2Proof.Machine.execShl d a b s
  | .shr d a b => Sys2Proof.Machine.execShr d a b s
  | .sar d a b => Sys2Proof.Machine.execSar d a b s
  | .rol d a b => Sys2Proof.Machine.execRol d a b s
  | .ror d a b => Sys2Proof.Machine.execRor d a b s
  | .popc d a => Sys2Proof.Machine.execPopc d a s
  | .clz d a => Sys2Proof.Machine.execClz d a s
  | .ctz d a => Sys2Proof.Machine.execCtz d a s
  | .brev d a => Sys2Proof.Machine.execBrev d a s
  | .bswap d a => Sys2Proof.Machine.execBswap d a s
  | .bext d a b => Sys2Proof.Machine.execBext d a b s
  | .bdep d a b => Sys2Proof.Machine.execBdep d a b s
  | .sextS8 d a => Sys2Proof.Machine.execSextS8 d a s
  | .sextS16 d a => Sys2Proof.Machine.execSextS16 d a s
  | .sextS32 d a => Sys2Proof.Machine.execSextS32 d a s
  | .zextN8 d a => Sys2Proof.Machine.execZextN8 d a s
  | .zextN16 d a => Sys2Proof.Machine.execZextN16 d a s
  | .zextN32 d a => Sys2Proof.Machine.execZextN32 d a s
  | .padd d a b w => Sys2Proof.Machine.execPadd d a b w s
  | .psub d a b w => Sys2Proof.Machine.execPsub d a b w s
  | .paddsS d a b w => Sys2Proof.Machine.execPaddsS d a b w s
  | .paddsN d a b w => Sys2Proof.Machine.execPaddsN d a b w s
  | .psubsS d a b w => Sys2Proof.Machine.execPsubsS d a b w s
  | .psubsN d a b w => Sys2Proof.Machine.execPsubsN d a b w s
  | .pmin d a b w => Sys2Proof.Machine.execPmin d a b w s
  | .pmax d a b w => Sys2Proof.Machine.execPmax d a b w s
  | .pminn d a b w => Sys2Proof.Machine.execPminn d a b w s
  | .pmaxn d a b w => Sys2Proof.Machine.execPmaxn d a b w s
  | .pshl d a b w => Sys2Proof.Machine.execPshl d a b w s
  | .pshr d a b w => Sys2Proof.Machine.execPshr d a b w s
  | .psar d a b w => Sys2Proof.Machine.execPsar d a b w s
  | .pshlV d a b w => Sys2Proof.Machine.execPshlV d a b w s
  | .pshrV d a b w => Sys2Proof.Machine.execPshrV d a b w s
  | .psarV d a b w => Sys2Proof.Machine.execPsarV d a b w s
  | .pcmp d a b c w => Sys2Proof.Machine.execPcmp d a b c w s
  | .mov d a => Sys2Proof.Machine.execMov d a s
  | .pmovToG d => Sys2Proof.Machine.execPmovToG d s
  | .pmovToPw a => Sys2Proof.Machine.execPmovToPw a s
  | .sel d a b n k => Sys2Proof.Machine.execSel d a b n k s
  | .addi d a imm => Sys2Proof.Machine.execAddi d a imm s
  | .andi d a imm => Sys2Proof.Machine.execAndi d a imm s
  | .ori d a imm => Sys2Proof.Machine.execOri d a imm s
  | .xori d a imm => Sys2Proof.Machine.execXori d a imm s
  | .shli d a n => Sys2Proof.Machine.execShli d a n s
  | .shri d a n => Sys2Proof.Machine.execShri d a n s
  | .sari d a n => Sys2Proof.Machine.execSari d a n s
  | .rori d a n => Sys2Proof.Machine.execRori d a n s
  | .bfx d a p l => Sys2Proof.Machine.execBfx d a p l s
  | .bfi d a p l => Sys2Proof.Machine.execBfi d a p l s
  | .lim d imm => Sys2Proof.Machine.execLim d imm s
  | .limH d k h => Sys2Proof.Machine.execLimH d k h s
  | .addpc d imm => Sys2Proof.Machine.execAddpc d imm s
  | .cmp p c a b st0 => Sys2Proof.Machine.execCmp p c a b st0 s
  | .cmpi p c a imm => Sys2Proof.Machine.execCmpi p c a imm s
  | .plog p c x y => Sys2Proof.Machine.execPlog p c x y s
  | .b n p o => Sys2Proof.Machine.execB n p o s
  | .j o => Sys2Proof.Machine.execJ o s
  | .call o => Sys2Proof.Machine.execCall o s
  | .callr a => Sys2Proof.Machine.execCallr a s
  | .jr a => Sys2Proof.Machine.execJr a s
  | .ret => Sys2Proof.Machine.execRet s
  | .objset a b => Sys2Proof.Machine.execObjset a b s
  | .mfs d st0 => Sys2Proof.Machine.execMfs d st0 s
  | .mts d st0 => Sys2Proof.Machine.execMts d st0 s
  | .mtsPortmap d => Sys2Proof.Machine.execMtsPortmap d s
  | .mtsVl d => Sys2Proof.Machine.execMtsVl d s
  | .mtsFpstat d => Sys2Proof.Machine.execMtsFpstat d s
  | .mtsRndseed d => Sys2Proof.Machine.execMtsRndseed d s
  | .mtsCarve d => Sys2Proof.Machine.execMtsCarve d s
  | .mtsLandn d => Sys2Proof.Machine.execMtsLandn d s
  | .trap c => Sys2Proof.Machine.execTrap c s
  | .svc c => Sys2Proof.Machine.execSvc c s
  | .svcSetCarve => Sys2Proof.Machine.execSvcSetCarve s
  | .svcSetVgroup => Sys2Proof.Machine.execSvcSetVgroup s
  | .svcSetLandn => Sys2Proof.Machine.execSvcSetLandn s
  | .svcSetAccmap => Sys2Proof.Machine.execSvcSetAccmap s
  | .svcLaunch => Sys2Proof.Machine.execSvcLaunch s
  | .eret d => Sys2Proof.Machine.execEret d s
  | .yield => Sys2Proof.Machine.execYield s
  | .park => Sys2Proof.Machine.execPark s
  | .hint h imm n => Sys2Proof.Machine.execHint h imm n s
  | .ldD t b g o => Sys2Proof.Machine.execLdD t b g o s
  | .stD t b g o => Sys2Proof.Machine.execStD t b g o s
  | .ld t b imm y => Sys2Proof.Machine.execLd t b imm y s
  | .ldx t b x y => Sys2Proof.Machine.execLdx t b x y s
  | .st t b imm y => Sys2Proof.Machine.execSt t b imm y s
  | .stx t b x y => Sys2Proof.Machine.execStx t b x y s
  | .ldm d a n => Sys2Proof.Machine.execLdm d a n s
  | .stm d a n => Sys2Proof.Machine.execStm d a n s
  | .ldfe t b st0 o => Sys2Proof.Machine.execLdfe t b st0 o s
  | .ldff t b st0 o => Sys2Proof.Machine.execLdff t b st0 o s
  | .stfe t b st0 o => Sys2Proof.Machine.execStfe t b st0 o s
  | .stf t b st0 o => Sys2Proof.Machine.execStf t b st0 o s
  | .sete b st0 o => Sys2Proof.Machine.execSete b st0 o s
  | .feq t b st0 o => Sys2Proof.Machine.execFeq t b st0 o s
  | .ldfeStrand t b => Sys2Proof.Machine.execLdfeStrand t b s
  | .ldffStrand t b => Sys2Proof.Machine.execLdffStrand t b s
  | .seteStrand t => Sys2Proof.Machine.execSeteStrand t s
  | .feqStrand t b => Sys2Proof.Machine.execFeqStrand t b s
  | .fence st0 => Sys2Proof.Machine.execFence st0 s
  | .discard b st0 o => Sys2Proof.Machine.execDiscard b st0 o s
  | .flush b st0 o => Sys2Proof.Machine.execFlush b st0 o s
  | .inval b st0 o => Sys2Proof.Machine.execInval b st0 o s
  | .pref b st0 o => Sys2Proof.Machine.execPref b st0 o s
  | .tlbinvPage b st0 => Sys2Proof.Machine.execTlbinvPage b st0 s
  | .tlbinvRegion st0 => Sys2Proof.Machine.execTlbinvRegion st0 s
  | .hop b o => Sys2Proof.Machine.execHop b o s
  | .sendr t b st0 r => Sys2Proof.Machine.execSendr t b st0 r s
  | .arrive t b st0 o => Sys2Proof.Machine.execArrive t b st0 o s
  | .arriveRelaxed t b st0 o => Sys2Proof.Machine.execArriveRelaxed t b st0 o s
  | .hwait t b st0 o => Sys2Proof.Machine.execHwait t b st0 o s
  | .htest t b st0 o => Sys2Proof.Machine.execHtest t b st0 o s
  | .pubf a => Sys2Proof.Machine.execPubf a s
  | .sync a => Sys2Proof.Machine.execSync a s
  | .done => Sys2Proof.Machine.execDone s
  | .tcbnew d a => Sys2Proof.Machine.execTcbnew d a s
  | .tcbsucc a b => Sys2Proof.Machine.execTcbsucc a b s
  | .tcbpred a b => Sys2Proof.Machine.execTcbpred a b s
  | .spawn d imm => Sys2Proof.Machine.execSpawn d imm s
  | .waitt a => Sys2Proof.Machine.execWaitt a s
  | .waita a => Sys2Proof.Machine.execWaita a s
  | .tfirst d => Sys2Proof.Machine.execTfirst d s
  | .tclr a => Sys2Proof.Machine.execTclr a s
  | .cwait a b => Sys2Proof.Machine.execCwait a b s
  | .cread d a => Sys2Proof.Machine.execCread d a s
  | .rdpace d => Sys2Proof.Machine.execRdpace d s
  | .vclaim q g => Sys2Proof.Machine.execVclaim q g s
  | .vfree => Sys2Proof.Machine.execVfree s
  | .repf st0 l g => Sys2Proof.Machine.execRepf st0 l g s
  | .vwait => Sys2Proof.Machine.execVwait s
  | .vld d a g w => Sys2Proof.Machine.execVld d a g w s
  | .vlds d a b g w => Sys2Proof.Machine.execVlds d a b g w s
  | .vldx d a b g w => Sys2Proof.Machine.execVldx d a b g w s
  | .vldPostinc d a g w => Sys2Proof.Machine.execVldPostinc d a g w s
  | .vst d a g w => Sys2Proof.Machine.execVst d a g w s
  | .vsts d a b g w => Sys2Proof.Machine.execVsts d a b g w s
  | .vstx d a b g w => Sys2Proof.Machine.execVstx d a b g w s
  | .vstPostinc d a g w => Sys2Proof.Machine.execVstPostinc d a g w s
  | .vbcast d b g => Sys2Proof.Machine.execVbcast d b g s
  | .vmovg d a l => Sys2Proof.Machine.execVmovg d a l s
  | .vmovl d b l => Sys2Proof.Machine.execVmovl d b l s
  | .viota d g => Sys2Proof.Machine.execViota d g s
  | .vfadd d a b g => Sys2Proof.Machine.execVfadd d a b g s
  | .vfsub d a b g => Sys2Proof.Machine.execVfsub d a b g s
  | .vfmul d a b g => Sys2Proof.Machine.execVfmul d a b g s
  | .vfma d a b g => Sys2Proof.Machine.execVfma d a b g s
  | .vfnma d a b g => Sys2Proof.Machine.execVfnma d a b g s
  | .vfmin d a b g => Sys2Proof.Machine.execVfmin d a b g s
  | .vfmax d a b g => Sys2Proof.Machine.execVfmax d a b g s
  | .vfabs d a g => Sys2Proof.Machine.execVfabs d a g s
  | .vfneg d a g => Sys2Proof.Machine.execVfneg d a g s
  | .vfcmp d a b g c => Sys2Proof.Machine.execVfcmp d a b g c s
  | .vadd d a b g => Sys2Proof.Machine.execVadd d a b g s
  | .vsub d a b g => Sys2Proof.Machine.execVsub d a b g s
  | .vmul d a b g => Sys2Proof.Machine.execVmul d a b g s
  | .vmulh d a b g => Sys2Proof.Machine.execVmulh d a b g s
  | .vmulhn d a b g => Sys2Proof.Machine.execVmulhn d a b g s
  | .vand d a b g => Sys2Proof.Machine.execVand d a b g s
  | .vor d a b g => Sys2Proof.Machine.execVor d a b g s
  | .vxor d a b g => Sys2Proof.Machine.execVxor d a b g s
  | .vandn d a b g => Sys2Proof.Machine.execVandn d a b g s
  | .vshl d a b g => Sys2Proof.Machine.execVshl d a b g s
  | .vshr d a b g => Sys2Proof.Machine.execVshr d a b g s
  | .vsar d a b g => Sys2Proof.Machine.execVsar d a b g s
  | .vrol d a b g => Sys2Proof.Machine.execVrol d a b g s
  | .vmin d a b g => Sys2Proof.Machine.execVmin d a b g s
  | .vmax d a b g => Sys2Proof.Machine.execVmax d a b g s
  | .vminn d a b g => Sys2Proof.Machine.execVminn d a b g s
  | .vmaxn d a b g => Sys2Proof.Machine.execVmaxn d a b g s
  | .vsel d a b g => Sys2Proof.Machine.execVsel d a b g s
  | .vpadd d a b g w => Sys2Proof.Machine.execVpadd d a b g w s
  | .vpshl d a b g w => Sys2Proof.Machine.execVpshl d a b g w s
  | .vpshr d a b g w => Sys2Proof.Machine.execVpshr d a b g w s
  | .vcmp d a b g c => Sys2Proof.Machine.execVcmp d a b g c s
  | .vcvt d a x t g r st0 => Sys2Proof.Machine.execVcvt d a x t g r st0 s
  | .vexp2 d a g => Sys2Proof.Machine.execVexp2 d a g s
  | .vlog2 d a g => Sys2Proof.Machine.execVlog2 d a g s
  | .vrcp d a g => Sys2Proof.Machine.execVrcp d a g s
  | .vrsq d a g => Sys2Proof.Machine.execVrsq d a g s
  | .vsqrt d a g => Sys2Proof.Machine.execVsqrt d a g s
  | .vtanh d a g => Sys2Proof.Machine.execVtanh d a g s
  | .vredaddF32 d a g => Sys2Proof.Machine.execVredaddF32 d a g s
  | .vredaddS32 d a g => Sys2Proof.Machine.execVredaddS32 d a g s
  | .vredminF32 d a g => Sys2Proof.Machine.execVredminF32 d a g s
  | .vredminS32 d a g => Sys2Proof.Machine.execVredminS32 d a g s
  | .vredminN32 d a g => Sys2Proof.Machine.execVredminN32 d a g s
  | .vredmaxF32 d a g => Sys2Proof.Machine.execVredmaxF32 d a g s
  | .vredmaxS32 d a g => Sys2Proof.Machine.execVredmaxS32 d a g s
  | .vredmaxN32 d a g => Sys2Proof.Machine.execVredmaxN32 d a g s
  | .vperm d a b g => Sys2Proof.Machine.execVperm d a b g s
  | .vslide d a b g => Sys2Proof.Machine.execVslide d a b g s
  | .vcompress d a g => Sys2Proof.Machine.execVcompress d a g s
  | .vexpand d a g => Sys2Proof.Machine.execVexpand d a g s
  | .aadd a b c scope ord w => Sys2Proof.Machine.execAadd a b c scope ord w s
  | .afadd a b c scope ord w => Sys2Proof.Machine.execAfadd a b c scope ord w s
  | .amin a b c scope ord w => Sys2Proof.Machine.execAmin a b c scope ord w s
  | .amax a b c scope ord w => Sys2Proof.Machine.execAmax a b c scope ord w s
  | .aminn a b c scope ord w => Sys2Proof.Machine.execAminn a b c scope ord w s
  | .amaxn a b c scope ord w => Sys2Proof.Machine.execAmaxn a b c scope ord w s
  | .aand a b c scope ord w => Sys2Proof.Machine.execAand a b c scope ord w s
  | .aor a b c scope ord w => Sys2Proof.Machine.execAor a b c scope ord w s
  | .axor a b c scope ord w => Sys2Proof.Machine.execAxor a b c scope ord w s
  | .aswp a b c scope ord w => Sys2Proof.Machine.execAswp a b c scope ord w s
  | .acas a b c scope ord w => Sys2Proof.Machine.execAcas a b c scope ord w s
  | .cadd a b c scope ord w => Sys2Proof.Machine.execCadd a b c scope ord w s
  | .fetch a b c tag scope cnt => Sys2Proof.Machine.execFetch a b c tag scope cnt s
  | .push a b c tag scope cnt => Sys2Proof.Machine.execPush a b c tag scope cnt s
  | .pushX obj a b c tag scope cnt => Sys2Proof.Machine.execPushX obj a b c tag scope cnt s
  | .pushm obj a b c tag scope cnt => Sys2Proof.Machine.execPushm obj a b c tag scope cnt s
  | .storeb a b c tag scope cnt => Sys2Proof.Machine.execStoreb a b c tag scope cnt s
  | .gather obj a b c tag scope t cnt => Sys2Proof.Machine.execGather obj a b c tag scope t cnt s
  | .scatter obj a b c tag scope t add cnt => Sys2Proof.Machine.execScatter obj a b c tag scope t add cnt s
  | .fabred obj a b c tag scope cnt => Sys2Proof.Machine.execFabred obj a b c tag scope cnt s
  | .donate obj a b tag scope cnt => Sys2Proof.Machine.execDonate obj a b tag scope cnt s
  | .mclaimClaim a => Sys2Proof.Machine.execMclaimClaim a s
  | .mclaimRelease a => Sys2Proof.Machine.execMclaimRelease a s
  | .ldw obj a ty => Sys2Proof.Machine.execLdw obj a ty s
  | .swpw => Sys2Proof.Machine.execSwpw s
  | .mma obj a b c ty z => Sys2Proof.Machine.execMma obj a b c ty z s
  | .mchain b c ty z => Sys2Proof.Machine.execMchain b c ty z s
  | .munchain a => Sys2Proof.Machine.execMunchain a s
  | .mova v b c => Sys2Proof.Machine.execMova v b c s
  | .msta obj a b c => Sys2Proof.Machine.execMsta obj a b c s
  | .mlda obj a b c => Sys2Proof.Machine.execMlda obj a b c s
  | .mzero c => Sys2Proof.Machine.execMzero c s
  | .msel a b c => Sys2Proof.Machine.execMsel a b c s
  | .mscale a b ty => Sys2Proof.Machine.execMscale a b ty s
  | .mstat a op => Sys2Proof.Machine.execMstat a op s
  | .divideComplete k => Sys2Proof.Machine.execDivideComplete k s
  | .replyArrival id => Sys2Proof.Machine.execReplyArrival id s
  | .remoteStoreAck id => Sys2Proof.Machine.execRemoteStoreAck id s
  | .homeAccess id => Sys2Proof.Machine.execHomeAccess id s
  | .nackReceived id => Sys2Proof.Machine.execNackReceived id s
  | .retryParkExpiry k => Sys2Proof.Machine.execRetryParkExpiry k s
  | .parkTimeout k => Sys2Proof.Machine.execParkTimeout k s
  | .scopeMissReturn id => Sys2Proof.Machine.execScopeMissReturn id s
  | .omegaCombine id0 id1 => Sys2Proof.Machine.execOmegaCombine id0 id1 s
  | .combinedReplySplit id => Sys2Proof.Machine.execCombinedReplySplit id s
  | .bankMissFill line => Sys2Proof.Machine.execBankMissFill line s
  | .conflictQueueServe line => Sys2Proof.Machine.execConflictQueueServe line s
  | .hotWindowEnd bank => Sys2Proof.Machine.execHotWindowEnd bank s
  | .hotReplicaAck line => Sys2Proof.Machine.execHotReplicaAck line s
  | .redirectInstall tile line => Sys2Proof.Machine.execRedirectInstall tile line s
  | .hotLineRecall line => Sys2Proof.Machine.execHotLineRecall line s
  | .recallWithdraw line who => Sys2Proof.Machine.execRecallWithdraw line who s
  | .recallComplete line => Sys2Proof.Machine.execRecallComplete line s
  | .helperEvictReport line slice => Sys2Proof.Machine.execHelperEvictReport line slice s
  | .redirectDrain id => Sys2Proof.Machine.execRedirectDrain id s
  | .bridgeFlitReceive dir => Sys2Proof.Machine.execBridgeFlitReceive dir s
  | .bridgeAckReceive dir n => Sys2Proof.Machine.execBridgeAckReceive dir n s
  | .bridgeRetrain dir => Sys2Proof.Machine.execBridgeRetrain dir s
  | .bridgeRetrainDone dir => Sys2Proof.Machine.execBridgeRetrainDone dir s
  | .bridgeFailTimeout dir => Sys2Proof.Machine.execBridgeFailTimeout dir s
  | .relayFrameReceive port frame pkts => Sys2Proof.Machine.execRelayFrameReceive port frame pkts s
  | .relayPortTimeout port => Sys2Proof.Machine.execRelayPortTimeout port s
  | .sendrDelivery id => Sys2Proof.Machine.execSendrDelivery id s
  | .hubAllocate core => Sys2Proof.Machine.execHubAllocate core s
  | .stealSweep core => Sys2Proof.Machine.execStealSweep core s
  | .stealRestExpiry core => Sys2Proof.Machine.execStealRestExpiry core s
  | .stealHubAck core => Sys2Proof.Machine.execStealHubAck core s
  | .stealArrival core => Sys2Proof.Machine.execStealArrival core s
  | .tcbDecrement key requester => Sys2Proof.Machine.execTcbDecrement key requester s
  | .taskRetire key requester => Sys2Proof.Machine.execTaskRetire key requester s
  | .dequeRefillArrival k => Sys2Proof.Machine.execDequeRefillArrival k s
  | .migrationArrival id => Sys2Proof.Machine.execMigrationArrival id s
  | .landingQueueTake core => Sys2Proof.Machine.execLandingQueueTake core s
  | .landingAck id => Sys2Proof.Machine.execLandingAck id s
  | .bounceReturn id => Sys2Proof.Machine.execBounceReturn id s
  | .landnRaiseComplete core => Sys2Proof.Machine.execLandnRaiseComplete core s
  | .vectorStep core => Sys2Proof.Machine.execVectorStep core s
  | .vectorPendingWrite core => Sys2Proof.Machine.execVectorPendingWrite core s
  | .vectorElementReply id => Sys2Proof.Machine.execVectorElementReply id s
  | .matrixArraySelect tile => Sys2Proof.Machine.execMatrixArraySelect tile s
  | .matrixOpStart core => Sys2Proof.Machine.execMatrixOpStart core s
  | .matrixOpRetire core => Sys2Proof.Machine.execMatrixOpRetire core s
  | .accAccessAttempt core => Sys2Proof.Machine.execAccAccessAttempt core s
  | .engineComplete id => Sys2Proof.Machine.execEngineComplete id s
  | .strideSpillReturn tile => Sys2Proof.Machine.execStrideSpillReturn tile s
  | .pushmMemberAck id member => Sys2Proof.Machine.execPushmMemberAck id member s
  | .pushXTimeout id => Sys2Proof.Machine.execPushXTimeout id s
  | .fabredRankTimeout id rank => Sys2Proof.Machine.execFabredRankTimeout id rank s
  | .donateAnswer id status => Sys2Proof.Machine.execDonateAnswer id status s
  | .donateTimeout id => Sys2Proof.Machine.execDonateTimeout id s
  | .donationReceive srcChip id tregion tobj image => Sys2Proof.Machine.execDonationReceive srcChip id tregion tobj image s
  | .donationDrain region obj => Sys2Proof.Machine.execDonationDrain region obj s
  | .handlerOwedStart cluster => Sys2Proof.Machine.execHandlerOwedStart cluster s
  | .eventDelivery region code w1 w2 => Sys2Proof.Machine.execEventDelivery region code w1 w2 s
  | .preemptDecision cluster => Sys2Proof.Machine.execPreemptDecision cluster s
  | .preemptRequestArrival k => Sys2Proof.Machine.execPreemptRequestArrival k s
  | .preemptSaveComplete k => Sys2Proof.Machine.execPreemptSaveComplete k s
  | .threadRestore image => Sys2Proof.Machine.execThreadRestore image s
  | .threadStale k => Sys2Proof.Machine.execThreadStale k s
  | .translationWalk id => Sys2Proof.Machine.execTranslationWalk id s
  | .walkComplete id => Sys2Proof.Machine.execWalkComplete id s
  | .levelChange tile => Sys2Proof.Machine.execLevelChange tile s
  | .clockRestart tile => Sys2Proof.Machine.execClockRestart tile s
  | .shutterUpdate core count => Sys2Proof.Machine.execShutterUpdate core count s
  | .billingSend => Sys2Proof.Machine.execBillingSend s
  | .billingReceive region nj => Sys2Proof.Machine.execBillingReceive region nj s
  | .pacerEpochReceive m => Sys2Proof.Machine.execPacerEpochReceive m s
  | .pacerCeilingApply => Sys2Proof.Machine.execPacerCeilingApply s
  | .pacerAnnounce level bite => Sys2Proof.Machine.execPacerAnnounce level bite s
  | .leaderAnnounceHandle chip level bite hard => Sys2Proof.Machine.execLeaderAnnounceHandle chip level bite hard s
  | .announceRejected => Sys2Proof.Machine.execAnnounceRejected s
  | .hardDrop level => Sys2Proof.Machine.execHardDrop level s
  | .leaderRaise lead => Sys2Proof.Machine.execLeaderRaise lead s
  | .pacerHeartbeat => Sys2Proof.Machine.execPacerHeartbeat s
  | .proposalChange level => Sys2Proof.Machine.execProposalChange level s
  | .memberSilence chip => Sys2Proof.Machine.execMemberSilence chip s
  | .leaderSilence => Sys2Proof.Machine.execLeaderSilence s
  | .slackWindowEnd => Sys2Proof.Machine.execSlackWindowEnd s
  | .launch h desc flags capBase capLen => Sys2Proof.Machine.execLaunch h desc flags capBase capLen s
  | .memrd h addr len => Sys2Proof.Machine.execMemrd h addr len s
  | .memwr h addr data => Sys2Proof.Machine.execMemwr h addr data s
  | .exrd h exno off len => Sys2Proof.Machine.execExrd h exno off len s
  | .exwr h exno off data => Sys2Proof.Machine.execExwr h exno off data s
  | .regctlHalt h region => Sys2Proof.Machine.execRegctlHalt h region s
  | .regctlResume h region => Sys2Proof.Machine.execRegctlResume h region s
  | .regctlEnd h region => Sys2Proof.Machine.execRegctlEnd h region s
  | .setobj h region index image => Sys2Proof.Machine.execSetobj h region index image s
  | .logrd h => Sys2Proof.Machine.execLogrd h s
  | .energyrd h region => Sys2Proof.Machine.execEnergyrd h region s
  | .hkrd h off => Sys2Proof.Machine.execHkrd h off s
  | .semtake h => Sys2Proof.Machine.execSemtake h s
  | .semgive h => Sys2Proof.Machine.execSemgive h s
  | .keyloadClear h slot => Sys2Proof.Machine.execKeyloadClear h slot s
  | .keyloadLoad h slot owner wrapped => Sys2Proof.Machine.execKeyloadLoad h slot owner wrapped s
  | .fwupd h chunk => Sys2Proof.Machine.execFwupd h chunk s
  | .reset h => Sys2Proof.Machine.execReset h s
  | .setchip h chip => Sys2Proof.Machine.execSetchip h chip s
  | .groupJoin h group => Sys2Proof.Machine.execGroupJoin h group s
  | .groupLeave h group => Sys2Proof.Machine.execGroupLeave h group s
  | .route h chip mask => Sys2Proof.Machine.execRoute h chip mask s
  | .wqcfg h queue addr port => Sys2Proof.Machine.execWqcfg h queue addr port s
  | .caprd h region off len => Sys2Proof.Machine.execCaprd h region off len s
  | .attest h nonce => Sys2Proof.Machine.execAttest h nonce s
  | .controlBadcmd h code => Sys2Proof.Machine.execControlBadcmd h code s
  | .foreignFrame => Sys2Proof.Machine.execForeignFrame s
  | .ctlsemTimeout => Sys2Proof.Machine.execCtlsemTimeout s
  | .wicketEgress queue => Sys2Proof.Machine.execWicketEgress queue s
  | .replayHeldAccess id => Sys2Proof.Machine.execReplayHeldAccess id s
  | .powerOnReset => Sys2Proof.Machine.execPowerOnReset s
  | .discoveryFloodReceive core round => Sys2Proof.Machine.execDiscoveryFloodReceive core round s
  | .discoveryAnswer core round => Sys2Proof.Machine.execDiscoveryAnswer core round s
  | .discoveryTimeout => Sys2Proof.Machine.execDiscoveryTimeout s
  | .relayLinkRetrain port => Sys2Proof.Machine.execRelayLinkRetrain port s
  | .relayLinkRetrainDone port => Sys2Proof.Machine.execRelayLinkRetrainDone port s
  | .lineEviction level line => Sys2Proof.Machine.execLineEviction level line s
  | .patrolScrub place => Sys2Proof.Machine.execPatrolScrub place s
  | .replayExternalInput region input => Sys2Proof.Machine.execReplayExternalInput region input s

end Sys2Proof.Machine
end

