-- ==== Sys2Proof/Machine/Issue.lean ====
section
/-! DEFINITION. The two kinds of move that a step makes: the issue cycle of a core and an event of the agenda. -/

namespace Sys2Proof.Machine

/-- The issue of the instruction at the PC of the thread in a slot: a fetch fault, ILLEGAL, or the instruction (R63). -/
def fetchAndIssue (k : Nat) (s : State) : Out :=
  match s.fetch k with
  | .error t => .next t
  | .ok (w, x, t) =>
    match decode w x with
    | .ok i => exec i ((t.charge (coreWork (coreOf k)) (t.slot k).region (Config.costInstr w)).correctRegs k i)
    | .error _ => .next (illegalWords w x t)

/-- The issue of the thread in a slot (R294): the oldest fault of earlier work comes before the instruction. An element fault gives way to a
remote-store error or a failed mark that is older and that the instruction takes. -/
def issueThread (k : Nat) (s : State) : Out :=
  match s.dueFault k with
  | none => fetchAndIssue k s
  | some f =>
    match fetchAndIssue k s with
    | .next t => if t.stalled || s.tookBefore t k f.age then .next t else .next (s.takeFault k f)
    | _ => .next (s.takeFault k f)

/-- A step made as a whole: the failed walks and the packets that it waited for are forgotten. -/
def State.finish (s : State) : State :=
  { s with work := none, visits := s.visits.filter (fun v => (s.work.map Work.who) != some v.who),
           walks := s.walks.filter fun w => !(w.unit && w.stale && w.failed.isSome) }

/-- A step that is put off: nothing of it is done but what it asks for. -/
def State.defer (s t : State) : State := { s.stallFor t with work := none }

/-- What the thread in a slot waits for, as its instruction has been put off. -/
def State.awaits (s : State) (k : Nat) (asks : List Ask) : State :=
  let walks := asks.filterMap fun a => match a with | .walk i => some i | _ => none
  let lines := asks.filterMap fun a => match a with | .line l _ _ => some l | _ => none
  let visits := (s.visits.filter fun v => v.who == .thread k && !v.done).map (·.id)
  s.modSlot k fun sl => { sl with st := .waiting, wait := .reissue (.asked walks lines visits) }

/-- The issue of the thread in a slot made as a whole, or put off until what it finds away has come (R303, R259, R257). -/
def settleThread (k : Nat) (s : State) : Out → Out
  | .next t => if t.stalled then .next ((s.defer t).awaits k t.wants) else .next t.finish
  | o => o

/-- The step of the thread in a slot. -/
def stepThread (k : Nat) (s : State) : Out :=
  let s : State := { s with work := some (threadWork k) }
  settleThread k s (issueThread k s)

/-- What falls due at the cycle that a tile comes to stand at, before anything issues there. -/
def State.enterLap (s : State) (core : Nat) : State :=
  let t : State := (s.beginCycle core).lap (tileOf core)
  { t with tick := t.tick + 1 }

/-- An issue cycle of a core (R45), behind what falls due where its tile comes to a multiple of 64. -/
def stepCore (core : Nat) (s : State) : Out :=
  if s.atNewLap (tileOf core) then .next (s.enterLap core)
  else
    let s := s.beginCycle core
    match s.issuer core with
    | none => endCycle core false (.next s)
    | some p => endCycle core true (stepThread (64 * core + p) (s.prepare (64 * core + p)))

/-- An event of the agenda; one that cannot happen any more is dropped, and one that finds something away comes again (R303, R259, R257). -/
def stepEvent (i : Nat) (s : State) : Out :=
  match s.agenda[i]? with
  | none => .next s.elapse
  | some d =>
    let u : State := { s.takeDue i with work := some (s.workOf d.ev) }
    match runEvent d.ev u with
    | .next t =>
      if t.stalled then
        let v := u.defer t
        .next ({ v with agenda := v.agenda ++ [{ d with at_ := .any }] } : State).elapse
      else .next t.finish.elapse
    | .fault .notEnabled => .next u.finish.elapse
    | .fault f => .fault f
    | .refused r => .refused r

/-- `s` with an instruction's words where the boot thread fetches next (R345). -/
def State.placeWord (s : State) (nbits w : Nat) : State :=
  let s := s.placeBoot
  let s := s.modTile 0 fun t => { t with cycle := 1, fresh := false }
  let l : Line := { data := BitVec.ofNat 1024 (w % 2 ^ nbits), fe := BitVec.allOnes 16 }
  { s with host := { s.host with stage := 3 }, mem := writeBytes s.mem 0x1000 (leBytes 8 (w % 2 ^ nbits)), tlb := [bootTlb], agenda := [],
           cache := { s.cache with ic := [(l1Key 0 32, l)] } }

end Sys2Proof.Machine
end

