-- ==== Sys2Proof/Machine/Step.lean ====
section
/-! DEFINITION. One step of the machine: an issue cycle of a core or an event of the agenda. -/

namespace Sys2Proof.Machine

/-- One step of the machine. -/
def step (s : State) : Host.Outcome State Fault Refusal :=
  match s.nextMove with
  | .idle => .next s.rest
  | .issue core => stepCore core s
  | .event i => stepEvent i s

/-- `s` with an instruction's words where the boot thread fetches next: the load of the boot code at global 0x1000 (R345). -/
def State.withFetchWord (s : State) (nbits w : Nat) : State :=
  s.placeWord nbits w

end Sys2Proof.Machine
end

