-- ==== Sys2Proof/Safety.lean ====
section
/-! DEFINITION. The terms in which claims about the machine are stated: when an instruction is admitted at its issue, the results
that the chapters give, and what a safe state is. -/

namespace Sys2Proof.Machine

/-! ## Issue -/

/-- The issue checks that come before an instruction's own (R63, R164, R56, R307): the slot of `cur` holds a ready thread, a
repeat body may hold the instruction, its registers lie in the window, none waits for a pending write, the queues of bound
registers have the words and the room, and no register it reads is uncorrectable. -/
def admits (i : Instr) (a b d : Option Nat) (s : State) : Bool :=
  s.me.st == .ready && !(s.capturing && !bodyAllowed i) && !(named i).any (s.me.size ≤ ·) && (s.pendingOf s.cur (named i) == []) &&
    s.portsOk s.myCore (portNeeds s.me.portmap a b d) && (s.deadReg? i a b).isNone

/-- The value of the first data source: the register, or the first word of the queue bound to it (R56). -/
def srcA (a : Option Nat) (s : State) : Word := (takeSrc a s).1

/-- The value of the second data source, read after the first is dequeued (R56). -/
def srcB (a b : Option Nat) (s : State) : Word := (takeSrc b (takeSrc a s).2).1

/-- The state in which an instruction of the pipeline has read its sources, written its destination and gone on (R59, R100). -/
def retired (i : Instr) (a b : Option Nat) (d : Nat) (v : Word) (s : State) : State :=
  (putDst d v (takeBoth a b s)).advance s.cur i.len

/-! ## Results of the scalar instructions (chapter 09) -/

/-- The amount of a shift: bits [7:0] (R85). -/
def amount (y : Word) : Nat := y.toNat % 256

/-- `quotient` and `remainder` of R102: rounded towards zero; all ones and the dividend for a divisor of 0. -/
def divRule (signed wantRem : Bool) (x y v : Word) : Prop :=
  if y = 0 then v = if wantRem then x else BitVec.allOnes 64
  else if signed then
    v = if wantRem then wrap64 (x.toInt.tmod y.toInt) else wrap64 (x.toInt.tdiv y.toInt)
  else v.toNat = if wantRem then x.toNat % y.toNat else x.toNat / y.toNat

/-- What the integer instructions of major 0x01, `MOV`, `SEL` and the immediate and constant forms write, by their rules (R102
to R104, R106, R109, R110): the instruction, its data sources and destination, and the relation between the state at issue, the
sources and the result. -/
inductive IntRule : Instr → Option Nat → Option Nat → Nat → (State → Word → Word → Word → Prop) → Prop
  | add (d a b : Nat) : IntRule (.add d a b) (some a) (some b) d fun _ x y v => v = wrap64 (x.toInt + y.toInt)
  | sub (d a b : Nat) : IntRule (.sub d a b) (some a) (some b) d fun _ x y v => v = wrap64 (x.toInt - y.toInt)
  | mul (d a b : Nat) : IntRule (.mul d a b) (some a) (some b) d fun _ x y v => v = wrap64 (x.toInt * y.toInt)
  | mulh (d a b : Nat) : IntRule (.mulh d a b) (some a) (some b) d fun _ x y v =>
      v = (BitVec.ofInt 128 (x.toInt * y.toInt)).extractLsb' 64 64
  | mulhn (d a b : Nat) : IntRule (.mulhn d a b) (some a) (some b) d fun _ x y v =>
      v = (BitVec.ofNat 128 (x.toNat * y.toNat)).extractLsb' 64 64
  | min (d a b : Nat) : IntRule (.min d a b) (some a) (some b) d fun _ x y v => v.toInt = Min.min x.toInt y.toInt
  | max (d a b : Nat) : IntRule (.max d a b) (some a) (some b) d fun _ x y v => v.toInt = Max.max x.toInt y.toInt
  | minn (d a b : Nat) : IntRule (.minn d a b) (some a) (some b) d fun _ x y v => v.toNat = Min.min x.toNat y.toNat
  | maxn (d a b : Nat) : IntRule (.maxn d a b) (some a) (some b) d fun _ x y v => v.toNat = Max.max x.toNat y.toNat
  | abs (d a : Nat) : IntRule (.abs d a) (some a) none d fun _ x _ v => v = wrap64 x.toInt.natAbs
  | and (d a b : Nat) : IntRule (.and d a b) (some a) (some b) d fun _ x y v => v = x &&& y
  | or (d a b : Nat) : IntRule (.or d a b) (some a) (some b) d fun _ x y v => v = x ||| y
  | xor (d a b : Nat) : IntRule (.xor d a b) (some a) (some b) d fun _ x y v => v = x ^^^ y
  | andn (d a b : Nat) : IntRule (.andn d a b) (some a) (some b) d fun _ x y v => v = x &&& ~~~y
  | orn (d a b : Nat) : IntRule (.orn d a b) (some a) (some b) d fun _ x y v => v = x ||| ~~~y
  | xnor (d a b : Nat) : IntRule (.xnor d a b) (some a) (some b) d fun _ x y v => v = ~~~(x ^^^ y)
  | mov (d a : Nat) : IntRule (.mov d a) (some a) none d fun _ x _ v => v = x
  | pmovToG (d : Nat) : IntRule (.pmovToG d) none none d fun s _ _ v => ∀ j < 64, v.getLsbD j = (decide (j < 16) && s.me.p j)
  | sel (d a b n k : Nat) : IntRule (.sel d a b n k) (some a) (some b) d fun s x y v => v = if s.me.p k != (n == 1) then x else y
  | addi (d a i : Nat) : IntRule (.addi d a i) (some a) none d fun _ x _ v => v = wrap64 (x.toInt + sextInt i 12)
  | andi (d a i : Nat) : IntRule (.andi d a i) (some a) none d fun _ x _ v => v = x &&& wrap64 (sextInt i 12)
  | ori (d a i : Nat) : IntRule (.ori d a i) (some a) none d fun _ x _ v => v = x ||| BitVec.ofNat 64 i
  | xori (d a i : Nat) : IntRule (.xori d a i) (some a) none d fun _ x _ v => v = x ^^^ BitVec.ofNat 64 i
  | bfx (d a p l : Nat) : IntRule (.bfx d a p l) (some a) none d fun _ x _ v =>
      ∀ j < 64, v.getLsbD j = (decide (j ≤ l) && x.getLsbD (p + j))
  | bfi (d a p l : Nat) : IntRule (.bfi d a p l) (some a) (some d) d fun _ x y v =>
      ∀ j < 64, v.getLsbD j = if p ≤ j ∧ j ≤ p + l then x.getLsbD (j - p) else y.getLsbD j
  | lim (d i : Nat) : IntRule (.lim d i) none none d fun _ _ _ v => v = wrap64 (sextInt i 19)
  | limH (d k h : Nat) : IntRule (.limH d k h) (some d) none d fun _ x _ v =>
      ∀ j < 64, v.getLsbD j = if 16 * k ≤ j ∧ j < 16 * k + 16 then h.testBit (j - 16 * k) else x.getLsbD j
  | addpc (d i : Nat) : IntRule (.addpc d i) none none d fun s _ _ v => v = wrap64 (s.me.pc.toInt + sextInt i 19)

/-- The positions of the 1 bits of a word, ascending. -/
def onesOf (x : Word) : List Nat := (List.range 64).filter x.getLsbD

/-- What the shifts, rotates, bit and extension instructions write (R85, R104, R105). -/
inductive BitRule : Instr → Option Nat → Option Nat → Nat → (Word → Word → Word → Prop) → Prop
  | shl (d a b : Nat) : BitRule (.shl d a b) (some a) (some b) d fun x y v => v.toNat = x.toNat * 2 ^ amount y % 2 ^ 64
  | shr (d a b : Nat) : BitRule (.shr d a b) (some a) (some b) d fun x y v => v.toNat = x.toNat / 2 ^ amount y
  | sar (d a b : Nat) : BitRule (.sar d a b) (some a) (some b) d fun x y v => v.toInt = x.toInt / 2 ^ amount y
  | rol (d a b : Nat) : BitRule (.rol d a b) (some a) (some b) d fun x y v =>
      ∀ j < 64, v.getLsbD ((j + amount y) % 64) = x.getLsbD j
  | ror (d a b : Nat) : BitRule (.ror d a b) (some a) (some b) d fun x y v =>
      ∀ j < 64, v.getLsbD j = x.getLsbD ((j + amount y) % 64)
  | shli (d a n : Nat) : BitRule (.shli d a n) (some a) none d fun x _ v => v.toNat = x.toNat * 2 ^ n % 2 ^ 64
  | shri (d a n : Nat) : BitRule (.shri d a n) (some a) none d fun x _ v => v.toNat = x.toNat / 2 ^ n
  | sari (d a n : Nat) : BitRule (.sari d a n) (some a) none d fun x _ v => v.toInt = x.toInt / 2 ^ n
  | rori (d a n : Nat) : BitRule (.rori d a n) (some a) none d fun x _ v => ∀ j < 64, v.getLsbD j = x.getLsbD ((j + n) % 64)
  | popc (d a : Nat) : BitRule (.popc d a) (some a) none d fun x _ v => v.toNat = (onesOf x).length
  | clz (d a : Nat) : BitRule (.clz d a) (some a) none d fun x _ v =>
      if x = 0 then v = 64 else v.toNat < 64 ∧ x.getLsbD (63 - v.toNat) = true ∧ ∀ j, 63 - v.toNat < j → x.getLsbD j = false
  | ctz (d a : Nat) : BitRule (.ctz d a) (some a) none d fun x _ v =>
      if x = 0 then v = 64 else x.getLsbD v.toNat = true ∧ ∀ j < v.toNat, x.getLsbD j = false
  | brev (d a : Nat) : BitRule (.brev d a) (some a) none d fun x _ v => ∀ j < 64, v.getLsbD j = x.getLsbD (63 - j)
  | bswap (d a : Nat) : BitRule (.bswap d a) (some a) none d fun x _ v =>
      ∀ j < 8, v.extractLsb' (8 * j) 8 = x.extractLsb' (8 * (7 - j)) 8
  | bext (d a b : Nat) : BitRule (.bext d a b) (some a) (some b) d fun x y v =>
      ∀ j < 64, v.getLsbD j = (((onesOf y)[j]?).map x.getLsbD).getD false
  | bdep (d a b : Nat) : BitRule (.bdep d a b) (some a) (some b) d fun x y v =>
      ∀ j < 64, v.getLsbD j = (y.getLsbD j && x.getLsbD (((onesOf y).filter (· < j)).length))
  | sextS8 (d a : Nat) : BitRule (.sextS8 d a) (some a) none d fun x _ v => v.toInt = sextInt (x.toNat % 2 ^ 8) 8
  | sextS16 (d a : Nat) : BitRule (.sextS16 d a) (some a) none d fun x _ v => v.toInt = sextInt (x.toNat % 2 ^ 16) 16
  | sextS32 (d a : Nat) : BitRule (.sextS32 d a) (some a) none d fun x _ v => v.toInt = sextInt (x.toNat % 2 ^ 32) 32
  | zextN8 (d a : Nat) : BitRule (.zextN8 d a) (some a) none d fun x _ v => v.toNat = x.toNat % 2 ^ 8
  | zextN16 (d a : Nat) : BitRule (.zextN16 d a) (some a) none d fun x _ v => v.toNat = x.toNat % 2 ^ 16
  | zextN32 (d a : Nat) : BitRule (.zextN32 d a) (some a) none d fun x _ v => v.toNat = x.toNat % 2 ^ 32

/-- An integer clamped to a range. -/
def clampInt (lo hi v : Int) : Int := if v < lo then lo else if hi < v then hi else v

/-- The conditions of `PCMP` on sub-elements of n bits: equal, unequal, signed less and not greater, unsigned likewise (R65). -/
def packedCond (c n x y : Nat) : Bool :=
  (c == 0 && x == y) || (c == 1 && x != y) || (c == 2 && decide (sextInt x n < sextInt y n)) ||
    (c == 3 && decide (sextInt x n ≤ sextInt y n)) || (c == 4 && decide (x < y)) || (c == 5 && decide (x ≤ y))

/-- What each sub-element of n bits of a packed result is, from the sub-elements x and y and the low byte k of the second source
(R83, R85, R107, R108). -/
inductive PackedRule : Instr → Nat → Nat → Nat → Nat → (Nat → Nat → Nat → Nat → Int) → Prop
  | padd (d a b w : Nat) : PackedRule (.padd d a b w) d a b w fun _ x y _ => x + y
  | psub (d a b w : Nat) : PackedRule (.psub d a b w) d a b w fun _ x y _ => x - y
  | paddsS (d a b w : Nat) : PackedRule (.paddsS d a b w) d a b w fun n x y _ =>
      clampInt (-2 ^ (n - 1)) (2 ^ (n - 1) - 1) (sextInt x n + sextInt y n)
  | paddsN (d a b w : Nat) : PackedRule (.paddsN d a b w) d a b w fun n x y _ => clampInt 0 (2 ^ n - 1) (x + y)
  | psubsS (d a b w : Nat) : PackedRule (.psubsS d a b w) d a b w fun n x y _ =>
      clampInt (-2 ^ (n - 1)) (2 ^ (n - 1) - 1) (sextInt x n - sextInt y n)
  | psubsN (d a b w : Nat) : PackedRule (.psubsN d a b w) d a b w fun n x y _ => clampInt 0 (2 ^ n - 1) (x - y)
  | pmin (d a b w : Nat) : PackedRule (.pmin d a b w) d a b w fun n x y _ => Min.min (sextInt x n) (sextInt y n)
  | pmax (d a b w : Nat) : PackedRule (.pmax d a b w) d a b w fun n x y _ => Max.max (sextInt x n) (sextInt y n)
  | pminn (d a b w : Nat) : PackedRule (.pminn d a b w) d a b w fun _ x y _ => Min.min x y
  | pmaxn (d a b w : Nat) : PackedRule (.pmaxn d a b w) d a b w fun _ x y _ => Max.max x y
  | pshl (d a b w : Nat) : PackedRule (.pshl d a b w) d a b w fun _ x _ k => x * 2 ^ k
  | pshr (d a b w : Nat) : PackedRule (.pshr d a b w) d a b w fun _ x _ k => x / 2 ^ k
  | psar (d a b w : Nat) : PackedRule (.psar d a b w) d a b w fun n x _ k => sextInt x n / 2 ^ k
  | pshlV (d a b w : Nat) : PackedRule (.pshlV d a b w) d a b w fun _ x y _ => x * 2 ^ (y % 256)
  | pshrV (d a b w : Nat) : PackedRule (.pshrV d a b w) d a b w fun _ x y _ => x / 2 ^ (y % 256)
  | psarV (d a b w : Nat) : PackedRule (.psarV d a b w) d a b w fun n x y _ => sextInt x n / 2 ^ (y % 256)
  | pcmp (d a b c w : Nat) : PackedRule (.pcmp d a b c w) d a b w fun n x y _ =>
      if packedCond c n x y then 2 ^ n - 1 else 0

/-- test of R111 on the values that a compare reads, as integers, and on their bits: the conditions of `CMP` and `CMPI` (R65). -/
def compareRule (c : Nat) (sx sy : Int) (x y : Nat) : Bool :=
  (c == 0 && x == y) || (c == 1 && x != y) || (c == 2 && decide (sx < sy)) || (c == 3 && decide (sy ≤ sx)) ||
    (c == 4 && decide (x < y)) || (c == 5 && decide (y ≤ x)) || (c == 6 && decide (sx ≤ sy)) || (c == 7 && decide (sy < sx)) ||
    (c == 8 && decide (x ≤ y)) || (c == 9 && decide (y < x)) || (c == 10 && (x &&& y) != 0) || (c == 11 && (x &&& y) == 0)

/-- The operations of `PLOG` (R65, R113). -/
def plogRule (c : Nat) (x y : Bool) : Bool :=
  (c == 0 && (x && y)) || (c == 1 && (x || y)) || (c == 2 && (x != y)) || (c == 3 && (x && !y)) || (c == 4 && (x || !y)) ||
    (c == 5 && !(x && y)) || (c == 6 && !(x || y)) || (c == 7 && (x == y))

/-- The predicates of a thread after a compare: predicate p is b, a write to p15 is discarded (R61, R111). -/
def predRule (p : Nat) (b : Bool) (sl sl' : Slot) : Prop :=
  ∀ j < 16, sl'.p j = if j = p ∧ p ≠ 15 then b else sl.p j

/-- The four divides (R101, R102): whether they are signed, and whether they give the remainder. -/
inductive DivideForm : Instr → Nat → Nat → Nat → Bool → Bool → Prop
  | div (d a b : Nat) : DivideForm (.div d a b) d a b true false
  | divn (d a b : Nat) : DivideForm (.divn d a b) d a b false false
  | rem (d a b : Nat) : DivideForm (.rem d a b) d a b true true
  | remn (d a b : Nat) : DivideForm (.remn d a b) d a b false true

/-- What the predicate instructions write to predicate p: from the slot and the data sources (R111 to R113). -/
inductive PredForm : Instr → Option Nat → Option Nat → Nat → (Slot → Word → Word → Bool) → Prop
  | cmp (p c a b z : Nat) : PredForm (.cmp p c a b z) (some a) (some b) p fun _ x y =>
      let n := 8 * 2 ^ z
      compareRule c (sextInt (x.toNat % 2 ^ n) n) (sextInt (y.toNat % 2 ^ n) n) (x.toNat % 2 ^ n) (y.toNat % 2 ^ n)
  | cmpi (p c a i : Nat) : PredForm (.cmpi p c a i) (some a) none p fun _ x _ =>
      compareRule c x.toInt (sextInt i 11) x.toNat (wrap64 (sextInt i 11)).toNat
  | plog (p c j k : Nat) : PredForm (.plog p c j k) none none p fun sl _ _ => plogRule c (sl.p j) (sl.p k)

/-- Where the control transfers go (R114, R115); the Bool marks the forms that jump to a register. -/
inductive JumpForm : Instr → Bool → (State → Word) → Prop
  | b (n p o : Nat) : JumpForm (.b n p o) false fun s =>
      wrap64 (s.me.pc.toInt + if s.me.p p != (n == 1) then 4 * sextInt o 21 else 4)
  | j (o : Nat) : JumpForm (.j o) false fun s => wrap64 (s.me.pc.toInt + 4 * sextInt o 26)
  | call (o : Nat) : JumpForm (.call o) false fun s => wrap64 (s.me.pc.toInt + 4 * sextInt o 26)
  | callr (a : Nat) : JumpForm (.callr a) true fun s => s.g a
  | jr (a : Nat) : JumpForm (.jr a) true fun s => s.g a
  | ret : JumpForm .ret true fun s => s.g 2

/-- The transfers that leave the address of the next instruction in g2 (R114, R115). -/
def links : Instr → Bool
  | .call _ => true
  | .callr _ => true
  | _ => false

/-- An instruction of the pipeline with its data sources and its destination. -/
def PipelineForm (i : Instr) (a b : Option Nat) (d : Nat) : Prop :=
  (∃ R, IntRule i a b d R) ∨ (∃ R, BitRule i a b d R) ∨ (∃ x y w f, a = some x ∧ b = some y ∧ PackedRule i d x y w f)

/-- The slot of a thread that has gone on by n bytes (R59, R136). -/
def Slot.past (sl : Slot) (n : Nat) : Slot :=
  { sl with pc := sl.pc + BitVec.ofNat 64 n, xprog := 0, bounced := false, mid := false, relMark := none, completes := false }

/-- Every thread but the one that issues is as it was. -/
def othersKept (s t : State) : Prop := t.cur = s.cur ∧ ∀ k, k ≠ s.cur → t.slot k = s.slot k

/-- Whether a data source or destination of the issuing thread is bound to a queue (R56). -/
def boundTo (s : State) (q : Nat) (r : Option Nat) : Prop := r.bind (bindOf s.me.portmap) = some q

/-- Only the word of one general register of the issuing thread may have changed. -/
def onlyReg (s t : State) (d : Nat) : Prop :=
  (∀ c j, 2048 * c + j ≠ 2048 * s.myCore + (s.me.base + d) → t.rf c j = s.rf c j) ∧
    ∀ w, w ≠ regPlace s.myCore (s.me.base + d) → (w ∈ t.dead ↔ w ∈ s.dead) ∧ (w ∈ t.soft ↔ w ∈ s.soft)

/-- Only the queues bound to some registers of the issuing thread may have changed. -/
def onlyQueues (s t : State) (rs : List (Option Nat)) : Prop :=
  ∀ c q, q < 8 → (c ≠ s.myCore ∨ ∀ r ∈ rs, ¬ boundTo s q r) → t.queue c q = s.queue c q

/-- Every byte of memory reads as before. -/
def sameBytes (s t : State) : Prop := ∀ p, readByte t.mem p = readByte s.mem p

/-! ## Traps -/

/-- What a trapped thread is left with (R285, R286, R289): it is halted at its instruction, with its `X` registers written and
the address at which it resumes. -/
def trapped (s t : State) (c : Cause) (source level : Nat) (xaddr xprog xinfo resume : Word) : Prop :=
  t.me.st = .halted ∧ t.me.pc = s.me.pc ∧ t.me.xpc = s.me.pc ∧
    t.me.xcause.toNat = (source * 65536 + level * 256 + causeCode c) % 2 ^ 64 ∧
    t.me.xaddr = xaddr ∧ t.me.xprog = xprog ∧ t.me.xinfo = xinfo ∧ t.me.resume = resume

/-- The fault record that a trap leaves (R288): pending, with the value of `delivered` that it took. -/
def faultRecord (xpc xcause xaddr xprog xinfo resume thread : Word) (n : Nat) : List Word :=
  [xpc, xcause, xaddr, xprog, xinfo, resume, thread, BitVec.ofNat 64 (2 ^ 63 + n % 2 ^ 63)]

/-- The address of record n of a queue of 2^q records (R287). -/
def recordAddr (base q n : Nat) : Nat := base + 64 + 64 * (n % 2 ^ q)

/-- A delivery to a region has started its handler, as far as R290 lets it: with the flag clear and a valid template, a READY task in the
lowest FREE TCB of the template's hub, with the template's pc, fp, class and prio, and the flag set; with no FREE TCB the start is owed. -/
def handlerStarted (s t : State) (r : Nat) : Prop :=
  ∀ g m, s.region? r = some g → s.template? r = some m → g.handlerFlag = false →
    (∀ key, s.freeTcb? (s.handlerHub r) = some key →
      t.tcb key = { pc := m.pc, fp := m.fp, wclass := m.wclass, prio := Nat.min m.prio g.prio, region := r, rscope := 5, state := 2,
                    handlerOf := true } ∧
        (t.region? r).map (·.handlerFlag) = some true ∧ (Nat.min m.prio g.prio, key) ∈ (t.hub (key / 512)).ready) ∧
    (s.freeTcb? (s.handlerHub r) = none → r ∈ (t.hub (s.handlerHub r)).owed ∧ t.tcbs = s.tcbs)

/-! ## System registers (R117 to R122) -/

/-- A value that `PORTMAP` may not take (R55): a reserved bit is set, or two enabled bindings name one register. -/
def portmapClash (v : Word) : Prop :=
  (∃ i < 4, v.getLsbD (16 * i + 7) = true ∨ v.extractLsb' (16 * i + 11) 4 ≠ 0) ∨
    ∃ i < 4, ∃ j < i, v.getLsbD (16 * i + 15) = true ∧ v.getLsbD (16 * j + 15) = true ∧
      v.extractLsb' (16 * i) 7 = v.extractLsb' (16 * j) 7

/-- An enabled binding of a `PORTMAP` value names a queue (R55). -/
def bindsQueue (v : Word) (q : BitVec 3) : Prop := ∃ j < 4, v.getLsbD (16 * j + 15) = true ∧ v.extractLsb' (16 * j + 8) 3 = q

/-- A slot of another region on the core of `cur` binds a queue that a `PORTMAP` value binds (R145). -/
def queueClash (s : State) (v : Word) : Prop :=
  ∃ i < 64, ∃ q, (s.slot (64 * s.myCore + i)).st ≠ .empty ∧ (s.slot (64 * s.myCore + i)).st ≠ .held ∧
    (s.slot (64 * s.myCore + i)).region ≠ s.me.region ∧ bindsQueue (s.slot (64 * s.myCore + i)).portmap q ∧ bindsQueue v q

/-- The slot after a write of one of its registers by `MTS` (R117): `RETRY`, `PARKINT` held between 64 and 65,536, `SCOPEMISS`,
`AMIG` of a strand, `OPREQ`, whose code 31 is 30; a read-only register keeps its value. -/
def sysWritten (n : Nat) (v : Word) (sl : Slot) : Slot :=
  { sl with
    retry := if n = 0x004 then v.extractLsb' 0 8 else sl.retry
    parkint := if n = 0x005 then BitVec.ofNat 17 (Nat.max 64 (Nat.min (bits v.toNat 0 17) 65536)) else sl.parkint
    scopemiss := if n = 0x00B then bits v.toNat 0 32 else sl.scopemiss
    amig := if n = 0x00C ∧ sl.strand = true then v.getLsbD 0 else sl.amig
    opreq := if n = 0x024 then (if bits v.toNat 0 5 = 31 then 30 else v.extractLsb' 0 5) else sl.opreq }

/-- The fields of `PACE` for a thread whose tile runs at a level (R322). -/
def paceFields (s : State) (level : Nat) (v : Word) : Prop :=
  let p := s.pacer
  v.extractLsb' 32 32 = BitVec.ofNat 32 p.epoch ∧ v.extractLsb' 29 3 = 0 ∧ v.getLsbD 28 = p.group.isSome ∧
    v.getLsbD 27 = (p.group.isSome && p.leader == s.host.modid) ∧ v.getLsbD 26 = p.hard ∧ v.getLsbD 25 = p.pend.isSome ∧
    (v.extractLsb' 20 5).toNat = (p.pend.elim 0 Prod.fst) % 32 ∧ (v.extractLsb' 15 5).toNat = p.ceiling ∧
    (v.extractLsb' 10 5).toNat = p.slack ∧ (v.extractLsb' 5 5).toNat = level ∧ (v.extractLsb' 0 5).toNat = p.limit

/-- The levels that the Pacer holds and the level of a tile are numbers of 5 bits (R309, R322). -/
abbrev paceFits (s : State) (level : Nat) : Prop :=
  s.pacer.ceiling < 32 ∧ s.pacer.slack < 32 ∧ s.pacer.limit < 32 ∧ level < 32

/-- The register fields of a slot as `MFS` reads them (R117, R119, R92, R161, R187, R285, R322). -/
def readsAs (s : State) (k n : Nat) (v : Word) : Prop :=
  let sl := s.slot k
  (n = 0x001 → v.toNat = (windowSize sl.wclass + sl.base / 8 * 256 + sl.wclass * 65536) % 2 ^ 64) ∧ (n = 0x003 → v = sl.portmap) ∧
    (n = 0x004 → v.toNat = sl.retry.toNat) ∧ (n = 0x005 → v.toNat = sl.parkint.toNat) ∧
    (n = 0x006 → v.toNat = sl.fprm.toNat * 256 + sl.fpflags.toNat) ∧ (n = 0x007 → v = sl.rndseed) ∧ (n = 0x009 → v = sl.tags) ∧
    (n = 0x00A → v.toNat = sl.unack % 2 ^ 64) ∧ (n = 0x00B → v.toNat = sl.scopemiss % 2 ^ 64) ∧
    (n = 0x00C → v.toNat = b2n (sl.strand && sl.amig)) ∧ (n = 0x010 → v = sl.xpc) ∧ (n = 0x011 → v = sl.xcause) ∧
    (n = 0x012 → v = sl.xaddr) ∧ (n = 0x013 → v = sl.xprog) ∧ (n = 0x014 → v = sl.xinfo) ∧
    (n = 0x020 → v.toNat = (s.core (coreOf k)).share.toNat) ∧
    (n = 0x021 → ∀ j < 16, v.getLsbD j = (j == coreIdx (coreOf k) || (s.core (coreOf k)).vgroup.getLsbD j)) ∧
    (n = 0x002 → v.toNat = (s.host.modid * 2 ^ 44 + coreOf k * 2 ^ 32 + slotNo k * 2 ^ 16 + sl.region) % 2 ^ 64) ∧
    (n = 0x008 → v.toNat = (b2n sl.shr * 2 ^ 15 + (if (s.core (coreOf k)).vowner = some k then s.grantOf (coreOf k) else 0) * 2 ^ 8 +
      sl.vl) % 2 ^ 64) ∧
    (n = 0x022 → v.toNat = (s.core (coreOf k)).landn % 2 ^ 64) ∧ (n = 0x024 → v.toNat = sl.opreq.toNat) ∧
    (n = 0x023 → ∀ j < 64, v.getLsbD j =
      (decide (j < 8) && (s.tile (tileOf (coreOf k))).accOwner.getD j none == some (coreInTile (coreOf k)))) ∧
    (n = 0x030 → paceFits s (s.tile (tileOf (coreOf k))).level → paceFields s (s.tile (tileOf (coreOf k))).level v) ∧
    (n = 0x031 → v.toNat = s.time % 2 ^ 64) ∧ (n = 0x032 → v.toNat = s.cycle (coreOf k) % 2 ^ 64)

/-- A value has been written to a destination: to the register, or at the end of the queue bound to it (R56, R100). -/
def landed (s t : State) (d : Nat) (v : Word) : Prop :=
  match bindOf s.me.portmap d with
  | none => t.greg s.cur d = { val := v }
  | some q => (t.queue s.myCore q).getLast? = some (.word v)

/-- Nothing of the issuing thread is outstanding that a release waits for, and its core's L1 has nothing to write back (R28, R131, R165,
R238). -/
abbrev quiet (s : State) : Prop :=
  s.me.unack = 0 ∧ s.me.failStore = none ∧ s.vecQuiet s.cur = true ∧ s.me.relMark = none ∧ s.l1Settled s.myCore = true

/-- A service call has ended: g3 holds its status and the thread goes on at the next instruction, with its `X` registers as the
service left them (R123, R285). -/
def served (s t : State) (code : Nat) (status : Word) : Prop :=
  t.greg s.cur 3 = { val := status } ∧ t.me.st = .ready ∧ t.me.wait = .none ∧ t.me.pc = s.me.pc + 4 ∧ t.me.xpc = s.me.pc ∧
    t.me.xcause.toNat = causeCode .svc ∧ t.me.xinfo.toNat = code

/-- A service of the region manager is refused on the issuing core (R123). -/
def refusedHere (s : State) : Bool := !s.grants s.me.region (clusterOf s.myCore)

/-- The issuing thread does not go on: it waits for a condition, and then issues its instruction again (R44). -/
def waitsFor (s t : State) (st : SlotSt) (c : Cond) : Prop := t.me.st = st ∧ t.me.wait = .reissue c ∧ t.me.pc = s.me.pc

/-! ## Accesses (chapter 11) -/

/-- The place in the issuing core's own scratchpad that an address names, where the region may use it (R23 to R25, R131). -/
def ownPlace (s : State) (addr : Word) : Option Nat :=
  let a := addr.toNat
  if bits a 56 8 = 1 ∧ bits a 44 12 = s.host.modid ∧ bits a 32 12 = s.myCore ∧ bits a 0 32 < s.scratchSize s.myCore ∧
      s.grants s.me.region (clusterOf s.myCore) = true then
    some (2 ^ 56 + s.myCore * 2 ^ 32 + bits a 0 32)
  else none

/-- The word that holds a place can be read, no request is deferred at it, its core is live, and nothing is captured. -/
abbrev atRest (s : State) (p : Nat) : Prop :=
  s.retired s.myCore = false ∧ s.host.captures = [] ∧ (∀ q ∈ s.deferred, q.place / 8 ≠ p / 8) ∧ p / 8 * 8 ∉ s.dead

/-- The number that n bytes of memory hold, the lowest place least significant (R5). -/
def numAt (s : State) (p n : Nat) : Nat := leNat (readBytes s.mem p n)

/-- The bytes of memory after a store of n bytes of a number: those bytes, and every other as before. -/
def stored (s t : State) (p n v : Nat) : Prop :=
  ∀ q, readByte t.mem q = if p ≤ q ∧ q < p + n then BitVec.ofNat 8 (v / 256 ^ (q - p)) else readByte s.mem q

/-- What a load of type y makes of the n bytes it reads (R71, R134). -/
def loadRule (y raw : Nat) (v : Word) : Prop :=
  if y = 0 ∨ y = 2 ∨ y = 4 then v.toInt = sextInt raw (8 * typeBytes y) else v.toNat = raw

/-- The loads with their destination, type and effective address (R130, R134). -/
inductive LoadForm : Instr → Nat → Nat → (State → Word) → Prop
  | ldD (t b g o : Nat) : LoadForm (.ldD t b g o) t 6 fun s => wrap64 ((s.g b).toInt + 8 * sextInt o 9)
  | ld (t b i y : Nat) : LoadForm (.ld t b i y) t y fun s => wrap64 ((s.g b).toInt + i * typeBytes y)
  | ldx (t b x y : Nat) : LoadForm (.ldx t b x y) t y fun s => wrap64 ((s.g b).toInt + (s.g x).toInt * typeBytes y)

/-- The stores with their source, type and effective address (R130, R134). -/
inductive StoreForm : Instr → Nat → Nat → (State → Word) → Prop
  | stD (t b g o : Nat) : StoreForm (.stD t b g o) t 6 fun s => wrap64 ((s.g b).toInt + 8 * sextInt o 9)
  | st (t b i y : Nat) : StoreForm (.st t b i y) t y fun s => wrap64 ((s.g b).toInt + i * typeBytes y)
  | stx (t b x y : Nat) : StoreForm (.stx t b x y) t y fun s => wrap64 ((s.g b).toInt + (s.g x).toInt * typeBytes y)

/-- Two records of one request: they differ at most in how far it has come on its way (R17, R262, R264). -/
def sameReq (q p : Req) : Prop :=
  p = { q with hops := p.hops, via := p.via, redirected := p.redirected, drain := p.drain, took := p.took }

/-- A request is on its way to its home, or has its answer on the way, an error response of a failed bridge (R266). -/
def sentReq (t : State) (q : Req) : Prop :=
  (∃ p ∈ t.reqs, sameReq q p) ∨ ∃ r ∈ t.reps, sameReq q r.req ∧ r.ans = .err .rights

/-- The issuing core's L1, or its victim pool, holds the line of a site under the site's key (R120, R234, R305). -/
def l1Holds (u : State) (site : Site) (l : Line) : Prop :=
  site.cached = true ∧ isHbm site.place = true ∧ u.l1Hit u.myCore (site.place / 128) = some l ∧ l.key = site.key

/-- The issuing core's L1 holds the line of a site under the site's key, and its cluster no other copy (R235). -/
def l1Owns (u : State) (site : Site) (l : Line) : Prop :=
  site.cached = true ∧ isHbm site.place = true ∧ u.writable u.myCore (site.place / 128) = true ∧
    u.l1 u.myCore (site.place / 128) = some l ∧ l.key = site.key

/-- A line after a store of n bytes of a number from byte o on: those bytes are written and dirty, and nothing else of it changes (R234). -/
def lineStored (l m : Line) (o n v : Nat) : Prop :=
  (∀ j < 128, m.num j 1 = if o ≤ j ∧ j < o + n then v / 256 ^ (j - o) % 256 else l.num j 1) ∧
    (∀ j < 128, m.dirty.getLsbD j = (decide (o ≤ j ∧ j < o + n) || l.dirty.getLsbD j)) ∧ m.fe = l.fe ∧ m.key = l.key ∧
    m.poison = l.poison ∧ ∀ j < 16, m.bad.getLsbD j = (l.bad.getLsbD j && !(n == 8 && j == o / 8))

/-- The strand that issues does not leave for the access: it is bounced, it is not told to, or the access is its own core's. -/
abbrev staysFor (s : State) (addr : Word) (go : Bool) : Prop := s.migratesTo addr go = none

/-- The cache forms (R143): what they ask of a home, and the right that their line's translation must give. -/
inductive LineForm : Instr → HomeOp → Acc3 → Nat → Nat → Nat → Prop
  | discard (b c o : Nat) : LineForm (.discard b c o) .discard .rw b c o
  | flush (b c o : Nat) : LineForm (.flush b c o) .flush .r b c o
  | inval (b c o : Nat) : LineForm (.inval b c o) .inval .r b c o

/-- The `.go` bit of a load or store (R52, R135). -/
def goes : Instr → Bool
  | .ldD _ _ g _ => g == 1
  | .stD _ _ g _ => g == 1
  | _ => false

/-- The atomics with their fields a, b, c, scope, order and width (R140). -/
inductive AtomicForm : Instr → AtomOp → Nat → Nat → Nat → Nat → Nat → Nat → Prop
  | aadd (a b c m o w : Nat) : AtomicForm (.aadd a b c m o w) .add a b c m o w
  | afadd (a b c m o w : Nat) : AtomicForm (.afadd a b c m o w) .fadd a b c m o w
  | amin (a b c m o w : Nat) : AtomicForm (.amin a b c m o w) .min a b c m o w
  | amax (a b c m o w : Nat) : AtomicForm (.amax a b c m o w) .max a b c m o w
  | aminn (a b c m o w : Nat) : AtomicForm (.aminn a b c m o w) .minn a b c m o w
  | amaxn (a b c m o w : Nat) : AtomicForm (.amaxn a b c m o w) .maxn a b c m o w
  | aand (a b c m o w : Nat) : AtomicForm (.aand a b c m o w) .and a b c m o w
  | aor (a b c m o w : Nat) : AtomicForm (.aor a b c m o w) .or a b c m o w
  | axor (a b c m o w : Nat) : AtomicForm (.axor a b c m o w) .xor a b c m o w
  | aswp (a b c m o w : Nat) : AtomicForm (.aswp a b c m o w) .swp a b c m o w
  | acas (a b c m o w : Nat) : AtomicForm (.acas a b c m o w) .cas a b c m o w
  | cadd (a b c m o w : Nat) : AtomicForm (.cadd a b c m o w) .cadd a b c m o w

/-- The accesses that wait for an answer (R137, R140, R148, R216): operation at the home, bytes, scope, whether a release comes
first, data source, destination and whether a queue may be bound to it, effective address, and the operands sent. -/
inductive AccessForm : Instr → HomeOp → Nat → Nat → Bool → Option Nat → Option Nat → Bool → (State → Word) → (State → Word) →
    (State → Word) → Prop
  | ldfe (t b c o : Nat) : AccessForm (.ldfe t b c o) .ldfe 8 c false none (some t) true
      (fun s => s.g b + BitVec.ofNat 64 (8 * o)) (fun _ => 0) (fun _ => 0)
  | ldff (t b c o : Nat) : AccessForm (.ldff t b c o) .ldff 8 c false none (some t) true
      (fun s => s.g b + BitVec.ofNat 64 (8 * o)) (fun _ => 0) (fun _ => 0)
  | stfe (t b c o : Nat) : AccessForm (.stfe t b c o) .stfe 8 c true (some t) none true
      (fun s => s.g b + BitVec.ofNat 64 (8 * o)) (srcA (some t)) (fun _ => 0)
  | stf (t b c o : Nat) : AccessForm (.stf t b c o) .stf 8 c true (some t) none true
      (fun s => s.g b + BitVec.ofNat 64 (8 * o)) (srcA (some t)) (fun _ => 0)
  | sete (b c o : Nat) : AccessForm (.sete b c o) .sete 8 c false none none true
      (fun s => s.g b + BitVec.ofNat 64 (8 * o)) (fun _ => 0) (fun _ => 0)
  | feq (t b c o : Nat) : AccessForm (.feq t b c o) .feq 8 c false none (some t) true
      (fun s => s.g b + BitVec.ofNat 64 (8 * o)) (fun _ => 0) (fun _ => 0)
  | arrive (t b c o : Nat) : AccessForm (.arrive t b c o) .arrive 8 c true none (some t) false
      (fun s => s.g b + BitVec.ofNat 64 (8 * o)) (fun _ => 0) (fun _ => 0)
  | arriveRelaxed (t b c o : Nat) : AccessForm (.arriveRelaxed t b c o) .arrive 8 c false none (some t) false
      (fun s => s.g b + BitVec.ofNat 64 (8 * o)) (fun _ => 0) (fun _ => 0)
  | hwait (t b c o : Nat) : AccessForm (.hwait t b c o) .hwait 8 c false none none false
      (fun s => s.g b + BitVec.ofNat 64 (8 * o)) (fun s => s.g t) (fun _ => 0)
  | htest (t b c o : Nat) : AccessForm (.htest t b c o) .htest 8 c false none (some t) false
      (fun s => s.g b + BitVec.ofNat 64 (8 * o)) (fun _ => 0) (fun _ => 0)
  | cwait (a b : Nat) : AccessForm (.cwait a b) .cwait 8 0 false (some b) none true (fun s => s.g a) (srcA (some b)) (fun _ => 0)
  | cread (d a : Nat) : AccessForm (.cread d a) .cread 8 0 false none (some d) true (fun s => s.g a) (fun _ => 0) (fun _ => 0)
  | atomic (i : Instr) (op : AtomOp) (a b c m o w : Nat) (h : AtomicForm i op a b c m o w) :
      AccessForm i (.atomic op (atomWidth w)) (atomBytes op (atomWidth w)) m (decide (2 ≤ o)) (some c) (some a) true
        (fun s => s.g b) (srcA (some c)) (fun s => if op = .cas then s.g (c + 1) else 0)

/-- The new value that an atomic writes to its location of n bits (R140, R141). -/
def atomRule (op : AtomOp) (n old v new r : Nat) : Prop :=
  match op with
  | .add => r = (old + v) % 2 ^ n
  | .fadd => r = (fadd f32 { mode := 0 } old v).1
  | .min => r < 2 ^ n ∧ sextInt r n = Min.min (sextInt old n) (sextInt v n)
  | .max => r < 2 ^ n ∧ sextInt r n = Max.max (sextInt old n) (sextInt v n)
  | .minn => r = Min.min old v
  | .maxn => r = Max.max old v
  | .and => r = old &&& v
  | .or => r = old ||| v
  | .xor => r = old ^^^ v
  | .swp => r = v
  | .cas => r = if old = v then new else old
  | .cadd => r = Nat.min (old + v) (2 ^ 64 - 1)

/-- What an operation answers and does to a location with a number and a full/empty bit, where it does not have to wait: the
answer, the number written if any, and the bit afterwards (R137, R140, R148, R216). -/
inductive WordRule : HomeOp → Word → Word → Nat → Bool → Word → Option Nat → Bool → Prop
  | ldfe (v1 v2 : Word) (old : Nat) : WordRule .ldfe v1 v2 old true (BitVec.ofNat 64 old) none false
  | ldff (v1 v2 : Word) (old : Nat) : WordRule .ldff v1 v2 old true (BitVec.ofNat 64 old) none true
  | stfe (v1 v2 : Word) (old : Nat) : WordRule .stfe v1 v2 old false 0 (some v1.toNat) true
  | stf (v1 v2 : Word) (old : Nat) (f : Bool) : WordRule .stf v1 v2 old f 0 (some v1.toNat) true
  | sete (v1 v2 : Word) (old : Nat) (f : Bool) : WordRule .sete v1 v2 old f 0 none false
  | feq (v1 v2 : Word) (old : Nat) (f : Bool) : WordRule .feq v1 v2 old f (if f then 1 else 0) none f
  | arrive (v1 v2 : Word) (old : Nat) (f : Bool) (h : bits old 0 16 < bits old 16 16) :
      WordRule .arrive v1 v2 old f (BitVec.ofNat 64 (bits old 32 32))
        (some (if bits old 0 16 + 1 = bits old 16 16 then (bits old 32 32 + 1) % 2 ^ 32 * 2 ^ 32 + bits old 16 16 * 2 ^ 16 else old + 1)) f
  | hwait (v1 v2 : Word) (old : Nat) (f : Bool) (h : 1 ≤ (bits old 32 32 + 2 ^ 32 - v1.toNat % 2 ^ 32) % 2 ^ 32)
      (h' : (bits old 32 32 + 2 ^ 32 - v1.toNat % 2 ^ 32) % 2 ^ 32 < 2 ^ 31) :
      WordRule .hwait v1 v2 old f (BitVec.ofNat 64 (bits old 32 32)) none f
  | htest (v1 v2 : Word) (old : Nat) (f : Bool) : WordRule .htest v1 v2 old f (BitVec.ofNat 64 (bits old 32 32)) none f
  | cwait (v1 v2 : Word) (old : Nat) (f : Bool) (h : v1.toNat ≤ old) : WordRule .cwait v1 v2 old f (BitVec.ofNat 64 old) none f
  | cread (v1 v2 : Word) (old : Nat) (f : Bool) : WordRule .cread v1 v2 old f (BitVec.ofNat 64 old) none f
  | atomic (op : AtomOp) (w : AtomW) (v1 v2 ans : Word) (old r : Nat) (f : Bool)
      (h : atomRule op (8 * atomBytes op w) old
        (if op = .cadd ∧ w ≠ .d then v1.toNat % 2 ^ 32 else v1.toNat % 2 ^ (8 * atomBytes op w)) (v2.toNat % 2 ^ (8 * atomBytes op w)) r)
      (h' : if op ≠ .cadd ∧ w = .s32 then ans.toInt = sextInt old 32 else ans.toNat = old) :
      WordRule (.atomic op w) v1 v2 old f ans (some r) f

/-- The operations whose condition does not hold yet, so that they are deferred at the home (R137, R138, R148, R216). -/
inductive WaitRule : HomeOp → Word → Nat → Bool → Prop
  | ldfe (v1 : Word) (old : Nat) : WaitRule .ldfe v1 old false
  | ldff (v1 : Word) (old : Nat) : WaitRule .ldff v1 old false
  | stfe (v1 : Word) (old : Nat) : WaitRule .stfe v1 old true
  | hwait (v1 : Word) (old : Nat) (f : Bool) (h : (bits old 32 32 + 2 ^ 32 - v1.toNat % 2 ^ 32) % 2 ^ 32 = 0 ∨
      2 ^ 31 ≤ (bits old 32 32 + 2 ^ 32 - v1.toNat % 2 ^ 32) % 2 ^ 32) : WaitRule .hwait v1 old f
  | cwait (v1 : Word) (old : Nat) (f : Bool) (h : old < v1.toNat) : WaitRule .cwait v1 old f

/-- The full/empty bit of the word that holds a place outside HBM (R132). -/
def fullAt (s : State) (p : Nat) : Bool := s.feRaw (p / 8 * 8)

/-- The accesses that acquire, before which a thread's vector instructions complete (R137, R140, R148, R165, R216). -/
def acquires : Instr → Bool
  | .ldfe _ _ _ _ | .ldff _ _ _ _ | .hwait _ _ _ _ | .htest _ _ _ _ | .cwait _ _ | .cread _ _ => true
  | .aadd _ _ _ _ o _ | .afadd _ _ _ _ o _ | .amin _ _ _ _ o _ | .amax _ _ _ _ o _ | .aminn _ _ _ _ o _ | .amaxn _ _ _ _ o _
  | .aand _ _ _ _ o _ | .aor _ _ _ _ o _ | .axor _ _ _ _ o _ | .aswp _ _ _ _ o _ | .acas _ _ _ _ o _ | .cadd _ _ _ _ o _ =>
    o == 1 || o == 3
  | _ => false

/-! ## Tasks (chapter 13) -/

/-- A reference in a general register names the TCB of a key (R34). -/
abbrev namesTcb (v : Word) (key : Nat) : Prop := refOk v = true ∧ key = v.toNat % 2 ^ 17

/-- An instruction of the issuing thread acts on a TCB at its hub now: its core's earlier requests to that hub have been performed, and no
bridge of the way there has failed (R237, R266). -/
abbrev reachesHub (s : State) (key : Nat) : Prop :=
  s.homePast s.myCore (2 ^ 17 + key / 512) = true ∧ s.crossCut (dieOf s.myCore) (hubDie key) (2 ^ 58 + key) = false

/-- The thread's claims can be given up and nothing of it is outstanding (R152, R168, R188, R214, R215). -/
abbrev settled (s : State) : Prop :=
  quiet s ∧ s.me.inflight = 0 ∧ s.me.failed = [] ∧ ((s.core s.myCore).mclaim = some s.cur → (s.core s.myCore).mq = [])

/-! ## Tags and engines (chapter 17) -/

/-- The copies between the own scratchpad and memory or a core of this module (R218, R221): kind and fields. -/
inductive CopyForm : Instr → EngKind → Nat → Nat → Nat → Nat → Nat → Bool → Prop
  | fetch (a b c tag scope : Nat) (cnt : Bool) : CopyForm (.fetch a b c tag scope cnt) .fetch a b c tag scope cnt
  | push (a b c tag scope : Nat) (cnt : Bool) : CopyForm (.push a b c tag scope cnt) .push a b c tag scope cnt
  | storeb (a b c tag scope : Nat) (cnt : Bool) : CopyForm (.storeb a b c tag scope cnt) .storeB a b c tag scope cnt

/-- The rights of R219 and R221 that a copy of n bytes needs: one end in the own partition, the other in global memory or in the
region's partition of a granted core. -/
def copyRights (s : State) (kind : EngKind) (a b : Word) (n : Nat) : Prop :=
  match kind with
  | .fetch => s.inPart s.myCore s.me.region a.toNat (a.toNat + n : Nat) = true ∧ bits b.toNat 56 8 = 0
  | .push => s.inPart s.myCore s.me.region b.toNat (b.toNat + n : Nat) = true ∧ s.inAnyPart s.me.region a n = true
  | _ => s.inPart s.myCore s.me.region b.toNat (b.toNat + n : Nat) = true ∧ bits a.toNat 56 8 = 0

/-- The fields of a copy control word are legal and its operands aligned (R219, R221); with a counter, its word is the region's. -/
def copyLegal (s : State) (a b c : Word) (cnt : Bool) : Prop :=
  bits c.toNat 0 32 ≤ 262144 ∧ a.toNat % 8 = 0 ∧ b.toNat % 8 = 0 ∧ bits c.toNat 0 32 % 8 = 0 ∧
    if cnt then bits c.toNat 32 32 % 8 = 0 ∧ s.counterOk s.me.region (bits c.toNat 32 32) = true else bits c.toNat 32 32 = 0

/-- An operation has been accepted (R211): the tag is in flight, the operation is queued with its operands captured, and the thread
goes on. -/
def accepted (s t : State) (kind : EngKind) (a b c : Word) (tag scope : Nat) : Prop :=
  t.me.pc = s.me.pc + 8 ∧ t.me.inflight = s.me.inflight ||| (1#64 <<< tag) ∧ t.me.tags = s.me.tags ∧
    ∃ o ∈ t.engs, o.kind = kind ∧ o.slot = s.cur ∧ o.region = s.me.region ∧ o.a = a ∧ o.b = b ∧ o.c = c ∧ o.tag = tag ∧ o.scope = scope ∧
      ∃ d ∈ t.agenda, d.ev = .engineComplete o.id ∧ d.at_ = .any

/-- A tag of the issuing slot is neither in flight nor set (R211). -/
abbrev tagFree (s : State) (tag : Nat) : Prop := (s.me.tags ||| s.me.inflight).getLsbD tag = false
/-- The counter of an operation with a completion record: read in the record at issue, a multiple of 8 and one that the thread may apply
`CADD` to (R227); an operation without `.cnt` has none. `v` is the state after the read, `w` the one after the check. -/
def countedAt (u v w : State) (region : Nat) (o : EngOp) (rec : Nat) : Prop :=
  if o.cnt then u.recordCounter u.myCore region rec = (.ok o.counter, v) ∧ o.counter.toNat % 8 = 0 ∧ v.counterFits o o.counter = (true, w)
  else o.counter = 0 ∧ v = u ∧ w = u

/-! ## Vector and matrix instructions (chapters 13 and 15) -/

/-- The instructions that issue into the sequencer (R163, R164): the mask register, the general register written later, the general
registers captured, and the base that a post-increment form advances with the bytes of its elements. -/
inductive VecForm : Instr → Nat → Option Nat → Option Nat → Option Nat → Option (Nat × Nat) → Prop
  | vld (d a g w : Nat) : VecForm (.vld d a g w) g none (some a) none none
  | vlds (d a b g w : Nat) : VecForm (.vlds d a b g w) g none (some a) (some b) none
  | vldx (d a b g w : Nat) : VecForm (.vldx d a b g w) g none (some a) none none
  | vldPostinc (d a g w : Nat) : VecForm (.vldPostinc d a g w) g none (some a) none (some (a, vecBytes w))
  | vst (d a g w : Nat) : VecForm (.vst d a g w) g none (some a) none none
  | vsts (d a b g w : Nat) : VecForm (.vsts d a b g w) g none (some a) (some b) none
  | vstx (d a b g w : Nat) : VecForm (.vstx d a b g w) g none (some a) none none
  | vstPostinc (d a g w : Nat) : VecForm (.vstPostinc d a g w) g none (some a) none (some (a, vecBytes w))
  | vbcast (d b g : Nat) : VecForm (.vbcast d b g) g none (some b) none none
  | vmovg (d a l : Nat) : VecForm (.vmovg d a l) 127 (some d) none none none
  | vmovl (d b l : Nat) : VecForm (.vmovl d b l) 127 none (some b) none none
  | viota (d g : Nat) : VecForm (.viota d g) g none none none none
  | vfadd (d a b g : Nat) : VecForm (.vfadd d a b g) g none none none none
  | vfsub (d a b g : Nat) : VecForm (.vfsub d a b g) g none none none none
  | vfmul (d a b g : Nat) : VecForm (.vfmul d a b g) g none none none none
  | vfma (d a b g : Nat) : VecForm (.vfma d a b g) g none none none none
  | vfnma (d a b g : Nat) : VecForm (.vfnma d a b g) g none none none none
  | vfmin (d a b g : Nat) : VecForm (.vfmin d a b g) g none none none none
  | vfmax (d a b g : Nat) : VecForm (.vfmax d a b g) g none none none none
  | vfabs (d a g : Nat) : VecForm (.vfabs d a g) g none none none none
  | vfneg (d a g : Nat) : VecForm (.vfneg d a g) g none none none none
  | vfcmp (d a b g c : Nat) : VecForm (.vfcmp d a b g c) g (some d) none none none
  | vadd (d a b g : Nat) : VecForm (.vadd d a b g) g none none none none
  | vsub (d a b g : Nat) : VecForm (.vsub d a b g) g none none none none
  | vmul (d a b g : Nat) : VecForm (.vmul d a b g) g none none none none
  | vmulh (d a b g : Nat) : VecForm (.vmulh d a b g) g none none none none
  | vmulhn (d a b g : Nat) : VecForm (.vmulhn d a b g) g none none none none
  | vand (d a b g : Nat) : VecForm (.vand d a b g) g none none none none
  | vor (d a b g : Nat) : VecForm (.vor d a b g) g none none none none
  | vxor (d a b g : Nat) : VecForm (.vxor d a b g) g none none none none
  | vandn (d a b g : Nat) : VecForm (.vandn d a b g) g none none none none
  | vshl (d a b g : Nat) : VecForm (.vshl d a b g) g none none none none
  | vshr (d a b g : Nat) : VecForm (.vshr d a b g) g none none none none
  | vsar (d a b g : Nat) : VecForm (.vsar d a b g) g none none none none
  | vrol (d a b g : Nat) : VecForm (.vrol d a b g) g none none none none
  | vmin (d a b g : Nat) : VecForm (.vmin d a b g) g none none none none
  | vmax (d a b g : Nat) : VecForm (.vmax d a b g) g none none none none
  | vminn (d a b g : Nat) : VecForm (.vminn d a b g) g none none none none
  | vmaxn (d a b g : Nat) : VecForm (.vmaxn d a b g) g none none none none
  | vsel (d a b g : Nat) : VecForm (.vsel d a b g) g none none none none
  | vpadd (d a b g w : Nat) : VecForm (.vpadd d a b g w) g none none none none
  | vpshl (d a b g w : Nat) : VecForm (.vpshl d a b g w) g none none none none
  | vpshr (d a b g w : Nat) : VecForm (.vpshr d a b g w) g none none none none
  | vcmp (d a b g c : Nat) : VecForm (.vcmp d a b g c) g (some d) none none none
  | vcvt (d a x t g r st : Nat) : VecForm (.vcvt d a x t g r st) g none none none none
  | vexp2 (d a g : Nat) : VecForm (.vexp2 d a g) g none none none none
  | vlog2 (d a g : Nat) : VecForm (.vlog2 d a g) g none none none none
  | vrcp (d a g : Nat) : VecForm (.vrcp d a g) g none none none none
  | vrsq (d a g : Nat) : VecForm (.vrsq d a g) g none none none none
  | vsqrt (d a g : Nat) : VecForm (.vsqrt d a g) g none none none none
  | vtanh (d a g : Nat) : VecForm (.vtanh d a g) g none none none none
  | vredaddF32 (d a g : Nat) : VecForm (.vredaddF32 d a g) g (some d) none none none
  | vredaddS32 (d a g : Nat) : VecForm (.vredaddS32 d a g) g (some d) none none none
  | vredminF32 (d a g : Nat) : VecForm (.vredminF32 d a g) g (some d) none none none
  | vredminS32 (d a g : Nat) : VecForm (.vredminS32 d a g) g (some d) none none none
  | vredminN32 (d a g : Nat) : VecForm (.vredminN32 d a g) g (some d) none none none
  | vredmaxF32 (d a g : Nat) : VecForm (.vredmaxF32 d a g) g (some d) none none none
  | vredmaxS32 (d a g : Nat) : VecForm (.vredmaxS32 d a g) g (some d) none none none
  | vredmaxN32 (d a g : Nat) : VecForm (.vredmaxN32 d a g) g (some d) none none none
  | vperm (d a b g : Nat) : VecForm (.vperm d a b g) g none none none none
  | vslide (d a b g : Nat) : VecForm (.vslide d a b g) g none (some b) none none
  | vcompress (d a g : Nat) : VecForm (.vcompress d a g) g none none none none
  | vexpand (d a g : Nat) : VecForm (.vexpand d a g) g none none none none

/-- The instructions that the owner of a vector context alone may issue (R159). -/
def OwnerForm (i : Instr) : Prop :=
  i = .vwait ∨ i = .vfree ∨ (∃ st l g, i = .repf st l g) ∨ ∃ g dst x y inc, VecForm i g dst x y inc

/-- What a lane of an integer instruction of majors 0x2E and 0x2F receives (R68, R174, R175): its fields, and the relation of the lanes read and
written. -/
inductive LaneRule : Instr → Nat → Nat → Nat → (Lane → Lane → Lane → Prop) → Prop
  | vadd (d a b g : Nat) : LaneRule (.vadd d a b g) d a b fun x y v => v = x + y
  | vsub (d a b g : Nat) : LaneRule (.vsub d a b g) d a b fun x y v => v = x - y
  | vmul (d a b g : Nat) : LaneRule (.vmul d a b g) d a b fun x y v => v = x * y
  | vmulh (d a b g : Nat) : LaneRule (.vmulh d a b g) d a b fun x y v => v = (BitVec.ofInt 64 (x.toInt * y.toInt)).extractLsb' 32 32
  | vmulhn (d a b g : Nat) : LaneRule (.vmulhn d a b g) d a b fun x y v => v = (BitVec.ofNat 64 (x.toNat * y.toNat)).extractLsb' 32 32
  | vand (d a b g : Nat) : LaneRule (.vand d a b g) d a b fun x y v => v = x &&& y
  | vor (d a b g : Nat) : LaneRule (.vor d a b g) d a b fun x y v => v = x ||| y
  | vxor (d a b g : Nat) : LaneRule (.vxor d a b g) d a b fun x y v => v = x ^^^ y
  | vandn (d a b g : Nat) : LaneRule (.vandn d a b g) d a b fun x y v => v = x &&& ~~~y
  | vshl (d a b g : Nat) : LaneRule (.vshl d a b g) d a b fun x y v => v = x <<< (y.toNat % 256)
  | vshr (d a b g : Nat) : LaneRule (.vshr d a b g) d a b fun x y v => v = x >>> (y.toNat % 256)
  | vsar (d a b g : Nat) : LaneRule (.vsar d a b g) d a b fun x y v => v = x.sshiftRight (y.toNat % 256)
  | vrol (d a b g : Nat) : LaneRule (.vrol d a b g) d a b fun x y v => v = x.rotateLeft (y.toNat % 256)
  | vmin (d a b g : Nat) : LaneRule (.vmin d a b g) d a b fun x y v => v.toInt = Min.min x.toInt y.toInt
  | vmax (d a b g : Nat) : LaneRule (.vmax d a b g) d a b fun x y v => v.toInt = Max.max x.toInt y.toInt
  | vminn (d a b g : Nat) : LaneRule (.vminn d a b g) d a b fun x y v => v.toNat = Min.min x.toNat y.toNat
  | vmaxn (d a b g : Nat) : LaneRule (.vmaxn d a b g) d a b fun x y v => v.toNat = Max.max x.toNat y.toNat
  | vpadd (d a b g w : Nat) : LaneRule (.vpadd d a b g w) d a b fun x y v => ∀ j < 32 / packedWidth w,
      v.extractLsb' (packedWidth w * j) (packedWidth w) =
        x.extractLsb' (packedWidth w * j) (packedWidth w) + y.extractLsb' (packedWidth w * j) (packedWidth w)
  | vpshl (d a b g w : Nat) : LaneRule (.vpshl d a b g w) d a b fun x y v => ∀ j < 32 / packedWidth w,
      v.extractLsb' (packedWidth w * j) (packedWidth w) = x.extractLsb' (packedWidth w * j) (packedWidth w) <<< (y.toNat % 256)
  | vpshr (d a b g w : Nat) : LaneRule (.vpshr d a b g w) d a b fun x y v => ∀ j < 32 / packedWidth w,
      v.extractLsb' (packedWidth w * j) (packedWidth w) = x.extractLsb' (packedWidth w * j) (packedWidth w) >>> (y.toNat % 256)

/-- What a lane of a floating instruction receives, with the exceptions that it raises (R172, R178, R179): its destination, and the
result of a lane number. `v` gives the pattern of a lane of a register, `rm` the rounding captured at issue, `seed` the slot's seed. -/
inductive FloatRule (v : Nat → Nat → Nat) (rm : Rm) (seed : Word) : Instr → Nat → (Nat → Nat × FFlags) → Prop
  | vfadd (d a b g : Nat) : FloatRule v rm seed (.vfadd d a b g) d fun i => fadd f32 rm (v a i) (v b i)
  | vfsub (d a b g : Nat) : FloatRule v rm seed (.vfsub d a b g) d fun i => fsub f32 rm (v a i) (v b i)
  | vfmul (d a b g : Nat) : FloatRule v rm seed (.vfmul d a b g) d fun i => fmul f32 rm (v a i) (v b i)
  | vfma (d a b g : Nat) : FloatRule v rm seed (.vfma d a b g) d fun i => ffma f32 rm false (v a i) (v b i) (v d i)
  | vfnma (d a b g : Nat) : FloatRule v rm seed (.vfnma d a b g) d fun i => ffma f32 rm true (v a i) (v b i) (v d i)
  | vfmin (d a b g : Nat) : FloatRule v rm seed (.vfmin d a b g) d fun i => fminmax f32 false (v a i) (v b i)
  | vfmax (d a b g : Nat) : FloatRule v rm seed (.vfmax d a b g) d fun i => fminmax f32 true (v a i) (v b i)
  | vfabs (d a g : Nat) : FloatRule v rm seed (.vfabs d a g) d fun i =>
      if (unpack f32 (v a i)).isNan then (0x7FC00000, nvIf (unpack f32 (v a i)).snan) else (v a i % 2 ^ 31, 0)
  | vfneg (d a g : Nat) : FloatRule v rm seed (.vfneg d a g) d fun i =>
      if (unpack f32 (v a i)).isNan then (0x7FC00000, nvIf (unpack f32 (v a i)).snan) else ((v a i + 2 ^ 31) % 2 ^ 32, 0)
  | vexp2 (d a g : Nat) : FloatRule v rm seed (.vexp2 d a g) d fun i => fexp2 rm (v a i)
  | vlog2 (d a g : Nat) : FloatRule v rm seed (.vlog2 d a g) d fun i => flog2 rm (v a i)
  | vrcp (d a g : Nat) : FloatRule v rm seed (.vrcp d a g) d fun i => frcp rm (v a i)
  | vrsq (d a g : Nat) : FloatRule v rm seed (.vrsq d a g) d fun i => frsq rm (v a i)
  | vsqrt (d a g : Nat) : FloatRule v rm seed (.vsqrt d a g) d fun i => fsqrt rm (v a i)
  | vtanh (d a g : Nat) : FloatRule v rm seed (.vtanh d a g) d fun i => ftanh rm (v a i)
  | vcvt (d a up ty g r st : Nat) : FloatRule v rm seed (.vcvt d a up ty g r st) d fun i =>
      convert up ty (cvtRm r rm.mode seed i) (st == 1) (v a i)

/-- The lanes on which a sequencer entry acts (R162): those of its mask below its captured length and the grant. -/
def laneOn (s : State) (core : Nat) (e : SeqEnt) (i : Nat) : Bool := decide (i < e.vl ∧ i < s.grantOf core) && e.mask.getLsbD i

/-- The lanes on which an entry acts, ascending. -/
def lanesOn (s : State) (core : Nat) (e : SeqEnt) : List Nat := (List.range 64).filter (laneOn s core e)

/-- Which lane values the select, move and permute instructions write, by the lane number; none leaves the lane as it is (R171, R176,
R181). -/
inductive MoveRule (s : State) (core : Nat) (e : SeqEnt) : Instr → Nat → (Nat → Option Lane) → Prop
  | vsel (d a b g : Nat) : MoveRule s core e (.vsel d a b g) d fun i =>
      if i < e.vl ∧ i < s.grantOf core then some (if e.mask.getLsbD i then s.lane core a i else s.lane core b i) else none
  | vbcast (d b g : Nat) : MoveRule s core e (.vbcast d b g) d fun i => if laneOn s core e i then some (e.x.setWidth 32) else none
  | vmovl (d b l : Nat) : MoveRule s core e (.vmovl d b l) d fun i => if i = l then some (e.x.setWidth 32) else none
  | viota (d g : Nat) : MoveRule s core e (.viota d g) d fun i =>
      if laneOn s core e i then some (BitVec.ofNat 32 ((lanesOn s core e).filter (· < i)).length) else none
  | vperm (d a b g : Nat) : MoveRule s core e (.vperm d a b g) d fun i =>
      if laneOn s core e i then some (s.lane core a ((s.lane core b i).toNat % 64)) else none
  | vslide (d a b g : Nat) : MoveRule s core e (.vslide d a b g) d fun i =>
      if laneOn s core e i then
        some (if 0 ≤ i + e.x.toInt ∧ i + e.x.toInt < e.vl ∧ i + e.x.toInt < s.grantOf core then s.lane core a (i + e.x.toInt).toNat else 0)
      else none
  | vcompress (d a g : Nat) : MoveRule s core e (.vcompress d a g) d fun i => (lanesOn s core e)[i]?.map (s.lane core a)
  | vexpand (d a g : Nat) : MoveRule s core e (.vexpand d a g) d fun i =>
      if laneOn s core e i then some (s.lane core a ((lanesOn s core e).filter (· < i)).length) else none

/-- The word that the instructions with a general destination write, and the exceptions that they raise (R171, R173, R177, R180). -/
inductive ScalarRule (s : State) (core : Nat) (e : SeqEnt) : Instr → Nat → (Word → FFlags → Prop) → Prop
  | vmovg (d a l : Nat) : ScalarRule s core e (.vmovg d a l) d fun v fl => v = (s.lane core a l).setWidth 64 ∧ fl = 0
  | vcmp (d a b g c : Nat) : ScalarRule s core e (.vcmp d a b g c) d fun v fl => fl = 0 ∧ ∀ j < 64,
      v.getLsbD j = (laneOn s core e j && packedCond c 32 (s.lane core a j).toNat (s.lane core b j).toNat)
  | vfcmp (d a b g c : Nat) : ScalarRule s core e (.vfcmp d a b g c) d fun v fl =>
      (∀ j < 64, v.getLsbD j = (laneOn s core e j && (fcompare c (s.lane core a j).toNat (s.lane core b j).toNat).1)) ∧
      ∀ j < 6, fl.getLsbD j = true ↔
        ∃ i < 64, laneOn s core e i = true ∧ (fcompare c (s.lane core a i).toNat (s.lane core b i).toNat).2.getLsbD j = true
  | vredaddS32 (d a g : Nat) : ScalarRule s core e (.vredaddS32 d a g) d fun v fl => fl = 0 ∧
      v.toInt = sextInt (((lanesOn s core e).map fun i => (s.lane core a i).toNat).sum % 2 ^ 32) 32
  | vredminS32 (d a g : Nat) : ScalarRule s core e (.vredminS32 d a g) d fun v fl => fl = 0 ∧
      v.toInt = ((lanesOn s core e).map fun i => (s.lane core a i).toInt).foldl Min.min (2 ^ 31 - 1)
  | vredmaxS32 (d a g : Nat) : ScalarRule s core e (.vredmaxS32 d a g) d fun v fl => fl = 0 ∧
      v.toInt = ((lanesOn s core e).map fun i => (s.lane core a i).toInt).foldl Max.max (-2 ^ 31)
  | vredminN32 (d a g : Nat) : ScalarRule s core e (.vredminN32 d a g) d fun v fl => fl = 0 ∧
      v.toNat = ((lanesOn s core e).map fun i => (s.lane core a i).toNat).foldl Min.min (2 ^ 32 - 1)
  | vredmaxN32 (d a g : Nat) : ScalarRule s core e (.vredmaxN32 d a g) d fun v fl => fl = 0 ∧
      v.toNat = ((lanesOn s core e).map fun i => (s.lane core a i).toNat).foldl Max.max 0
  | vredaddF32 (d a g : Nat) : ScalarRule s core e (.vredaddF32 d a g) d fun v fl =>
      v = BitVec.ofNat 64 (treeSum { mode := e.rm } 7 ((lanesOn s core e).map fun i => (s.lane core a i).toNat)).1 ∧
        fl = (treeSum { mode := e.rm } 7 ((lanesOn s core e).map fun i => (s.lane core a i).toNat)).2
  | vredminF32 (d a g : Nat) : ScalarRule s core e (.vredminF32 d a g) d fun v fl =>
      v = BitVec.ofNat 64 (fextreme false ((lanesOn s core e).map fun i => (s.lane core a i).toNat)).1 ∧
        fl = (fextreme false ((lanesOn s core e).map fun i => (s.lane core a i).toNat)).2
  | vredmaxF32 (d a g : Nat) : ScalarRule s core e (.vredmaxF32 d a g) d fun v fl =>
      v = BitVec.ofNat 64 (fextreme true ((lanesOn s core e).map fun i => (s.lane core a i).toNat)).1 ∧
        fl = (fextreme true ((lanesOn s core e).map fun i => (s.lane core a i).toNat)).2

/-- A slot is as it was but for its sticky floating exceptions, and every other slot as it was (R92, R166). -/
def onlyFlags (s t : State) (k : Nat) : Prop :=
  t.slot k = { s.slot k with fpflags := (t.slot k).fpflags } ∧ ∀ j, j ≠ k → t.slot j = s.slot j

/-- Every lane but those of one register of one core is as it was. -/
def onlyLanes (s t : State) (core d : Nat) : Prop :=
  ∀ c v i, v < 32 → i < 64 → (c ≠ core ∨ v ≠ d) → t.lane c v i = s.lane c v i

/-- The sequencer can step (R163, R166): its owner is not frozen, no entry has faulted, and no element is unanswered. -/
abbrev stepping (s : State) (core k : Nat) : Prop :=
  (s.core core).vowner = some k ∧ (s.slot k).frozen = false ∧ ∀ e ∈ (s.core core).seq, e.stop = none ∧ e.pending = []

/-- The tensor operand of a matrix instruction passes the checks of R190: the object, its rank and format, the base's alignment, the
matrix right with a right of reading or writing, and the block's place in the own partition. -/
def tensorFits (s u : State) (obj e : Nat) (fmts : List Nat) (o : Word) (R C right : Nat) : Prop :=
  s.objFor s.me.region obj 1 = (.ok e, u) ∧ u.cur = s.cur ∧ u.me = s.me ∧ u.core s.myCore = s.core s.myCore ∧ tRank e = 2 ∧
    tFmt e ∈ fmts ∧ originOk o.toNat = true ∧ tBase e % (if fmtBits (tFmt e) = 4 then 1 else fmtBits (tFmt e) / 8) = 0 ∧
    bit e 501 = true ∧ bit e (496 + right) = true ∧
    ∀ lo hi, blockSpan e (originRow o) (originCol o) R C = some (lo, hi) → u.inPart s.myCore s.me.region lo hi = true

/-- n bytes at an address lie in the own partition (R190). -/
abbrev bytesFit (s : State) (addr : Word) (n : Nat) : Prop :=
  n = 0 ∨ s.inPart s.myCore s.me.region addr.toNat (addr.toNat + n : Nat) = true

/-- The queued operations with their checks (R190, R195 to R198): `u` is the state after the object is read. -/
inductive QueueForm (s u : State) : Instr → MatKind → Prop
  | ldw (obj a ty e : Nat) :
      tensorFits s u obj e [typeFmt ty] (s.g a) (32 * dotWidth ty) 32 0 → QueueForm s u (.ldw obj a ty) (.ldw ty (BitVec.ofNat 512 e) (s.g a))
  | swpw : u = s → QueueForm s u .swpw .swpw
  | scaleOff (a b ty : Nat) : u = s → s.g a = 0 → QueueForm s u (.mscale a b ty) (.mscale ty 0 (s.g b))
  | scaleOn (a b ty : Nat) : u = s → s.g a ≠ 0 → bytesFit s (s.g a) 2048 → bytesFit s (s.g b) 256 →
      QueueForm s u (.mscale a b ty) (.mscale ty (s.g a) (s.g b))
  | mma (obj a b c ty e : Nat) (z : Bool) (l : List Nat) : s.spanOf s.myCore c (shapeM (s.g b)) = some l → shapeOk ty (s.g b) = true →
      eastOk s.myCore (s.g b) = true → tensorFits s u obj e [typeFmt ty] (s.g a) (shapeM (s.g b)) (shapeK (s.g b)) 0 →
      QueueForm s u (.mma obj a b c ty z) (.mma ty z (BitVec.ofNat 512 e) (s.g a) (s.g b) (shapeEast (s.g b)) l)
  | mchain (b c ty : Nat) (z : Bool) (l : List Nat) : u = s → s.spanOf s.myCore c (shapeM (s.g b)) = some l → shapeOk ty (s.g b) = true →
      eastOk s.myCore (s.g b) = true → shapeM (s.g b) ≠ 0 → shapeK (s.g b) ≠ 0 →
      QueueForm s u (.mchain b c ty z) (.mchain ty z (s.g b) (shapeEast (s.g b)) l)

/-- The accumulator accesses with their checks (R190, R191, R200 to R204), and the arrays of their spans. -/
inductive ArrayForm (s u : State) : Instr → AccKind → List Nat → Prop
  | mova (v b c : Nat) (l : List Nat) : u = s → s.spanOf s.myCore c 1 = some l → (s.core s.myCore).vowner = some s.cur →
      ctlOk .mova (s.g b) = true → ArrayForm s u (.mova v b c) (.mova v (s.g b)) l
  | msta (obj a b c e : Nat) (l : List Nat) : s.spanOf s.myCore c (ctlM (s.g b)) = some l → ctlOk .block (s.g b) = true →
      tensorFits s u obj e [14, 15, 7, 8, 9, 10, 11, 12, 5, 3, 1] (s.g a) (ctlM (s.g b)) (ctlN (s.g b)) 1 →
      ArrayForm s u (.msta obj a b c) (.msta (BitVec.ofNat 512 e) (s.g a) (s.g b)) l
  | mlda (obj a b c e : Nat) (l : List Nat) : s.spanOf s.myCore c (ctlM (s.g b)) = some l → ctlOk .block (s.g b) = true →
      tensorFits s u obj e [14, 15, 7, 5] (s.g a) (ctlM (s.g b)) (ctlN (s.g b)) 0 →
      ArrayForm s u (.mlda obj a b c) (.mlda (BitVec.ofNat 512 e) (s.g a) (s.g b)) l
  | mzero (c : Nat) (l : List Nat) : u = s → s.spanOf s.myCore c 1 = some l → ArrayForm s u (.mzero c) .mzero l
  | msel (a b c : Nat) (l : List Nat) : u = s → s.spanOf s.myCore c (ctlM (s.g b)) = some l → ctlOk .msel (s.g b) = true →
      (s.g a).toNat % 8 = 0 → bytesFit s (s.g a) (mselBytes (s.g b)) → ArrayForm s u (.msel a b c) (.msel (s.g a) (s.g b)) l
  | mstat (a op : Nat) : u = s → ArrayForm s u (.mstat a op) (.mstat a (op == 1)) []

/-- The instructions that the holder of a matrix claim alone may issue (R188). -/
def HolderForm (i : Instr) : Prop :=
  (∃ a, i = .munchain a) ∨ (∃ s u k, QueueForm s u i k) ∨ ∃ s u k l, ArrayForm s u i k l

/-- Element k of row m of the A operand of an operation: of its tensor, or of the stream in its tile's buffer (R196, R198). -/
def matA (s : State) (core : Nat) (o : MatOp) (m k : Nat) : Nat :=
  match o.kind with
  | .mma _ _ e g _ _ _ => s.tensorBits core e.toNat (originRow g + m) (originCol g + k)
  | _ => (s.tile (tileOf core)).chain.elim 0 fun c => c.elems.getD (m * c.k + k) 0

/-- Element (k, n) of the stationary plane for an input type; a plane without a type reads as zeros (R195, R196). -/
def matW (s : State) (core ty k n : Nat) : Nat :=
  if (s.core core).stype = some ty then ((find s.planes (2 * core)).getD []).getD (32 * k + n) 0 else 0

/-- The scale of the products of row m and column n at depth k: from the tables of the scale record, with the A byte of a stream that brought
none as 127 (R197, R198). -/
def matScale (s : State) (core : Nat) (o : MatOp) (ty m n k : Nat) : Option Int :=
  match (s.core core).scaleFor ty with
  | none => some 0
  | some r =>
    scaleOf (match o.kind with
      | .mma _ _ _ _ _ _ _ => s.padNum core ((r.atab.toNat + 8 * m + k / 32 : Nat) : Int) 1
      | _ => (s.tile (tileOf core)).chain.elim 127 fun c => c.scales.elim 127 fun l => l.getD (8 * m + k / 32) 127)
      (s.padNum core ((r.wtab.toNat + 8 * n + k / 32 : Nat) : Int) 1)

/-- What a lane of row m and column n holds after an operation: from its value, or from 0 with `.z`, one cell step for each dot group in
ascending k (R95, R96, R196). -/
def macRun (s : State) (core : Nat) (o : MatOp) (ty : Nat) (z : Bool) (w : Word) (m n : Nat) (old new : Acc) : Prop :=
  ∃ x : Nat → Nat, x 0 = (if z then 0 else old.toNat) ∧ new = BitVec.ofNat 40 (x (shapeK w / dotWidth ty)) ∧
    ∀ q < shapeK w / dotWidth ty, x (q + 1) = (cellStep ty (x q)
      ((range' (q * dotWidth ty) (dotWidth ty)).map fun k => (matA s core o m k, matW s core ty k n))
      (matScale s core o ty m n (q * dotWidth ty))).1

/-- An operation of the array with its input type, whether it zeroes first, its shape and the arrays of its span. -/
def arrayOp (k : MatKind) (ty : Nat) (z : Bool) (w : Word) (l : List Nat) : Prop :=
  (∃ e g east, k = .mma ty z e g w east l) ∨ ∃ east, k = .mchain ty z w east l

/-- Arrays of a tile that can hold M rows, each once (R186, R191). -/
abbrev spanFits (l : List Nat) (M : Nat) : Prop := l.Nodup ∧ (∀ j ∈ l, j < 8) ∧ M ≤ 32 * l.length

/-- The accumulator lanes outside some arrays of a tile are as they were. -/
def onlyArrays (s t : State) (tile : Nat) (l : List Nat) : Prop :=
  ∀ y j r c, j < 8 → r < 32 → c < 32 → y ≠ tile ∨ j ∉ l → t.acc y j r c = s.acc y j r c

/-- The lane at row m of a span and column n. -/
abbrev laneAt (s : State) (tile : Nat) (l : List Nat) (m n : Nat) : Acc := s.acc tile (l.getD (m / 32) 0) (m % 32) n

/-- n bytes at an address are bytes of a core's scratchpad (R23, R24). -/
def padHolds (s : State) (core : Nat) (addr : Int) (n : Nat) : Prop :=
  ∃ off : Nat, addr = (2 ^ 56 + s.host.modid * 2 ^ 44 + core * 2 ^ 32 + off : Nat) ∧ off + n ≤ s.scratchSize core

/-- The place of an address in a core's scratchpad. -/
abbrev padPlace (core : Nat) (addr : Int) : Nat := corePlace core (addr.toNat % 2 ^ 32)

/-- A core is live, nothing is captured, no word is uncorrectable and no request is deferred. -/
abbrev padQuiet (s : State) (core : Nat) : Prop :=
  core < 4096 ∧ s.retired core = false ∧ s.host.captures = [] ∧ s.dead = [] ∧ s.deferred = []

/-- The bytes of memory that hold an element of a tensor. -/
abbrev elemLen (e : Nat) : Nat := if fmtBits (tFmt e) = 4 then 1 else fmtBits (tFmt e) / 8

/-- Whether an operation takes part in chaining (R198). -/
def chained : MatKind → Bool
  | .mchain _ _ _ _ _ => true
  | k => k.isEast
/-! ## Host commands (chapter 29) -/

/-- The state in which a command has been answered with a status and a body (R324): the reply has left by the endpoint and is kept
for a repetition of the same sequence number. -/
def answered (h : CtlHdr) (status : Nat) (words : List Word) (u : State) : State :=
  (u.setEndpoint h.ep { last := h.seq, reply := some (status, words) }).sendReply h.ep h.seq status words

/-- The state in which a frame of an endpoint has been heard (R327): a holder of the semaphore that was silent for 1 s has lost it, and the
second of the one that holds it begins again. -/
abbrev heard (s : State) (ep : Nat) : State := s.semLapse.seen ep

/-- A range of physical memory that `MEMRD` and `MEMWR` take (R325): at most 8,192 bytes, a multiple of 8, aligned, in HBM. -/
abbrev physRange (addr len : Nat) : Prop := len ≤ 8192 ∧ len % 8 = 0 ∧ addr % 8 = 0 ∧ addr + len ≤ 2 ^ 39

/-- What the commands of R325 do: the instruction with its header, code and arguments, and the status, the body and the state that
their performance leaves, where the signature and the semaphore allow it. -/
inductive CommandRule (u : State) (h : CtlHdr) : Instr → Nat → List Nat → Nat → List Word → State → Prop
  | launchNoChip (desc flags base len : Nat) : u.host.chipSet = false →
      CommandRule u h (.launch h desc flags base len) 1 [desc, flags, base, len] 7 [] u
  | launchEarly (desc flags base len : Nat) : u.host.chipSet = true → u.host.stage < 4 →
      CommandRule u h (.launch h desc flags base len) 1 [desc, flags, base, len] 8 [] u
  | launch (desc flags base len rid x : Nat) (v : State) : u.host.chipSet = true → 4 ≤ u.host.stage → flags < 2 →
      u.launch true none desc (fun g => { g with collective := flags == 1, capture := false, replay := false }) = ((0, rid, x), v) →
      CommandRule u h (.launch h desc flags base len) 1 [desc, flags, base, len] 0 [BitVec.ofNat 64 rid] v
  | memrd (addr len : Nat) : physRange addr len →
      CommandRule u h (.memrd h addr len) 2 [addr, len] 0 (u.hostReads addr (len / 8)).1 (u.hostReads addr (len / 8)).2
  | memwr (addr : Nat) (data : List Byte) : physRange addr data.length →
      CommandRule u h (.memwr h addr data) 3 ([addr] ++ byteNums data) 0 [] (u.hostWrites addr (wordsOf data))
  | exrd (exno off len : Nat) (l : List Byte) (v : State) : exno < 256 → len ≤ 8960 → off + len ≤ 2 ^ 34 →
      u.windowRead exno off len = (.ok l, v) → CommandRule u h (.exrd h exno off len) 4 [exno, off, len] 0 (wordsOf l) v
  | exwr (exno off region va : Nat) (data : List Byte) (w v : State) : exno < 256 → data.length ≤ 8960 → off + data.length ≤ 2 ^ 34 →
      u.windowRefuses exno off data.length = none → u.windowAt (2 ^ 40 + exno * 2 ^ 34 + off) = (some (region, va), w) →
      u.captureOf region = none → u.windowWrite exno off data = some v →
      CommandRule u h (.exwr h exno off data) 5 ([exno, off] ++ byteNums data) 0 [] v
  | haltNone (r : Nat) : u.region? r = none → CommandRule u h (.regctlHalt h r) 6 [r, 0] 6 [] u
  | halt (r : Nat) (g : Region) : u.region? r = some g → CommandRule u h (.regctlHalt h r) 6 [r, 0] 0 [] (u.haltRegion r 0)
  | resume (r : Nat) (g : Region) : u.region? r = some g →
      CommandRule u h (.regctlResume h r) 6 [r, 1] 0 [] (if g.halted then u.resumeRegion r else u)
  | end_ (r : Nat) (g : Region) : u.region? r = some g →
      CommandRule u h (.regctlEnd h r) 6 [r, 2] 0 [] (if g.halted then u.endRegion r else u)
  | setobj (r i : Nat) (image : List Word) (g : Region) (x : Trans) (v : State) : u.region? r = some g → image.length = 8 → i < g.objcount →
      u.xlate r (g.objAddr i) .r = (.ok x, v) → objType (wordsNum image) < 7 → objReserved v.host.modid (wordsNum image) = false →
      v.objRefused r i (wordsNum image) = false →
      CommandRule u h (.setobj h r i image) 7 ([r, i] ++ image.map BitVec.toNat) 0 []
        (((v.purgeAround 0 x.pa).putObj x.pa x.key (wordsNum image)).objRegister r i (wordsNum image))
  | logrd : u.host.log.length ≤ 64 →
      CommandRule u h (.logrd h) 8 [] 0
        (u.host.log.flatMap logWords ++ List.replicate (256 - 4 * u.host.log.length) 0 ++ [BitVec.ofNat 64 u.host.logCount]) u
  | energyrdDevice : CommandRule u h (.energyrd h 0) 9 [0] 0 [BitVec.ofNat 64 u.host.spent0, 0] u
  | energyrd (r : Nat) (g : Region) : r ≠ 0 → u.region? r = some g →
      CommandRule u h (.energyrd h r) 9 [r] 0 [BitVec.ofNat 64 g.spent, BitVec.ofNat 64 g.acct.toNat] u
  | hkrd (off : Nat) : off % 8 = 0 → off < 0x400 → CommandRule u h (.hkrd h off) 10 [off] 0 [u.hkWord off] u
  | semtakeHeld (ep : Nat) : u.host.sem = some ep → (h.ep = 1 → ∀ d ∈ u.agenda, ∀ g, d.ev = .semtake g → g.ep ≠ 0) →
      CommandRule u h (.semtake h) 11 [] 2 [] u
  | semtake : u.host.sem = none → (h.ep = 1 → ∀ d ∈ u.agenda, ∀ g, d.ev = .semtake g → g.ep ≠ 0) →
      CommandRule u h (.semtake h) 11 [] 0 [] (({ u with host := { u.host with sem := some h.ep } } : State).seen h.ep)
  | semgive : u.host.sem = some h.ep → CommandRule u h (.semgive h) 12 [] 0 [] { u with host := { u.host with sem := none } }
  | semgiveOther : u.host.sem ≠ some h.ep → CommandRule u h (.semgive h) 12 [] 2 [] u
  | keyClear (k : Nat) : 0 < k → k < 256 →
      CommandRule u h (.keyloadClear h k) 13 [k, 0] 0 []
        { u.dropKey k with host := { (u.dropKey k).host with keys := del (u.dropKey k).host.keys k } }
  | keyLoad (k owner : Nat) (wrapped : List Byte) (g : Region) : 0 < k → k < 256 → wrapped.length = 72 → find u.host.keys k = none →
      u.region? owner = some g → g.parent = none →
      CommandRule u h (.keyloadLoad h k owner wrapped) 13 ([k, 1, owner] ++ byteNums wrapped)
        (if (Config.unwrap wrapped).isSome then 0 else 8) []
        (match Config.unwrap wrapped with
          | some pair => { u with host := { u.host with keys := put u.host.keys k { pair := pair, owner := owner } } }
          | none => u)
  | fwupdRejected (chunk : List Byte) : chunk.length ≤ 8960 → Config.chunksRejected (u.host.fwStaged ++ chunk) = true →
      CommandRule u h (.fwupd h chunk) 14 (byteNums chunk) 8 [] u
  | fwupd (chunk : List Byte) : chunk.length ≤ 8960 → Config.chunksRejected (u.host.fwStaged ++ chunk) = false →
      CommandRule u h (.fwupd h chunk) 14 (byteNums chunk) 0 [] { u with host := { u.host with fwStaged := u.host.fwStaged ++ chunk } }
  | setchip (chip : Nat) : chip < 4096 → u.regions = [] →
      CommandRule u h (.setchip h chip) 16 [chip] 0 [] { u with host := { u.host with modid := chip, chipSet := true } }
  | setchipLate (chip : Nat) : chip < 4096 → u.regions ≠ [] → CommandRule u h (.setchip h chip) 16 [chip] 8 [] u
  | joinTwice (group : Nat) : u.pacer.group.isSome = true → CommandRule u h (.groupJoin h group) 17 [0, group] 8 [] u
  | leaveOther (group : Nat) : u.pacer.group ≠ some group → CommandRule u h (.groupLeave h group) 17 [1, group] 8 [] u
  | leaveAlone (group : Nat) : u.pacer.group = some group → u.pacer.leader = u.host.modid → u.pacer.members = [u.host.modid] →
      CommandRule u h (.groupLeave h group) 17 [1, group] 0 [] u.outside
  | route (chip mask : Nat) : chip < 4096 → mask < 65536 → (∀ p < 16, (u.port p).st ≠ .failed) →
      CommandRule u h (.route h chip mask) 18 [chip, mask] 0 [] { u with host := { u.host with routes := put u.host.routes chip mask } }
  | wqcfg (queue addr port : Nat) : queue < 4 →
      CommandRule u h (.wqcfg h queue addr port) 19 [queue, addr, port] 0 []
        (({ u with host := { u.host with wqcfg := put u.host.wqcfg queue (addr, port) } } : State).later (.wicketEgress queue))
  | caprd (r off len : Nat) (c : Capture) : (u.host.captures.filter fun c => c.region == r && !c.replay).getLast? = some c →
      len ≤ 8960 → off + len ≤ c.len → len % 8 = 0 → off % 8 = 0 → c.base % 8 = 0 →
      CommandRule u h (.caprd h r off len) 20 [r, off, len] 0 (u.hostReads (c.base + off) (len / 8)).1 (u.hostReads (c.base + off) (len / 8)).2
  | attest (nonce : List Byte) : nonce.length = 32 → CommandRule u h (.attest h nonce) 21 (byteNums nonce) 0 (u.report nonce) u
  | badcmd (code : Nat) : code = 0 ∨ 21 < code → CommandRule u h (.controlBadcmd h code) code [] 4 [] u
/-! ## Requests and events -/

/-- A request may be performed at its home now (R234, R237): nothing holds it, delays it or sends it elsewhere. -/
abbrev atItsHome (s : State) (q : Req) : Prop :=
  q.miss = false ∧ q.drain = false ∧ q.locked = false ∧ q.hops = [] ∧ s.inRetry q = false ∧ (∀ p ∈ s.cache.conflict, p.2 ≠ q.id) ∧
    s.overtakes q = false ∧ q.away = none ∧ q.via = none ∧ s.early q = false ∧
    (homeUnit q.place / 2 ^ 16 = 1 → ofCore q.src = true → s.behindPair (srcCore q.src) (homeUnit q.place % 2 ^ 16) q.id = false)

/-- An event of the agenda that may happen at any time. -/
abbrev planned (s : State) (e : Ev) : Prop := ∃ d ∈ s.agenda, d.ev = e ∧ d.at_ = .any

/-- A message has set out from a die to another: its event may happen at any time, or first its packet crosses bridges, or a failed
bridge gives it what R266 says. -/
def setsOut (t : State) (e : Ev) (from_ to_ : Nat) : Prop :=
  match bridgePath from_ to_ with
  | [] => planned t e
  | d :: r => if (t.bridge d).st = .failed then planned t (failEvent e) else ∃ p ∈ t.parcels, p.ev = e ∧ p.hops = d :: r

/-- An event of a region is on its way to its queue, with `TIME` at it (R292). -/
def tells (s : State) (e : Told) : Prop := planned s e.event ∧ e ∈ s.told

/-- An event of the agenda that happens at a time or later. -/
abbrev plannedAt (s : State) (e : Ev) (n : Nat) : Prop := ∃ d ∈ s.agenda, d.ev = e ∧ d.at_ = .time n

/-- An event of the agenda that happens at a cycle of a core or later. -/
abbrev plannedFor (s : State) (e : Ev) (core n : Nat) : Prop := ∃ d ∈ s.agenda, d.ev = e ∧ d.at_ = .cycle core n

/-- A thread of a region is ready, unless the region is halted (R33). -/
def readyIn (s t : State) (k region : Nat) : Prop :=
  if s.halted region then (t.slot k).st = .halted ∧ (t.slot k).wait = .regionHalt else (t.slot k).st = .ready

/-- The priority and the place in the order of creation of the region of a slot's thread (R271, R312). -/
def regionRank (s : State) (k : Nat) : Nat × Nat := (s.region? (s.slot k).region).elim (0, 0) fun g => (g.prio, g.age)

/-- Position i of a core is shuttered before position j (R312): a position without a thread first, the highest of those first; then threads,
the lowest priority first, the youngest region among equal ones, the highest slot within a region. -/
def shutFirst (s : State) (core i j : Nat) : Prop :=
  let idle (n : Nat) : Prop := (s.slot (64 * core + n)).st = .empty ∨ (s.slot (64 * core + n)).st = .held
  let rank (n : Nat) : Nat × Nat := regionRank s (64 * core + n)
  (idle i ∧ (idle j → j < i)) ∨
    (¬ idle i ∧ ¬ idle j ∧ ((rank i).1 < (rank j).1 ∨ ((rank i).1 = (rank j).1 ∧
      ((rank j).2 < (rank i).2 ∨ ((rank j).2 = (rank i).2 ∧ j < i)))))

/-- A thread has started in a slot from a READY task TCB or from a resumed one (R43, R59). -/
def startedFrom (t : State) (k key base : Nat) (tc : Tcb) : Prop :=
  let task := if refValid tc.task then tc.task else tcbRef key
  (t.slot k).st = .ready ∧ (t.slot k).pc = tc.pc &&& ~~~3#64 ∧ (t.slot k).region = tc.region ∧ (t.slot k).wclass = tc.wclass ∧
    (t.slot k).base = base ∧ (t.slot k).task = task ∧ (t.slot k).slink = (if refValid tc.task then tc.slink else 0) ∧
    (∀ j < 16, (t.slot k).p j = (j == 15)) ∧ t.greg k 1 = { val := tc.fp } ∧ t.greg k 3 = { val := task.setWidth 64 } ∧
    (∀ j < windowSize tc.wclass, j ≠ 1 → j ≠ 3 → t.greg k j = {}) ∧ (t.tcb key).state = 3

/-- The UDP payload of a frame of the Wicket (R347) for entry `e` of a queue, with its software tag: of a released frame with its bytes, or of
a notice. -/
def wicketBytes (l : List Byte) (queue e tag : Nat) (data : Option (List Byte)) : Prop :=
  leNat (l.take 2) = 0xC7A6 ∧ (l.getD 2 0).toNat = queue ∧ (l.getD 3 0).toNat = (if data.isSome then 1 else 2) ∧
    leNat ((l.drop 4).take 8) = e % 2 ^ 64 ∧ leNat ((l.drop 12).take 6) = tag ∧ (l.getD 18 0).toNat = (data.getD []).length ∧
    (l.drop 19).take 5 = [0, 0, 0, 0, 0] ∧ l.drop 24 = data.getD []

/-! ## Decoding and steps -/

/-- The event of chapter 95 that an entry of the agenda stands for, as a constructor of the instruction type; the moves of an engine
between its events stand for none. -/
inductive EventRow : Ev → Instr → Prop
  | divideComplete (k : Nat) : EventRow (.divideComplete k) (.divideComplete k)
  | replyArrival (id : Nat) : EventRow (.replyArrival id) (.replyArrival id)
  | remoteStoreAck (id : Nat) : EventRow (.remoteStoreAck id) (.remoteStoreAck id)
  | homeAccess (id : Nat) : EventRow (.homeAccess id) (.homeAccess id)
  | nackReceived (id : Nat) : EventRow (.nackReceived id) (.nackReceived id)
  | retryParkExpiry (k : Nat) : EventRow (.retryParkExpiry k) (.retryParkExpiry k)
  | parkTimeout (k : Nat) : EventRow (.parkTimeout k) (.parkTimeout k)
  | scopeMissReturn (id : Nat) : EventRow (.scopeMissReturn id) (.scopeMissReturn id)
  | omegaCombine (id0 id1 : Nat) : EventRow (.omegaCombine id0 id1) (.omegaCombine id0 id1)
  | combinedReplySplit (id : Nat) : EventRow (.combinedReplySplit id) (.combinedReplySplit id)
  | bankMissFill (line : Nat) : EventRow (.bankMissFill line) (.bankMissFill line)
  | conflictQueueServe (line : Nat) : EventRow (.conflictQueueServe line) (.conflictQueueServe line)
  | hotWindowEnd (bank : Nat) : EventRow (.hotWindowEnd bank) (.hotWindowEnd bank)
  | hotReplicaAck (line : Nat) : EventRow (.hotReplicaAck line) (.hotReplicaAck line)
  | redirectInstall (tile line : Nat) : EventRow (.redirectInstall tile line) (.redirectInstall tile line)
  | hotLineRecall (line : Nat) : EventRow (.hotLineRecall line) (.hotLineRecall line)
  | recallWithdraw (line : Nat) (who : Holder) : EventRow (.recallWithdraw line who) (.recallWithdraw line who)
  | recallComplete (line : Nat) : EventRow (.recallComplete line) (.recallComplete line)
  | helperEvictReport (line slice : Nat) : EventRow (.helperEvictReport line slice) (.helperEvictReport line slice)
  | redirectDrain (id : Nat) : EventRow (.redirectDrain id) (.redirectDrain id)
  | bridgeFlitReceive (dir : Nat) : EventRow (.bridgeFlitReceive dir) (.bridgeFlitReceive dir)
  | bridgeAckReceive (dir n : Nat) : EventRow (.bridgeAckReceive dir n) (.bridgeAckReceive dir n)
  | bridgeRetrain (dir : Nat) : EventRow (.bridgeRetrain dir) (.bridgeRetrain dir)
  | bridgeRetrainDone (dir : Nat) : EventRow (.bridgeRetrainDone dir) (.bridgeRetrainDone dir)
  | bridgeFailTimeout (dir : Nat) : EventRow (.bridgeFailTimeout dir) (.bridgeFailTimeout dir)
  | relayFrameReceive (port : Nat) (frame : Nat) (pkts : List RelayPkt) : EventRow (.relayFrameReceive port frame pkts) (.relayFrameReceive port frame pkts)
  | relayPortTimeout (port : Nat) : EventRow (.relayPortTimeout port) (.relayPortTimeout port)
  | sendrDelivery (id : Nat) : EventRow (.sendrDelivery id) (.sendrDelivery id)
  | hubAllocate (core : Nat) : EventRow (.hubAllocate core) (.hubAllocate core)
  | stealSweep (core : Nat) : EventRow (.stealSweep core) (.stealSweep core)
  | stealRestExpiry (core : Nat) : EventRow (.stealRestExpiry core) (.stealRestExpiry core)
  | stealHubAck (core : Nat) : EventRow (.stealHubAck core) (.stealHubAck core)
  | stealArrival (core : Nat) : EventRow (.stealArrival core) (.stealArrival core)
  | tcbDecrement (key : Nat) (requester : Word) : EventRow (.tcbDecrement key requester) (.tcbDecrement key requester)
  | taskRetire (key : Nat) (requester : Word) : EventRow (.taskRetire key requester) (.taskRetire key requester)
  | dequeRefillArrival (k : Nat) : EventRow (.dequeRefillArrival k) (.dequeRefillArrival k)
  | migrationArrival (id : Nat) : EventRow (.migrationArrival id) (.migrationArrival id)
  | landingQueueTake (core : Nat) : EventRow (.landingQueueTake core) (.landingQueueTake core)
  | landingAck (id : Nat) : EventRow (.landingAck id) (.landingAck id)
  | bounceReturn (id : Nat) : EventRow (.bounceReturn id) (.bounceReturn id)
  | landnRaiseComplete (core : Nat) : EventRow (.landnRaiseComplete core) (.landnRaiseComplete core)
  | vectorStep (core : Nat) : EventRow (.vectorStep core) (.vectorStep core)
  | vectorPendingWrite (core : Nat) : EventRow (.vectorPendingWrite core) (.vectorPendingWrite core)
  | vectorElementReply (id : Nat) : EventRow (.vectorElementReply id) (.vectorElementReply id)
  | matrixArraySelect (tile : Nat) : EventRow (.matrixArraySelect tile) (.matrixArraySelect tile)
  | matrixOpStart (core : Nat) : EventRow (.matrixOpStart core) (.matrixOpStart core)
  | matrixOpRetire (core : Nat) : EventRow (.matrixOpRetire core) (.matrixOpRetire core)
  | accAccessAttempt (core : Nat) : EventRow (.accAccessAttempt core) (.accAccessAttempt core)
  | engineComplete (id : Nat) : EventRow (.engineComplete id) (.engineComplete id)
  | strideSpillReturn (tile : Nat) : EventRow (.strideSpillReturn tile) (.strideSpillReturn tile)
  | pushmMemberAck (id member : Nat) : EventRow (.pushmMemberAck id member) (.pushmMemberAck id member)
  | pushXTimeout (id : Nat) : EventRow (.pushXTimeout id) (.pushXTimeout id)
  | fabredRankTimeout (id rank : Nat) : EventRow (.fabredRankTimeout id rank) (.fabredRankTimeout id rank)
  | donateAnswer (id status : Nat) : EventRow (.donateAnswer id status) (.donateAnswer id status)
  | donateTimeout (id : Nat) : EventRow (.donateTimeout id) (.donateTimeout id)
  | donationReceive (srcChip id tregion tobj : Nat) (image : List Word) : EventRow (.donationReceive srcChip id tregion tobj image) (.donationReceive srcChip id tregion tobj image)
  | donationDrain (region obj : Nat) : EventRow (.donationDrain region obj) (.donationDrain region obj)
  | handlerOwedStart (cluster : Nat) : EventRow (.handlerOwedStart cluster) (.handlerOwedStart cluster)
  | eventDelivery (region code : Nat) (w1 w2 : Word) : EventRow (.eventDelivery region code w1 w2) (.eventDelivery region code w1 w2)
  | preemptDecision (cluster : Nat) : EventRow (.preemptDecision cluster) (.preemptDecision cluster)
  | preemptRequestArrival (k : Nat) : EventRow (.preemptRequestArrival k) (.preemptRequestArrival k)
  | preemptSaveComplete (k : Nat) : EventRow (.preemptSaveComplete k) (.preemptSaveComplete k)
  | threadRestore (image : Nat) : EventRow (.threadRestore image) (.threadRestore image)
  | threadStale (k : Nat) : EventRow (.threadStale k) (.threadStale k)
  | translationWalk (id : Nat) : EventRow (.translationWalk id) (.translationWalk id)
  | walkComplete (id : Nat) : EventRow (.walkComplete id) (.walkComplete id)
  | levelChange (tile : Nat) : EventRow (.levelChange tile) (.levelChange tile)
  | clockRestart (tile : Nat) : EventRow (.clockRestart tile) (.clockRestart tile)
  | shutterUpdate (core count : Nat) : EventRow (.shutterUpdate core count) (.shutterUpdate core count)
  | billingSend : EventRow (.billingSend) (.billingSend)
  | billingReceive (region nj : Nat) : EventRow (.billingReceive region nj) (.billingReceive region nj)
  | pacerEpochReceive (m : EpochMsg) : EventRow (.pacerEpochReceive m) (.pacerEpochReceive m)
  | pacerCeilingApply : EventRow (.pacerCeilingApply) (.pacerCeilingApply)
  | pacerAnnounce (level bite : Nat) : EventRow (.pacerAnnounce level bite) (.pacerAnnounce level bite)
  | leaderAnnounceHandle (chip level bite : Nat) (hard : Bool) : EventRow (.leaderAnnounceHandle chip level bite hard) (.leaderAnnounceHandle chip level bite hard)
  | announceRejected : EventRow (.announceRejected) (.announceRejected)
  | hardDrop (level : Nat) : EventRow (.hardDrop level) (.hardDrop level)
  | leaderRaise (lead : Nat) : EventRow (.leaderRaise lead) (.leaderRaise lead)
  | pacerHeartbeat : EventRow (.pacerHeartbeat) (.pacerHeartbeat)
  | proposalChange (level : Nat) : EventRow (.proposalChange level) (.proposalChange level)
  | memberSilence (chip : Nat) : EventRow (.memberSilence chip) (.memberSilence chip)
  | leaderSilence : EventRow (.leaderSilence) (.leaderSilence)
  | slackWindowEnd : EventRow (.slackWindowEnd) (.slackWindowEnd)
  | launch (h : CtlHdr) (desc flags capBase capLen : Nat) : EventRow (.launch h desc flags capBase capLen) (.launch h desc flags capBase capLen)
  | memrd (h : CtlHdr) (addr len : Nat) : EventRow (.memrd h addr len) (.memrd h addr len)
  | memwr (h : CtlHdr) (addr : Nat) (data : List Byte) : EventRow (.memwr h addr data) (.memwr h addr data)
  | exrd (h : CtlHdr) (exno off len : Nat) : EventRow (.exrd h exno off len) (.exrd h exno off len)
  | exwr (h : CtlHdr) (exno off : Nat) (data : List Byte) : EventRow (.exwr h exno off data) (.exwr h exno off data)
  | regctlHalt (h : CtlHdr) (region : Nat) : EventRow (.regctlHalt h region) (.regctlHalt h region)
  | regctlResume (h : CtlHdr) (region : Nat) : EventRow (.regctlResume h region) (.regctlResume h region)
  | regctlEnd (h : CtlHdr) (region : Nat) : EventRow (.regctlEnd h region) (.regctlEnd h region)
  | setobj (h : CtlHdr) (region index : Nat) (image : List Word) : EventRow (.setobj h region index image) (.setobj h region index image)
  | logrd (h : CtlHdr) : EventRow (.logrd h) (.logrd h)
  | energyrd (h : CtlHdr) (region : Nat) : EventRow (.energyrd h region) (.energyrd h region)
  | hkrd (h : CtlHdr) (off : Nat) : EventRow (.hkrd h off) (.hkrd h off)
  | semtake (h : CtlHdr) : EventRow (.semtake h) (.semtake h)
  | semgive (h : CtlHdr) : EventRow (.semgive h) (.semgive h)
  | keyloadClear (h : CtlHdr) (slot : Nat) : EventRow (.keyloadClear h slot) (.keyloadClear h slot)
  | keyloadLoad (h : CtlHdr) (slot owner : Nat) (wrapped : List Byte) : EventRow (.keyloadLoad h slot owner wrapped) (.keyloadLoad h slot owner wrapped)
  | fwupd (h : CtlHdr) (chunk : List Byte) : EventRow (.fwupd h chunk) (.fwupd h chunk)
  | reset (h : CtlHdr) : EventRow (.reset h) (.reset h)
  | setchip (h : CtlHdr) (chip : Nat) : EventRow (.setchip h chip) (.setchip h chip)
  | groupJoin (h : CtlHdr) (group : Nat) : EventRow (.groupJoin h group) (.groupJoin h group)
  | groupLeave (h : CtlHdr) (group : Nat) : EventRow (.groupLeave h group) (.groupLeave h group)
  | route (h : CtlHdr) (chip mask : Nat) : EventRow (.route h chip mask) (.route h chip mask)
  | wqcfg (h : CtlHdr) (queue addr port : Nat) : EventRow (.wqcfg h queue addr port) (.wqcfg h queue addr port)
  | caprd (h : CtlHdr) (region off len : Nat) : EventRow (.caprd h region off len) (.caprd h region off len)
  | attest (h : CtlHdr) (nonce : List Byte) : EventRow (.attest h nonce) (.attest h nonce)
  | controlBadcmd (h : CtlHdr) (code : Nat) : EventRow (.controlBadcmd h code) (.controlBadcmd h code)
  | foreignFrame : EventRow (.foreignFrame) (.foreignFrame)
  | ctlsemTimeout : EventRow (.ctlsemTimeout) (.ctlsemTimeout)
  | wicketEgress (queue : Nat) : EventRow (.wicketEgress queue) (.wicketEgress queue)
  | replayHeldAccess (id : Nat) : EventRow (.replayHeldAccess id) (.replayHeldAccess id)
  | powerOnReset : EventRow (.powerOnReset) (.powerOnReset)
  | discoveryFloodReceive (core round : Nat) : EventRow (.discoveryFloodReceive core round) (.discoveryFloodReceive core round)
  | discoveryAnswer (core round : Nat) : EventRow (.discoveryAnswer core round) (.discoveryAnswer core round)
  | discoveryTimeout : EventRow (.discoveryTimeout) (.discoveryTimeout)
  | relayLinkRetrain (port : Nat) : EventRow (.relayLinkRetrain port) (.relayLinkRetrain port)
  | relayLinkRetrainDone (port : Nat) : EventRow (.relayLinkRetrainDone port) (.relayLinkRetrainDone port)
  | lineEviction (level : CacheLevel) (line : Nat) : EventRow (.lineEviction level line) (.lineEviction level line)
  | patrolScrub (place : Nat) : EventRow (.patrolScrub place) (.patrolScrub place)
  | replayExternalInput (region : Nat) (input : ExtInput) : EventRow (.replayExternalInput region input) (.replayExternalInput region input)

/-- The bytes of the words of an instruction as they are stored, each word lowest byte first (R3, R60). -/
def wordBytes (l : List Nat) : List Byte := (l.map (leBytes 4)).flatten

/-- A core's TLB and instruction cache give a thread the code at an address (R59, R116, R303, R305, R307): a TLB entry of the core with the X
right serves it, and the line it names is in the cache, under the entry's key and with the word readable. -/
def codeAt (s : State) (k : Nat) (addr : Word) (e : TlbEnt) (d : Line) : Prop :=
  bits addr.toNat 56 8 = 0 ∧ s.tlbHit (coreOf k) (s.slot k).region addr.toNat = some e ∧ leafPermits .x e.pte.toNat = true ∧
    s.keyPermits (s.slot k).region (bits e.pte.toNat 56 8) = true ∧
    find s.cache.ic (l1Key (coreOf k) ((transOf e.pte.toNat e.level addr.toNat).pa / 128)) = some d ∧
    d.key = (transOf e.pte.toNat e.level addr.toNat).key ∧ d.badWord ((transOf e.pte.toNat e.level addr.toNat).pa % 128 / 8) = false

/-- The 32 bits of code at an address that `codeAt` gives. -/
def codeWord (addr : Word) (e : TlbEnt) (d : Line) : Nat := bits d.data.toNat (8 * ((transOf e.pte.toNat e.level addr.toNat).pa % 128)) 32

end Sys2Proof.Machine
end

