-- ==== Sys2Proof/Certificates/Slice0/Obligations.lean ====
section
/-! DEFINITION. The statements about the model, for the provers. -/

open Sys2Proof Sys2Proof.Machine

/-! ## Scalar instructions -/

/-- R102 to R104, R106, R109, R110: what the integer instructions write, and that they complete. -/
def Obligations.IntegerResults : Prop :=
  ∀ (s : State) (i : Instr) (a b : Option Nat) (d : Nat) (R : State → Word → Word → Word → Prop),
    IntRule i a b d R → wellFormed i = true → admits i a b (some d) s = true →
    ∃ v, R s (srcA a s) (srcB a b s) v ∧ exec i s = .next (retired i a b d v s)

/-- R104, R105: what the shifts, rotates, bit and extension instructions write, and that they complete. -/
def Obligations.BitResults : Prop :=
  ∀ (s : State) (i : Instr) (a b : Option Nat) (d : Nat) (R : Word → Word → Word → Prop),
    BitRule i a b d R → wellFormed i = true → admits i a b (some d) s = true →
    ∃ v, R (srcA a s) (srcB a b s) v ∧ exec i s = .next (retired i a b d v s)

/-- R107, R108: what each sub-element of a packed result is, and that the instruction completes. -/
def Obligations.PackedResults : Prop :=
  ∀ (s : State) (i : Instr) (d a b w : Nat) (f : Nat → Nat → Nat → Nat → Int),
    PackedRule i d a b w f → wellFormed i = true → admits i (some a) (some b) (some d) s = true →
    ∃ v, (∀ e < 64 / packedWidth w, (bits v.toNat (packedWidth w * e) (packedWidth w) : Int) =
        f (packedWidth w) (bits (srcA (some a) s).toNat (packedWidth w * e) (packedWidth w))
          (bits (srcB (some a) (some b) s).toNat (packedWidth w * e) (packedWidth w)) (amount (srcB (some a) (some b) s))
          % 2 ^ packedWidth w) ∧
      exec i s = .next (retired i (some a) (some b) d v s)

/-- R101, R102: a divide makes its thread wait 40 cycles for the result, and DIVIDE_COMPLETE is due then. R101: DIVIDE_COMPLETE writes the result of a divide, and its thread goes on at the next instruction. -/
def Obligations.Divides : Prop :=
  (∀ (s : State) (i : Instr) (d a b : Nat) (signed wantRem : Bool),
      DivideForm i d a b signed wantRem → wellFormed i = true → admits i (some a) (some b) (some d) s = true →
      ∃ v place t, divRule signed wantRem (srcA (some a) s) (srcB (some a) (some b) s) v ∧ exec i s = .next t ∧
        t.me.st = .waiting ∧ t.me.wait = .divide d v (s.cycle s.myCore + 40) place ∧ t.me.pc = s.me.pc ∧
        (place.isSome = (bindOf s.me.portmap d).isSome) ∧
        plannedFor t (.divideComplete s.cur) s.myCore (s.cycle s.myCore + 40) ∧
        othersKept s t ∧ t.regs = s.regs ∧ sameBytes s t) ∧
  (∀ (s : State) (k d due : Nat) (v : Word),
      (s.slot k).st = .waiting → (s.slot k).wait = .divide d v due none → due ≤ s.cycle (coreOf k) →
      ∃ t, exec (.divideComplete k) s = .next t ∧ t.slot k = { (s.slot k).past 4 with st := .ready, wait := .none } ∧
        t.greg k d = { val := v } ∧ (∀ j, j ≠ k → t.slot j = s.slot j) ∧ sameBytes s t)

/-- R111 to R113: what the compares and `PLOG` write, and that nothing but predicate p changes. R113: `PMOV` writes the predicate word from bits [14:0] of a register. -/
def Obligations.Predicates : Prop :=
  (∀ (s : State) (i : Instr) (a b : Option Nat) (p : Nat) (f : Slot → Word → Word → Bool),
      PredForm i a b p f → wellFormed i = true → admits i a b none s = true →
      ∃ t, exec i s = .next t ∧ predRule p (f s.me (srcA a s) (srcB a b s)) s.me t.me ∧
        t.me = { s.me.past 4 with pw := t.me.pw } ∧ t = { s with slots := t.slots, queues := t.queues } ∧ othersKept s t) ∧
  (∀ (s : State) (a : Nat), wellFormed (.pmovToPw a) = true → admits (.pmovToPw a) (some a) none none s = true →
      ∃ t, exec (.pmovToPw a) s = .next t ∧ (∀ j < 16, t.me.p j = (j == 15 || (srcA (some a) s).getLsbD j)) ∧
        t.me = { s.me.past 4 with pw := t.me.pw } ∧ t = { s with slots := t.slots, queues := t.queues } ∧ othersKept s t)

/-- R59, R67, R114, R115: where a control transfer goes and what it links; a misaligned target of a register form traps ALIGN at the
jump. Every word of the hint block is a hint, which acts as `NOP`: only PC advances; `NOP` is 0x5C000040. -/
def Obligations.ControlTransfers : Prop :=
  (∀ (s : State) (i : Instr) (reg : Bool) (target : State → Word),
    JumpForm i reg target → wellFormed i = true → admits i none none none s = true →
    ((reg = true → (target s).toNat % 4 = 0) →
      ∃ t, exec i s = .next t ∧ t.me.pc = target s ∧ t.me.pw = s.me.pw ∧ othersKept s t ∧
        (if links i then t.greg s.cur 2 = { val := s.me.pc + 4 } ∧ onlyReg s t 2 else t.regs = s.regs ∧ t.dead = s.dead ∧ t.soft = s.soft) ∧
        t = { s with slots := t.slots, regs := t.regs, dead := t.dead, soft := t.soft }) ∧
    (reg = true → (target s).toNat % 4 ≠ 0 → exec i s = .next (s.trapAt .align 0 0 (target s) 0 0))) ∧
  (∀ w x : Nat, w < 2 ^ 32 → bits w 26 6 = 0x17 → bits w 6 1 = 1 →
      ∃ h n m, decode w x = .ok (.hint h n m) ∧ wellFormed (.hint h n m) = true) ∧
  decode 0x5C000040 0 = .ok (.hint 0 0 0) ∧
  ∀ (s : State) (h n m : Nat), wellFormed (.hint h n m) = true → admits (.hint h n m) none none none s = true →
    ∃ t, exec (.hint h n m) s = .next t ∧ t = { s with slots := t.slots } ∧ t.me = s.me.past 4 ∧ othersKept s t

/-- The frame of the pipeline's instructions (R56, R59, R100): only the destination, the queues bound to the sources and the
destination, and PC change; no byte of memory does. -/
def Obligations.PipelineFrame : Prop :=
  ∀ (s t : State) (i : Instr) (a b : Option Nat) (d : Nat),
    PipelineForm i a b d → admits i a b (some d) s = true → exec i s = .next t →
    t = { s with slots := t.slots, regs := t.regs, queues := t.queues, dead := t.dead, soft := t.soft } ∧ othersKept s t ∧
      t.me = s.me.past 4 ∧ onlyReg s t d ∧ ((bindOf s.me.portmap d).isSome = true → t.regs = s.regs) ∧
      onlyQueues s t [a, b, some d] ∧ sameBytes s t

/-- R285, R286, R289: a trap halts its thread with its `X` registers written, whatever becomes of its record. R287 to R290: its record is
written in the region's fault queue at the place that `delivered` names, `delivered` is counted and the handler is started; while that place
holds a pending record it waits. A word that the device writes stands at the home of its place. R123, R285: `TRAP` halts its thread with its
code in `XINFO`, to resume at the next instruction. -/
def Obligations.Traps : Prop :=
  (∀ (s : State) (c : Cause) (source level : Nat) (xaddr xprog xinfo : Word),
      s.cur < 2 ^ 20 → s.me.st = .ready →
      trapped s (s.trapAt c source level xaddr xprog xinfo) c source level xaddr xprog xinfo s.me.pc) ∧
  (∀ (s t u v x : State) (c : Cause) (source level : Nat) (xaddr xprog xinfo q dlv seen lost w : Word) (g : Region),
      s.cur < 2 ^ 20 → s.me.st = .ready → s.region? s.me.region = some g → t = s.trapAt c source level xaddr xprog xinfo →
      u = s.haltWith s.cur c source level s.me.pc xaddr xprog xinfo s.me.pc → u.unhandled s.cur = false →
      u.devReads s.me.region g.fltq.toNat 4 = (.ok [q, dlv, seen, lost], v) → 4 ≤ q.toNat % 16 → q.toNat % 16 ≤ 12 →
      v.devRead s.me.region (recordAddr g.fltq.toNat (q.toNat % 16) dlv.toNat + 56) = (.ok w, x) →
      (w.getLsbD 63 = true →
        t.me.wait = .record none ∧ t.mem = x.mem ∧ t.cache = x.cache ∧ ∃ h, t.region? s.me.region = some h ∧ s.cur ∈ h.recq) ∧
      ∀ y z, w.getLsbD 63 = false →
        x.devWrites s.me.region (recordAddr g.fltq.toNat (q.toNat % 16) dlv.toNat)
          (faultRecord s.me.pc (xcauseOf c source level) xaddr xprog xinfo s.me.pc (s.nameOf s.cur) dlv.toNat) = (.ok (), y) →
        y.devWrite s.me.region (g.fltq.toNat + 8) (dlv + 1) = (.ok (), z) →
        t.me.wait = .record (some dlv.toNat) ∧ t.mem = z.mem ∧ t.cache = z.cache ∧ handlerStarted z t s.me.region) ∧
  (∀ (s t u : State) (r va : Nat) (v : Word) (x : Trans), s.xlate r va .w = (.ok x, u) → s.devWrite r va v = (.ok (), t) →
      isHbm x.pa = true → x.pa % 8 = 0 → t.homeNum x.pa 8 = v.toNat) ∧
  (∀ (s : State) (c : Nat), wellFormed (.trap c) = true → s.cur < 2 ^ 20 → admits (.trap c) none none none s = true →
      ∃ t, exec (.trap c) s = .next t ∧ trapped s t .trap 0 0 0 0 (BitVec.ofNat 64 c) (s.me.pc + 4))

/-! ## System registers, traps and services -/

/-- R117, R119, R122, R322: `MFS` completes for every system register; the registers of `readsAs` read as their fields. -/
def Obligations.SystemRegisterReads : Prop :=
  ∀ (s : State) (d n : Nat), wellFormed (.mfs d n) = true → admits (.mfs d n) none none (some d) s = true →
    (n = 0x006 ∨ n = 0x007 → s.vecQuiet s.cur = true) → s.captureOf s.me.region = none →
    ∃ v, readsAs s s.cur n v ∧ exec (.mfs d n) s = .next (retired (.mfs d n) none none d v s)

/-- R117, R122: `MTS` of the thread's own registers writes the field and no other; a read-only register ignores it. -/
def Obligations.SystemRegisterWrites : Prop :=
  ∀ (s : State) (d n : Nat), wellFormed (.mts d n) = true → throughSvc n = false → admits (.mts d n) (some d) none none s = true →
    ∃ t, exec (.mts d n) s = .next t ∧ t.me = (sysWritten n (srcA (some d) s) s.me).past 4 ∧
      t = { s with slots := t.slots, queues := t.queues } ∧ othersKept s t

/-- R55, R92, R145, R161: `MTS` of `PORTMAP`, `VL`, `FPSTAT` and `RNDSEED` writes the register; `PORTMAP` traps ILLEGAL, REGWIN and RIGHTS,
the first of them in this order (R63); R93: the last two wait for the slot's vector instructions. -/
def Obligations.ThreadRegisterWrites : Prop :=
  ∀ (s : State) (d : Nat), d < 128 →
    (admits (.mtsPortmap d) (some d) none none s = true →
      (portmapClash (srcA (some d) s) →
        exec (.mtsPortmap d) s = .next (s.trapAt .illegal 0 0 0 0 (BitVec.ofNat 64 (0x5C000181 + 2 ^ 19 * d)))) ∧
      (¬ portmapClash (srcA (some d) s) →
        (∃ j < 4, (srcA (some d) s).getLsbD (16 * j + 15) = true ∧ s.me.size ≤ ((srcA (some d) s).extractLsb' (16 * j) 7).toNat) →
        exec (.mtsPortmap d) s = .next (s.trapAt .regwin 0 0 0 0 0)) ∧
      (¬ portmapClash (srcA (some d) s) →
        (∀ j < 4, (srcA (some d) s).getLsbD (16 * j + 15) = true → ((srcA (some d) s).extractLsb' (16 * j) 7).toNat < s.me.size) →
        (queueClash s (srcA (some d) s) → exec (.mtsPortmap d) s = .next (s.trapAt .rights 0 0 0 0 0)) ∧
        (¬ queueClash s (srcA (some d) s) →
          ∃ t, exec (.mtsPortmap d) s = .next t ∧ t.me = { s.me.past 4 with portmap := srcA (some d) s } ∧ othersKept s t))) ∧
    (admits (.mtsVl d) (some d) none none s = true →
      ∃ t, exec (.mtsVl d) s = .next t ∧ othersKept s t ∧
        t.me = { s.me.past 4 with vl := Nat.min (bits (srcA (some d) s).toNat 0 7) 64, shr := s.me.shr && !(srcA (some d) s).getLsbD 15 }) ∧
    (admits (.mtsFpstat d) (some d) none none s = true → s.vecQuiet s.cur = true →
      ∃ t, exec (.mtsFpstat d) s = .next t ∧ othersKept s t ∧
        t.me = { s.me.past 4 with fprm := (srcA (some d) s).extractLsb' 8 2, fpflags := (srcA (some d) s).extractLsb' 0 6 }) ∧
    (admits (.mtsRndseed d) (some d) none none s = true → s.vecQuiet s.cur = true →
      ∃ t, exec (.mtsRndseed d) s = .next t ∧ t.me = { s.me.past 4 with rndseed := srcA (some d) s } ∧ othersKept s t) ∧
    (∀ i, (i = .mtsFpstat d ∨ i = .mtsRndseed d) → admits i (some d) none none s = true → s.vecQuiet s.cur = false →
      ∃ t, exec i s = .next t ∧ waitsFor s t .parked .vecQuiet ∧ t.queues = s.queues ∧ othersKept s t)

/-- R117, R120, R122, R187: `MTS` of `CARVE`, `VGROUP`, `LANDN` and `ACCMAP` writes the core's register in a system slot, and traps
RIGHTS in a region slot. R120, R123: LANDN_RAISE_COMPLETE gives a core the landing slots of a raise, once they are empty and windows are free for them.
That a mask bit of another core's array is ignored in a write of `ACCMAP` is the model's choice (log 99). -/
def Obligations.CoreRegisters : Prop :=
  (∀ (s : State) (d : Nat), d < 128 →
      (isSystem s.cur = false →
        (∀ n, n = 0x021 ∨ n = 0x023 → admits (.mts d n) (some d) none none s = true →
          exec (.mts d n) s = .next (s.trapAt .rights 0 0 0 0 0)) ∧
        (admits (.mtsCarve d) (some d) none none s = true → exec (.mtsCarve d) s = .next (s.trapAt .rights 0 0 0 0 0)) ∧
        (admits (.mtsLandn d) (some d) none none s = true → exec (.mtsLandn d) s = .next (s.trapAt .rights 0 0 0 0 0))) ∧
      (isSystem s.cur = true →
        (admits (.mts d 0x021) (some d) none none s = true →
          ∃ t, exec (.mts d 0x021) s = .next t ∧ (t.core s.myCore).vgroup = (srcA (some d) s).extractLsb' 0 16 ∧ t.me = s.me.past 4) ∧
        (admits (.mts d 0x023) (some d) none none s = true →
          ∃ t, exec (.mts d 0x023) s = .next t ∧ t.me = s.me.past 4 ∧
            ∀ j < 8, (t.tile (tileOf s.myCore)).accOwner.getD j none =
              newOwner (s.tile (tileOf s.myCore)).accOwner (coreInTile s.myCore) (srcA (some d) s).toNat j) ∧
        (admits (.mtsCarve d) (some d) none none s = true →
          ∃ t, exec (.mtsCarve d) s = .next t ∧ (t.core s.myCore).share = (srcA (some d) s).extractLsb' 0 2 ∧ t.me = s.me.past 4) ∧
        (admits (.mtsLandn d) (some d) none none s = true →
          Nat.min (bits (srcA (some d) s).toNat 0 5) 16 ≤ (s.core s.myCore).landn →
          ∃ t, exec (.mtsLandn d) s = .next t ∧ t.me = s.me.past 4 ∧
            (t.core s.myCore).landn = Nat.min (bits (srcA (some d) s).toNat 0 5) 16))) ∧
  (∀ (s t : State) (core n : Nat), (s.core core).landnTo = some n → s.setLandn core n = some t →
      ∃ u, exec (.landnRaiseComplete core) s = .next u ∧ (u.core core).landn = n ∧ (u.core core).landnTo = none)

/-- R123, R187, R272: the services of the region manager end with a status in g3: all ones for a code without a service, 1 for a
refusal, 0 with the core's register set; a launch ends with its own status. That a service is done and answered in the step that issues it is
the model's choice (log 105). -/
def Obligations.ServiceCalls : Prop :=
  ∀ s : State,
    (∀ c, wellFormed (.svc c) = true → admits (.svc c) none none none s = true →
      ∃ t, exec (.svc c) s = .next t ∧ served s t c (BitVec.allOnes 64)) ∧
    (admits .svcSetCarve none none none s = true →
      ∃ t, exec .svcSetCarve s = .next t ∧
        if bits (s.g 4).toNat 2 62 ≠ 0 ∨ refusedHere s = true ∨ s.cutsPartition s.myCore (262144 - shareBytes (bits (s.g 4).toNat 0 2)) = true
        then served s t 1 1 else served s t 1 0 ∧ (t.core s.myCore).share = (s.g 4).extractLsb' 0 2) ∧
    (admits .svcSetVgroup none none none s = true →
      ∃ t, exec .svcSetVgroup s = .next t ∧
        if bits (s.g 4).toNat 16 48 ≠ 0 ∨ refusedHere s = true then served s t 2 1
        else served s t 2 0 ∧ (t.core s.myCore).vgroup = (s.g 4).extractLsb' 0 16) ∧
    (admits .svcSetLandn none none none s = true →
      (if bits (s.g 4).toNat 5 59 ≠ 0 ∨ 16 < bits (s.g 4).toNat 0 5 ∨ refusedHere s = true then
        ∃ t, exec .svcSetLandn s = .next t ∧ served s t 3 1
       else bits (s.g 4).toNat 0 5 ≤ (s.core s.myCore).landn →
        ∃ t, exec .svcSetLandn s = .next t ∧ served s t 3 0 ∧ (t.core s.myCore).landn = bits (s.g 4).toNat 0 5)) ∧
    (admits .svcSetAccmap none none none s = true →
      bits (s.g 4).toNat 8 56 ≠ 0 ∨ refusedHere s = true ∨ s.accmapRefused s.myCore s.me.region (bits (s.g 4).toNat 0 8) = true →
      ∃ t, exec .svcSetAccmap s = .next t ∧ served s t 4 1) ∧
    (admits .svcSetAccmap none none none s = true → bits (s.g 4).toNat 8 56 = 0 → refusedHere s = false →
      s.accmapRefused s.myCore s.me.region (bits (s.g 4).toNat 0 8) = false →
      s.arraysFree (tileOf s.myCore) ((range' 0 8).filter fun j => bit (s.g 4).toNat j != (s.ownedArrays s.myCore).contains j) = true →
      ∃ t, exec .svcSetAccmap s = .next t ∧ served s t 4 0 ∧
        ∀ j < 8, (t.tile (tileOf s.myCore)).accOwner.getD j none =
          newOwner (s.tile (tileOf s.myCore)).accOwner (coreInTile s.myCore) (bits (s.g 4).toNat 0 8) j) ∧
    (admits .svcLaunch none none none s = true → quiet s →
      ∃ t st, exec .svcLaunch s = .next t ∧ st ≤ 11 ∧ served s t 0x100 (BitVec.ofNat 64 st) ∧ (st ≠ 0 → t.greg s.cur 4 = { val := 0 }))

/-- R125, R126: `YIELD` and `PARK`, and the end of a park: what becomes of the thread. -/
def Obligations.YieldAndPark : Prop :=
  ∀ s : State,
    (admits .yield none none none s = true →
      ∃ t, exec .yield s = .next t ∧ t.me = { s.me.past 4 with noBorrow := true } ∧ t = { s with slots := t.slots } ∧ othersKept s t) ∧
    (admits .park none none none s = true →
      ∃ t, exec .park s = .next t ∧ t.me.st = .parked ∧ t.me.wait = .park (s.cycle s.myCore + s.me.parkint.toNat) ∧
        t.me.pc = s.me.pc ∧ othersKept s t ∧
        plannedFor t (.parkTimeout s.cur) s.myCore (s.cycle s.myCore + s.me.parkint.toNat)) ∧
    (∀ k due, (s.slot k).st = .parked → (s.slot k).wait = .park due → due ≤ s.cycle (coreOf k) →
      ∃ t, exec (.parkTimeout k) s = .next t ∧ t.slot k = { (s.slot k).past 4 with st := .ready, wait := .none } ∧
        t = { s with slots := t.slots } ∧ ∀ j, j ≠ k → t.slot j = s.slot j)

/-- R124, R288: `ERET` of a pending record with an aligned resume PC completes in the handler's thread, and the thread that the record names is
ready at the record's resume PC with its XPROG; no record, and a misaligned resume PC, trap. -/
def Obligations.ReturnFromTrap : Prop :=
  ∀ (s u w : State) (d va : Nat) (who : List Nat), wellFormed (.eret d) = true → admits (.eret d) none none none s = true →
    va = (s.g d).toNat → who = (if isSystem s.cur then s.regions.map (·.1) else [s.me.region]) → u = (s.findRecord va who).2 →
    (bits va 56 8 ≠ 0 → exec (.eret d) s = .next (s.trapAt .rights 0 0 (s.g d) 0 0)) ∧
    (bits va 56 8 = 0 → (s.findRecord va who).1 = none → exec (.eret d) s = .next (u.trapAt .rights 0 0 (s.g d) 0 0)) ∧
    ∀ r l m, bits va 56 8 = 0 → (s.findRecord va who).1 = some (r, m) → quiet u → (u.pendingRecord r va).1 = some l →
      w = (u.pendingRecord r va).2 →
      ((l.getD 5 0).toNat % 4 ≠ 0 → exec (.eret d) s = .next (w.trapAt .align 0 0 (l.getD 5 0) 0 0)) ∧
      ((l.getD 5 0).toNat % 4 = 0 → s.me.wait = .none →
        ∃ t, exec (.eret d) s = .next t ∧ t.cur = s.cur ∧ t.me.pc = s.me.pc + 4 ∧
          ∀ k, k ≠ s.cur → (s.slot k).frozen = false → (∀ g, s.region? r = some g → g.recq = []) →
            ((range' 0 64).map (64 * bits (l.getD 6 0).toNat 32 12 + ·)).find? (fun k =>
              namedBy (bits (l.getD 6 0).toNat 32 12) (bits (l.getD 6 0).toNat 0 16) ((l.getD 7 0).toNat % 2 ^ 63)
                (bits (l.getD 6 0).toNat 32 12) (s.slot k) (s.slot k).waits) = some k →
            (t.slot k).st = .ready ∧ (t.slot k).wait = .none ∧ (t.slot k).pc = l.getD 5 0 ∧ (t.slot k).xprog = l.getD 3 0)

/-- R127: `OBJSET` of an entry that the checks pass goes on, and the words of the entry stand at the home of its place; behind requests
of its core to the image's homes it waits (R237). -/
def Obligations.ObjectSet : Prop :=
  ∀ (s u w v : State) (a b : Nat) (l : List Word) (g : Region) (x : Trans),
    wellFormed (.objset a b) = true → admits (.objset a b) none none none s = true →
    (s.g b).toNat % 64 = 0 → bits (s.g b).toNat 56 8 = 0 →
    (∀ line, s.readBehind s.cur (s.g b).toNat 8 = some line → ∃ t, exec (.objset a b) s = .next t ∧ waitsFor s t .waiting (.ordered line)) ∧
    (s.readBehind s.cur (s.g b).toNat 8 = none → s.threadReads s.cur (s.g b).toNat 8 = (.ok l, u) →
    u.region? s.me.region = some g → (s.g a).toNat < g.objcount → u.xlate s.me.region (g.objAddr (s.g a).toNat) .r = (.ok x, w) →
    (w.purgeAround w.myCore x.pa).unitLost x.pa x.key = false →
    v = ((w.purgeAround w.myCore x.pa).unitHome x.pa x.key true).correct (x.pa + 56) → v.homeBad (x.pa + 56) = false →
    objType (wordsNum l) < 4 → objReserved v.host.modid (wordsNum l) = false → objType (v.homeNum x.pa 64) < 4 →
    isHbm x.pa = true → x.pa % 64 = 0 →
    ∃ t, exec (.objset a b) s = .next t ∧ t.me.pc = w.me.pc + 4 ∧
      t.homeNum x.pa 64 = if objType (wordsNum l) = 0 then 0 else wordsNum l % 2 ^ 512)

/-! ## Accesses -/

/-- R130, R131, R134, R135: a load of the own scratchpad writes the bytes at its effective address, extended by its type, and
changes no byte and no full/empty bit. R130, R131, R134, R135: a store to the own scratchpad writes its bytes at the effective address and no other, and no register. -/
def Obligations.OwnScratchLoadsAndStores : Prop :=
  (∀ (s : State) (i : Instr) (d y p : Nat) (addr : State → Word),
      LoadForm i d y addr → wellFormed i = true → admits i none none (some d) s = true →
      (addr s).toNat % typeBytes y = 0 → ownPlace s (addr s) = some p → atRest s p →
      ∃ v t, loadRule y (numAt s p (typeBytes y)) v ∧ exec i s = .next t ∧ landed s t d v ∧ t.me = s.me.past 4 ∧ othersKept s t ∧
        t = { s with slots := t.slots, regs := t.regs, queues := t.queues, dead := t.dead, soft := t.soft, regions := t.regions, host := t.host,
                     rems := t.rems } ∧
        (∀ c j, 2048 * c + j ≠ 2048 * s.myCore + (s.me.base + d) → t.rf c j = s.rf c j) ∧
        ∀ w, w ≠ regPlace s.myCore (s.me.base + d) → (w ∈ t.dead ↔ w ∈ s.dead)) ∧
  (∀ (s : State) (i : Instr) (d y p : Nat) (addr : State → Word),
      StoreForm i d y addr → wellFormed i = true → admits i (some d) none none s = true →
      (addr s).toNat % typeBytes y = 0 → ownPlace s (addr s) = some p → atRest s p →
      ∃ t, exec i s = .next t ∧ stored s t p (typeBytes y) (srcA (some d) s).toNat ∧ t.me = s.me.past 4 ∧ othersKept s t ∧
        t = { s with slots := t.slots, queues := t.queues, mem := t.mem, dead := t.dead, soft := t.soft, regions := t.regions, host := t.host,
                     rems := t.rems })

/-- R131, R134, R234: a load whose home is elsewhere, and whose line its core's L1 does not hold, sends its request, for the line where a
cache may hold it, and its thread waits for the reply; one whose line it holds writes its register at once. R28, R131, R234, R235: a store
whose home is elsewhere retires at once, counts in `UNACK` and sends its request; one whose line its core alone holds in its cluster is
performed there. -/
def Obligations.RemoteLoadsAndStores : Prop :=
  (∀ (s u : State) (i : Instr) (d y : Nat) (addr : State → Word) (site : Site),
      LoadForm i d y addr → wellFormed i = true → admits i none none (some d) s = true → s.cur < 2 ^ 20 →
      (addr s).toNat % typeBytes y = 0 → staysFor s (addr s) (goes i) → s.aim s.cur (addr s) .r 2 0 = .ok site u →
      u.cur = s.cur → u.isOwn u.myCore site = false →
      ((∀ l, ¬ l1Holds u site l) →
        ∃ t id, exec i s = .next t ∧ u.nextId ≤ id ∧ t.me = { u.me with st := .waiting, wait := .reply id, nacks := 0 } ∧
          sentReq t { id := id, src := s.cur, region := u.me.region, addr := addr s, place := site.place, source := 2, key := site.key,
                      away := site.away, tregion := site.tregion,
                      op := if site.cached && isHbm site.place then .fill else .load (typeBytes y),
                      v1 := if site.cached && isHbm site.place then BitVec.ofNat 64 (typeBytes y) else 0,
                      dest := .reg d y ((bindOf u.me.portmap d).map fun _ => id) } ∧
          t.regs = u.regs ∧ othersKept u t ∧ sameBytes u t) ∧
      ∀ l, l1Holds u site l → l.badWord (site.place % 128 / 8) = false →
        ∃ v t, loadRule y (l.num (site.place % 128) (typeBytes y)) v ∧ exec i s = .next t ∧ landed u t d v ∧ t.me = u.me.past 4 ∧
          othersKept u t ∧ sameBytes u t ∧ t.cache = u.cache) ∧
  (∀ (s u : State) (i : Instr) (d y : Nat) (addr : State → Word) (site : Site),
      StoreForm i d y addr → wellFormed i = true → admits i (some d) none none s = true → s.cur < 2 ^ 20 →
      (addr s).toNat % typeBytes y = 0 → staysFor s (addr s) (goes i) → s.aim s.cur (addr s) .w 3 0 = .ok site u →
      u.cur = s.cur → u.isOwn u.myCore site = false →
      ((∀ l, ¬ l1Owns u site l) → u.me.unack < 2 ^ 32 - 1 →
        ∃ t id, exec i s = .next t ∧ u.nextId ≤ id ∧ t.me = { u.me.past 4 with unack := u.me.unack + 1 } ∧
          sentReq t { id := id, src := s.cur, region := u.me.region, addr := addr s, place := site.place, source := 3, key := site.key,
                      away := site.away, tregion := site.tregion, op := .store (typeBytes y), v1 := srcA (some d) s, dest := .ack } ∧
          t.regs = u.regs ∧ othersKept u t ∧ sameBytes u t) ∧
      ∀ l, l1Owns u site l → l.poison.getLsbD (site.place % 128 / 64) = false →
        (typeBytes y = 8 ∨ l.badWord (site.place % 128 / 8) = false) → site.place % typeBytes y = 0 →
        ∃ t m, exec i s = .next t ∧ t.me = u.me.past 4 ∧ t.l1 u.myCore (site.place / 128) = some m ∧
          lineStored l m (site.place % 128) (typeBytes y) (srcA (some d) s).toNat ∧ t.regs = u.regs ∧ othersKept u t ∧ sameBytes u t)

/-- R130: an address that is not a multiple of the access size traps ALIGN and names the address. -/
def Obligations.AlignmentTraps : Prop :=
  ∀ (s : State) (i : Instr),
    (∀ d y addr, LoadForm i d y addr → wellFormed i = true → admits i none none (some d) s = true →
      (addr s).toNat % typeBytes y ≠ 0 → exec i s = .next (s.trapAt .align 0 0 (addr s) 0 0)) ∧
    (∀ d y addr, StoreForm i d y addr → wellFormed i = true → admits i (some d) none none s = true →
      (addr s).toNat % typeBytes y ≠ 0 → exec i s = .next (s.trapAt .align 0 0 (addr s) 0 0)) ∧
    (∀ op n scope src dst port addr v1 v2, AccessForm i op n scope false src dst port addr v1 v2 → wellFormed i = true →
      admits i src none (if port then dst else none) s = true → (addr s).toNat % n ≠ 0 →
      exec i s = .next (s.trapAt .align 0 0 (addr s) 0 0))

/-- R137, R140, R148, R216: a full/empty operation, atomic, hurdle or counter access of the own scratchpad whose condition holds
completes with its answer, and does to the word, its full/empty bit and no other byte what its rule says. -/
def Obligations.OwnScratchAccesses : Prop :=
  ∀ (s : State) (i : Instr) (op : HomeOp) (n scope p old : Nat) (rel : Bool) (src dst : Option Nat) (port full' : Bool)
    (addr v1 v2 : State → Word) (ans : Word) (new : Option Nat),
    AccessForm i op n scope rel src dst port addr v1 v2 → wellFormed i = true → admits i src none (if port then dst else none) s = true →
    (addr s).toNat % n = 0 → ownPlace s (addr s) = some p → atRest s p → (rel = true → quiet s) →
    (acquires i = true → s.vecQuiet s.cur = true) → old = numAt s p n →
    WordRule op (v1 s) (v2 s) old (fullAt s p) ans new full' →
    ∃ t, exec i s = .next t ∧ t.me.st = .ready ∧ t.me.pc = s.me.pc + BitVec.ofNat 64 i.len ∧ othersKept s t ∧
      (∀ d, dst = some d → if port then landed s t d ans else t.greg s.cur d = { val := ans }) ∧
      (∀ q, readByte t.mem q =
        match new with
        | some v => if p ≤ q ∧ q < p + n then BitVec.ofNat 8 (v / 256 ^ (q - p)) else readByte s.mem q
        | none => readByte s.mem q) ∧
      fullAt t p = full'

/-- R137, R138, R148, R216: an access of the own scratchpad whose condition does not hold is deferred there, and parks its thread
at the instruction. -/
def Obligations.DeferredAccesses : Prop :=
  ∀ (s : State) (i : Instr) (op : HomeOp) (n scope p : Nat) (rel : Bool) (src dst : Option Nat) (port : Bool)
    (addr v1 v2 : State → Word),
    AccessForm i op n scope rel src dst port addr v1 v2 → wellFormed i = true → admits i src none (if port then dst else none) s = true →
    (addr s).toNat % n = 0 → ownPlace s (addr s) = some p → atRest s p → (rel = true → quiet s) →
    (acquires i = true → s.vecQuiet s.cur = true) →
    WaitRule op (v1 s) (numAt s p n) (fullAt s p) → (s.deferred.filter fun r => (deferBuf r.place).1 == (deferBuf p).1).length < 16 →
    ∃ t id q, exec i s = .next t ∧ t.me.st = .parked ∧ t.me.wait = .deferred id ∧ t.me.pc = s.me.pc ∧ othersKept s t ∧
      q ∈ t.deferred ∧ q.id = id ∧ q.src = s.cur ∧ q.place = p ∧ q.op = op ∧ sameBytes s t

/-- R136: `LDM` and `STM` of the own scratchpad transfer n + 1 words between consecutive registers and consecutive words. -/
def Obligations.MultipleTransfers : Prop :=
  ∀ (s : State) (d a n : Nat) (p : Nat), (s.g a).toNat % 8 = 0 → s.me.xprog = 0 →
    (∀ k ≤ n, ownPlace s (s.g a + BitVec.ofNat 64 (8 * k)) = some (p + 8 * k) ∧ atRest s (p + 8 * k)) →
    (wellFormed (.ldm d a n) = true → admits (.ldm d a n) none none none s = true →
      ∃ t, exec (.ldm d a n) s = .next t ∧ t.me = s.me.past 4 ∧ sameBytes s t ∧ othersKept s t ∧
        (∀ k ≤ n, t.greg s.cur (d + k) = { val := BitVec.ofNat 64 (numAt s (p + 8 * k) 8) }) ∧
        ∀ r, r < d ∨ d + n < r → t.greg s.cur r = s.greg s.cur r) ∧
    (wellFormed (.stm d a n) = true → admits (.stm d a n) none none none s = true →
      ∃ t, exec (.stm d a n) s = .next t ∧ t.me = s.me.past 4 ∧ t.regs = s.regs ∧ othersKept s t ∧
        (∀ k ≤ n, numAt t (p + 8 * k) 8 = (s.g (d + k)).toNat) ∧
        ∀ q, q < p ∨ p + 8 * (n + 1) ≤ q → readByte t.mem q = readByte s.mem q)

/-- R137: the register forms of the full/empty operations read and write a register's full/empty bit, and park while it is empty; those
that read acquire, and wait for the thread's vector instructions (R165). -/
def Obligations.StrandForms : Prop :=
  ∀ (s : State) (t b : Nat), t < 128 → b < 128 →
    (admits (.ldfeStrand t b) none none none s = true → (s.greg s.cur b).full = true → s.vecQuiet s.cur = true → t ≠ b →
      ∃ u, exec (.ldfeStrand t b) s = .next u ∧ u.greg s.cur t = { val := s.g b } ∧
        u.greg s.cur b = { (s.greg s.cur b) with full := false } ∧ u.me = s.me.past 4 ∧ sameBytes s u) ∧
    (admits (.ldffStrand t b) none none none s = true → (s.greg s.cur b).full = true → s.vecQuiet s.cur = true →
      ∃ u, exec (.ldffStrand t b) s = .next u ∧ u.greg s.cur t = { val := s.g b } ∧ onlyReg s u t ∧ u.me = s.me.past 4 ∧ sameBytes s u) ∧
    (admits (.seteStrand t) none none none s = true →
      ∃ u, exec (.seteStrand t) s = .next u ∧ u.greg s.cur t = { (s.greg s.cur t) with full := false } ∧ onlyReg s u t ∧
        u.me = s.me.past 4 ∧ sameBytes s u) ∧
    (admits (.feqStrand t b) none none none s = true →
      ∃ u, exec (.feqStrand t b) s = .next u ∧ u.greg s.cur t = { val := if (s.greg s.cur b).full then 1 else 0 } ∧ onlyReg s u t ∧
        u.me = s.me.past 4 ∧ sameBytes s u) ∧
    (∀ i, (i = .ldfeStrand t b ∨ i = .ldffStrand t b) → admits i none none none s = true →
      ((s.greg s.cur b).full = false → ∃ u, exec i s = .next u ∧ waitsFor s u .parked (.regFull b) ∧ u.regs = s.regs) ∧
      ((s.greg s.cur b).full = true → s.vecQuiet s.cur = false → ∃ u, exec i s = .next u ∧ waitsFor s u .waiting .vecQuiet ∧ u.regs = s.regs))

/-- R142, R143, R238, R239, R248: a fence goes on where its core's L1 is settled, after its acquire, and otherwise waits for the
write-backs that it starts. A cache form whose scope does not contain the line's home acts on the L1s of its scope; one whose scope contains
it is sent there and its thread waits. Its step at the home: a discard and an invalidation leave no copy in the L1s of their scope nor in the
home's L2 (nor, at `.mod`, in the MSC); a flush leaves every copy there clean. That such a form goes to the home as a request, and misses no
scope, is the model's choice (log 100). -/
def Obligations.CacheForms : Prop :=
  (∀ (s u : State) (b c o : Nat) (tr : Trans),
    (wellFormed (.fence c) = true → admits (.fence c) none none none s = true → s.me.unack = 0 → s.me.failStore = none →
      s.vecQuiet s.cur = true → s.me.relMark = none →
      (c < 4 ∨ s.l1Settled s.myCore = true → ∃ t, exec (.fence c) s = .next t ∧ t.me = s.me.past 4 ∧ sameBytes s t ∧
        (4 ≤ c → ∀ k line l, k ∈ s.myCore :: s.victimPool s.myCore → line < 2 ^ 32 → t.l1 k line = some l → l.dirty ≠ 0)) ∧
      (4 ≤ c → s.l1Settled s.myCore = false → ∃ t, exec (.fence c) s = .next t ∧ waitsFor s t .waiting .wbDone ∧
        ∀ line l, line < 2 ^ 32 → t.l1 s.myCore line = some l → l.dirty = 0)) ∧
    (wellFormed (.pref b c o) = true → admits (.pref b c o) none none none s = true →
      ∃ t, exec (.pref b c o) s = .next t ∧ t.me = s.me.past 4 ∧ t.regs = s.regs) ∧
    (bits (s.g b + sext o 9 * 64).toNat 56 8 = 0 → isHbm tr.pa = true →
      (∀ (i : Instr) (op : HomeOp) (need : Acc3), LineForm i op need b c o → wellFormed i = true → admits i none none none s = true →
        s.xlateFor s.cur (s.g b + sext o 9 * 64).toNat need 2 0 = .ok tr u → u.homeWithin c tr = true → (∀ d, (u.bridge d).st ≠ .failed) →
        ∃ t q, exec i s = .next t ∧ t.me.st = .waiting ∧ t.me.wait = .reply q.id ∧ t.me.pc = s.me.pc ∧ q ∈ t.reqs ∧ q.op = op ∧
          q.src = s.cur ∧ q.place = tr.pa ∧ q.scope = c) ∧
      (wellFormed (.discard b c o) = true → admits (.discard b c o) none none none s = true →
        s.xlateFor s.cur (s.g b + sext o 9 * 64).toNat .rw 2 0 = .ok tr u → u.homeWithin c tr = false →
        ∃ t, exec (.discard b c o) s = .next t ∧ t.me = s.me.past 4 ∧ sameBytes s t ∧
          ∀ k, within c s.myCore k = true → t.l1 k (tr.pa / 128) = none) ∧
      (s.xlateFor s.cur (s.g b + sext o 9 * 64).toNat .r 2 0 = .ok tr u → u.homeWithin c tr = false →
        ((∃ k l, k < 4096 ∧ within c s.myCore k = true ∧ u.l1 k (tr.pa / 128) = some l ∧ l.dirty ≠ 0) → s.me.relMark = none →
          ∀ i, (i = .flush b c o ∨ i = .inval b c o) → wellFormed i = true → admits i none none none s = true →
          ∃ t, exec i s = .next t ∧ waitsFor s t .waiting (.lineDone c (tr.pa / 128) (i == .inval b c o)) ∧
            ∀ k l, within c s.myCore k = true → t.l1 k (tr.pa / 128) = some l → l.dirty = 0) ∧
        ((∀ k l, within c s.myCore k = true → u.l1 k (tr.pa / 128) = some l → l.dirty = 0) →
          (s.me.relMark.isSome = true ∨
            (u.backs fun q => q.place / 128 == tr.pa / 128 && within c s.myCore (srcCore q.src)) = false) →
          (wellFormed (.flush b c o) = true → admits (.flush b c o) none none none s = true →
            ∃ t, exec (.flush b c o) s = .next t ∧ t.me = s.me.past 4 ∧ t.cache = u.cache) ∧
          (wellFormed (.inval b c o) = true → admits (.inval b c o) none none none s = true →
            ∃ t, exec (.inval b c o) s = .next t ∧ t.me = s.me.past 4 ∧
              ∀ k, within c s.myCore k = true → t.l1 k (tr.pa / 128) = none ∧ find t.cache.ic (l1Key k (tr.pa / 128)) = none))))) ∧
  ∀ (s : State) (q : Req) (line : Nat), line = q.place / 128 → q.place < 2 ^ 39 →
    (q.op = .discard ∨ q.op = .inval → ∃ t, s.stepOp q = (.ans (.ok 0), t) ∧
      (∀ k, within q.scope (srcCore q.src) k = true → t.l1 k line = none) ∧ find t.cache.l2 line = none ∧
      (q.scope = 5 → find t.cache.msc line = none)) ∧
    (q.op = .flush → ∃ t, s.stepOp q = (.ans (.ok 0), t) ∧
      (∀ k l, within q.scope (srcCore q.src) k = true → t.l1 k line = some l → l.dirty = 0) ∧
      (∀ l, find t.cache.l2 line = some l → l.dirty = 0) ∧ (q.scope = 5 → ∀ l, find t.cache.msc line = some l → l.dirty = 0))

/-- R128, R229: `TLBINV` leaves no translation of the region in the TLBs of its scope, and goes on once no element of a Vault operation of
the region within it is translated and not yet performed. -/
def Obligations.TlbInvalidation : Prop :=
  ∀ (s : State) (b c : Nat), quiet s →
    (wellFormed (.tlbinvPage b c) = true → admits (.tlbinvPage b c) none none none s = true → bits (s.g b).toNat 56 8 = 0 →
      ∃ t, exec (.tlbinvPage b c) s = .next t ∧ sameBytes s t ∧
        (if s.elemsQuiet s.myCore c s.me.region = true then t.me = s.me.past 4 else waitsFor s t .waiting (.elemsDone c)) ∧
        ∀ e ∈ t.tlb, holderWithin c s.myCore e.holder = true → e.region = s.me.region → (s.g b).toNat / 2 ^ pageBits e.level ≠ e.page) ∧
    (wellFormed (.tlbinvRegion c) = true → admits (.tlbinvRegion c) none none none s = true →
      ∃ t, exec (.tlbinvRegion c) s = .next t ∧ sameBytes s t ∧
        (if s.elemsQuiet s.myCore c s.me.region = true then t.me = s.me.past 4 else waitsFor s t .waiting (.elemsDone c)) ∧
        ∀ e ∈ t.tlb, holderWithin c s.myCore e.holder = true → e.region ≠ s.me.region)

/-- R53, R144, R146: `HOP` of a strand to another core's scratchpad sends it there, to go on at the next instruction; `SENDR` sends a
register to a slot and waits, its delivery fills an empty register, and once its answer is back the sender goes on. -/
def Obligations.HopAndSendr : Prop :=
  ∀ (s : State),
    (∀ b o c, wellFormed (.hop b o) = true → admits (.hop b o) none none none s = true → s.me.strand = true →
      s.scratchOwner (s.g b + sext o 9 * 8) = some c → c ≠ s.myCore → s.grants s.me.region (clusterOf c) = true →
      s.stuck s.cur = false → quiet s → s.me.inflight = 0 → s.me.tags = 0 →
      ∃ t m, exec (.hop b o) s = .next t ∧ t.me.st = .held ∧ m ∈ t.migs ∧ m.src = s.cur ∧ m.target = c ∧ m.pc = s.me.pc + 4 ∧
        m.regs = (range' 0 24).map (fun r => ((s.greg s.cur r).val, (s.greg s.cur r).full)) ∧ 
        setsOut t (.migrationArrival m.id) (dieOf s.myCore) (dieOf c)) ∧
    (∀ b o, wellFormed (.hop b o) = true → admits (.hop b o) none none none s = true → s.me.strand = true →
      s.scratchOwner (s.g b + sext o 9 * 8) = some s.myCore → ∃ t, exec (.hop b o) s = .next t ∧ t.me = s.me.past 4) ∧
    (∀ t b c r, wellFormed (.sendr t b c r) = true → admits (.sendr t b c r) none none none s = true → quiet s →
      bits (s.g b).toNat 56 8 = 1 → bits (s.g b).toNat 44 12 = s.host.modid → bits (s.g b).toNat 6 26 = 0 →
      s.grants s.me.region (clusterOf (bits (s.g b).toNat 32 12)) = true →
      ∃ u m, exec (.sendr t b c r) s = .next u ∧ u.me.st = .waiting ∧ m ∈ u.sendrs ∧ u.me.wait = .reply m.id ∧ m.src = s.cur ∧
        m.target = 64 * bits (s.g b).toNat 32 12 + bits (s.g b).toNat 0 6 ∧ m.reg = r ∧ m.val = s.g t) ∧
    (∀ m, s.sendrs.find? (·.id == m.id) = some m → s.retired (coreOf m.target) = false → (s.slot m.target).st = .ready → m.src ≠ m.target →
      m.reg < (s.slot m.target).size → (s.greg m.target m.reg).full = false → (s.greg m.target m.reg).pend = false →
      s.behindPair (coreOf m.src) (coreOf m.target) m.at_ = false →
      (∃ t, exec (.sendrDelivery m.id) s = .next t ∧ t.greg m.target m.reg = { val := m.val, sent := m.scope } ∧
        setsOut t (.sendrAnswer m.id 0) (dieOf (coreOf m.target)) (dieOf (coreOf m.src))) ∧
      ((s.slot m.src).st = .waiting → ∃ t, runEvent (.sendrAnswer m.id 0) s = .next t ∧
        t.slot m.src = { (s.slot m.src).past 4 with st := .ready, wait := .none, nacks := 0 }))

/-! ## Tasks -/

/-- R150, R151: `PUBF` makes a publication pending, and `SPAWN` pushes a record of the continuation at the next instruction and goes to
its target. -/
def Obligations.PublishAndSpawn : Prop :=
  ∀ (s : State),
    (∀ a g, wellFormed (.pubf a) = true → admits (.pubf a) none none none s = true → quiet s → s.region? s.me.region = some g →
      bits (s.g a).toNat 28 36 = 0 → tilesOutside (s.g a).toNat g = false →
      ∃ t, exec (.pubf a) s = .next t ∧ t.me = { s.me.past 4 with pub := some (s.g a) }) ∧
    (∀ a g, wellFormed (.pubf a) = true → admits (.pubf a) none none none s = true → s.region? s.me.region = some g →
      (bits (s.g a).toNat 28 36 ≠ 0 ∨ tilesOutside (s.g a).toNat g = true) → exec (.pubf a) s = .next (s.trapAt .rights 0 0 0 0 0)) ∧
    (∀ d i, wellFormed (.spawn d i) = true → admits (.spawn d i) none none none s = true → refOk (s.g d) = true →
      (s.core s.myCore).deque.length < 32 →
      ∃ t e, exec (.spawn d i) s = .next t ∧ (t.core s.myCore).deque = (s.core s.myCore).deque ++ [e] ∧ e.owner = slotNo s.cur ∧
        e.rcd.pc = s.me.pc + 4 ∧ e.rcd.fp = s.g 1 ∧ e.rcd.join.toNat = (s.g d).toNat % 2 ^ 32 ∧ e.rcd.task = s.me.task ∧
        e.rcd.wclass = s.me.wclass ∧ e.rcd.region = s.me.region ∧ e.rcd.pub = s.me.pub.isSome ∧
        t.me.pc = wrap64 (s.me.pc.toInt + 4 * sextInt i 19) ∧ t.me.pub = none ∧ t.regs = s.regs ∧ sameBytes s t) ∧
    (∀ d i, wellFormed (.spawn d i) = true → admits (.spawn d i) none none none s = true → refOk (s.g d) = false →
      exec (.spawn d i) s = .next (s.trapAt .object 0 0 0 0 0))

/-- R47, R152: `DONE` resumes the youngest record of the thread's deque; with an empty deque the thread ends, and its slink is
decremented or its task retires. R46: the youngest record of a spill ring returns, and the thread that waits for it goes on there. -/
def Obligations.DoneAndRefill : Prop :=
  (∀ (s : State), admits .done none none none s = true → s.tailClaimed s.cur = false →
      (∀ e, s.tailRec s.cur = some e →
        ∃ t, exec .done s = .next t ∧ t.me.pc = e.rcd.pc &&& ~~~3#64 ∧ t.me.st = .ready ∧ t.greg s.cur 1 = { val := e.rcd.fp } ∧
          (t.core s.myCore).deque = (s.core s.myCore).deque.erase e) ∧
      (s.tailRec s.cur = none → s.me.ringAges ≠ [] →
        ∃ t, exec .done s = .next t ∧ t.me.st = .waiting ∧ t.me.wait = .refill ∧ planned t (.dequeRefillArrival s.cur)) ∧
      (s.tailRec s.cur = none → s.me.ringAges = [] → settled s →
        ∃ t, exec .done s = .next t ∧ (t.slot s.cur).st = .empty ∧
          if refValid s.me.slink then
            setsOut t (.tcbDecrement (refKey s.me.slink) (s.nameOf s.cur)) (dieOf (bits (s.nameOf s.cur).toNat 32 12)) (hubDie (refKey s.me.slink))
          else planned t (.taskRetire (refKey s.me.task) (s.nameOf s.cur)))) ∧
  (∀ (s u : State) (k : Nat) (l : List Word), (s.slot k).st = .waiting → (s.slot k).wait = .refill → (s.slot k).ringAges ≠ [] →
      s.ringRead k (s.ringAddr k (((s.slot k).ringHead + (s.slot k).ringAges.length - 1) % Nat.max 1 (s.ringSize k))) = (.ok l, u) →
      ∃ t, exec (.dequeRefillArrival k) s = .next t ∧ (t.slot k).pc = l.getD 0 0 &&& ~~~3#64 ∧ (t.slot k).ringAges = (u.slot k).ringAges.dropLast ∧
        t.greg k 1 = { val := l.getD 1 0 })

/-- R47, R153, R237: `SYNC` at a join whose count is 0 goes on; at another join the thread waits in the TCB, and its slot is empty. Behind a
request of its core to the TCB's hub it waits. -/
def Obligations.SyncResults : Prop :=
  ∀ (s : State) (a key : Nat), wellFormed (.sync a) = true → admits (.sync a) none none none s = true → namesTcb (s.g a) key →
    settled s →
    (s.homePast s.myCore (2 ^ 17 + key / 512) = false →
      ∃ t, exec (.sync a) s = .next t ∧ waitsFor s t .waiting (.homePast (2 ^ 17 + key / 512)) ∧ t.tcbs = s.tcbs) ∧
    (reachesHub s key → (s.tcb key).state = 3 →
    ((s.tcb key).count = 0 → ∃ t, exec (.sync a) s = .next t ∧ t.me = s.me.past 4 ∧ t.tcbs = s.tcbs) ∧
    ((s.tcb key).count ≠ 0 → s.dequeEmpty s.cur = true →
      ∃ t, exec (.sync a) s = .next t ∧ (t.slot s.cur).st = .empty ∧ (t.tcb key).state = 4 ∧ (t.tcb key).pc = s.me.pc + 4 ∧
        (t.tcb key).fp = s.g 1 ∧ (t.tcb key).count = (s.tcb key).count ∧ (t.tcb key).slink = s.me.slink))

/-- R154: `TCBNEW` of a legal image writes a FREE TCB of the hub, and answers its reference, or 0 with none FREE. R155, R156: `TCBSUCC` adds a dependence, and `TCBPRED` changes a count. -/
def Obligations.Tcbs : Prop :=
  (∀ (s u : State) (d a : Nat) (l : List Word), wellFormed (.tcbnew d a) = true → admits (.tcbnew d a) none none none s = true →
      (s.g a).toNat % 64 = 0 → bits (s.g a).toNat 56 8 = 0 → s.readBehind s.cur (s.g a).toNat 8 = none →
      s.threadReads s.cur (s.g a).toNat 8 = (.ok l, u) → imageOk l = true → quiet u →
      (s.freeTcb? (clusterOf s.myCore) = none → ∃ t, exec (.tcbnew d a) s = .next t ∧ t.greg s.cur d = { val := 0 }) ∧
      (∀ key, s.freeTcb? (clusterOf s.myCore) = some key →
        ∃ t, exec (.tcbnew d a) s = .next t ∧ t.greg s.cur d = { val := BitVec.ofNat 64 (2 ^ 31 + key) } ∧ (t.tcb key).pc = l.getD 1 0 ∧
          (t.tcb key).fp = l.getD 2 0 ∧ (t.tcb key).count.toNat = bits (l.getD 0 0).toNat 32 32 ∧
          (t.tcb key).state = if bits (l.getD 0 0).toNat 0 4 = 3 then 3 else if bits (l.getD 0 0).toNat 32 32 = 0 then 2 else 1)) ∧
  (∀ (s : State) (a b ka kb : Nat), a < 128 → b < 128 → namesTcb (s.g a) ka →
      (namesTcb (s.g b) kb → admits (.tcbsucc a b) none none none s = true → (s.tcb kb).state = 1 → (s.tcb kb).count ≠ BitVec.allOnes 32 →
        ka ≠ kb → reachesHub s ka → reachesHub s kb → (s.tcb ka).state ≠ 0 → refValid (s.tcb ka).succ0 = false →
        ∃ t, exec (.tcbsucc a b) s = .next t ∧ t.me = s.me.past 4 ∧ (t.tcb kb).count = (s.tcb kb).count + 1 ∧
          (t.tcb ka).succ0.toNat = 2 ^ 31 + kb ∧ ∀ k, k ≠ ka → k ≠ kb → t.tcb k = s.tcb k) ∧
      (admits (.tcbpred a b) none none none s = true → sextInt ((s.g b).toNat % 2 ^ 32) 32 = 0 →
        ∃ t, exec (.tcbpred a b) s = .next t ∧ t.me = s.me.past 4 ∧ t.tcbs = s.tcbs) ∧
      (admits (.tcbpred a b) none none none s = true → 0 < sextInt ((s.g b).toNat % 2 ^ 32) 32 → reachesHub s ka → (s.tcb ka).state ≠ 0 → (s.tcb ka).state ≠ 2 →
        (s.tcb ka).count.toNat + (sextInt ((s.g b).toNat % 2 ^ 32) 32).toNat < 2 ^ 32 →
        ∃ t, exec (.tcbpred a b) s = .next t ∧ t.me = s.me.past 4 ∧
          (t.tcb ka).count.toNat = (s.tcb ka).count.toNat + (sextInt ((s.g b).toNat % 2 ^ 32) 32).toNat) ∧
      (admits (.tcbpred a b) none none none s = true → sextInt ((s.g b).toNat % 2 ^ 32) 32 < 0 → quiet s → reachesHub s ka → (s.tcb ka).state ≠ 0 →
        (sextInt ((s.g b).toNat % 2 ^ 32) 32).natAbs < (s.tcb ka).count.toNat →
        ∃ t, exec (.tcbpred a b) s = .next t ∧
          (t.tcb ka).count.toNat = (s.tcb ka).count.toNat - (sextInt ((s.g b).toNat % 2 ^ 32) 32).natAbs))

/-- R36, R37, R38: TCB_DECREMENT takes 1 from a count, and a dormant TCB that reaches 0 becomes READY; TASK_RETIRE sends a decrement to
the inline successors one after another, each after the one before has been performed, and then leaves the TCB of a task that is no
handler FREE. -/
def Obligations.TaskEvents : Prop :=
  ∀ (s : State) (key i : Nat) (who : Word),
    ((s.tcb key).state ≠ 0 → 1 < (s.tcb key).count.toNat →
      ∃ t, exec (.tcbDecrement key who) s = .next t ∧ (t.tcb key).count.toNat + 1 = (s.tcb key).count.toNat ∧
        (t.tcb key).state = (s.tcb key).state) ∧
    ((s.tcb key).state = 1 → (s.tcb key).count = 1 → (s.tcb key).orphan = false → (s.tcb key).pin = none → (s.tcb key).pc ≠ 0 →
      ∃ t, exec (.tcbDecrement key who) s = .next t ∧ (t.tcb key).count = 0 ∧ (t.tcb key).state = 2 ∧
        ((s.tcb key).prio, key) ∈ (t.hub (key / 512)).ready) ∧
    ((s.tcb key).state ≠ 0 → ∃ t, exec (.taskRetire key who) s = .next t ∧ runEvent (.retireStep key 0 who) s = .next t) ∧
    (∀ j r, (s.tcb key).state ≠ 0 →
      ([(0, (s.tcb key).succ0), (1, (s.tcb key).succ1), (2, (s.tcb key).succ2)].find? fun p => i ≤ p.1 && refValid p.2) = some (j, r) →
      ∃ t, runEvent (.retireStep key i who) s = .next t ∧ t.tcbs = s.tcbs ∧
        setsOut t (.retireDec key j (refKey r) who) (hubDie key) (hubDie (refKey r))) ∧
    (∀ ref, ∃ t, runEvent (.retireDec key i ref who) s = .next t ∧ setsOut t (.retireStep key (i + 1) who) (hubDie ref) (hubDie key) ∧
      ((s.tcb ref).state ≠ 0 → 1 < (s.tcb ref).count.toNat → (t.tcb ref).count.toNat + 1 = (s.tcb ref).count.toNat)) ∧
    ((s.tcb key).state ≠ 0 → (s.tcb key).ovf = 0 → (s.tcb key).handlerOf = false →
      (∀ p ∈ [(0, (s.tcb key).succ0), (1, (s.tcb key).succ1), (2, (s.tcb key).succ2)], i ≤ p.1 → refValid p.2 = false) →
      ∃ t, runEvent (.retireStep key i who) s = .next t ∧ (t.tcb key).state = 0)

/-! ## Tags and engines -/

/-- R213, R214: what the tag instructions do where no tag that they take carries a failed mark and the thread's vector instructions have
completed; with the tag of an operation that wrote global memory they drop the core's clean L1 lines. R217, R322: what `RDPACE` reads. -/
def Obligations.TagInstructions : Prop :=
  ∀ (s : State) (a d : Nat),
    (wellFormed (.waitt a) = true → admits (.waitt a) none none none s = true → s.me.failed = [] → s.g a &&& ~~~s.me.tags = 0 →
      s.vecQuiet s.cur = true →
      ∃ t, exec (.waitt a) s = .next t ∧
        t.me = { s.me.past 4 with tags := s.me.tags &&& ~~~(s.g a), gtags := s.me.gtags &&& ~~~(s.g a) } ∧
        (s.me.gtags &&& s.g a ≠ 0 → ∀ line l, line < 2 ^ 32 → t.l1 s.myCore line = some l → l.dirty ≠ 0)) ∧
    (wellFormed (.waitt a) = true → admits (.waitt a) none none none s = true → s.g a &&& ~~~(s.me.tags ||| s.me.inflight) = 0 →
      s.g a &&& ~~~s.me.tags ≠ 0 →
      ∃ t, exec (.waitt a) s = .next t ∧ t.me.st = .parked ∧ t.me.wait = .reissue (.tagsAll (s.g a)) ∧ t.me.pc = s.me.pc) ∧
    (wellFormed (.waita a) = true → admits (.waita a) none none none s = true → s.me.failed = [] → s.g a &&& s.me.tags ≠ 0 →
      s.vecQuiet s.cur = true →
      ∃ t, exec (.waita a) s = .next t ∧ t.me = s.me.past 4 ∧
        (s.me.gtags &&& (s.me.tags &&& s.g a) ≠ 0 → ∀ line l, line < 2 ^ 32 → t.l1 s.myCore line = some l → l.dirty ≠ 0)) ∧
    (wellFormed (.tfirst d) = true → admits (.tfirst d) none none (some d) s = true →
      ∃ v, exec (.tfirst d) s = .next (retired (.tfirst d) none none d v s) ∧
        (if s.me.tags = 0 then v = 64 else s.me.tags.getLsbD v.toNat = true ∧ ∀ j < v.toNat, s.me.tags.getLsbD j = false)) ∧
    (wellFormed (.tclr a) = true → admits (.tclr a) none none none s = true → s.me.failed = [] → s.vecQuiet s.cur = true →
      ∃ t, exec (.tclr a) s = .next t ∧
        t.me = { s.me.past 4 with tags := s.me.tags &&& ~~~(s.g a), gtags := s.me.gtags &&& ~~~(s.me.tags &&& s.g a) } ∧
        (s.me.gtags &&& (s.me.tags &&& s.g a) ≠ 0 → ∀ line l, line < 2 ^ 32 → t.l1 s.myCore line = some l → l.dirty ≠ 0)) ∧
    (wellFormed (.rdpace d) = true → admits (.rdpace d) none none (some d) s = true → s.captureOf s.me.region = none →
      s.pacer.ceiling < 32 → s.pacer.slack < 32 → s.pacer.limit < 32 → (s.tile (tileOf s.myCore)).level < 32 →
      ∃ v, exec (.rdpace d) s = .next (retired (.rdpace d) none none d v s) ∧
        (paceFits s (s.tile (tileOf s.myCore)).level → paceFields s (s.tile (tileOf s.myCore)).level v))

/-- R211, R218, R219, R221: `FETCH`, `PUSH` and `STOREB` with legal operands and a free entry are accepted. R211, R218, R221, R223, R330: `PUSH.x` through an export object and `PUSHM` through an address group are accepted.
That a `PUSHM` to a group without members is accepted is the model's choice (log 65). -/
def Obligations.Copies : Prop :=
  (∀ (s : State) (i : Instr) (kind : EngKind) (a b c tag scope : Nat) (cnt : Bool),
      CopyForm i kind a b c tag scope cnt → wellFormed i = true → admits i none none none s = true → tagFree s tag →
      copyLegal s (s.g a) (s.g b) (s.g c) cnt → copyRights s kind (s.g a) (s.g b) (bits (s.g c).toNat 0 32) →
      s.entryFree (tileOf s.myCore) = true →
      ∃ t, exec i s = .next t ∧ accepted s t kind (s.g a) (s.g b) (s.g c) tag scope) ∧
  (∀ (s u : State) (obj a b c tag scope e : Nat) (cnt : Bool),
      bits (s.g c).toNat 0 32 ≤ 262144 → (s.g a).toNat % 8 = 0 → (s.g b).toNat % 8 = 0 → bits (s.g c).toNat 0 32 % 8 = 0 → tagFree s tag →
      u.inPart u.myCore s.me.region (s.g b).toNat ((s.g b).toNat + bits (s.g c).toNat 0 32 : Nat) = true →
      u.entryFree (tileOf s.myCore) = true → u.cur = s.cur → u.me = s.me →
      (wellFormed (.pushX obj a b c tag scope cnt) = true → admits (.pushX obj a b c tag scope cnt) none none none s = true →
        s.objFor s.me.region obj 6 = (.ok e, u) → bit e 497 = true → isWindow (s.g a) = true → bits (s.g a).toNat 44 12 ≠ u.host.modid →
        exGrants e (s.g a) = true → exGrants e (lastByte (s.g a) (bits (s.g c).toNat 0 32)) = true →
        (if cnt then bits (s.g c).toNat 32 32 ≤ 131071 ∧
            exGrants e (BitVec.ofNat 64 (2 * 2 ^ 56 + bits e 476 12 * 2 ^ 44 + 0x200000 + 8 * bits (s.g c).toNat 32 32)) = true
          else bits (s.g c).toNat 32 32 = 0) →
        ∃ t, exec (.pushX obj a b c tag scope cnt) s = .next t ∧ accepted s t .pushX (s.g a) (s.g b) (s.g c) tag scope) ∧
      (wellFormed (.pushm obj a b c tag scope cnt) = true → admits (.pushm obj a b c tag scope cnt) none none none s = true →
        s.objFor s.me.region obj 2 = (.ok e, u) → bit e 497 = true → groupCount e ≤ 4096 → (groupBase e).toNat % 8 = 0 → bits e 56 8 = 0 →
        (if cnt then bits (s.g c).toNat 32 32 % 8 = 0 else bits (s.g c).toNat 32 32 = 0) →
        ∃ t, exec (.pushm obj a b c tag scope cnt) s = .next t ∧ accepted s t .pushM (s.g a) (s.g b) (s.g c) tag scope))

/-- R157, R211, R218, R224, R225, R231: `GATHER` and `SCATTER` of a tensor with the rights, `FABRED` of an address group and
`DONATE` of a legal image to another module are accepted, with a counter once it fits; the donation leaves by Relay, or is answered
absent. A group without members (log 65), the two lowest bits of g(a) of `FABRED` (log 68), and the order of the checks of `DONATE` and its
answer where no route is live (log 69) are the model's choices. -/
def Obligations.VaultAccepted : Prop :=
  (∀ (s u v w : State) (obj a b c tag scope e E : Nat) (t cnt : Bool) (ctr : Word) (kind : EngKind) (add : Bool) (i : Instr) (o : EngOp),
    (kind = .gather ∧ add = false ∧ i = .gather obj a b c tag scope t cnt ∨ kind = .scatter ∧ i = .scatter obj a b c tag scope t add cnt) →
    wellFormed i = true → admits i none none none s = true → tagFree s tag → s.objFor s.me.region obj 1 = (.ok e, u) →
    (if kind = .gather then bit e 498 = true else bit e 499 = true ∧ (add = true → bit e 500 = true ∧ 4 ≤ tFmt e ∧ tFmt e ≤ 9)) →
    E = fmtBits (tFmt e) / 8 → bits (s.g c).toNat 14 14 = 0 → bits (s.g c).toNat 0 13 ≤ 4096 → vaultTensor e = true → e < 2 ^ 512 →
    (s.g a).toNat % E = 0 → (s.g b).toNat % indexBytes (s.g c) = 0 → bits (s.g c).toNat 46 18 % 8 = 0 → bits (s.g c).toNat 28 18 % 8 = 0 →
    o = { s.newOp kind (s.g a) (s.g b) (s.g c) tag scope cnt with t := t, add := add, ent := BitVec.ofNat 512 e } →
    u.inPart u.myCore s.me.region (s.g a).toNat ((s.g a).toNat + bits (s.g c).toNat 0 13 * o.rowBytes : Nat) = true →
    u.inPart u.myCore s.me.region (s.g b).toNat ((s.g b).toNat + bits (s.g c).toNat 0 13 * indexBytes (s.g c) : Nat) = true →
    u.inPart u.myCore s.me.region (u.partAddr u.myCore (bits (s.g c).toNat 46 18)).toNat
      ((u.partAddr u.myCore (bits (s.g c).toNat 46 18)).toNat + 8 * ((bits (s.g c).toNat 0 13 + 63) / 64) : Nat) = true →
    u.inPart u.myCore s.me.region (u.partAddr u.myCore (bits (s.g c).toNat 28 18)).toNat
      ((u.partAddr u.myCore (bits (s.g c).toNat 28 18)).toNat + 32 : Nat) = true →
    s.host.modid = u.host.modid → u.cur = s.cur → u.me = s.me →
    countedAt u v w s.me.region { o with counter := ctr } (bits (s.g c).toNat 28 18) → w.cur = s.cur → w.me = s.me →
    ∃ t, exec i s = .next t ∧ accepted s t kind (s.g a) (s.g b) (s.g c) tag scope) ∧
  ∀ (s u v w x y : State) (obj a b c tag scope e ctr : Nat) (cnt : Bool) (l : List Word) (site : Site) (o : EngOp), tagFree s tag →
    u.cur = s.cur → u.me = s.me → s.host.modid = u.host.modid →
    (wellFormed (.fabred obj a b c tag scope cnt) = true → admits (.fabred obj a b c tag scope cnt) none none none s = true →
      s.objFor s.me.region obj 2 = (.ok e, u) → bit e 500 = true → groupCount e ≤ 4096 → (groupBase e).toNat % 8 = 0 → bits e 56 8 = 0 →
      bits (s.g c).toNat 15 13 = 0 → bits (s.g c).toNat 46 18 = 0 → bits (s.g c).toNat 0 15 ≤ 16384 →
      (s.g a).toNat % 4 = 0 → (s.g b).toNat % 8 = 0 → bits (s.g c).toNat 28 18 % 8 = 0 →
      o = { s.newOp .fabred (s.g a) (s.g b) (s.g c) tag scope cnt with ent := BitVec.ofNat 512 e, counter := BitVec.ofNat 64 ctr } →
      countedAt u v w s.me.region o (bits (s.g c).toNat 28 18) →
      v.inPart v.myCore s.me.region (s.g a).toNat ((s.g a).toNat + 4 * bits (s.g c).toNat 0 15 : Nat) = true →
      v.inPart v.myCore s.me.region (v.partAddr v.myCore (bits (s.g c).toNat 28 18)).toNat
        ((v.partAddr v.myCore (bits (s.g c).toNat 28 18)).toNat + 32 : Nat) = true →
      v.cur = s.cur → v.host.modid = s.host.modid → w.cur = s.cur → w.me = s.me →
      ∃ t, exec (.fabred obj a b c tag scope cnt) s = .next t ∧ accepted s t .fabred (s.g a) (s.g b) (s.g c) tag scope) ∧
    (wellFormed (.donate obj a b tag scope cnt) = true → admits (.donate obj a b tag scope cnt) none none none s = true →
      s.objFor s.me.region obj 4 = (.ok e, u) → bits e 476 12 ≠ u.host.modid → (s.g a).toNat % 64 = 0 → (s.g b).toNat % 8 = 0 →
      bits (s.g a).toNat 56 8 = 0 → o = { s.newOp .donate (s.g a) (s.g b) 0 tag scope cnt with ent := BitVec.ofNat 512 e } →
      u.counterBehind o = none → u.donateCounter o = (.ok ctr, v) → ctr % 8 = 0 → v.cur = s.cur → v.readBehind s.cur (s.g a).toNat 8 = none →
      v.threadReads s.cur (s.g a).toNat 8 = (.ok l, w) → imageOk l = true → w.aimEng o.xlateNow o (s.g b) .w = (.ok site, x) →
      (if cnt then x.counterFits { o with counter := BitVec.ofNat 64 ctr, image8 := l } (BitVec.ofNat 64 ctr) = (true, y) else y = x) →
      y.cur = s.cur → y.me = s.me →
      ∃ t, exec (.donate obj a b tag scope cnt) s = .next t ∧ accepted s t .donate (s.g a) (s.g b) 0 tag scope ∧
        ((∀ p ∈ y.engs, p.id < y.nextId) → x.nextId = y.nextId →
          planned t (.donateAnswer y.nextId 2) ∨ plannedAt t (.donateTimeout y.nextId) (y.time + 1000000)))

/-- R283: the donation that arrived first is answered: 3 where the queue object or the image is not fit, 1 where the queue is full, and with 0
its image joins the queue; the oldest image of a donation queue becomes a TCB at the designated hub, once one is FREE. -/
def Obligations.Donations : Prop :=
  ∀ (s : State) (region obj : Nat),
    (∀ chip id image r, s.donations.head? = some { chip := chip, id := id, tregion := region, tobj := obj, image := image } →
      r = { s with donations := s.donations.drop 1 } →
      ∃ t u st, exec (.donationReceive chip id region obj image) s = .next t ∧ t.donations = s.donations.drop 1 ∧
        t = (u.relaySend chip 0 (.donationAnswer id st)).getD u ∧
        (((r.donQueue region obj).1 = none ∨ donImageOk image = false) → st = 3) ∧
        ∀ e head l, (r.donQueue region obj).1 = some e → donImageOk image = true →
          (find s.rings (region * 65536 + obj)).getD (0, []) = (head, l) →
          (2 ^ bits e 432 4 ≤ l.length → st = 1) ∧ (l.length < 2 ^ bits e 432 4 → st = 0 ∨ st = 3) ∧
          (st = 0 → find u.rings (region * 65536 + obj) = some (head, l ++ [image]) ∧ planned u (.donationDrain region obj))) ∧
    (∀ head image rest e k, find s.rings (region * 65536 + obj) = some (head, image :: rest) → (s.donQueue region obj).1 = some e →
      s.freeTcb? (64 * bits e 436 2 + bits e 438 6) = some k →
      ∃ t, exec (.donationDrain region obj) s = .next t ∧ (t.tcb k).pc = image.getD 1 0 ∧ (t.tcb k).fp = image.getD 2 0 ∧
        (t.tcb k).region = region ∧ find t.rings (region * 65536 + obj) = some ((head + 1) % 2 ^ bits e 432 4, rest))

/-- R212, R220, R222, R223, R231, R283: the events of the engines: an operation whose moves are made sets its tag, and the acknowledgements,
answers and time limits are noted. What a member, a rank or an answer leaves is the model's record of it (log 65, log 68, log 69). -/
def Obligations.EngineEvents : Prop :=
  ∀ (s : State) (o : EngOp) (id : Nat), s.engs.find? (·.id == id) = some o →
    ((o.closing = false ∧ s.engReady o = true ∧ s.engMoves o = [] ∧ s.movesDone o = true ∧ o.cnt = false ∨
        o.closing = true ∧ o.counted = true ∧ o.asked = [] ∧ o.trips = []) → o.relMark = none → o.image = none → o.slot < 2 ^ 20 → o.tag < 64 →
      ∃ t, exec (.engineComplete id) s = .next t ∧ (t.slot o.slot).tags.getLsbD o.tag = true ∧
        (t.slot o.slot).inflight.getLsbD o.tag = false ∧ ∀ p ∈ t.engs, p.id ≠ id) ∧
    (∀ m, o.kind = .pushM → m < o.members.length → o.served m = true → m ∉ o.acks →
      (o.cnt = true → o.relMark = none ∧ (s.counterScope o (s.partAddr (bits (o.members.getD m 0).toNat 32 12) o.coff) < 4 ∨
        s.l1Settled (coreOf o.slot) = true)) →
      ∃ t p, exec (.pushmMemberAck id m) s = .next t ∧ p ∈ t.engs ∧ p.id = id ∧ m ∈ p.acks) ∧
    (s.engs.find? (fun p => p.tile == o.tile && p.spilled.isSome) = some o → s.strideEntries o.tile false < 32 →
      ∃ t p, exec (.strideSpillReturn o.tile) s = .next t ∧ p ∈ t.engs ∧ p.id = id ∧ p.spilled = none) ∧
    (o.kind = .pushX → o.asked ≠ [] → o.closing = false → o.sentAt + 1000000 ≤ s.time →
      ∃ t p, exec (.pushXTimeout id) s = .next t ∧ p ∈ t.engs ∧ p.id = id ∧ p.asked = [] ∧ p.fails ≠ []) ∧
    (∀ k, o.kind = .fabred → k < o.members.length → o.rankOver k = false →
      (∃ w < fabWords o.c, ∀ v ∈ o.vals, (v.1, v.2.1) ≠ (k, w)) →
      ∃ t p, exec (.fabredRankTimeout id k) s = .next t ∧ p ∈ t.engs ∧ p.id = id ∧ k ∈ p.absent) ∧
    (o.kind = .donate → o.status = none →
      (∀ st, ∃ t p, exec (.donateAnswer id st) s = .next t ∧ p ∈ t.engs ∧ p.id = id ∧ p.status = some st) ∧
      ∃ t p, exec (.donateTimeout id) s = .next t ∧ p ∈ t.engs ∧ p.id = id ∧ p.status = some 2)

/-! ## Vector and matrix instructions -/

/-- R159 to R161, R167 to R169: the claim of the vector context, its negotiation and its return, and the repeat frame; an instruction of
another thread than the owner traps VOWN. That a claim is performed at once and that `VFREE` clears shr are the model's choices (log 80). -/
def Obligations.VectorClaims : Prop :=
  ∀ (s : State) (q g st l : Nat),
    (wellFormed (.vclaim q g) = true → admits (.vclaim q g) none none none s = true →
      ((s.core s.myCore).vowner = none ∨ (s.core s.myCore).vowner = some s.cur ∧ s.vecQuiet s.cur = true →
        ∃ t, exec (.vclaim q g) s = .next t ∧ (t.core s.myCore).vowner = some s.cur ∧ t.me.vl = t.grantOf s.myCore ∧ t.me.vreq = q ∧
          t.g g = BitVec.ofNat 64 (t.grantOf s.myCore) ∧ t.me.pc = s.me.pc + 4 ∧
          ((s.tile (tileOf s.myCore)).groups.length = 8 → 8 ≤ t.grantOf s.myCore ∧ t.grantOf s.myCore ≤ 64) ∧
          ((s.core s.myCore).vowner = none → (∃ r, (s.core s.myCore).vlast = some r ∧ r ≠ s.me.region) →
            ∀ v i, v < 32 → i < 64 → t.lane s.myCore v i = 0) ∧
          sameBytes s t) ∧
      (∀ k, (s.core s.myCore).vowner = some k → k ≠ s.cur →
        exec (.vclaim q g) s = .next ((s.setG g 0).advance s.cur 4))) ∧
    (admits .vwait none none none s = true → (s.core s.myCore).vowner = some s.cur → s.vecQuiet s.cur = true →
      ∃ t, exec .vwait s = .next t ∧ (t.core s.myCore).vowner = some s.cur ∧ t.me.vl = Nat.min s.me.vl (t.grantOf s.myCore) ∧
        t.me.shr = (s.me.shr || decide (t.grantOf s.myCore < s.grantOf s.myCore)) ∧ t.me.pc = s.me.pc + 4 ∧ t.vregs = s.vregs ∧
        t.regs = s.regs ∧ sameBytes s t) ∧
    (admits .vfree none none none s = true → (s.core s.myCore).vowner = some s.cur → s.vecQuiet s.cur = true →
      ∃ t, exec .vfree s = .next t ∧ (t.core s.myCore).vowner = none ∧ t.me.vl = 0 ∧ t.me.shr = false ∧ t.grantOf s.myCore = 0 ∧
        t.me.pc = s.me.pc + 4 ∧ t.vregs = s.vregs ∧ t.regs = s.regs ∧ sameBytes s t) ∧
    (wellFormed (.repf st l g) = true → admits (.repf st l g) none none none s = true → (s.core s.myCore).vowner = some s.cur →
      (s.core s.myCore).seq = [] → (s.core s.myCore).frame = none →
      ∃ t f, exec (.repf st l g) s = .next t ∧ (t.core s.myCore).frame = some f ∧ f.slot = s.cur ∧ f.len = l + 1 ∧ f.stagger = st ∧
        f.count = (s.g g).toNat % 2 ^ 32 ∧ f.captured = 0 ∧ f.iter = 0 ∧ t.me = s.me.past 4 ∧ t.vregs = s.vregs ∧ t.regs = s.regs ∧
        sameBytes s t) ∧
    ∀ i, OwnerForm i → s.cur < 2 ^ 20 → admits i none none none s = true → (s.core s.myCore).vowner ≠ some s.cur →
      ∃ t, exec i s = .next t ∧ trapped s t .vown 0 0 0 0 0 s.me.pc

/-- R162 to R164, R169, R170: a vector instruction issues into the sequencer with its mask, its length, its rounding and its general
registers captured, sets the register it writes later pending, and advances the base of a post-increment form. -/
def Obligations.VectorCapture : Prop :=
  ∀ (s : State) (i : Instr) (g : Nat) (dst x y : Option Nat) (inc : Option (Nat × Nat)), VecForm i g dst x y inc → wellFormed i = true →
    admits i none none none s = true → (s.core s.myCore).vowner = some s.cur →
    (s.capturing = true ∨ (s.core s.myCore).frame = none ∧ (s.core s.myCore).seq.length < 16) →
    ∃ t e, exec i s = .next t ∧ (t.core s.myCore).seq = (s.core s.myCore).seq ++ [e] ∧ e.ins = i ∧ e.slot = s.cur ∧ e.pc = s.me.pc ∧
      e.mask = (if g = 127 then BitVec.allOnes 64 else s.g g) ∧ e.vl = s.me.vl ∧ e.rm = s.me.fprm.toNat ∧ e.pending = [] ∧ e.stop = none ∧
      e.sent = false ∧ e.lane = 0 ∧ (∀ r, x = some r → e.x = s.g r) ∧ (∀ r, y = some r → e.y = s.g r) ∧
      (∀ d, dst = some d → (t.greg s.cur d).pend = true ∧ t.g d = s.g d) ∧
      (∀ a n, inc = some (a, n) → t.g a =
        s.g a + BitVec.ofNat 64 ((if s.capturing then ((s.core s.myCore).frame.map Frame.count).getD 1 else 1) * (s.me.vl * n))) ∧
      (∀ r, dst ≠ some r → (∀ n, inc ≠ some (r, n)) → t.greg s.cur r = s.greg s.cur r) ∧
      ((t.core s.myCore).frame.map Frame.captured = (s.core s.myCore).frame.map fun f => f.captured + 1) ∧
      planned t (.vectorStep s.myCore) ∧ t.me = s.me.past 4 ∧ t.vregs = s.vregs ∧ othersKept s t ∧ sameBytes s t

/-- R162, R163, R171 to R181: the step of a vector instruction that touches no memory. It writes the active lanes below the smaller of the
captured length and the grant with what its rule says, or appends its word to the pending general-register writes; nothing else changes but
the sticky exceptions of its slot, and the entry leaves the sequencer. -/
def Obligations.VectorSteps : Prop :=
  ∀ (s : State) (core k : Nat) (e : SeqEnt), wellFormed e.ins = true → vmemOf e.ins = none → e.vl ≤ 64 →
    stepping s core k → (s.core core).seq = [e] → (s.core core).frame = none → e.sent = false →
    ∃ t, exec (.vectorStep core) s = .next t ∧ (t.core core).seq = [] ∧ t.regs = s.regs ∧ t.mem = s.mem ∧
      (∀ d a b R, LaneRule e.ins d a b R → onlyLanes s t core d ∧ t.slots = s.slots ∧
        ∀ i < 64, if laneOn s core e i then R (s.lane core a i) (s.lane core b i) (t.lane core d i)
          else t.lane core d i = s.lane core d i) ∧
      (∀ d f, FloatRule (fun a i => (s.lane core a i).toNat) { mode := e.rm } (s.slot e.slot).rndseed e.ins d f →
        onlyLanes s t core d ∧ onlyFlags s t e.slot ∧
        (∀ i < 64, t.lane core d i = if laneOn s core e i then BitVec.ofNat 32 (f i).1 else s.lane core d i) ∧
        ∀ j < 6, (t.slot e.slot).fpflags.getLsbD j = true ↔
          ((s.slot e.slot).fpflags.getLsbD j = true ∨ ∃ i < 64, laneOn s core e i = true ∧ (f i).2.getLsbD j = true)) ∧
      (∀ d f, MoveRule s core e e.ins d f → onlyLanes s t core d ∧ t.slots = s.slots ∧
        ∀ i < 64, t.lane core d i = (f i).getD (s.lane core d i)) ∧
      ∀ d R, ScalarRule s core e e.ins d R → ∃ v fl, R v fl ∧
        (t.core core).vpend = (s.core core).vpend ++ [{ slot := e.slot, reg := d, val := v }] ∧ planned t (.vectorPendingWrite core) ∧
        t.vregs = s.vregs ∧ onlyFlags s t e.slot ∧ (t.slot e.slot).fpflags = (s.slot e.slot).fpflags ||| fl

/-- R163, R164, R166: the sequencer steps whenever nothing holds it back; a pending write lands and sets its register full; the answer of an
element reaches its lane. -/
def Obligations.VectorEvents : Prop :=
  (∀ (s : State) (core k p j : Nat) (e : SeqEnt), stepping s core k → (s.core core).nextStep = some (p, j, e) →
    ∃ t, exec (.vectorStep core) s = .next t ∧ (vmemOf e.ins = none → t.mem = s.mem) ∧
      ∀ d a g w i, e.ins = .vld d a g w → (s.core core).frame = none → (s.core core).seq = [e] → s.stalled = false →
        (activeLanes e.mask (Nat.min e.vl (s.grantOf core))).find? (e.lane ≤ ·) = some i →
        (e.x + BitVec.ofNat 64 (i * vecBytes w)).toNat % vecBytes w ≠ 0 →
        ∃ f, (t.slot e.slot).earlier = (s.slot e.slot).earlier ++ [f] ∧ f.cause = .align ∧ f.xpc = e.pc ∧
          f.xaddr = e.x + BitVec.ofNat 64 (i * vecBytes w) ∧ f.xprog = BitVec.ofNat 64 i ∧ t.vregs = s.vregs ∧ t.mem = s.mem) ∧
  (∀ (s : State) (core : Nat) (p : VPend) (r : List VPend), (s.core core).vpend = p :: r →
    ∃ t, exec (.vectorPendingWrite core) s = .next t ∧ t.greg p.slot p.reg = { val := p.val } ∧ (t.core core).vpend = r ∧
      t.slots = s.slots ∧ t.vregs = s.vregs ∧ sameBytes s t) ∧
  ∀ (s : State) (id core ent j i : Nat) (r : Rep), s.arrived id = some r → r.req.dest = .lane core ent j i → s.repWaits r = false →
    ∃ t, exec (.vectorElementReply id) s = .next t ∧ ((∀ x fe bad poison, r.ans ≠ .line x fe bad poison) → t.reps = s.reps.erase r) ∧ t.regs = s.regs ∧
      sameBytes s t ∧
      ∀ e d a g w, (s.core core).frame = none → (s.core core).seq.find? (·.id == ent) = some e → e.ins = .vld d a g w →
        (∀ v, r.ans = .ok v → t.lane core d i = v.setWidth 32) ∧
        ∀ x fe bad poison, r.ans = .line x fe bad poison →
          t.lane core d i = BitVec.ofNat 32 (bits x.toNat (8 * (r.req.place % 128)) (8 * r.req.v1.toNat))

/-- R188, R199: the matrix claim and its release, `MUNCHAIN`, and ACCOWN for a thread that does not hold the claim. -/
def Obligations.MatrixClaims : Prop :=
  ∀ (s : State) (a : Nat),
    (wellFormed (.mclaimClaim a) = true → admits (.mclaimClaim a) none none none s = true →
      ((s.core s.myCore).mclaim = none →
        ∃ t, exec (.mclaimClaim a) s = .next t ∧ (t.core s.myCore).mclaim = some s.cur ∧ t.g a = 1 ∧ t.me.pc = s.me.pc + 8 ∧
          ((s.core s.myCore).mlast ≠ some s.me.region → (t.core s.myCore).stype = none ∧ (t.core s.myCore).htype = none ∧
            (t.core s.myCore).mflags = 0 ∧ (t.core s.myCore).scale.enabled = false ∧
            ∀ j ∈ s.ownedArrays s.myCore, ∀ r < 32, ∀ c < 32, t.acc (tileOf s.myCore) j r c = 0) ∧ sameBytes s t) ∧
      ∀ k, (s.core s.myCore).mclaim = some k →
        exec (.mclaimClaim a) s = .next ((s.setG a (if k = s.cur then 1 else 0)).advance s.cur 8)) ∧
    (wellFormed (.mclaimRelease a) = true → admits (.mclaimRelease a) none none none s = true →
      ((s.core s.myCore).mclaim ≠ some s.cur → exec (.mclaimRelease a) s = .next ((s.setG a 0).advance s.cur 8)) ∧
      ((s.core s.myCore).mclaim = some s.cur → (s.core s.myCore).mq = [] →
        ∃ t, exec (.mclaimRelease a) s = .next t ∧ (t.core s.myCore).mclaim = none ∧ (t.core s.myCore).mlast = some s.me.region ∧
          t.g a = 0 ∧ t.me.pc = s.me.pc + 8 ∧ t.accs = s.accs ∧ sameBytes s t)) ∧
    (wellFormed (.munchain a) = true → admits (.munchain a) none none none s = true → (s.core s.myCore).mclaim = some s.cur →
      ∃ t n, exec (.munchain a) s = .next t ∧ n = ((s.core s.myCore).mq.filter fun o => !o.started && chained o.kind).length ∧
        t.g a = BitVec.ofNat 64 n ∧ (∀ o ∈ (t.core s.myCore).mq, o.started = true ∨ chained o.kind = false) ∧
        (∀ o ∈ (s.core s.myCore).mq, o.started = true ∨ chained o.kind = false → o ∈ (t.core s.myCore).mq) ∧
        (t.core s.myCore).mflags.getLsbD 6 = ((s.core s.myCore).mflags.getLsbD 6 || decide (n ≠ 0)) ∧ t.me.pc = s.me.pc + 8 ∧
        t.accs = s.accs ∧ sameBytes s t) ∧
    ∀ i, HolderForm i → s.cur < 2 ^ 20 → admits i none none none s = true → (s.core s.myCore).mclaim ≠ some s.cur →
      ∃ t, exec i s = .next t ∧ trapped s t .accown 0 0 0 0 0 s.me.pc

/-- R190, R193, R195 to R198, R200: an operation whose checks pass enters the dispatch queue with its operands captured; an accumulator
access makes its thread matrix-busy until it completes. -/
def Obligations.MatrixIssue : Prop :=
  ∀ (s u : State) (i : Instr), wellFormed i = true → admits i none none none s = true → (s.core s.myCore).mclaim = some s.cur →
    (∀ kind, QueueForm s u i kind → (s.core s.myCore).mq.length < 2 →
      ∃ t o, exec i s = .next t ∧ (t.core s.myCore).mq = (s.core s.myCore).mq ++ [o] ∧ o.kind = kind ∧ o.slot = s.cur ∧ o.started = false ∧
        o.rowsDone = 0 ∧ t.me = s.me.past i.len ∧ t.accs = u.accs ∧ t.mem = u.mem ∧ t.regs = u.regs) ∧
    ∀ kind l, ArrayForm s u i kind l →
      ∃ t, exec i s = .next t ∧ (t.core s.myCore).acc = some { kind := kind, slot := s.cur, arrays := l } ∧
        t.me = { s.me with st := .matrixBusy, wait := .acc } ∧ t.accs = u.accs ∧ t.mem = u.mem ∧ t.regs = u.regs

/-- R193 to R198, R200 to R202, R204: the operations of a dispatch queue start, take the array and retire, and the accumulator accesses
complete. A row group of an operation on the array accumulates its products into the lanes of its span; `LDW` loads the shadow plane, `SWPW`
exchanges the planes; `MOVA` writes a vector register, `MSTA` a tensor, `MLDA` the lanes and `MSEL` its maps and lists. When the data of an
operation is read is the model's choice (log 84), and what an operation of depth 0 does (log 114). -/
def Obligations.MatrixEvents : Prop :=
  ∀ (s : State) (core tile : Nat),
    ((∃ i < 2, s.matStarts core i = true) →
      ∃ (t : State) (i : Nat) (o : MatOp), exec (.matrixOpStart core) s = .next t ∧ (s.core core).mq[i]? = some o ∧ o.started = false ∧
        (t.core core).mq[i]? = some { o with started := true, due := s.cycle core + (match o.kind with | .ldw _ _ _ => 64 | _ => 1) }) ∧
    ((s.tile tile).arrayBusy = none → (∃ c ∈ tileCores tile, s.selectable c = true) →
      ∃ t c o, exec (.matrixArraySelect tile) s = .next t ∧ c ∈ tileCores tile ∧ s.selectable c = true ∧
        (t.tile tile).arrayBusy = some c ∧ (t.core c).mq.head? = some o ∧ o.started = true) ∧
    (∀ o r, (s.core core).mq = o :: r → o.started = true → (∀ w, (s.slot o.slot).wait ≠ .preempt w) →
      ((s.core core).arrayRows o ≤ o.rowsDone → o.due ≤ s.cycle core →
        ∃ t, exec (.matrixOpRetire core) s = .next t ∧ (t.core core).mq = r ∧ t.slots = s.slots ∧ t.regs = s.regs ∧
          (o.kind = .swpw → (t.core core).stype = (s.core core).htype ∧ (t.core core).htype = (s.core core).stype ∧
            (find t.planes (2 * core)).getD [] = (find s.planes (2 * core + 1)).getD [] ∧
            (find t.planes (2 * core + 1)).getD [] = (find s.planes (2 * core)).getD []) ∧
          (∀ ty e g, o.kind = .ldw ty e g → (t.core core).htype = some ty ∧ find t.planes (2 * core) = find s.planes (2 * core) ∧
            ∀ k < 32 * dotWidth ty, ∀ n < 32, ((find t.planes (2 * core + 1)).getD []).getD (32 * k + n) 0 =
              s.tensorBits core e.toNat (originRow g + k) (originCol g + n)) ∧
          (∀ ty z w l, arrayOp o.kind ty z w l → shapeM w ≠ 0 → shapeN w ≠ 0 →
            ((s.core core).mismatch o.kind = true → (t.core core).mflags = (s.core core).mflags ||| 0x1000 ∧ t.accs = s.accs) ∧
            ((s.core core).mismatch o.kind = false → shapeK w ≠ 0 → (t.tile (tileOf core)).arrayBusy = none ∧ t.accs = s.accs) ∧
            ((s.core core).mismatch o.kind = false → shapeK w = 0 → (∃ e g east, o.kind = .mma ty true e g w east l) →
              ∀ m < shapeM w, ∀ n < shapeN w, laneAt t (tileOf core) l m n = 0)) ∧
          ∀ ty x y, o.kind = .mscale ty x y → x ≠ 0 → (t.core core).scale = { enabled := true, ty := ty, atab := x, wtab := y }) ∧
      (o.rowsDone < (s.core core).arrayRows o →
        o.due + Nat.min (o.rowsDone + 8) ((s.core core).arrayRows o) ≤ s.cycle core + 64 + (s.core core).arrayRows o →
        ∃ t, exec (.matrixOpRetire core) s = .next t ∧
          (t.core core).mq = { o with rowsDone := Nat.min (o.rowsDone + 8) ((s.core core).arrayRows o) } :: r ∧
          ∀ ty z w l, arrayOp o.kind ty z w l → shapeOk ty w = true → ty < 7 → spanFits l (shapeM w) →
            (∀ c b x, o.kind = .mchain ty z w b x → (s.tile (tileOf core)).chain = some c → c.k = shapeK w) →
            onlyArrays s t (tileOf core) l ∧
            ∀ m < 32 * l.length, ∀ n < 32,
              if o.rowsDone ≤ m ∧ m < Nat.min (o.rowsDone + 8) ((s.core core).arrayRows o) ∧ n < shapeN w then
                macRun s core o ty z w m n (laneAt s (tileOf core) l m n) (laneAt t (tileOf core) l m n)
              else laneAt t (tileOf core) l m n = laneAt s (tileOf core) l m n)) ∧
    ∀ a, (s.core core).acc = some a →
      (a.kind = .mzero ∨ (∃ d cl, a.kind = .mstat d cl) ∨
        s.vecQuiet a.slot = true ∧ ((∃ v w, a.kind = .mova v w) ∨ ∀ q ∈ s.reqs ++ s.heldReqs, q.src = a.slot → q.dest ≠ .ack)) →
      (∀ o ∈ (s.core core).mq, (∀ d cl, a.kind ≠ .mstat d cl) ∧ ∀ j ∈ o.kind.arrays, j ∉ a.arrays) →
      ∃ t, exec (.accAccessAttempt core) s = .next t ∧ (t.core core).acc = none ∧ ((∀ e o w, a.kind ≠ .msta e o w) → (∀ x w, a.kind ≠ .msel x w) → (t.slot a.slot).pc = (s.slot a.slot).pc + 8) ∧
        (a.kind = .mzero → ∀ j ∈ a.arrays, j < 8 → ∀ r < 32, ∀ c < 32, t.acc (tileOf core) j r c = 0) ∧
        (∀ d cl, a.kind = .mstat d cl → (t.greg a.slot d).val = s.matStatus core ∧
          (t.core core).mflags = if cl then 0 else (s.core core).mflags) ∧
        (∀ v w, a.kind = .mova v w → v < 32 → onlyLanes s t core v ∧ t.accs = s.accs ∧ t.mem = s.mem ∧
          ∀ n < 64, t.lane core v n = if n < 32 then BitVec.ofNat 32 (movaLane w (s.slot a.slot).rndseed (ctlRow w) n
            (laneAt s (tileOf core) a.arrays (ctlRow w) n).toNat).1 else s.lane core v n) ∧
        (∀ e g w, a.kind = .mlda e g w → ctlN w ≤ 32 → spanFits a.arrays (ctlM w) → onlyArrays s t (tileOf core) a.arrays ∧ t.mem = s.mem ∧
          ∀ m < 32 * a.arrays.length, ∀ n < 32, laneAt t (tileOf core) a.arrays m n =
            if m < ctlM w ∧ n < ctlN w then
              BitVec.ofNat 40 (mldaLane (tFmt e.toNat) (s.tensorBits core e.toNat (originRow g + m) (originCol g + n))).1
            else laneAt s (tileOf core) a.arrays m n) ∧
        (∀ e g w, a.kind = .msta e g w → a.slot < 2 ^ 20 → coreOf a.slot = core → padQuiet s core →
          (∀ m < ctlM w, ∀ n < ctlN w, inExtent e.toNat (originRow g + m) (originCol g + n) = true →
            padHolds s core (elemByte e.toNat (elemIndex e.toNat (originRow g + m) (originCol g + n))) (elemLen e.toNat)) →
          (∀ m < ctlM w, ∀ n < ctlN w, ∀ m' < ctlM w, ∀ n' < ctlN w, (m, n) ≠ (m', n') →
            elemIndex e.toNat (originRow g + m) (originCol g + n) ≠ elemIndex e.toNat (originRow g + m') (originCol g + n')) →
          (t.slot a.slot).pc = (s.slot a.slot).pc + 8 ∧ t.accs = s.accs ∧
          (∀ m < ctlM w, ∀ n < ctlN w, inExtent e.toNat (originRow g + m) (originCol g + n) = true →
            t.tensorBits core e.toNat (originRow g + m) (originCol g + n) =
              (mstaElem (tFmt e.toNat) w (s.slot a.slot).rndseed m n (laneAt s (tileOf core) a.arrays m n).toNat).1 %
                2 ^ fmtBits (tFmt e.toNat)) ∧
          ∀ q, (∀ m < ctlM w, ∀ n < ctlN w, inExtent e.toNat (originRow g + m) (originCol g + n) = true →
            ¬ (padPlace core (elemByte e.toNat (elemIndex e.toNat (originRow g + m) (originCol g + n))) ≤ q ∧
              q < padPlace core (elemByte e.toNat (elemIndex e.toNat (originRow g + m) (originCol g + n))) + elemLen e.toNat)) →
            readByte t.mem q = readByte s.mem q) ∧
        ∀ x w best, a.kind = .msel x w → a.slot < 2 ^ 20 → coreOf a.slot = core → padQuiet s core → ctlOk .msel w = true →
          padHolds s core x.toNat (mselBytes w) →
          best = (fun n => (ranked (fun p q => ranksAbove (bit w.toNat 48) (laneAt s (tileOf core) a.arrays p n).toNat
            (laneAt s (tileOf core) a.arrays q n).toNat) (ctlM w)).take (ctlTop w)) →
          (t.slot a.slot).pc = (s.slot a.slot).pc + 8 ∧ t.accs = s.accs ∧
          (∀ n < ctlN w, ∀ m < 256, (numAt t (padPlace core x.toNat + 32 * n) 32).testBit m = decide (m ∈ best n)) ∧
          (∀ n < ctlN w, ∀ i < ctlTop w,
            numAt t (padPlace core x.toNat + 32 * ctlN w + 2 * (n * ctlTop w + i)) 2 = (best n).getD i 0) ∧
          ∀ q, q < padPlace core x.toNat ∨ padPlace core x.toNat + mselBytes w ≤ q → readByte t.mem q = readByte s.mem q

/-! ## The host port -/

/-- R324 to R327, R337: a command in sequence is answered once with its status and body and has its effect; a command that needs the
semaphore is refused with 3 for its signature and 2 for its holder, in recovery all but two are refused with 9, and a body longer than
8,960 bytes or of another length than its command's with 5. The model's choices in it: functions without a body (log 12), a resume or an end of
a running region (log 27), the body of `LOGRD` (log 31), stage 0 and the status RECOVERY (log 49), the semaphore in recovery and taken twice
(log 50), the cause word of a halt (log 53), statuses of `ENERGYRD` and `KEYLOAD` (log 56), the layout of a report (log 59), `LAUNCH` before
stage 4 (log 120) and rejected images (log 121). -/
def Obligations.HostCommands : Prop :=
  ∀ (s v : State) (h : CtlHdr) (i : Instr) (code status : Nat) (args : List Nat) (words : List Word),
    CommandRule (heard s h.ep) h i code args status words v → h.ep ≤ 1 → s.host.stage ≠ 0 → h.seq = ((s.endpoint h.ep).last + 1) % 2 ^ 64 →
    exec i s = .next (
      if s.host.stage = 1 ∧ code ≠ 14 ∧ code ≠ 21 then answered h 9 [] (heard s h.ep)
      else if needsSem code = true ∧ Config.signatureOk ([h.ep, h.seq, code] ++ args) h.sig = false then answered h 3 [] (heard s h.ep)
      else if needsSem code = true ∧ (heard s h.ep).host.sem ≠ some h.ep then answered h 2 [] (heard s h.ep)
      else if (h.illFormed = true ∨ 8960 < h.len) ∧ 1 ≤ code ∧ code ≤ 21 then answered h 5 [] (heard s h.ep)
      else answered h status words v)

/-- R324, R325, R328: a repeated sequence number repeats the stored reply and does nothing else, another number is answered with 1; a group
without a live member is created by the module that joins it; RESET is answered and leaves the module as after power-on. What
a reset keeps (log 57), the leader that a joining module finds (log 43) and that nothing is answered at stage 0 (log 49) are the model's. -/
def Obligations.HostSequence : Prop :=
  (∀ (s v : State) (h : CtlHdr) (i : Instr) (code status : Nat) (args : List Nat) (words : List Word),
    CommandRule (heard s h.ep) h i code args status words v → h.ep ≤ 1 → s.host.stage ≠ 0 → h.seq ≠ ((s.endpoint h.ep).last + 1) % 2 ^ 64 →
    exec i s = .next (match (s.endpoint h.ep).reply with
      | some (st, ws) => (heard s h.ep).sendReply h.ep h.seq (if h.seq = (s.endpoint h.ep).last then st else 1)
          (if h.seq = (s.endpoint h.ep).last then ws else [])
      | none => (heard s h.ep).sendReply h.ep h.seq 1 [])) ∧
  (∀ (s : State) (h : CtlHdr) (group : Nat), h.ep ≤ 1 → 2 ≤ s.host.stage → h.seq = ((s.endpoint h.ep).last + 1) % 2 ^ 64 →
    h.illFormed = false → h.len ≤ 8960 → s.pacer.group = none →
    ∃ t, exec (.groupJoin h group) s = .next t ∧ (t.endpoint h.ep).reply = some (0, []) ∧
      if Config.groupLeader group s.tick = none then
        t.pacer.group = some group ∧ t.pacer.epoch = 1 ∧ t.pacer.leader = s.host.modid ∧ t.pacer.members = [s.host.modid] ∧
          t.pacer.ceiling = s.pacer.limit
      else t.pacer.applied = some group ∧ t.pacer.group = none) ∧
  ∀ (s : State) (h : CtlHdr), h.ep ≤ 1 → 2 ≤ s.host.stage → h.seq = ((s.endpoint h.ep).last + 1) % 2 ^ 64 →
    exec (.reset h) s = .next (
      if Config.signatureOk [h.ep, h.seq, 15] h.sig = false then answered h 3 [] (heard s h.ep)
      else if (heard s h.ep).host.sem ≠ some h.ep then answered h 2 [] (heard s h.ep)
      else if h.illFormed = true ∨ 8960 < h.len then answered h 5 [] (heard s h.ep)
      else { State.reset with
        host := { State.reset.host with fwStaged := s.host.fwStaged, firmware := s.host.firmware }
        timeBefore := s.timeBefore + s.now - s.lagged, lastIssue := s.tick, out := s.out ++ [.reply h.ep h.seq 0 []], nextId := s.nextId,
        tick := s.tick })

/-! ## Events of requests, caches and links -/

/-- R28, R131, R139, R234, R243, R250, R256, R259, R336: answers land at their threads, a negative acknowledgement is retried or parked,
a request is performed at its home or waits there for its line, and requests are combined and their answer split. -/
def Obligations.AnswersAndRequests : Prop :=
  (∀ (s : State) (id k : Nat) (r : Rep), s.arrived id = some r → s.repWaits r = false → r.req.src = k → k < 2 ^ 20 →
    (∀ v rg ext, r.ans = .ok v → r.req.acq = false → r.req.dest = .reg rg ext none →
      ∃ t, exec (.replyArrival id) s = .next t ∧ t.reps = s.reps.erase r ∧ (t.greg k rg).val = extend ext v.toNat ∧
        (t.slot k).pc = (s.slot k).pc + BitVec.ofNat 64 r.req.len ∧ (t.slot k).nacks = 0 ∧ sameBytes s t) ∧
    (r.req.dest = .ack →
      ∃ t, exec (.remoteStoreAck id) s = .next t ∧ (t.slot k).unack = (s.slot k).unack - 1 ∧
        (∀ v, r.ans = .ok v → (t.slot k).failStore = (s.slot k).failStore) ∧
        (∀ c, r.ans = .err c → (s.slot k).failStore = none → (t.slot k).failStore = some (id, errAddr r.req c, c)) ∧
        t.reps = s.reps.erase r ∧ t.regs = s.regs ∧ sameBytes s t) ∧
    (r.ans = .nack → (s.slot k).frozen = false →
      ∃ t, exec (.nackReceived id) s = .next t ∧
        if (s.slot k).nacks < (s.slot k).retry.toNat then
          (t.slot k).st = .waiting ∧ (t.slot k).wait = .reply s.nextId ∧ (t.slot k).nacks = (s.slot k).nacks + 1
        else (t.slot k).st = .parked ∧ (t.slot k).wait = .retry s.nextId (s.cycle (coreOf k) + (s.slot k).parkint.toNat))) ∧
  (∀ (s : State) (k id due : Nat) (q : Req), (s.slot k).st = .parked → (s.slot k).wait = .retry id due →
    due ≤ s.cycle (coreOf k) → s.reqs.find? (·.id == id) = some q →
    ∃ t, exec (.retryParkExpiry k) s = .next t ∧ (t.slot k).st = .waiting ∧ (t.slot k).wait = .reply id ∧ t.regs = s.regs) ∧
  (∀ (s : State) (id : Nat) (q : Req), s.reqs.find? (·.id == id) = some q →
    (q.miss = true → q.src < 2 ^ 20 → (s.slot q.src).frozen = false →
      ∃ t n, exec (.scopeMissReturn id) s = .next t ∧ (t.slot q.src).wait = .reply n ∧ s.nextId ≤ n ∧ (q.rel = false → n = s.nextId) ∧
        (t.slot q.src).scopemiss = Nat.min ((s.slot q.src).scopemiss + 1) (2 ^ 32 - 1) ∧
        ((∃ p ∈ t.reqs, p.id = n ∧ p.scope = s.narrowOf (coreOf q.src) q ∧ p.miss = false) ∨ ∃ r ∈ t.reps, r.req.id = n)) ∧
    (atItsHome s q →
      (isHbm q.place = false → exec (.homeAccess id) s = .next (s.perform q)) ∧
      (isHbm q.place = true → s.portShut (homeBank q.place) = false → s.lockHeld (q.place / 128) = false →
        (∀ p ∈ s.cache.conflict, p.1 ≠ q.place / 128) → (s.changes q = true → s.hotOf (q.place / 128) = none) →
        (∀ l, find s.cache.l2 (q.place / 128) = some l → l.key = q.key →
          exec (.homeAccess id) s = .next (s.perform q)) ∧
        (find s.cache.l2 (q.place / 128) = none → s.hotOf (q.place / 128) = none → (q.op = .touch → q.scope ≠ 5) →
          ∃ t, exec (.homeAccess id) s = .next t ∧ (q.place / 128, id) ∈ t.cache.locks ∧ sameBytes s t ∧
            if stackOf (q.place / 128) / 2 = homeBank (128 * (q.place / 128)) / 1024 then planned t (.bankMissFill (q.place / 128))
            else setsOut t (.stackRead (q.place / 128)) (homeBank (128 * (q.place / 128)) / 1024) (stackOf (q.place / 128) / 2))) ∧
      (isHbm q.place = true → s.portShut (homeBank q.place) = false → s.lockHeld (q.place / 128) = true →
        ∃ t, exec (.homeAccess id) s = .next t ∧ t.cache.conflict = s.cache.conflict ++ [(q.place / 128, id)] ∧ sameBytes s t))) ∧
  (∀ (s : State) (id : Nat) (q : Req), s.heldReqs.find? (·.id == id) = some q → s.early q = false →
    ∃ t, exec (.replayHeldAccess id) s = .next t ∧ q ∈ t.reqs ∧ (∀ p ∈ t.heldReqs, p.id ≠ id) ∧ planned t (.homeAccess id)) ∧
  (∀ (s : State) (i j : Nat) (p q : Req), s.reqs.find? (·.id == i) = some p → s.reqs.find? (·.id == j) = some q →
    s.combines p q = true → s.inRetry p = false → s.inRetry q = false →
    ∃ t c, exec (.omegaCombine i j) s = .next t ∧ c ∈ t.reqs ∧ c.id = s.nextId ∧ c.place = p.place ∧ c.region = p.region ∧
      (∀ w, p.op = .atomic .add w → c.op = p.op ∧ c.v1 = p.v1 + q.v1) ∧
      (∃ x ∈ t.splits, x.id = s.nextId ∧ x.first = p ∧ x.second = q) ∧ (s.nextId ≠ i → s.nextId ≠ j → ∀ r ∈ t.reqs, r.id ≠ i ∧ r.id ≠ j)) ∧
  ∀ (s : State) (id : Nat) (r : Rep) (p : Split) (v : Word),
    s.reps.find? (fun r => r.req.id == id && r.req.src == splitSrc) = some r → s.splits.find? (·.id == id) = some p → r.ans = .ok v →
    p.first.op = .atomic .add .d → p.first.src ≠ foreignSrc → p.second.src ≠ foreignSrc →
    ∃ t a b, exec (.combinedReplySplit id) s = .next t ∧ a ∈ t.reps ∧ a.req.id = p.first.id ∧ a.ans = .ok v ∧
      b ∈ t.reps ∧ b.req.id = p.second.id ∧ b.ans = .ok (v + p.first.v1)

/-- R128, R259, R261 to R264, R301 to R303, R306, R308: fills and the conflict queue of a bank, evictions, scrubbing, the life of a hot line,
and the walks of a tile. -/
def Obligations.CachesAndWalks : Prop :=
  (∀ (s : State) (line : Nat),
    (∀ l id q, s.cache.locks.find? (·.1 == line) = some (l, id) → s.hotOf line = none → s.reqs.find? (·.id == id) = some q →
      (find s.cache.l2 line ≠ none ∨ s.setHasRoom (homeBank (128 * line)) line = true ∨ s.setIdle (homeBank (128 * line)) line ≠ [] →
        ∃ t, exec (.bankMissFill line) s = .next t ∧ ∀ p ∈ t.cache.locks, p.1 ≠ line) ∧
      (find s.cache.l2 line = none → s.setHasRoom (homeBank (128 * line)) line = false → s.setIdle (homeBank (128 * line)) line = [] →
        ∃ t, exec (.bankMissFill line) s = .next t ∧ planned t (.bankMissFill line) ∧ t.cache.locks = s.cache.locks)) ∧
    (∀ p, s.lockHeld line = false → s.cache.conflict.find? (·.1 == line) = some p →
      ∃ t, exec (.conflictQueueServe line) s = .next t ∧
        (s.reqs.find? (·.id == p.2) = none → t.cache.conflict = s.cache.conflict.erase p)) ∧
    (∀ c, s.l1 c line ≠ none → ∃ t, exec (.lineEviction (.l1 c) line) s = .next t ∧ t.l1 c line = none) ∧
    (∀ c, find s.cache.ic (l1Key c line) ≠ none →
      ∃ t, exec (.lineEviction (.icache c) line) s = .next t ∧ find t.cache.ic (l1Key c line) = none ∧ sameBytes s t) ∧
    (find s.cache.l2 line ≠ none → s.lockHeld line = false → s.hotOf line = none →
      ∃ t, exec (.lineEviction .l2 line) s = .next t ∧ find t.cache.l2 line = none) ∧
    (find s.cache.msc line ≠ none → ∃ t, exec (.lineEviction .msc line) s = .next t ∧ find t.cache.msc line = none)) ∧
  (∀ (s : State) (place : Nat), ∃ t, exec (.patrolScrub place) s = .next t ∧ wordOf place ∉ t.soft ∧
    t.host.ecccnt = s.host.ecccnt + (if wordOf place ∈ s.soft then 1 else 0) ∧ sameBytes s t) ∧
  (∀ (s : State) (bank : Nat), ∃ t, exec (.hotWindowEnd bank) s = .next t ∧ ∀ c ∈ t.cache.cands, c.bank ≠ bank) ∧
  (∀ (s : State) (line tile : Nat) (h : Hot), s.hotOf line = some h →
    (h.copied = false → h.recalling = none → s.lockHeld line = false → s.l2Has line h.key = true →
      ∃ t, runEvent (.hotCopy line) s = .next t ∧ planned t (.hotReplicaAck line)) ∧
    (h.copied = true → h.acked = false → h.recalling = none →
      ∃ t, exec (.hotReplicaAck line) s = .next t ∧ t.hotOf line = some { h with acked := true } ∧
        ∀ n ∈ h.tiles, planned t (.redirectInstall n line)) ∧
    (h.acked = true → h.recalling = none → tile ∈ h.tiles → tile ∉ h.installed →
      ∃ t r, exec (.redirectInstall tile line) s = .next t ∧ r ∈ t.cache.redirects ∧ r.tile = tile ∧ r.line = line ∧
        r.slice = helperOf (homeBank (128 * line) / 4) tile ∧ t.hotOf line = some { h with installed := h.installed ++ [tile] }) ∧
    (h.recalling = none →
      (∃ t l, exec (.hotLineRecall line) s = .next t ∧ t.hotOf line = some { h with recalling := some l } ∧
        l = (helpers (homeBank (128 * line) / 4)).map Holder.helper ++ h.installed.map Holder.ni ∧
        ∀ w ∈ l, planned t (.recallWithdraw line w)) ∧
      ∀ slice, find s.cache.replicas (slice * 2 ^ 32 + line) ≠ none →
        ∃ t, exec (.helperEvictReport line slice) s = .next t ∧ planned t (.hotLineRecall line)) ∧
    (∀ l w, h.recalling = some l → w ∈ l →
      ∃ t, exec (.recallWithdraw line w) s = .next t ∧ t.hotOf line = some { h with recalling := some (l.erase w) } ∧
        (l.erase w = [] → planned t (.recallComplete line))) ∧
    (h.recalling = some [] →
      ∃ t, exec (.recallComplete line) s = .next t ∧ (s.cache.locks.find? (·.1 == line) = none → t.hotOf line = none))) ∧
  (∀ (s : State) (id : Nat) (q : Req), s.reqs.find? (·.id == id) = some q → q.drain = true →
    s.follows (tileOf (srcCore q.src)) (q.place / 128) = false → (q.rel = true → 4 ≤ q.scope → s.wbBefore (srcCore q.src) id = true) →
    exec (.redirectDrain id) s = .next (if q.op = .wback then (s.modReq id fun p => { p with drain := false }).setOutReq { q with drain := false }
      else (s.dropReq id).emit { q with drain := false })) ∧
  ∀ (s : State) (id : Nat) (w : Walk), s.walks.find? (·.id == id) = some w →
    (w.begun = false → (s.walks.filter fun v => v.tile == w.tile && v.begun).length < 4 →
      ∃ t, exec (.translationWalk id) s = .next t ∧ t.walks.find? (·.id == id) = some { w with begun := true } ∧
        planned t (.walkComplete id)) ∧
    (w.begun = true → w.stale = true →
      ∃ t, exec (.walkComplete id) s = .next t ∧ t.tlb = s.tlb ∧ t.slots = s.slots ∧ ∀ v ∈ t.walks, v.id ≠ id) ∧
    (w.begun = true → w.stale = false → ∀ p l x u,
      State.walk { s with walks := s.walks.filter (·.id != id) } w.region (w.va.toNat % 2 ^ 56) w.need = (.leaf p l x, u) →
      ∃ t, exec (.walkComplete id) s = .next t ∧ t.slots = u.slots ∧
        { holder := w.core, region := w.region, level := l, page := w.va.toNat % 2 ^ 56 / 2 ^ pageBits l, pte := BitVec.ofNat 64 p } ∈ t.tlb)

/-- R265, R266, R292, R295, R332, R333, R347: the links of the transom bridges and of Relay, and the frames of the Wicket. That a
retrain that has not ended within 1 ms fails both directions, with the regions that its event goes to (log 97), what a failed port does and how
its frames are acknowledged (log 33, log 34), and the byte order of a Wicket frame (log 127) are the model's choices. -/
def Obligations.Links : Prop :=
  (∀ (s : State) (d : Nat),
    ((s.bridge d).st = .up →
      (∀ f rest, (s.bridge d).wire = f :: rest →
        (f.seq = ((s.bridge d).accepted + 1) % 4096 →
          ∃ t, exec (.bridgeFlitReceive d) s = .next t ∧ (t.bridge d).accepted = f.seq ∧ (f.parts = [] → (t.bridge d).wire = rest) ∧
            ((∀ p, f.parts.getLast? = some p → p.last = true) →
              (t.bridge d).ackable = f.seq ∧ ((s.bridge d).ackable ≠ f.seq → planned t (.bridgeAckReceive d f.seq))) ∧
            ∀ p, f.parts.getLast? = some p → p.last = false →
              (t.bridge d).ackable = if p.first then (f.seq + 4095) % 4096 else (s.bridge d).ackable) ∧
        (f.seq ≠ ((s.bridge d).accepted + 1) % 4096 →
          ∃ t, exec (.bridgeFlitReceive d) s = .next t ∧ (t.bridge d).accepted = (s.bridge d).accepted ∧ (t.bridge d).wire = rest ∧
            t.reqs = s.reqs ∧ t.reps = s.reps)) ∧
      (∀ n f, f ∈ (s.bridge d).replay → f.seq = n → (s.bridge d).offered = [] → (s.bridge d).part = none →
        ∃ t, exec (.bridgeAckReceive d n) s = .next t ∧ (t.bridge d).replay = (s.bridge d).replay.filter fun f => seqAfter n f.seq) ∧
      ∃ t, exec (.bridgeRetrain d) s = .next t ∧ (t.bridge d).st = .retraining s.time ∧ (t.bridge d).wire = [] ∧
        (t.bridge d).accepted = (s.bridge d).ackable ∧ planned t (.bridgeRetrainDone d) ∧ plannedAt t (.bridgeFailTimeout d) (s.time + 1000000)) ∧
    ∀ n, (s.bridge d).st = .retraining n →
      (s.time < n + 1000000 → (s.bridge d).offered = [] → (s.bridge d).part = none →
        ∃ t, exec (.bridgeRetrainDone d) s = .next t ∧ (t.bridge d).st = .up ∧
          (t.bridge d).wire = (s.bridge d).replay.filter fun f => seqAfter (s.bridge d).accepted f.seq) ∧
      (n + 1000000 ≤ s.time → (s.bridge (2 * (d / 2))).holds = [] → (s.bridge (2 * (d / 2) + 1)).holds = [] →
        ∃ t, exec (.bridgeFailTimeout d) s = .next t ∧ (t.bridge (2 * (d / 2))).st = .failed ∧ (t.bridge (2 * (d / 2) + 1)).st = .failed ∧
          t.host.logCount = s.host.logCount + 1 ∧
          ∀ p ∈ s.regions, (∃ x ∈ bridgeDies (d / 2), p.2.holdsDie x = true) →
            tells t { region := p.1, code := 4, w1 := BitVec.ofNat 64 (d / 2), w2 := BitVec.ofNat 64 s.time, time := s.time })) ∧
  (∀ (s : State) (p frame : Nat) (pkts : List RelayPkt),
    ((s.port p).st = .up →
      (frame = ((s.port p).accepted + 1) % 4096 →
        exec (.relayFrameReceive p frame pkts) s =
          .next (pkts.foldl State.routePkt { (s.modPort p fun t => { t with accepted := frame }) with out := s.out ++ [.accepted p frame] })) ∧
      (frame ≠ ((s.port p).accepted + 1) % 4096 → seqAfter (s.port p).accepted frame = true →
        ∃ t, exec (.relayFrameReceive p frame pkts) s = .next t ∧ planned t (.relayLinkRetrain p) ∧ t.ports = s.ports) ∧
      (frame ≠ ((s.port p).accepted + 1) % 4096 → seqAfter (s.port p).accepted frame = false →
        exec (.relayFrameReceive p frame pkts) s = .next s) ∧
      ∃ t, exec (.relayLinkRetrain p) s = .next t ∧ (t.port p).st = .retraining s.time ∧ planned t (.relayLinkRetrainDone p) ∧
        plannedAt t (.relayPortTimeout p) (s.time + 1000000)) ∧
    ∀ n, (s.port p).st = .retraining n →
      (s.time < n + 1000000 → ∃ t l, exec (.relayLinkRetrainDone p) s = .next t ∧ (t.port p).st = .up ∧
        l = (s.port p).replay.drop (s.reported p) ++ (s.port p).held ∧ (t.port p).replay = l.take 64 ∧ (t.port p).held = l.drop 64 ∧
        t.out = s.out ++ [.accepted p (s.port p).accepted] ++ (l.take 64).map fun f => .relay p f.1 f.2) ∧
      (n + 1000000 ≤ s.time → (s.port p).replay = [] → (s.port p).held = [] →
        ∃ t, exec (.relayPortTimeout p) s = .next t ∧ (t.port p).st = .failed)) ∧
  (∀ (s : State) (queue e p : Nat) (dest : Nat × Nat), find s.host.wqcfg queue = some dest → queue < 4 →
    e = (find s.host.egress queue).getD 0 → p = wicketEntry queue e → s.feRaw p = true → s.feRaw (p + 56) = true →
    ∃ t, exec (.wicketEgress queue) s = .next t ∧ planned t (.wicketEgress queue) ∧
      (s.deferred = [] → find t.host.egress queue = some (e + 1) ∧ (∀ i < 8, t.feRaw (p + 8 * i) = false) ∧
        ∃ payload, t.out = s.out ++ [.udp (Config.moduleAddr, 47001) dest payload] ∧
          wicketBytes payload queue e (bits (numAt s p 8) 16 48)
            (if bits (numAt s (p + 56) 8) 0 2 = 1 ∧ bits (numAt s p 8) 0 6 ≤ 48 ∧ bits (numAt s p 8) 6 10 = 0
              then some (readBytes s.mem (p + 8) (bits (numAt s p 8) 0 6)) else none))) ∧
  ∀ s : State, ∃ t, exec .foreignFrame s = .next t ∧ t.host.hkdrop = s.host.hkdrop + 1 ∧ t.out = s.out ∧ sameBytes s t

/-! ## Events of hubs, strands and pre-emption -/

/-- R49, R50, R53, R54, R276, R287, R290, R292: allocation, the phases of a steal, the landing and the bounce of a strand, owed handlers, and
the record of an event, which a full queue drops and a region without a queue does not take. The bounce of an access goes back to be performed
as a remote message by the model's reading (log 106), the thief's slot is held while its claim stands (log 90), and a message that meets a failed
bridge has the model's outcome (log 88). -/
def Obligations.HubsAndStrands : Prop :=
  (∀ (s : State) (core : Nat) (u : State), u = s.modHub (clusterOf core) (fun h => { h with lastServed := coreIdx core }) →
    s.freeSlot? core ≠ none → (∀ c, s.asks c = true → c = core) →
    (∀ v, u.allocate core = some v →
      exec (.hubAllocate core) s =
        .next (((v.modCore core fun c => { c with refused := false }).later (.hubAllocate core)).planPreempt (clusterOf core))) ∧
    (∀ p key k b, (u.hub (clusterOf core)).pinned.filter (·.core == core) = [] → (u.hub (clusterOf core)).ready = [(p, key)] → p < 16 →
      key / 512 = clusterOf core → u.reserveOk (u.tcb key).region (clusterOf core) = true →
      u.startSlot core (u.tcb key).region = some k → u.freeBase core (u.tcb key).wclass = some b →
      u.admissible (u.tcb key).region = true →
      ∃ t, exec (.hubAllocate core) s = .next t ∧ startedFrom t k key b (s.tcb key) ∧ (t.hub (clusterOf core)).ready = []) ∧
    (u.allocate core = none →
      ∃ t, exec (.hubAllocate core) s = .next t ∧ (t.core core).refused = true ∧ (∃ d ∈ t.agenda, d.ev = .stealSweep core) ∧
        (t.hub (clusterOf core)).lastServed = coreIdx core ∧ t.slots = s.slots)) ∧
  (∀ (s : State) (core : Nat),
    ((s.core core).steal = .idle → (s.core core).refused = true → s.freeSlot? core ≠ none → s.busySlots core < 4 →
      ∃ t, exec (.stealSweep core) s = .next t ∧
        ((∀ c, s.heads c = []) → s.captureCore core = false →
          (t.core core).steal = .resting (s.cycle core + 256) ∧ t.slots = s.slots)) ∧
    (∀ a b r, (s.core core).steal = .probing (a :: b :: r) → (s.core core).refused = true → s.freeSlot? core ≠ none → s.busySlots core < 4 →
      (∀ c, s.heads c = []) → s.captureCore core = true →
      ∃ t, exec (.stealSweep core) s = .next t ∧ (t.core core).steal = .probing (b :: r) ∧
        plannedFor t (.stealSweep core) core (s.cycle core + 64) ∧ t.slots = s.slots) ∧
    (∀ n, (s.core core).steal = .resting n → n ≤ s.cycle core →
      ∃ t, exec (.stealRestExpiry core) s = .next t ∧ (t.core core).steal = .idle ∧ plannedFor t (.stealSweep core) core (s.cycle core)) ∧
    (∀ victim r k, (s.core core).steal = .claimed victim r k → (∃ h ∈ s.heads (coreOf victim), h.1 = victim ∧ h.2.2.2 = true) →
      (s.tcb (refKey r.join)).count ≠ BitVec.allOnes 32 →
      ∃ t, exec (.stealHubAck core) s = .next t ∧ (t.tcb (refKey r.join)).count = (s.tcb (refKey r.join)).count + 1 ∧
        (t.slot victim).slink = r.join ∧ (t.core core).steal = .travelling victim r (s.slot victim).slink k ∧
        setsOut t (.stealArrival core) (dieOf (coreOf victim)) (dieOf core)) ∧
    ∀ victim r link k, (s.core core).steal = .travelling victim r link k →
      ∃ t, exec (.stealArrival core) s = .next t ∧ (t.core core).steal = .idle ∧ (t.slot k).pc = r.pc ∧ (t.slot k).region = r.region ∧
        (t.slot k).task = r.task ∧ (t.slot k).slink = link ∧ readyIn s t k r.region) ∧
  (∀ (s : State) (id : Nat) (m : MigMsg), s.migs.find? (·.id == id) = some m →
    (m.landed = false → m.bounce = false → (s.core m.target).landq = [] → s.retired m.target = false →
      s.behindPair (coreOf m.src) m.target m.id = false →
      (∀ k, s.landingSlot m.target = some k →
        ∃ t, exec (.migrationArrival id) s = .next t ∧ (t.slot k).pc = m.pc ∧ (t.slot k).region = m.region ∧ (t.slot k).wclass = 2 ∧
          readyIn s t k m.region ∧ setsOut t (.landingAck id) (dieOf (coreOf k)) (dieOf (coreOf m.src))) ∧
      (s.landingSlot m.target = none → (s.core m.target).landn ≠ 0 →
        ∃ t, exec (.migrationArrival id) s = .next t ∧ (t.core m.target).landq = [m] ∧ t.slots = s.slots) ∧
      (s.landingSlot m.target = none → (s.core m.target).landn = 0 →
        ∃ t, exec (.migrationArrival id) s = .next t ∧ t.migs.find? (·.id == id) = some { m with bounce := true } ∧
          setsOut t (.bounceReturn id) (dieOf m.target) (dieOf (coreOf m.src)) ∧ t.slots = s.slots)) ∧
    (m.landed = true →
      ∃ t, exec (.landingAck id) s = .next t ∧ (t.slot m.src).st = .empty ∧ ∀ n ∈ t.migs, n.id ≠ id) ∧
    (m.bounce = true →
      ∃ t, exec (.bounceReturn id) s = .next t ∧ (t.slot m.src).pc = m.pc ∧ (t.slot m.src).bounced = !m.hop ∧
        (m.hop = true → (t.slot m.src).xprog = 0) ∧ readyIn s t m.src m.region ∧ (t.core (coreOf m.src)).bounces = (s.core (coreOf m.src)).bounces + 1 ∧
        (∀ n ∈ t.migs, n.id ≠ id) ∧ sameBytes s t)) ∧
  (∀ (s : State) (core k : Nat) (m : MigMsg) (r : List MigMsg), (s.core core).landq = m :: r → s.landingSlot core = some k →
    ∃ t, exec (.landingQueueTake core) s = .next t ∧ (t.core core).landq = r ∧ (t.slot k).pc = m.pc ∧ (t.slot k).region = m.region ∧
      readyIn s t k m.region) ∧
  (∀ (s : State) (cl r : Nat) (l : List Nat) (k : Nat), (s.hub cl).owed = r :: l → s.freeTcb? cl = some k →
    exec (.handlerOwedStart cl) s =
      .next (((s.modHub cl fun h => { h with owed := h.owed.filter (· != r) }).startHandler r).later (.handlerOwedStart cl))) ∧
  (∀ (s u v : State) (r code : Nat) (w1 w2 q dlv seen lost : Word) (g : Region) (mine : Told → Bool),
    s.region? r = some g → g.evq ≠ 0 → mine = (fun e => e.event == .eventDelivery r code w1 w2) →
    u = { s with told := s.told.eraseP mine } → u.devReads r g.evq.toNat 4 = (.ok [q, dlv, seen, lost], v) →
    ((dlv - seen).toNat = 2 ^ (q.toNat % 16) →
      exec (.eventDelivery r code w1 w2) s = .next (v.devWrite r (g.evq.toNat + 24) (lost + 1)).2) ∧
    ∀ y z, (dlv - seen).toNat ≠ 2 ^ (q.toNat % 16) →
      v.devWrites r (recordAddr g.evq.toNat (q.toNat % 16) dlv.toNat)
        [BitVec.ofNat 64 code, BitVec.ofNat 64 ((s.told.find? mine).elim s.time Told.time), w1, w2, 0, 0, 0, 0] = (.ok (), y) →
      y.devWrite r (g.evq.toNat + 8) (dlv + 1) = (.ok (), z) →
      ∃ t, exec (.eventDelivery r code w1 w2) s = .next t ∧ t.mem = z.mem ∧ t.cache = z.cache ∧ handlerStarted z t r) ∧
  ∀ (s : State) (r code : Nat) (w1 w2 : Word),
    (∃ t, exec (.eventDelivery r code w1 w2) s = .next t) ∧
      ((∀ g, s.region? r = some g → g.evq = 0) →
        exec (.eventDelivery r code w1 w2) s =
          .next { s with told := s.told.eraseP fun e => e.event == .eventDelivery r code w1 w2 })

/-- R278 to R280, R296 to R299: a pre-emption is decided, its thread halts, is saved with its registers, and is restored as it was. That
a strand in flight is halted where it lands or bounces to (log 74), when the save may complete and whose arrays are reclaimed (log 75, log 76,
log 78) are the model's choices. -/
def Obligations.Preemption : Prop :=
  (∀ (s : State) (cl q : Nat) (l : List Nat), s.preempting cl = false → s.preemption cl = some (q, l) →
    s.images.length + s.departing.length + l.length ≤ 16384 →
    ∃ t, exec (.preemptDecision cl) s = .next t ∧ (∀ k ∈ l, planned t (.preemptRequestArrival k)) ∧ t.slots = s.slots ∧ t.images = s.images) ∧
  ∀ (s : State) (k : Nat),
    ((s.slot k).st = .parked → (s.slot k).stale = false → (s.slot k).parkedSince + 262144 ≤ s.cycle (coreOf k) →
      ∃ t, exec (.threadStale k) s = .next t ∧ (t.slot k) = { s.slot k with stale := true } ∧ planned t (.preemptDecision (clusterOf (coreOf k)))) ∧
    ((s.slot k).st ≠ .held → (s.slot k).st ≠ .empty → (s.slot k).leaving = false → (s.slot k).wait ≠ .restore →
      ∃ t, exec (.preemptRequestArrival k) s = .next t ∧ (t.slot k).leaving = true ∧ planned t (.preemptSaveComplete k) ∧
        ((s.slot k).st = .ready → (s.slot k).wait = .none → (s.slot k).earlier = [] → (s.core (coreOf k)).frame = none →
          (t.slot k).st = .halted ∧ (t.slot k).before = .ready ∧ (t.slot k).pc = (s.slot k).pc ∧ t.regs = s.regs ∧ sameBytes s t)) ∧
    ((s.slot k).st = .held → (∃ m ∈ s.migs, m.src = k ∧ m.landed = false ∧ m.preempt = false) →
      ∃ t, exec (.preemptRequestArrival k) s = .next t ∧ t.slots = s.slots ∧ ∀ m ∈ t.migs, m.src = k → m.landed = false → m.preempt = true) ∧
    ((s.slot k).leaving = true → s.saveReady k = true → (s.slot k).completes = true →
      (∀ u, s.endForm k = some (true, u) → exec (.preemptSaveComplete k) s = .next (u.saveThread k)) ∧
      ∀ u, s.endForm k = some (false, u) → exec (.preemptSaveComplete k) s = .next (u.later (.preemptSaveComplete k))) ∧
    ((s.slot k).leaving = true → s.saveReady k = true → (s.slot k).completes = false →
      ∃ t m, exec (.preemptSaveComplete k) s = .next t ∧ m ∈ t.images ∧ m.core = coreOf k ∧ m.origin = k ∧ m.slot.pc = (s.slot k).pc ∧
        m.slot.pw = (s.slot k).pw ∧ m.slot.before = (s.slot k).before ∧ (∀ r < (s.slot k).size, m.regs[r]? = some (s.greg k r)) ∧
        (t.slot k).st = .empty) ∧
    ∀ id m, s.images.find? (·.id == id) = some m → m.into = some k →
      (m.written = false → s.queuesFree m = true → m.deque = [] →
        ∃ t n, exec (.threadRestore id) s = .next t ∧ planned t (.threadRestore id) ∧ (t.slot k).pc = m.slot.pc ∧ (t.slot k).pw = m.slot.pw ∧
          (t.slot k).before = m.slot.before ∧ (t.slot k).bwait = m.slot.bwait ∧ (t.slot k).base = (s.slot k).base ∧
          (∀ r < m.regs.length, some (t.greg k r) = m.regs[r]?) ∧ t.images.find? (·.id == id) = some n ∧ n.written = true) ∧
      (∀ v, m.written = true → m.vector = some v → (s.core m.core).vowner = none →
        ∃ t, exec (.threadRestore id) s = .next t ∧ planned t (.threadRestore id) ∧ (t.core (coreOf k)).vowner = some k) ∧
      (∀ x, m.written = true → m.vector = none → m.matrix = some x → (s.core m.core).mclaim = none → (s.core m.core).mq = [] →
        ∃ t, exec (.threadRestore id) s = .next t ∧ planned t (.threadRestore id) ∧ (t.core (coreOf k)).mclaim = some k) ∧
      (m.written = true → m.vector = none → m.matrix = none → (s.slot k).inflight = 0 → s.halted (s.slot k).region = false →
        ∃ t, exec (.threadRestore id) s = .next t ∧ (t.slot k).st = (s.slot k).before ∧ (t.slot k).wait = (s.slot k).bwait ∧
          (t.slot k).pc = (s.slot k).pc ∧ t.regs = s.regs ∧ ∀ n ∈ t.images, n.id ≠ id)

/-! ## Events of Pacer, power and boot -/

/-- R316 to R321: epochs, announcements, drops, raises, heartbeats, silence and slack of Pacer. -/
def Obligations.PacerEvents : Prop :=
  (∀ (s : State) (m : EpochMsg), s.pacer.group = some m.group →
    ∃ t, exec (.pacerEpochReceive m) s = .next t ∧
      (s.host.modid ∉ m.members → t.pacer.group = none ∧ t.pacer.ceiling = s.pacer.limit) ∧
      (s.host.modid ∈ m.members → t.pacer.group = some m.group ∧ t.pacer.epoch = m.epoch ∧ t.pacer.leader = m.leader ∧
        t.pacer.members = m.members)) ∧
  (∀ (s : State) (level e : Nat), s.pacer.pend = some (level, e) → e ≤ s.time →
    ∃ t, exec .pacerCeilingApply s = .next t ∧ t.pacer.ceiling = level ∧ t.pacer.pend = none) ∧
  (∀ (s : State) (level bite : Nat), level < s.pacer.limit →
    (∃ t, exec (.pacerAnnounce level bite) s = .next t ∧ t.pacer.limit = level ∧
      (s.pacer.group = none → t.pacer.ceiling = level) ∧
      (s.pacer.group ≠ none → bite < s.time + 200000 → t.pacer.dropped = some level) ∧
      (s.pacer.group ≠ none → s.time + 200000 ≤ bite → t.pacer.announced = some level ∧ t.pacer.dropped = s.pacer.dropped)) ∧
    ∃ t, exec (.hardDrop level) s = .next t ∧ t.pacer.limit = level ∧
      (if s.pacer.group = none then t.pacer.ceiling = level else t.pacer.dropped = some level)) ∧
  (∀ (s : State) (level : Nat), s.pacer.group ≠ none → s.pacer.announced = some level →
    ∃ t, exec .announceRejected s = .next t ∧ t.pacer.limit = level ∧ t.pacer.dropped = some level ∧ t.pacer.announced = none) ∧
  (∀ (s : State) (chip level bite : Nat) (hard : Bool), s.leads = true → chip ∈ s.pacer.members →
    (∃ t, exec (.leaderAnnounceHandle chip level bite hard) s = .next t) ∧
    (hard = false → chip ∉ s.pacer.joining → bite < s.time + 200000 → chip = s.host.modid →
      ∃ t, exec (.leaderAnnounceHandle chip level bite hard) s = .next t ∧ planned t .announceRejected ∧ t.pacer = s.pacer) ∧
    (hard = true ∨ s.time + 200000 ≤ bite → s.host.modid ∈ s.pacer.members → s.pacer.leaving = [] →
      ∃ t, exec (.leaderAnnounceHandle chip level bite hard) s = .next t ∧ t.pacer.epoch = (s.pacer.epoch + 1) % 2 ^ 32)) ∧
  (∀ (s : State) (lead : Nat), s.leads = true → 200000 ≤ lead → s.pacer.pend = none → s.pacer.lastChange + 10000000 ≤ s.time →
    s.pacer.ceiling < 30 → (∀ c ∈ s.pacer.members, s.pacer.ceiling + 2 ≤ (find s.pacer.proposals c).getD 0) →
    s.host.modid ∈ s.pacer.members → s.pacer.joining = [] → s.pacer.leaving = [] →
    ∃ t, exec (.leaderRaise lead) s = .next t ∧ t.pacer.pend = some (Nat.min (s.pacer.ceiling + 2) 30, s.time + lead) ∧
      t.pacer.epoch = (s.pacer.epoch + 1) % 2 ^ 32) ∧
  (∀ s : State, s.pacer.group ≠ none →
    (∃ t, exec .pacerHeartbeat s = .next t ∧ find t.pacer.proposals s.host.modid = some s.pacer.limit ∧
      plannedAt t .pacerHeartbeat (s.time + 50000)) ∧
    (∃ t, exec .slackWindowEnd s = .next t ∧ t.pacer.winCycles = 0 ∧ t.pacer.winIdle = 0 ∧
      t.pacer.slack = (if s.pacer.winCycles = 0 then s.pacer.slack
        else if s.pacer.winCycles ≤ 4 * s.pacer.winIdle then s.pacer.slack - 1
        else if 10 * s.pacer.winIdle < s.pacer.winCycles then Nat.min (s.pacer.slack + 1) s.pacer.ceiling
        else s.pacer.slack)) ∧
    ∀ level, s.pacer.limit < level → level ≤ 30 →
      ∃ t, exec (.proposalChange level) s = .next t ∧ t.pacer.limit = level ∧ find t.pacer.proposals s.host.modid = some level) ∧
  ∀ (s : State) (chip : Nat), s.silentNow chip = true →
    (s.leads = false → chip ≠ s.pacer.leader →
      ∃ t, exec (.memberSilence chip) s = .next t ∧
        ∀ p ∈ s.regions, p.2.collective = true → 
          tells t { region := p.1, code := 2, w1 := BitVec.ofNat 64 chip, w2 := BitVec.ofNat 64 s.pacer.epoch, time := s.time }) ∧
    (∃ t, exec (.memberSilence chip) s = .next t) ∧
    (chip = s.pacer.leader → exec .leaderSilence s = .next s.replaceLeader)

/-- R18, R310 to R312, R314, R315, R327, R336, R339, R344: the levels and shutters of tiles and cores, billing, the semaphore's time limit,
power-on and discovery, and the inputs of a replay. The boot thread (log 10), the firmware check (log 12), the delivery of an event of a replay
(log 26, log 40), the moment of a level change (log 46), the number of shuttered positions (log 47), the period of billing (log 48) and floods
at failed bridges (log 60) are the model's choices. -/
def Obligations.PowerAndBoot : Prop :=
  (∀ (s : State) (tile : Nat),
    ((s.tile tile).stopped = false → s.levelTarget tile ≠ (s.tile tile).level → s.atLap tile = true →
      ∃ t, exec (.levelChange tile) s = .next t ∧ (t.tile tile).stopped = true ∧ (t.tile tile).target = some (s.levelTarget tile) ∧
        ∃ n ≤ s.time + 2000, s.time ≤ n ∧ plannedAt t (.clockRestart tile) n) ∧
    ((s.tile tile).stopped = true →
      ∃ t, exec (.clockRestart tile) s = .next t ∧ (t.tile tile).stopped = false ∧ (t.tile tile).edge = s.now ∧
        (t.tile tile).cycle = (s.tile tile).cycle ∧ (t.tile tile).level = (s.tile tile).target.getD (s.tile tile).level)) ∧
  (∀ (s : State) (core count : Nat), count ≤ 48 → s.cycle core % 64 = 0 →
    ∃ t, exec (.shutterUpdate core count) s = .next t ∧ t.slots = s.slots ∧
      ((List.range 64).filter fun i => (t.core core).shut.getLsbD i).length = count ∧
      (∀ i < 64, (t.core core).shut.getLsbD i = true → isSystem (64 * core + i) = false) ∧
      ∀ i < 64, ∀ j < 64, (t.core core).shut.getLsbD i = true → (t.core core).shut.getLsbD j = false → isSystem (64 * core + j) = false →
        shutFirst s core i j) ∧
  (∀ s : State, ∃ t, exec .billingSend s = .next t ∧ t.host.lastBill = s.time ∧ plannedAt t .billingSend (s.time + 10000)) ∧
  (∀ (s : State) (region nj : Nat), ∃ t, exec (.billingReceive region nj) s = .next t ∧ t.slots = s.slots ∧ sameBytes s t ∧
    (region = 0 ∨ s.region? region = none → t.host.spent0 = sat64 (s.host.spent0 + nj)) ∧
    ∀ g, region ≠ 0 → s.region? region = some g → (t.region? region).map Region.spent = some (sat64 (g.spent + nj))) ∧
  (∀ s : State, s.host.sem ≠ none → s.host.semSeen + 1000000000 ≤ s.time →
    ∃ t, exec .ctlsemTimeout s = .next t ∧ t.host.sem = none) ∧
  (∀ s : State, s.host.stage = 0 →
    ∃ t, exec .powerOnReset s = .next t ∧
      if Config.firmwareOk (if s.host.fwStaged = [] then s.host.firmware.getD Config.firmware else s.host.fwStaged) = true then
        t.host.stage = 2 ∧ t.host.retired = bootRetired ∧ ((s.core 0).released = none → t.released 0 = true) ∧
          planned t (.discoveryFloodReceive 0 ((s.host.round + 1) % 65536)) ∧ plannedAt t .discoveryTimeout (s.time + 1000000)
      else t.host.stage = 1 ∧ t.slots = s.slots) ∧
  (∀ (s : State) (core : Nat), s.host.stage = 2 →
    (core < 4096 → core ∉ s.host.flooded → core = 0 ∨ (∃ c ∈ beside core, c ∈ s.host.flooded) →
      ∃ t, exec (.discoveryFloodReceive core s.host.round) s = .next t ∧ core ∈ t.host.flooded ∧
        setsOut t (.discoveryAnswer core s.host.round) (dieOf core) 0 ∧
        ∀ c ∈ beside core, c ∉ s.host.flooded → c ≠ core → setsOut t (.discoveryFloodReceive c s.host.round) (dieOf core) (dieOf c)) ∧
    (core ∈ s.host.flooded → core ∉ s.host.answered →
      ∃ t, exec (.discoveryAnswer core s.host.round) s = .next t ∧ core ∈ t.host.answered ∧
        (core ∈ t.host.refusals ↔ core ∈ s.host.refusals ∨ s.retired core = true) ∧
        if (insertNat s.host.answered core).length < 4096 then t.host.stage = 2 ∧ t.slots = s.slots
        else t.host.stage = 3 ∧ t.host.mapped = true ∧ t.slot 1 = bootSlot ∧
          ∀ c, c ∈ t.host.logical ↔ c < 4096 ∧ c ∉ t.host.refusals) ∧
    (s.host.discoveryBegan + 1000000 ≤ s.time →
      ∃ t, exec .discoveryTimeout s = .next t ∧ t.host.stage = 1 ∧ t.host.logCount = s.host.logCount + 1)) ∧
  ∀ (s : State) (region : Nat) (input : ExtInput) (c : Capture), s.host.captures.find? (fun c => c.region == region && c.replay) = some c →
    CapRec.input input ∈ c.recs → c.due input = true →
    ∃ t, exec (.replayExternalInput region input) s = .next t ∧
      ∀ m, input = .pacer m → ∀ p ∈ s.regions, s.isAbove region p.1 = true →
        tells t { region := p.1, code := 3, w1 := BitVec.ofNat 64 (m.pend.getD (m.ceiling, s.time)).1,
                  w2 := BitVec.ofNat 64 (m.pend.getD (m.ceiling, s.time)).2, time := s.time }

/-! ## Decoding and steps -/

/-- R60, R63, R70: some words with their encodings written out, the two examples of the chapter among them, and words that are no
instruction. -/
def Obligations.DecodeSampleWords : Prop :=
  decodeBytes [0xE0, 0x60, 0x28, 0x04] = .ok (.add 5 6 7, []) ∧
  decodeBytes [0xC0, 0x50, 0x20, 0xE0, 0x82, 0x01, 0x00, 0x00] = .ok (.aadd 4 5 6 3 2 0, []) ∧
  decode 0xB8221840 0 = .ok (.vadd 1 2 3 4) ∧
  decode 0xE8100001 0x00050002 = .ok (.ldw 5 2 1) ∧
  decode 0xE4082060 0x00001080 = .ok (.fetch 1 2 3 4 1 false) ∧
  decode 0 0 = .error .allZeros ∧ decode 0xFFFFFFFF 0xFFFFFFFF = .error .allOnes ∧
  (decodeBytes [0xE0, 0x60, 0x28]).toOption = none ∧ (decode 0xEC000000 0).toOption = none ∧ (decode 0x0428601F 0).toOption = none

/-- R3, R59, R60: the bytes of every well-formed instruction decode to it, whatever follows them. -/
def Obligations.DecodeEncode : Prop :=
  ∀ (i : Instr) (rest : List Byte), wellFormed i = true → i.isWord = true → decodeBytes (wordBytes (encode i) ++ rest) = .ok (i, rest)

/-- R60, R63: words that decode are the words of the instruction they decode to, so that no two words decode alike and no bit is passed
over. -/
def Obligations.DecodedWordsReencode : Prop :=
  ∀ (w x : Nat) (i : Instr), w < 2 ^ 32 → x < 2 ^ 32 → decode w x = .ok i →
    wellFormed i = true ∧ encode i = if isWide w then [w, x] else [w]

/-- R45, R59, R63, R116, R121, R294, R311: the thread that issues runs the instruction decoded from the code at its PC, unless an older vector
element fault comes first; other words trap ILLEGAL; a step that finds a line or a translation away is put off, and leaves the registers, the
memory and the other threads as they were (log 123). Where the tile comes to a cycle that is a multiple of 64, what falls due there comes
first. The cycle of a tile ends when all its cores have had it. -/
def Obligations.StepRunsDecoded : Prop :=
  (∀ (s u v t : State) (core p k w x : Nat), s.nextMove = .issue core → s.atNewLap (tileOf core) = false → u = s.beginCycle core →
    u.issuer core = some p → k = 64 * core + p → v = { u.prepare k with work := some (threadWork k) } → v.fetch k = .ok (w, x, t) →
    (v.dueFault k = none →
      (∀ i, decode w x = .ok i → step s = endCycle core true
        (settleThread k v (exec i ((t.charge (coreWork (coreOf k)) (t.slot k).region (Config.costInstr w)).correctRegs k i)))) ∧
      ∀ e, decode w x = .error e → step s = endCycle core true (settleThread k v (.next (illegalWords w x t)))) ∧
    ∀ f i, v.dueFault k = some f → decode w x = .ok i → ∀ r,
      exec i ((t.charge (coreWork (coreOf k)) (t.slot k).region (Config.costInstr w)).correctRegs k i) = .next r →
      step s = endCycle core true (settleThread k v (.next (if (r.stalled || v.tookBefore r k f.age) = true then r else v.takeFault k f)))) ∧
  (∀ (s u v t : State) (core p k : Nat), s.nextMove = .issue core → s.atNewLap (tileOf core) = false → u = s.beginCycle core →
    u.issuer core = some p → k = 64 * core + p → v = { u.prepare k with work := some (threadWork k) } → v.fetch k = .error t →
    v.dueFault k = none → step s = endCycle core true (settleThread k v (.next t))) ∧
  (∀ (v t : State) (k : Nat),
    (t.stalled = false → ∃ u, settleThread k v (.next t) = .next u ∧ u = { t with work := none, visits := u.visits, walks := u.walks }) ∧
    (t.stalled = true → ∃ u, settleThread k v (.next t) = .next u ∧ (u.slot k).st = .waiting ∧ (u.slot k).pc = (v.slot k).pc ∧
      (∀ j, j ≠ k → u.slot j = v.slot j) ∧ u.regs = v.regs ∧ u.cores = v.cores ∧ sameBytes v u)) ∧
  (∀ (s : State) (k : Nat) (e f : TlbEnt) (d c : Line), codeAt s k (s.slot k).pc e d →
    (isWide (codeWord (s.slot k).pc e d) = false → s.fetch k = .ok (codeWord (s.slot k).pc e d, 0, s)) ∧
    (isWide (codeWord (s.slot k).pc e d) = true → codeAt s k ((s.slot k).pc + 4) f c →
      s.fetch k = .ok (codeWord (s.slot k).pc e d, codeWord ((s.slot k).pc + 4) f c, s))) ∧
  (∀ (s : State) (core : Nat), s.nextMove = .issue core → s.atNewLap (tileOf core) = false → (s.beginCycle core).issuer core = none →
    step s = endCycle core false (.next (s.beginCycle core))) ∧
  (∀ (s : State) (core : Nat), s.nextMove = .issue core → s.atNewLap (tileOf core) = true →
    ∃ t, step s = .next t ∧ t.tick = (s.beginCycle core).tick + 1 ∧ t.slots = s.slots ∧ t.regs = s.regs ∧ t.mem = s.mem ∧
      ((t.tile (tileOf core)).stopped = false → t.levelTarget (tileOf core) ≠ (t.tile (tileOf core)).level →
        plannedFor t (.levelChange (tileOf core)) (coreOfTile (tileOf core) 0) (t.tile (tileOf core)).cycle)) ∧
  (∀ s : State, s.nextMove = .idle → step s = .next s.rest) ∧
  ∀ (s t : State) (core : Nat) (issued : Bool), endCycle core issued (.next s) = .next t →
    t.tick = s.tick + 1 ∧ t.slots = s.slots ∧ t.regs = s.regs ∧ t.mem = s.mem ∧
    ((∀ c ∈ s.tileTurns (tileOf core), c ∈ (s.tile (tileOf core)).turned ++ [core]) →
      (t.tile (tileOf core)).cycle = (s.tile (tileOf core)).cycle + 1 ∧ (t.tile (tileOf core)).turned = []) ∧
    ((∃ c ∈ s.tileTurns (tileOf core), c ∉ (s.tile (tileOf core)).turned ++ [core]) →
      (t.tile (tileOf core)).cycle = (s.tile (tileOf core)).cycle ∧ (t.tile (tileOf core)).turned = (s.tile (tileOf core)).turned ++ [core])

/-- R348: an event of the agenda runs the meaning of its row; one that finds a line, a translation or an answer away is put off and stays on the
agenda (log 123), and what cannot happen any more is dropped. -/
def Obligations.EventsRunTheirRows : Prop :=
  (∀ (e : Ev) (i : Instr) (s : State), EventRow e i → runEvent e s = exec i s) ∧
  ∀ (s u : State) (n : Nat) (d : Due), s.nextMove = .event n → s.agenda[n]? = some d → u = { s.takeDue n with work := some (s.workOf d.ev) } →
    (∀ t, runEvent d.ev u = .next t →
      (t.stalled = false → step s = .next t.finish.elapse) ∧
      (t.stalled = true → ∃ v, step s = .next v ∧ { d with at_ := .any } ∈ v.agenda ∧ v.slots = s.slots ∧ v.regs = s.regs ∧ sameBytes s v)) ∧
    (runEvent d.ev u = .fault .notEnabled → step s = .next u.finish.elapse)

/-- The machine never stops: every state has a next one, whatever the program and its data are (R63, R285, R348). -/
def Obligations.StepAnswers : Prop := ∀ s : State, ∃ t, step s = .next t

/-- Every step keeps the canonical form of memory. -/
def Obligations.StepKeepsMemory : Prop := ∀ s t : State, Memory.wf s.mem = true → step s = .next t → Memory.wf t.mem = true

/-- R117, R339: what reset leaves in the system registers of every slot and core, and boot at stage 0; memory is in its canonical form. -/
def Obligations.ResetValues : Prop :=
  (∀ k, (State.reset.slot k).st = .empty ∧ (State.reset.slot k).portmap = 0 ∧ (State.reset.slot k).retry = 16 ∧
    (State.reset.slot k).parkint = 1024 ∧ (State.reset.slot k).fprm = 0 ∧ (State.reset.slot k).fpflags = 0 ∧
    (State.reset.slot k).rndseed = 0 ∧ (State.reset.slot k).vl = 0 ∧ (State.reset.slot k).tags = 0 ∧ (State.reset.slot k).unack = 0 ∧
    (State.reset.slot k).scopemiss = 0 ∧ (State.reset.slot k).xpc = 0 ∧ (State.reset.slot k).xcause = 0 ∧
    (State.reset.slot k).xaddr = 0 ∧ (State.reset.slot k).xprog = 0 ∧ (State.reset.slot k).xinfo = 0 ∧ (State.reset.slot k).opreq = 30) ∧
  (∀ c, (State.reset.core c).share = 1 ∧ (State.reset.core c).vgroup = 0 ∧ (State.reset.core c).landn = 0 ∧ State.reset.cycle c = 0 ∧
    ∀ k, State.reset.sysRead k 0x030 = BitVec.ofNat 64 (30 * 2 ^ 15 + 30 * 2 ^ 10 + 30 * 32 + 30)) ∧
  State.reset.host.stage = 0 ∧ State.reset.regions = [] ∧ Memory.wf State.reset.mem = true
end

