-- ==== Sys2Proof/Laws/Table.lean ====
section
/-! SUPPORT. Laws of tables: what is found after an entry is put in or taken out, and of the record accessors built on them. -/

namespace Sys2Proof.Machine

variable {α : Type}

@[simp] theorem find_nil (j : Nat) : find ([] : Tab α) j = none := rfl

@[simp] theorem find_put_same (t : Tab α) (j : Nat) (w : α) : find (put t j w) j = some w := by
  induction t with
  | nil => simp [put, find]
  | cons p r ih =>
    obtain ⟨k, v⟩ := p
    simp only [put]
    split
    · simp [find]
    · split
      · simp [find]
      · rename_i h _
        simp [find, h, ih]

@[simp] theorem find_put_ne (t : Tab α) {j k : Nat} (w : α) (h : k ≠ j) : find (put t j w) k = find t k := by
  induction t with
  | nil => simp [put, find, h]
  | cons p r ih =>
    obtain ⟨a, v⟩ := p
    simp only [put]
    split
    · rename_i e
      subst e
      simp [find, h]
    · split
      · simp [find, h]
      · simp only [find]
        split
        · rfl
        · exact ih

theorem find_put (t : Tab α) (j k : Nat) (w : α) : find (put t j w) k = if k = j then some w else find t k := by
  split
  · next h => subst h; exact find_put_same t k w
  · next h => exact find_put_ne t w h

/-! ## The accessors -/

@[simp] theorem slot_modSlot_same (s : State) (k : Nat) (f : Slot → Slot) : (s.modSlot k f).slot k = f (s.slot k) := by
  simp [State.modSlot, State.slot]

@[simp] theorem slot_modSlot_ne (s : State) {k j : Nat} (f : Slot → Slot) (h : j ≠ k) : (s.modSlot k f).slot j = s.slot j := by
  simp [State.modSlot, State.slot, h]

@[simp] theorem core_modCore_same (s : State) (c : Nat) (f : CoreRec → CoreRec) : (s.modCore c f).core c = f (s.core c) := by
  simp [State.modCore, State.core]

@[simp] theorem core_modCore_ne (s : State) {c j : Nat} (f : CoreRec → CoreRec) (h : j ≠ c) :
    (s.modCore c f).core j = s.core j := by
  simp [State.modCore, State.core, h]

@[simp] theorem tile_modTile_same (s : State) (t : Nat) (f : TileRec → TileRec) : (s.modTile t f).tile t = f (s.tile t) := by
  simp [State.modTile, State.tile]

@[simp] theorem tile_modTile_ne (s : State) {t j : Nat} (f : TileRec → TileRec) (h : j ≠ t) :
    (s.modTile t f).tile j = s.tile j := by
  simp [State.modTile, State.tile, h]

@[simp] theorem hub_modHub_same (s : State) (c : Nat) (f : HubRec → HubRec) : (s.modHub c f).hub c = f (s.hub c) := by
  simp [State.modHub, State.hub]

@[simp] theorem hub_modHub_ne (s : State) {c j : Nat} (f : HubRec → HubRec) (h : j ≠ c) : (s.modHub c f).hub j = s.hub j := by
  simp [State.modHub, State.hub, h]

@[simp] theorem tcb_modTcb_same (s : State) (k : Nat) (f : Tcb → Tcb) : (s.modTcb k f).tcb k = f (s.tcb k) := by
  simp [State.modTcb, State.tcb]

@[simp] theorem tcb_modTcb_ne (s : State) {k j : Nat} (f : Tcb → Tcb) (h : j ≠ k) : (s.modTcb k f).tcb j = s.tcb j := by
  simp [State.modTcb, State.tcb, h]

@[simp] theorem rf_setRf_same (s : State) (c i : Nat) (r : Reg) : (s.setRf c i r).rf c i = r := by
  simp [State.setRf, State.rf]

theorem rf_setRf_ne (s : State) {c i c' i' : Nat} (r : Reg) (h : 2048 * c' + i' ≠ 2048 * c + i) :
    (s.setRf c i r).rf c' i' = s.rf c' i' := by
  simp [State.setRf, State.rf, h]

@[simp] theorem rf_modSlot (s : State) (k : Nat) (f : Slot → Slot) (c i : Nat) : (s.modSlot k f).rf c i = s.rf c i := rfl

@[simp] theorem queue_setQueue_same (s : State) (c q : Nat) (l : List QPlace) : (s.setQueue c q l).queue c q = l := by
  simp [State.setQueue, State.queue]

@[simp] theorem lane_setLane_same (s : State) (c v i : Nat) (x : Lane) : (s.setLane c v i x).lane c v i = x := by
  simp [State.setLane, State.lane]

@[simp] theorem acc_setAcc_same (s : State) (t a r c : Nat) (x : Acc) : (s.setAcc t a r c x).acc t a r c = x := by
  simp [State.setAcc, State.acc]

/-! ## The agenda -/

theorem due_of_later (s : State) (e : Ev) (w : When) : ∃ d ∈ (s.later e w).agenda, d.ev = e ∧ d.at_ = w :=
  ⟨{ ev := e, at_ := w, born := s.tick }, by simp [State.later], rfl, rfl⟩

end Sys2Proof.Machine
end

