-- ==== Sys2Proof/Laws/Accessors.lean ====
section
/-! SUPPORT. One lemma per accessor per update of Base.lean and Ops.lean: the update leaves what the accessor reads as it is. -/

set_option Elab.async false

namespace Sys2Proof.Machine

@[simp] theorem modSlot_core (s : State) (k : Nat) (f : Slot → Slot) (j : Nat) : (s.modSlot k f).core j = s.core j := rfl
@[simp] theorem modSlot_tile (s : State) (k : Nat) (f : Slot → Slot) (j : Nat) : (s.modSlot k f).tile j = s.tile j := rfl
@[simp] theorem modSlot_hub (s : State) (k : Nat) (f : Slot → Slot) (j : Nat) : (s.modSlot k f).hub j = s.hub j := rfl
@[simp] theorem modSlot_tcb (s : State) (k : Nat) (f : Slot → Slot) (j : Nat) : (s.modSlot k f).tcb j = s.tcb j := rfl
@[simp] theorem modSlot_regionAt (s : State) (k : Nat) (f : Slot → Slot) (j : Nat) : (s.modSlot k f).region? j = s.region? j := rfl
@[simp] theorem modSlot_rf (s : State) (k : Nat) (f : Slot → Slot) (j i : Nat) : (s.modSlot k f).rf j i = s.rf j i := rfl
@[simp] theorem modSlot_queue (s : State) (k : Nat) (f : Slot → Slot) (j i : Nat) : (s.modSlot k f).queue j i = s.queue j i := rfl
@[simp] theorem modSlot_lane (s : State) (k : Nat) (f : Slot → Slot) (j z i : Nat) : (s.modSlot k f).lane j z i = s.lane j z i := rfl
@[simp] theorem modSlot_acc (s : State) (k : Nat) (f : Slot → Slot) (j z i p : Nat) : (s.modSlot k f).acc j z i p = s.acc j z i p := rfl
@[simp] theorem modSlot_myCore (s : State) (k : Nat) (f : Slot → Slot) : (s.modSlot k f).myCore = s.myCore := rfl

@[simp] theorem modCore_slot (s : State) (c : Nat) (f : CoreRec → CoreRec) (j : Nat) : (s.modCore c f).slot j = s.slot j := rfl
@[simp] theorem modCore_tile (s : State) (c : Nat) (f : CoreRec → CoreRec) (j : Nat) : (s.modCore c f).tile j = s.tile j := rfl
@[simp] theorem modCore_hub (s : State) (c : Nat) (f : CoreRec → CoreRec) (j : Nat) : (s.modCore c f).hub j = s.hub j := rfl
@[simp] theorem modCore_tcb (s : State) (c : Nat) (f : CoreRec → CoreRec) (j : Nat) : (s.modCore c f).tcb j = s.tcb j := rfl
@[simp] theorem modCore_regionAt (s : State) (c : Nat) (f : CoreRec → CoreRec) (j : Nat) : (s.modCore c f).region? j = s.region? j := rfl
@[simp] theorem modCore_rf (s : State) (c : Nat) (f : CoreRec → CoreRec) (j i : Nat) : (s.modCore c f).rf j i = s.rf j i := rfl
@[simp] theorem modCore_queue (s : State) (c : Nat) (f : CoreRec → CoreRec) (j i : Nat) : (s.modCore c f).queue j i = s.queue j i := rfl
@[simp] theorem modCore_lane (s : State) (c : Nat) (f : CoreRec → CoreRec) (j z i : Nat) : (s.modCore c f).lane j z i = s.lane j z i := rfl
@[simp] theorem modCore_acc (s : State) (c : Nat) (f : CoreRec → CoreRec) (j z i p : Nat) : (s.modCore c f).acc j z i p = s.acc j z i p := rfl
@[simp] theorem modCore_me (s : State) (c : Nat) (f : CoreRec → CoreRec) : (s.modCore c f).me = s.me := rfl
@[simp] theorem modCore_myCore (s : State) (c : Nat) (f : CoreRec → CoreRec) : (s.modCore c f).myCore = s.myCore := rfl

@[simp] theorem modTile_slot (s : State) (n : Nat) (f : TileRec → TileRec) (j : Nat) : (s.modTile n f).slot j = s.slot j := rfl
@[simp] theorem modTile_core (s : State) (n : Nat) (f : TileRec → TileRec) (j : Nat) : (s.modTile n f).core j = s.core j := rfl
@[simp] theorem modTile_hub (s : State) (n : Nat) (f : TileRec → TileRec) (j : Nat) : (s.modTile n f).hub j = s.hub j := rfl
@[simp] theorem modTile_tcb (s : State) (n : Nat) (f : TileRec → TileRec) (j : Nat) : (s.modTile n f).tcb j = s.tcb j := rfl
@[simp] theorem modTile_regionAt (s : State) (n : Nat) (f : TileRec → TileRec) (j : Nat) : (s.modTile n f).region? j = s.region? j := rfl
@[simp] theorem modTile_rf (s : State) (n : Nat) (f : TileRec → TileRec) (j i : Nat) : (s.modTile n f).rf j i = s.rf j i := rfl
@[simp] theorem modTile_queue (s : State) (n : Nat) (f : TileRec → TileRec) (j i : Nat) : (s.modTile n f).queue j i = s.queue j i := rfl
@[simp] theorem modTile_lane (s : State) (n : Nat) (f : TileRec → TileRec) (j z i : Nat) : (s.modTile n f).lane j z i = s.lane j z i := rfl
@[simp] theorem modTile_acc (s : State) (n : Nat) (f : TileRec → TileRec) (j z i p : Nat) : (s.modTile n f).acc j z i p = s.acc j z i p := rfl
@[simp] theorem modTile_me (s : State) (n : Nat) (f : TileRec → TileRec) : (s.modTile n f).me = s.me := rfl
@[simp] theorem modTile_myCore (s : State) (n : Nat) (f : TileRec → TileRec) : (s.modTile n f).myCore = s.myCore := rfl

@[simp] theorem modHub_slot (s : State) (n : Nat) (f : HubRec → HubRec) (j : Nat) : (s.modHub n f).slot j = s.slot j := rfl
@[simp] theorem modHub_core (s : State) (n : Nat) (f : HubRec → HubRec) (j : Nat) : (s.modHub n f).core j = s.core j := rfl
@[simp] theorem modHub_tile (s : State) (n : Nat) (f : HubRec → HubRec) (j : Nat) : (s.modHub n f).tile j = s.tile j := rfl
@[simp] theorem modHub_tcb (s : State) (n : Nat) (f : HubRec → HubRec) (j : Nat) : (s.modHub n f).tcb j = s.tcb j := rfl
@[simp] theorem modHub_regionAt (s : State) (n : Nat) (f : HubRec → HubRec) (j : Nat) : (s.modHub n f).region? j = s.region? j := rfl
@[simp] theorem modHub_rf (s : State) (n : Nat) (f : HubRec → HubRec) (j i : Nat) : (s.modHub n f).rf j i = s.rf j i := rfl
@[simp] theorem modHub_queue (s : State) (n : Nat) (f : HubRec → HubRec) (j i : Nat) : (s.modHub n f).queue j i = s.queue j i := rfl
@[simp] theorem modHub_lane (s : State) (n : Nat) (f : HubRec → HubRec) (j z i : Nat) : (s.modHub n f).lane j z i = s.lane j z i := rfl
@[simp] theorem modHub_acc (s : State) (n : Nat) (f : HubRec → HubRec) (j z i p : Nat) : (s.modHub n f).acc j z i p = s.acc j z i p := rfl
@[simp] theorem modHub_me (s : State) (n : Nat) (f : HubRec → HubRec) : (s.modHub n f).me = s.me := rfl
@[simp] theorem modHub_myCore (s : State) (n : Nat) (f : HubRec → HubRec) : (s.modHub n f).myCore = s.myCore := rfl

@[simp] theorem modTcb_slot (s : State) (n : Nat) (f : Tcb → Tcb) (j : Nat) : (s.modTcb n f).slot j = s.slot j := rfl
@[simp] theorem modTcb_core (s : State) (n : Nat) (f : Tcb → Tcb) (j : Nat) : (s.modTcb n f).core j = s.core j := rfl
@[simp] theorem modTcb_tile (s : State) (n : Nat) (f : Tcb → Tcb) (j : Nat) : (s.modTcb n f).tile j = s.tile j := rfl
@[simp] theorem modTcb_hub (s : State) (n : Nat) (f : Tcb → Tcb) (j : Nat) : (s.modTcb n f).hub j = s.hub j := rfl
@[simp] theorem modTcb_regionAt (s : State) (n : Nat) (f : Tcb → Tcb) (j : Nat) : (s.modTcb n f).region? j = s.region? j := rfl
@[simp] theorem modTcb_rf (s : State) (n : Nat) (f : Tcb → Tcb) (j i : Nat) : (s.modTcb n f).rf j i = s.rf j i := rfl
@[simp] theorem modTcb_queue (s : State) (n : Nat) (f : Tcb → Tcb) (j i : Nat) : (s.modTcb n f).queue j i = s.queue j i := rfl
@[simp] theorem modTcb_lane (s : State) (n : Nat) (f : Tcb → Tcb) (j z i : Nat) : (s.modTcb n f).lane j z i = s.lane j z i := rfl
@[simp] theorem modTcb_acc (s : State) (n : Nat) (f : Tcb → Tcb) (j z i p : Nat) : (s.modTcb n f).acc j z i p = s.acc j z i p := rfl
@[simp] theorem modTcb_me (s : State) (n : Nat) (f : Tcb → Tcb) : (s.modTcb n f).me = s.me := rfl
@[simp] theorem modTcb_myCore (s : State) (n : Nat) (f : Tcb → Tcb) : (s.modTcb n f).myCore = s.myCore := rfl

@[simp] theorem setRf_slot (s : State) (c n : Nat) (r : Reg) (j : Nat) : (s.setRf c n r).slot j = s.slot j := rfl
@[simp] theorem setRf_core (s : State) (c n : Nat) (r : Reg) (j : Nat) : (s.setRf c n r).core j = s.core j := rfl
@[simp] theorem setRf_tile (s : State) (c n : Nat) (r : Reg) (j : Nat) : (s.setRf c n r).tile j = s.tile j := rfl
@[simp] theorem setRf_hub (s : State) (c n : Nat) (r : Reg) (j : Nat) : (s.setRf c n r).hub j = s.hub j := rfl
@[simp] theorem setRf_tcb (s : State) (c n : Nat) (r : Reg) (j : Nat) : (s.setRf c n r).tcb j = s.tcb j := rfl
@[simp] theorem setRf_regionAt (s : State) (c n : Nat) (r : Reg) (j : Nat) : (s.setRf c n r).region? j = s.region? j := rfl
@[simp] theorem setRf_queue (s : State) (c n : Nat) (r : Reg) (j i : Nat) : (s.setRf c n r).queue j i = s.queue j i := rfl
@[simp] theorem setRf_lane (s : State) (c n : Nat) (r : Reg) (j z i : Nat) : (s.setRf c n r).lane j z i = s.lane j z i := rfl
@[simp] theorem setRf_acc (s : State) (c n : Nat) (r : Reg) (j z i p : Nat) : (s.setRf c n r).acc j z i p = s.acc j z i p := rfl
@[simp] theorem setRf_me (s : State) (c n : Nat) (r : Reg) : (s.setRf c n r).me = s.me := rfl
@[simp] theorem setRf_myCore (s : State) (c n : Nat) (r : Reg) : (s.setRf c n r).myCore = s.myCore := rfl

@[simp] theorem setQueue_slot (s : State) (c q : Nat) (l : List QPlace) (j : Nat) : (s.setQueue c q l).slot j = s.slot j := rfl
@[simp] theorem setQueue_core (s : State) (c q : Nat) (l : List QPlace) (j : Nat) : (s.setQueue c q l).core j = s.core j := rfl
@[simp] theorem setQueue_tile (s : State) (c q : Nat) (l : List QPlace) (j : Nat) : (s.setQueue c q l).tile j = s.tile j := rfl
@[simp] theorem setQueue_hub (s : State) (c q : Nat) (l : List QPlace) (j : Nat) : (s.setQueue c q l).hub j = s.hub j := rfl
@[simp] theorem setQueue_tcb (s : State) (c q : Nat) (l : List QPlace) (j : Nat) : (s.setQueue c q l).tcb j = s.tcb j := rfl
@[simp] theorem setQueue_regionAt (s : State) (c q : Nat) (l : List QPlace) (j : Nat) : (s.setQueue c q l).region? j = s.region? j := rfl
@[simp] theorem setQueue_rf (s : State) (c q : Nat) (l : List QPlace) (j i : Nat) : (s.setQueue c q l).rf j i = s.rf j i := rfl
@[simp] theorem setQueue_lane (s : State) (c q : Nat) (l : List QPlace) (j z i : Nat) : (s.setQueue c q l).lane j z i = s.lane j z i := rfl
@[simp] theorem setQueue_acc (s : State) (c q : Nat) (l : List QPlace) (j z i p : Nat) : (s.setQueue c q l).acc j z i p = s.acc j z i p := rfl
@[simp] theorem setQueue_me (s : State) (c q : Nat) (l : List QPlace) : (s.setQueue c q l).me = s.me := rfl
@[simp] theorem setQueue_myCore (s : State) (c q : Nat) (l : List QPlace) : (s.setQueue c q l).myCore = s.myCore := rfl

@[simp] theorem setLane_slot (s : State) (c v n : Nat) (x : Lane) (j : Nat) : (s.setLane c v n x).slot j = s.slot j := rfl
@[simp] theorem setLane_core (s : State) (c v n : Nat) (x : Lane) (j : Nat) : (s.setLane c v n x).core j = s.core j := rfl
@[simp] theorem setLane_tile (s : State) (c v n : Nat) (x : Lane) (j : Nat) : (s.setLane c v n x).tile j = s.tile j := rfl
@[simp] theorem setLane_hub (s : State) (c v n : Nat) (x : Lane) (j : Nat) : (s.setLane c v n x).hub j = s.hub j := rfl
@[simp] theorem setLane_tcb (s : State) (c v n : Nat) (x : Lane) (j : Nat) : (s.setLane c v n x).tcb j = s.tcb j := rfl
@[simp] theorem setLane_regionAt (s : State) (c v n : Nat) (x : Lane) (j : Nat) : (s.setLane c v n x).region? j = s.region? j := rfl
@[simp] theorem setLane_rf (s : State) (c v n : Nat) (x : Lane) (j i : Nat) : (s.setLane c v n x).rf j i = s.rf j i := rfl
@[simp] theorem setLane_queue (s : State) (c v n : Nat) (x : Lane) (j i : Nat) : (s.setLane c v n x).queue j i = s.queue j i := rfl
@[simp] theorem setLane_acc (s : State) (c v n : Nat) (x : Lane) (j z i p : Nat) : (s.setLane c v n x).acc j z i p = s.acc j z i p := rfl
@[simp] theorem setLane_me (s : State) (c v n : Nat) (x : Lane) : (s.setLane c v n x).me = s.me := rfl
@[simp] theorem setLane_myCore (s : State) (c v n : Nat) (x : Lane) : (s.setLane c v n x).myCore = s.myCore := rfl

@[simp] theorem setAcc_slot (s : State) (u a r c : Nat) (x : Acc) (j : Nat) : (s.setAcc u a r c x).slot j = s.slot j := rfl
@[simp] theorem setAcc_core (s : State) (u a r c : Nat) (x : Acc) (j : Nat) : (s.setAcc u a r c x).core j = s.core j := rfl
@[simp] theorem setAcc_tile (s : State) (u a r c : Nat) (x : Acc) (j : Nat) : (s.setAcc u a r c x).tile j = s.tile j := rfl
@[simp] theorem setAcc_hub (s : State) (u a r c : Nat) (x : Acc) (j : Nat) : (s.setAcc u a r c x).hub j = s.hub j := rfl
@[simp] theorem setAcc_tcb (s : State) (u a r c : Nat) (x : Acc) (j : Nat) : (s.setAcc u a r c x).tcb j = s.tcb j := rfl
@[simp] theorem setAcc_regionAt (s : State) (u a r c : Nat) (x : Acc) (j : Nat) : (s.setAcc u a r c x).region? j = s.region? j := rfl
@[simp] theorem setAcc_rf (s : State) (u a r c : Nat) (x : Acc) (j i : Nat) : (s.setAcc u a r c x).rf j i = s.rf j i := rfl
@[simp] theorem setAcc_queue (s : State) (u a r c : Nat) (x : Acc) (j i : Nat) : (s.setAcc u a r c x).queue j i = s.queue j i := rfl
@[simp] theorem setAcc_lane (s : State) (u a r c : Nat) (x : Acc) (j z i : Nat) : (s.setAcc u a r c x).lane j z i = s.lane j z i := rfl
@[simp] theorem setAcc_me (s : State) (u a r c : Nat) (x : Acc) : (s.setAcc u a r c x).me = s.me := rfl
@[simp] theorem setAcc_myCore (s : State) (u a r c : Nat) (x : Acc) : (s.setAcc u a r c x).myCore = s.myCore := rfl

@[simp] theorem later_slot (s : State) (e : Ev) (w : When) (j : Nat) : (s.later e w).slot j = s.slot j := rfl
@[simp] theorem later_core (s : State) (e : Ev) (w : When) (j : Nat) : (s.later e w).core j = s.core j := rfl
@[simp] theorem later_tile (s : State) (e : Ev) (w : When) (j : Nat) : (s.later e w).tile j = s.tile j := rfl
@[simp] theorem later_hub (s : State) (e : Ev) (w : When) (j : Nat) : (s.later e w).hub j = s.hub j := rfl
@[simp] theorem later_tcb (s : State) (e : Ev) (w : When) (j : Nat) : (s.later e w).tcb j = s.tcb j := rfl
@[simp] theorem later_regionAt (s : State) (e : Ev) (w : When) (j : Nat) : (s.later e w).region? j = s.region? j := rfl
@[simp] theorem later_rf (s : State) (e : Ev) (w : When) (j i : Nat) : (s.later e w).rf j i = s.rf j i := rfl
@[simp] theorem later_queue (s : State) (e : Ev) (w : When) (j i : Nat) : (s.later e w).queue j i = s.queue j i := rfl
@[simp] theorem later_lane (s : State) (e : Ev) (w : When) (j z i : Nat) : (s.later e w).lane j z i = s.lane j z i := rfl
@[simp] theorem later_acc (s : State) (e : Ev) (w : When) (j z i p : Nat) : (s.later e w).acc j z i p = s.acc j z i p := rfl
@[simp] theorem later_me (s : State) (e : Ev) (w : When) : (s.later e w).me = s.me := rfl
@[simp] theorem later_myCore (s : State) (e : Ev) (w : When) : (s.later e w).myCore = s.myCore := rfl

@[simp] theorem laters_slot (s : State) (l : List Ev) (j : Nat) : (s.laters l).slot j = s.slot j := rfl
@[simp] theorem laters_core (s : State) (l : List Ev) (j : Nat) : (s.laters l).core j = s.core j := rfl
@[simp] theorem laters_tile (s : State) (l : List Ev) (j : Nat) : (s.laters l).tile j = s.tile j := rfl
@[simp] theorem laters_hub (s : State) (l : List Ev) (j : Nat) : (s.laters l).hub j = s.hub j := rfl
@[simp] theorem laters_tcb (s : State) (l : List Ev) (j : Nat) : (s.laters l).tcb j = s.tcb j := rfl
@[simp] theorem laters_regionAt (s : State) (l : List Ev) (j : Nat) : (s.laters l).region? j = s.region? j := rfl
@[simp] theorem laters_rf (s : State) (l : List Ev) (j i : Nat) : (s.laters l).rf j i = s.rf j i := rfl
@[simp] theorem laters_queue (s : State) (l : List Ev) (j i : Nat) : (s.laters l).queue j i = s.queue j i := rfl
@[simp] theorem laters_lane (s : State) (l : List Ev) (j z i : Nat) : (s.laters l).lane j z i = s.lane j z i := rfl
@[simp] theorem laters_acc (s : State) (l : List Ev) (j z i p : Nat) : (s.laters l).acc j z i p = s.acc j z i p := rfl
@[simp] theorem laters_me (s : State) (l : List Ev) : (s.laters l).me = s.me := rfl
@[simp] theorem laters_myCore (s : State) (l : List Ev) : (s.laters l).myCore = s.myCore := rfl

@[simp] theorem logErr_slot (s : State) (a b : Nat) (x y : Word) (j : Nat) : (s.logErr a b x y).slot j = s.slot j := rfl
@[simp] theorem logErr_core (s : State) (a b : Nat) (x y : Word) (j : Nat) : (s.logErr a b x y).core j = s.core j := rfl
@[simp] theorem logErr_tile (s : State) (a b : Nat) (x y : Word) (j : Nat) : (s.logErr a b x y).tile j = s.tile j := rfl
@[simp] theorem logErr_hub (s : State) (a b : Nat) (x y : Word) (j : Nat) : (s.logErr a b x y).hub j = s.hub j := rfl
@[simp] theorem logErr_tcb (s : State) (a b : Nat) (x y : Word) (j : Nat) : (s.logErr a b x y).tcb j = s.tcb j := rfl
@[simp] theorem logErr_regionAt (s : State) (a b : Nat) (x y : Word) (j : Nat) : (s.logErr a b x y).region? j = s.region? j := rfl
@[simp] theorem logErr_rf (s : State) (a b : Nat) (x y : Word) (j i : Nat) : (s.logErr a b x y).rf j i = s.rf j i := rfl
@[simp] theorem logErr_queue (s : State) (a b : Nat) (x y : Word) (j i : Nat) : (s.logErr a b x y).queue j i = s.queue j i := rfl
@[simp] theorem logErr_lane (s : State) (a b : Nat) (x y : Word) (j z i : Nat) : (s.logErr a b x y).lane j z i = s.lane j z i := rfl
@[simp] theorem logErr_acc (s : State) (a b : Nat) (x y : Word) (j z i p : Nat) : (s.logErr a b x y).acc j z i p = s.acc j z i p := rfl
@[simp] theorem logErr_me (s : State) (a b : Nat) (x y : Word) : (s.logErr a b x y).me = s.me := rfl
@[simp] theorem logErr_myCore (s : State) (a b : Nat) (x y : Word) : (s.logErr a b x y).myCore = s.myCore := rfl

@[simp] theorem setGreg_slot (s : State) (k r : Nat) (v : Reg) (j : Nat) : (s.setGreg k r v).slot j = s.slot j := rfl
@[simp] theorem setGreg_core (s : State) (k r : Nat) (v : Reg) (j : Nat) : (s.setGreg k r v).core j = s.core j := rfl
@[simp] theorem setGreg_tile (s : State) (k r : Nat) (v : Reg) (j : Nat) : (s.setGreg k r v).tile j = s.tile j := rfl
@[simp] theorem setGreg_hub (s : State) (k r : Nat) (v : Reg) (j : Nat) : (s.setGreg k r v).hub j = s.hub j := rfl
@[simp] theorem setGreg_tcb (s : State) (k r : Nat) (v : Reg) (j : Nat) : (s.setGreg k r v).tcb j = s.tcb j := rfl
@[simp] theorem setGreg_regionAt (s : State) (k r : Nat) (v : Reg) (j : Nat) : (s.setGreg k r v).region? j = s.region? j := rfl
@[simp] theorem setGreg_queue (s : State) (k r : Nat) (v : Reg) (j i : Nat) : (s.setGreg k r v).queue j i = s.queue j i := rfl
@[simp] theorem setGreg_lane (s : State) (k r : Nat) (v : Reg) (j z i : Nat) : (s.setGreg k r v).lane j z i = s.lane j z i := rfl
@[simp] theorem setGreg_acc (s : State) (k r : Nat) (v : Reg) (j z i p : Nat) : (s.setGreg k r v).acc j z i p = s.acc j z i p := rfl
@[simp] theorem setGreg_me (s : State) (k r : Nat) (v : Reg) : (s.setGreg k r v).me = s.me := rfl
@[simp] theorem setGreg_myCore (s : State) (k r : Nat) (v : Reg) : (s.setGreg k r v).myCore = s.myCore := rfl
@[simp] theorem setGreg_cur (s : State) (k r : Nat) (v : Reg) : (s.setGreg k r v).cur = s.cur := rfl

@[simp] theorem setG_slot (s : State) (r : Nat) (v : Word) (j : Nat) : (s.setG r v).slot j = s.slot j := rfl
@[simp] theorem setG_core (s : State) (r : Nat) (v : Word) (j : Nat) : (s.setG r v).core j = s.core j := rfl
@[simp] theorem setG_tile (s : State) (r : Nat) (v : Word) (j : Nat) : (s.setG r v).tile j = s.tile j := rfl
@[simp] theorem setG_hub (s : State) (r : Nat) (v : Word) (j : Nat) : (s.setG r v).hub j = s.hub j := rfl
@[simp] theorem setG_tcb (s : State) (r : Nat) (v : Word) (j : Nat) : (s.setG r v).tcb j = s.tcb j := rfl
@[simp] theorem setG_regionAt (s : State) (r : Nat) (v : Word) (j : Nat) : (s.setG r v).region? j = s.region? j := rfl
@[simp] theorem setG_queue (s : State) (r : Nat) (v : Word) (j i : Nat) : (s.setG r v).queue j i = s.queue j i := rfl
@[simp] theorem setG_lane (s : State) (r : Nat) (v : Word) (j z i : Nat) : (s.setG r v).lane j z i = s.lane j z i := rfl
@[simp] theorem setG_acc (s : State) (r : Nat) (v : Word) (j z i p : Nat) : (s.setG r v).acc j z i p = s.acc j z i p := rfl
@[simp] theorem setG_me (s : State) (r : Nat) (v : Word) : (s.setG r v).me = s.me := rfl
@[simp] theorem setG_myCore (s : State) (r : Nat) (v : Word) : (s.setG r v).myCore = s.myCore := rfl
@[simp] theorem setG_cur (s : State) (r : Nat) (v : Word) : (s.setG r v).cur = s.cur := rfl

@[simp] theorem modMe_core (s : State) (f : Slot → Slot) (j : Nat) : (s.modMe f).core j = s.core j := rfl
@[simp] theorem modMe_tile (s : State) (f : Slot → Slot) (j : Nat) : (s.modMe f).tile j = s.tile j := rfl
@[simp] theorem modMe_hub (s : State) (f : Slot → Slot) (j : Nat) : (s.modMe f).hub j = s.hub j := rfl
@[simp] theorem modMe_tcb (s : State) (f : Slot → Slot) (j : Nat) : (s.modMe f).tcb j = s.tcb j := rfl
@[simp] theorem modMe_regionAt (s : State) (f : Slot → Slot) (j : Nat) : (s.modMe f).region? j = s.region? j := rfl
@[simp] theorem modMe_rf (s : State) (f : Slot → Slot) (j i : Nat) : (s.modMe f).rf j i = s.rf j i := rfl
@[simp] theorem modMe_queue (s : State) (f : Slot → Slot) (j i : Nat) : (s.modMe f).queue j i = s.queue j i := rfl
@[simp] theorem modMe_lane (s : State) (f : Slot → Slot) (j z i : Nat) : (s.modMe f).lane j z i = s.lane j z i := rfl
@[simp] theorem modMe_acc (s : State) (f : Slot → Slot) (j z i p : Nat) : (s.modMe f).acc j z i p = s.acc j z i p := rfl
@[simp] theorem modMe_myCore (s : State) (f : Slot → Slot) : (s.modMe f).myCore = s.myCore := rfl
@[simp] theorem modMe_cur (s : State) (f : Slot → Slot) : (s.modMe f).cur = s.cur := rfl

@[simp] theorem advance_core (s : State) (k n : Nat) (j : Nat) : (s.advance k n).core j = s.core j := rfl
@[simp] theorem advance_tile (s : State) (k n : Nat) (j : Nat) : (s.advance k n).tile j = s.tile j := rfl
@[simp] theorem advance_hub (s : State) (k n : Nat) (j : Nat) : (s.advance k n).hub j = s.hub j := rfl
@[simp] theorem advance_tcb (s : State) (k n : Nat) (j : Nat) : (s.advance k n).tcb j = s.tcb j := rfl
@[simp] theorem advance_regionAt (s : State) (k n : Nat) (j : Nat) : (s.advance k n).region? j = s.region? j := rfl
@[simp] theorem advance_rf (s : State) (k n : Nat) (j i : Nat) : (s.advance k n).rf j i = s.rf j i := rfl
@[simp] theorem advance_queue (s : State) (k n : Nat) (j i : Nat) : (s.advance k n).queue j i = s.queue j i := rfl
@[simp] theorem advance_lane (s : State) (k n : Nat) (j z i : Nat) : (s.advance k n).lane j z i = s.lane j z i := rfl
@[simp] theorem advance_acc (s : State) (k n : Nat) (j z i p : Nat) : (s.advance k n).acc j z i p = s.acc j z i p := rfl
@[simp] theorem advance_myCore (s : State) (k n : Nat) : (s.advance k n).myCore = s.myCore := rfl
@[simp] theorem advance_cur (s : State) (k n : Nat) : (s.advance k n).cur = s.cur := rfl

@[simp] theorem slot_modMe_cur (s : State) (f : Slot → Slot) : (s.modMe f).slot s.cur = f s.me := slot_modSlot_same s s.cur f
@[simp] theorem me_modMe (s : State) (f : Slot → Slot) : (s.modMe f).me = f s.me := slot_modSlot_same s s.cur f
theorem slot_modSlot (s : State) (k : Nat) (f : Slot → Slot) (j : Nat) :
    (s.modSlot k f).slot j = if j = k then f (s.slot k) else s.slot j := by
  split
  · next h => rw [h, slot_modSlot_same]
  · next h => exact slot_modSlot_ne s f h
@[simp] theorem me_advance (s : State) (n : Nat) : (s.advance s.cur n).me =
    { s.me with pc := s.me.pc + BitVec.ofNat 64 n, xprog := 0, bounced := false, mid := false, relMark := none, completes := false } := slot_modSlot_same s s.cur _
@[simp] theorem slot_advance_same (s : State) (k n : Nat) : (s.advance k n).slot k =
    { s.slot k with pc := (s.slot k).pc + BitVec.ofNat 64 n, xprog := 0, bounced := false, mid := false, relMark := none, completes := false } := slot_modSlot_same s k _
theorem slot_advance_ne (s : State) {k j : Nat} (n : Nat) (h : j ≠ k) : (s.advance k n).slot j = s.slot j :=
  slot_modSlot_ne s _ h
@[simp] theorem greg_setGreg_same (s : State) (k r : Nat) (v : Reg) : (s.setGreg k r v).greg k r = v :=
  rf_setRf_same s (coreOf k) _ v
@[simp] theorem greg_setG_same (s : State) (r : Nat) (v : Word) : (s.setG r v).greg s.cur r = { val := v } :=
  greg_setGreg_same s s.cur r _
@[simp] theorem greg_modCore (s : State) (c : Nat) (f : CoreRec → CoreRec) (k r : Nat) : (s.modCore c f).greg k r = s.greg k r := rfl

end Sys2Proof.Machine
end

