-- ==== Sys2Proof/Laws/Arms.lean ====
section
/-! SUPPORT. The arms of exec as equations: each instruction is performed by its own meaning. -/

set_option linter.unusedVariables false
set_option Elab.async false

namespace Sys2Proof.Machine

theorem exec_add (d : Nat) (a : Nat) (b : Nat) (s : State) : exec (.add d a b) s = execAdd d a b s := rfl
theorem exec_sub (d : Nat) (a : Nat) (b : Nat) (s : State) : exec (.sub d a b) s = execSub d a b s := rfl
theorem exec_mul (d : Nat) (a : Nat) (b : Nat) (s : State) : exec (.mul d a b) s = execMul d a b s := rfl
theorem exec_mulh (d : Nat) (a : Nat) (b : Nat) (s : State) : exec (.mulh d a b) s = execMulh d a b s := rfl
theorem exec_mulhn (d : Nat) (a : Nat) (b : Nat) (s : State) : exec (.mulhn d a b) s = execMulhn d a b s := rfl
theorem exec_div (d : Nat) (a : Nat) (b : Nat) (s : State) : exec (.div d a b) s = execDiv d a b s := rfl
theorem exec_divn (d : Nat) (a : Nat) (b : Nat) (s : State) : exec (.divn d a b) s = execDivn d a b s := rfl
theorem exec_rem (d : Nat) (a : Nat) (b : Nat) (s : State) : exec (.rem d a b) s = execRem d a b s := rfl
theorem exec_remn (d : Nat) (a : Nat) (b : Nat) (s : State) : exec (.remn d a b) s = execRemn d a b s := rfl
theorem exec_min (d : Nat) (a : Nat) (b : Nat) (s : State) : exec (.min d a b) s = execMin d a b s := rfl
theorem exec_max (d : Nat) (a : Nat) (b : Nat) (s : State) : exec (.max d a b) s = execMax d a b s := rfl
theorem exec_minn (d : Nat) (a : Nat) (b : Nat) (s : State) : exec (.minn d a b) s = execMinn d a b s := rfl
theorem exec_maxn (d : Nat) (a : Nat) (b : Nat) (s : State) : exec (.maxn d a b) s = execMaxn d a b s := rfl
theorem exec_abs (d : Nat) (a : Nat) (s : State) : exec (.abs d a) s = execAbs d a s := rfl
theorem exec_and (d : Nat) (a : Nat) (b : Nat) (s : State) : exec (.and d a b) s = execAnd d a b s := rfl
theorem exec_or (d : Nat) (a : Nat) (b : Nat) (s : State) : exec (.or d a b) s = execOr d a b s := rfl
theorem exec_xor (d : Nat) (a : Nat) (b : Nat) (s : State) : exec (.xor d a b) s = execXor d a b s := rfl
theorem exec_andn (d : Nat) (a : Nat) (b : Nat) (s : State) : exec (.andn d a b) s = execAndn d a b s := rfl
theorem exec_orn (d : Nat) (a : Nat) (b : Nat) (s : State) : exec (.orn d a b) s = execOrn d a b s := rfl
theorem exec_xnor (d : Nat) (a : Nat) (b : Nat) (s : State) : exec (.xnor d a b) s = execXnor d a b s := rfl
theorem exec_shl (d : Nat) (a : Nat) (b : Nat) (s : State) : exec (.shl d a b) s = execShl d a b s := rfl
theorem exec_shr (d : Nat) (a : Nat) (b : Nat) (s : State) : exec (.shr d a b) s = execShr d a b s := rfl
theorem exec_sar (d : Nat) (a : Nat) (b : Nat) (s : State) : exec (.sar d a b) s = execSar d a b s := rfl
theorem exec_rol (d : Nat) (a : Nat) (b : Nat) (s : State) : exec (.rol d a b) s = execRol d a b s := rfl
theorem exec_ror (d : Nat) (a : Nat) (b : Nat) (s : State) : exec (.ror d a b) s = execRor d a b s := rfl
theorem exec_popc (d : Nat) (a : Nat) (s : State) : exec (.popc d a) s = execPopc d a s := rfl
theorem exec_clz (d : Nat) (a : Nat) (s : State) : exec (.clz d a) s = execClz d a s := rfl
theorem exec_ctz (d : Nat) (a : Nat) (s : State) : exec (.ctz d a) s = execCtz d a s := rfl
theorem exec_brev (d : Nat) (a : Nat) (s : State) : exec (.brev d a) s = execBrev d a s := rfl
theorem exec_bswap (d : Nat) (a : Nat) (s : State) : exec (.bswap d a) s = execBswap d a s := rfl
theorem exec_bext (d : Nat) (a : Nat) (b : Nat) (s : State) : exec (.bext d a b) s = execBext d a b s := rfl
theorem exec_bdep (d : Nat) (a : Nat) (b : Nat) (s : State) : exec (.bdep d a b) s = execBdep d a b s := rfl
theorem exec_sextS8 (d : Nat) (a : Nat) (s : State) : exec (.sextS8 d a) s = execSextS8 d a s := rfl
theorem exec_sextS16 (d : Nat) (a : Nat) (s : State) : exec (.sextS16 d a) s = execSextS16 d a s := rfl
theorem exec_sextS32 (d : Nat) (a : Nat) (s : State) : exec (.sextS32 d a) s = execSextS32 d a s := rfl
theorem exec_zextN8 (d : Nat) (a : Nat) (s : State) : exec (.zextN8 d a) s = execZextN8 d a s := rfl
theorem exec_zextN16 (d : Nat) (a : Nat) (s : State) : exec (.zextN16 d a) s = execZextN16 d a s := rfl
theorem exec_zextN32 (d : Nat) (a : Nat) (s : State) : exec (.zextN32 d a) s = execZextN32 d a s := rfl
theorem exec_padd (d : Nat) (a : Nat) (b : Nat) (w : Nat) (s : State) : exec (.padd d a b w) s = execPadd d a b w s := rfl
theorem exec_psub (d : Nat) (a : Nat) (b : Nat) (w : Nat) (s : State) : exec (.psub d a b w) s = execPsub d a b w s := rfl
theorem exec_paddsS (d : Nat) (a : Nat) (b : Nat) (w : Nat) (s : State) : exec (.paddsS d a b w) s = execPaddsS d a b w s := rfl
theorem exec_paddsN (d : Nat) (a : Nat) (b : Nat) (w : Nat) (s : State) : exec (.paddsN d a b w) s = execPaddsN d a b w s := rfl
theorem exec_psubsS (d : Nat) (a : Nat) (b : Nat) (w : Nat) (s : State) : exec (.psubsS d a b w) s = execPsubsS d a b w s := rfl
theorem exec_psubsN (d : Nat) (a : Nat) (b : Nat) (w : Nat) (s : State) : exec (.psubsN d a b w) s = execPsubsN d a b w s := rfl
theorem exec_pmin (d : Nat) (a : Nat) (b : Nat) (w : Nat) (s : State) : exec (.pmin d a b w) s = execPmin d a b w s := rfl
theorem exec_pmax (d : Nat) (a : Nat) (b : Nat) (w : Nat) (s : State) : exec (.pmax d a b w) s = execPmax d a b w s := rfl
theorem exec_pminn (d : Nat) (a : Nat) (b : Nat) (w : Nat) (s : State) : exec (.pminn d a b w) s = execPminn d a b w s := rfl
theorem exec_pmaxn (d : Nat) (a : Nat) (b : Nat) (w : Nat) (s : State) : exec (.pmaxn d a b w) s = execPmaxn d a b w s := rfl
theorem exec_pshl (d : Nat) (a : Nat) (b : Nat) (w : Nat) (s : State) : exec (.pshl d a b w) s = execPshl d a b w s := rfl
theorem exec_pshr (d : Nat) (a : Nat) (b : Nat) (w : Nat) (s : State) : exec (.pshr d a b w) s = execPshr d a b w s := rfl
theorem exec_psar (d : Nat) (a : Nat) (b : Nat) (w : Nat) (s : State) : exec (.psar d a b w) s = execPsar d a b w s := rfl
theorem exec_pshlV (d : Nat) (a : Nat) (b : Nat) (w : Nat) (s : State) : exec (.pshlV d a b w) s = execPshlV d a b w s := rfl
theorem exec_pshrV (d : Nat) (a : Nat) (b : Nat) (w : Nat) (s : State) : exec (.pshrV d a b w) s = execPshrV d a b w s := rfl
theorem exec_psarV (d : Nat) (a : Nat) (b : Nat) (w : Nat) (s : State) : exec (.psarV d a b w) s = execPsarV d a b w s := rfl
theorem exec_pcmp (d : Nat) (a : Nat) (b : Nat) (c : Nat) (w : Nat) (s : State) : exec (.pcmp d a b c w) s = execPcmp d a b c w s := rfl
theorem exec_mov (d : Nat) (a : Nat) (s : State) : exec (.mov d a) s = execMov d a s := rfl
theorem exec_pmovToG (d : Nat) (s : State) : exec (.pmovToG d) s = execPmovToG d s := rfl
theorem exec_pmovToPw (a : Nat) (s : State) : exec (.pmovToPw a) s = execPmovToPw a s := rfl
theorem exec_sel (d : Nat) (a : Nat) (b : Nat) (n : Nat) (k : Nat) (s : State) : exec (.sel d a b n k) s = execSel d a b n k s := rfl
theorem exec_addi (d : Nat) (a : Nat) (imm : Nat) (s : State) : exec (.addi d a imm) s = execAddi d a imm s := rfl
theorem exec_andi (d : Nat) (a : Nat) (imm : Nat) (s : State) : exec (.andi d a imm) s = execAndi d a imm s := rfl
theorem exec_ori (d : Nat) (a : Nat) (imm : Nat) (s : State) : exec (.ori d a imm) s = execOri d a imm s := rfl
theorem exec_xori (d : Nat) (a : Nat) (imm : Nat) (s : State) : exec (.xori d a imm) s = execXori d a imm s := rfl
theorem exec_shli (d : Nat) (a : Nat) (n : Nat) (s : State) : exec (.shli d a n) s = execShli d a n s := rfl
theorem exec_shri (d : Nat) (a : Nat) (n : Nat) (s : State) : exec (.shri d a n) s = execShri d a n s := rfl
theorem exec_sari (d : Nat) (a : Nat) (n : Nat) (s : State) : exec (.sari d a n) s = execSari d a n s := rfl
theorem exec_rori (d : Nat) (a : Nat) (n : Nat) (s : State) : exec (.rori d a n) s = execRori d a n s := rfl
theorem exec_bfx (d : Nat) (a : Nat) (p : Nat) (l : Nat) (s : State) : exec (.bfx d a p l) s = execBfx d a p l s := rfl
theorem exec_bfi (d : Nat) (a : Nat) (p : Nat) (l : Nat) (s : State) : exec (.bfi d a p l) s = execBfi d a p l s := rfl
theorem exec_lim (d : Nat) (imm : Nat) (s : State) : exec (.lim d imm) s = execLim d imm s := rfl
theorem exec_limH (d : Nat) (k : Nat) (h : Nat) (s : State) : exec (.limH d k h) s = execLimH d k h s := rfl
theorem exec_addpc (d : Nat) (imm : Nat) (s : State) : exec (.addpc d imm) s = execAddpc d imm s := rfl
theorem exec_cmp (p : Nat) (c : Nat) (a : Nat) (b : Nat) (st0 : Nat) (s : State) : exec (.cmp p c a b st0) s = execCmp p c a b st0 s := rfl
theorem exec_cmpi (p : Nat) (c : Nat) (a : Nat) (imm : Nat) (s : State) : exec (.cmpi p c a imm) s = execCmpi p c a imm s := rfl
theorem exec_plog (p : Nat) (c : Nat) (x : Nat) (y : Nat) (s : State) : exec (.plog p c x y) s = execPlog p c x y s := rfl
theorem exec_b (n : Nat) (p : Nat) (o : Nat) (s : State) : exec (.b n p o) s = execB n p o s := rfl
theorem exec_j (o : Nat) (s : State) : exec (.j o) s = execJ o s := rfl
theorem exec_call (o : Nat) (s : State) : exec (.call o) s = execCall o s := rfl
theorem exec_callr (a : Nat) (s : State) : exec (.callr a) s = execCallr a s := rfl
theorem exec_jr (a : Nat) (s : State) : exec (.jr a) s = execJr a s := rfl
theorem exec_ret (s : State) : exec (.ret) s = execRet s := rfl
theorem exec_objset (a : Nat) (b : Nat) (s : State) : exec (.objset a b) s = execObjset a b s := rfl
theorem exec_mfs (d : Nat) (st0 : Nat) (s : State) : exec (.mfs d st0) s = execMfs d st0 s := rfl
theorem exec_mts (d : Nat) (st0 : Nat) (s : State) : exec (.mts d st0) s = execMts d st0 s := rfl
theorem exec_mtsPortmap (d : Nat) (s : State) : exec (.mtsPortmap d) s = execMtsPortmap d s := rfl
theorem exec_mtsVl (d : Nat) (s : State) : exec (.mtsVl d) s = execMtsVl d s := rfl
theorem exec_mtsFpstat (d : Nat) (s : State) : exec (.mtsFpstat d) s = execMtsFpstat d s := rfl
theorem exec_mtsRndseed (d : Nat) (s : State) : exec (.mtsRndseed d) s = execMtsRndseed d s := rfl
theorem exec_mtsCarve (d : Nat) (s : State) : exec (.mtsCarve d) s = execMtsCarve d s := rfl
theorem exec_mtsLandn (d : Nat) (s : State) : exec (.mtsLandn d) s = execMtsLandn d s := rfl
theorem exec_trap (c : Nat) (s : State) : exec (.trap c) s = execTrap c s := rfl
theorem exec_svc (c : Nat) (s : State) : exec (.svc c) s = execSvc c s := rfl
theorem exec_svcSetCarve (s : State) : exec (.svcSetCarve) s = execSvcSetCarve s := rfl
theorem exec_svcSetVgroup (s : State) : exec (.svcSetVgroup) s = execSvcSetVgroup s := rfl
theorem exec_svcSetLandn (s : State) : exec (.svcSetLandn) s = execSvcSetLandn s := rfl
theorem exec_svcSetAccmap (s : State) : exec (.svcSetAccmap) s = execSvcSetAccmap s := rfl
theorem exec_svcLaunch (s : State) : exec (.svcLaunch) s = execSvcLaunch s := rfl
theorem exec_eret (d : Nat) (s : State) : exec (.eret d) s = execEret d s := rfl
theorem exec_yield (s : State) : exec (.yield) s = execYield s := rfl
theorem exec_park (s : State) : exec (.park) s = execPark s := rfl
theorem exec_hint (h : Nat) (imm : Nat) (n : Nat) (s : State) : exec (.hint h imm n) s = execHint h imm n s := rfl
theorem exec_ldD (t : Nat) (b : Nat) (g : Nat) (o : Nat) (s : State) : exec (.ldD t b g o) s = execLdD t b g o s := rfl
theorem exec_stD (t : Nat) (b : Nat) (g : Nat) (o : Nat) (s : State) : exec (.stD t b g o) s = execStD t b g o s := rfl
theorem exec_ld (t : Nat) (b : Nat) (imm : Nat) (y : Nat) (s : State) : exec (.ld t b imm y) s = execLd t b imm y s := rfl
theorem exec_ldx (t : Nat) (b : Nat) (x : Nat) (y : Nat) (s : State) : exec (.ldx t b x y) s = execLdx t b x y s := rfl
theorem exec_st (t : Nat) (b : Nat) (imm : Nat) (y : Nat) (s : State) : exec (.st t b imm y) s = execSt t b imm y s := rfl
theorem exec_stx (t : Nat) (b : Nat) (x : Nat) (y : Nat) (s : State) : exec (.stx t b x y) s = execStx t b x y s := rfl
theorem exec_ldm (d : Nat) (a : Nat) (n : Nat) (s : State) : exec (.ldm d a n) s = execLdm d a n s := rfl
theorem exec_stm (d : Nat) (a : Nat) (n : Nat) (s : State) : exec (.stm d a n) s = execStm d a n s := rfl
theorem exec_ldfe (t : Nat) (b : Nat) (st0 : Nat) (o : Nat) (s : State) : exec (.ldfe t b st0 o) s = execLdfe t b st0 o s := rfl
theorem exec_ldff (t : Nat) (b : Nat) (st0 : Nat) (o : Nat) (s : State) : exec (.ldff t b st0 o) s = execLdff t b st0 o s := rfl
theorem exec_stfe (t : Nat) (b : Nat) (st0 : Nat) (o : Nat) (s : State) : exec (.stfe t b st0 o) s = execStfe t b st0 o s := rfl
theorem exec_stf (t : Nat) (b : Nat) (st0 : Nat) (o : Nat) (s : State) : exec (.stf t b st0 o) s = execStf t b st0 o s := rfl
theorem exec_sete (b : Nat) (st0 : Nat) (o : Nat) (s : State) : exec (.sete b st0 o) s = execSete b st0 o s := rfl
theorem exec_feq (t : Nat) (b : Nat) (st0 : Nat) (o : Nat) (s : State) : exec (.feq t b st0 o) s = execFeq t b st0 o s := rfl
theorem exec_ldfeStrand (t : Nat) (b : Nat) (s : State) : exec (.ldfeStrand t b) s = execLdfeStrand t b s := rfl
theorem exec_ldffStrand (t : Nat) (b : Nat) (s : State) : exec (.ldffStrand t b) s = execLdffStrand t b s := rfl
theorem exec_seteStrand (t : Nat) (s : State) : exec (.seteStrand t) s = execSeteStrand t s := rfl
theorem exec_feqStrand (t : Nat) (b : Nat) (s : State) : exec (.feqStrand t b) s = execFeqStrand t b s := rfl
theorem exec_fence (st0 : Nat) (s : State) : exec (.fence st0) s = execFence st0 s := rfl
theorem exec_discard (b : Nat) (st0 : Nat) (o : Nat) (s : State) : exec (.discard b st0 o) s = execDiscard b st0 o s := rfl
theorem exec_flush (b : Nat) (st0 : Nat) (o : Nat) (s : State) : exec (.flush b st0 o) s = execFlush b st0 o s := rfl
theorem exec_inval (b : Nat) (st0 : Nat) (o : Nat) (s : State) : exec (.inval b st0 o) s = execInval b st0 o s := rfl
theorem exec_pref (b : Nat) (st0 : Nat) (o : Nat) (s : State) : exec (.pref b st0 o) s = execPref b st0 o s := rfl
theorem exec_tlbinvPage (b : Nat) (st0 : Nat) (s : State) : exec (.tlbinvPage b st0) s = execTlbinvPage b st0 s := rfl
theorem exec_tlbinvRegion (st0 : Nat) (s : State) : exec (.tlbinvRegion st0) s = execTlbinvRegion st0 s := rfl
theorem exec_hop (b : Nat) (o : Nat) (s : State) : exec (.hop b o) s = execHop b o s := rfl
theorem exec_sendr (t : Nat) (b : Nat) (st0 : Nat) (r : Nat) (s : State) : exec (.sendr t b st0 r) s = execSendr t b st0 r s := rfl
theorem exec_arrive (t : Nat) (b : Nat) (st0 : Nat) (o : Nat) (s : State) : exec (.arrive t b st0 o) s = execArrive t b st0 o s := rfl
theorem exec_arriveRelaxed (t : Nat) (b : Nat) (st0 : Nat) (o : Nat) (s : State) : exec (.arriveRelaxed t b st0 o) s = execArriveRelaxed t b st0 o s := rfl
theorem exec_hwait (t : Nat) (b : Nat) (st0 : Nat) (o : Nat) (s : State) : exec (.hwait t b st0 o) s = execHwait t b st0 o s := rfl
theorem exec_htest (t : Nat) (b : Nat) (st0 : Nat) (o : Nat) (s : State) : exec (.htest t b st0 o) s = execHtest t b st0 o s := rfl
theorem exec_pubf (a : Nat) (s : State) : exec (.pubf a) s = execPubf a s := rfl
theorem exec_sync (a : Nat) (s : State) : exec (.sync a) s = execSync a s := rfl
theorem exec_done (s : State) : exec (.done) s = execDone s := rfl
theorem exec_tcbnew (d : Nat) (a : Nat) (s : State) : exec (.tcbnew d a) s = execTcbnew d a s := rfl
theorem exec_tcbsucc (a : Nat) (b : Nat) (s : State) : exec (.tcbsucc a b) s = execTcbsucc a b s := rfl
theorem exec_tcbpred (a : Nat) (b : Nat) (s : State) : exec (.tcbpred a b) s = execTcbpred a b s := rfl
theorem exec_spawn (d : Nat) (imm : Nat) (s : State) : exec (.spawn d imm) s = execSpawn d imm s := rfl
theorem exec_waitt (a : Nat) (s : State) : exec (.waitt a) s = execWaitt a s := rfl
theorem exec_waita (a : Nat) (s : State) : exec (.waita a) s = execWaita a s := rfl
theorem exec_tfirst (d : Nat) (s : State) : exec (.tfirst d) s = execTfirst d s := rfl
theorem exec_tclr (a : Nat) (s : State) : exec (.tclr a) s = execTclr a s := rfl
theorem exec_cwait (a : Nat) (b : Nat) (s : State) : exec (.cwait a b) s = execCwait a b s := rfl
theorem exec_cread (d : Nat) (a : Nat) (s : State) : exec (.cread d a) s = execCread d a s := rfl
theorem exec_rdpace (d : Nat) (s : State) : exec (.rdpace d) s = execRdpace d s := rfl
theorem exec_vclaim (q : Nat) (g : Nat) (s : State) : exec (.vclaim q g) s = execVclaim q g s := rfl
theorem exec_vfree (s : State) : exec (.vfree) s = execVfree s := rfl
theorem exec_repf (st0 : Nat) (l : Nat) (g : Nat) (s : State) : exec (.repf st0 l g) s = execRepf st0 l g s := rfl
theorem exec_vwait (s : State) : exec (.vwait) s = execVwait s := rfl
theorem exec_vld (d : Nat) (a : Nat) (g : Nat) (w : Nat) (s : State) : exec (.vld d a g w) s = execVld d a g w s := rfl
theorem exec_vlds (d : Nat) (a : Nat) (b : Nat) (g : Nat) (w : Nat) (s : State) : exec (.vlds d a b g w) s = execVlds d a b g w s := rfl
theorem exec_vldx (d : Nat) (a : Nat) (b : Nat) (g : Nat) (w : Nat) (s : State) : exec (.vldx d a b g w) s = execVldx d a b g w s := rfl
theorem exec_vldPostinc (d : Nat) (a : Nat) (g : Nat) (w : Nat) (s : State) : exec (.vldPostinc d a g w) s = execVldPostinc d a g w s := rfl
theorem exec_vst (d : Nat) (a : Nat) (g : Nat) (w : Nat) (s : State) : exec (.vst d a g w) s = execVst d a g w s := rfl
theorem exec_vsts (d : Nat) (a : Nat) (b : Nat) (g : Nat) (w : Nat) (s : State) : exec (.vsts d a b g w) s = execVsts d a b g w s := rfl
theorem exec_vstx (d : Nat) (a : Nat) (b : Nat) (g : Nat) (w : Nat) (s : State) : exec (.vstx d a b g w) s = execVstx d a b g w s := rfl
theorem exec_vstPostinc (d : Nat) (a : Nat) (g : Nat) (w : Nat) (s : State) : exec (.vstPostinc d a g w) s = execVstPostinc d a g w s := rfl
theorem exec_vbcast (d : Nat) (b : Nat) (g : Nat) (s : State) : exec (.vbcast d b g) s = execVbcast d b g s := rfl
theorem exec_vmovg (d : Nat) (a : Nat) (l : Nat) (s : State) : exec (.vmovg d a l) s = execVmovg d a l s := rfl
theorem exec_vmovl (d : Nat) (b : Nat) (l : Nat) (s : State) : exec (.vmovl d b l) s = execVmovl d b l s := rfl
theorem exec_viota (d : Nat) (g : Nat) (s : State) : exec (.viota d g) s = execViota d g s := rfl
theorem exec_vfadd (d : Nat) (a : Nat) (b : Nat) (g : Nat) (s : State) : exec (.vfadd d a b g) s = execVfadd d a b g s := rfl
theorem exec_vfsub (d : Nat) (a : Nat) (b : Nat) (g : Nat) (s : State) : exec (.vfsub d a b g) s = execVfsub d a b g s := rfl
theorem exec_vfmul (d : Nat) (a : Nat) (b : Nat) (g : Nat) (s : State) : exec (.vfmul d a b g) s = execVfmul d a b g s := rfl
theorem exec_vfma (d : Nat) (a : Nat) (b : Nat) (g : Nat) (s : State) : exec (.vfma d a b g) s = execVfma d a b g s := rfl
theorem exec_vfnma (d : Nat) (a : Nat) (b : Nat) (g : Nat) (s : State) : exec (.vfnma d a b g) s = execVfnma d a b g s := rfl
theorem exec_vfmin (d : Nat) (a : Nat) (b : Nat) (g : Nat) (s : State) : exec (.vfmin d a b g) s = execVfmin d a b g s := rfl
theorem exec_vfmax (d : Nat) (a : Nat) (b : Nat) (g : Nat) (s : State) : exec (.vfmax d a b g) s = execVfmax d a b g s := rfl
theorem exec_vfabs (d : Nat) (a : Nat) (g : Nat) (s : State) : exec (.vfabs d a g) s = execVfabs d a g s := rfl
theorem exec_vfneg (d : Nat) (a : Nat) (g : Nat) (s : State) : exec (.vfneg d a g) s = execVfneg d a g s := rfl
theorem exec_vfcmp (d : Nat) (a : Nat) (b : Nat) (g : Nat) (c : Nat) (s : State) : exec (.vfcmp d a b g c) s = execVfcmp d a b g c s := rfl
theorem exec_vadd (d : Nat) (a : Nat) (b : Nat) (g : Nat) (s : State) : exec (.vadd d a b g) s = execVadd d a b g s := rfl
theorem exec_vsub (d : Nat) (a : Nat) (b : Nat) (g : Nat) (s : State) : exec (.vsub d a b g) s = execVsub d a b g s := rfl
theorem exec_vmul (d : Nat) (a : Nat) (b : Nat) (g : Nat) (s : State) : exec (.vmul d a b g) s = execVmul d a b g s := rfl
theorem exec_vmulh (d : Nat) (a : Nat) (b : Nat) (g : Nat) (s : State) : exec (.vmulh d a b g) s = execVmulh d a b g s := rfl
theorem exec_vmulhn (d : Nat) (a : Nat) (b : Nat) (g : Nat) (s : State) : exec (.vmulhn d a b g) s = execVmulhn d a b g s := rfl
theorem exec_vand (d : Nat) (a : Nat) (b : Nat) (g : Nat) (s : State) : exec (.vand d a b g) s = execVand d a b g s := rfl
theorem exec_vor (d : Nat) (a : Nat) (b : Nat) (g : Nat) (s : State) : exec (.vor d a b g) s = execVor d a b g s := rfl
theorem exec_vxor (d : Nat) (a : Nat) (b : Nat) (g : Nat) (s : State) : exec (.vxor d a b g) s = execVxor d a b g s := rfl
theorem exec_vandn (d : Nat) (a : Nat) (b : Nat) (g : Nat) (s : State) : exec (.vandn d a b g) s = execVandn d a b g s := rfl
theorem exec_vshl (d : Nat) (a : Nat) (b : Nat) (g : Nat) (s : State) : exec (.vshl d a b g) s = execVshl d a b g s := rfl
theorem exec_vshr (d : Nat) (a : Nat) (b : Nat) (g : Nat) (s : State) : exec (.vshr d a b g) s = execVshr d a b g s := rfl
theorem exec_vsar (d : Nat) (a : Nat) (b : Nat) (g : Nat) (s : State) : exec (.vsar d a b g) s = execVsar d a b g s := rfl
theorem exec_vrol (d : Nat) (a : Nat) (b : Nat) (g : Nat) (s : State) : exec (.vrol d a b g) s = execVrol d a b g s := rfl
theorem exec_vmin (d : Nat) (a : Nat) (b : Nat) (g : Nat) (s : State) : exec (.vmin d a b g) s = execVmin d a b g s := rfl
theorem exec_vmax (d : Nat) (a : Nat) (b : Nat) (g : Nat) (s : State) : exec (.vmax d a b g) s = execVmax d a b g s := rfl
theorem exec_vminn (d : Nat) (a : Nat) (b : Nat) (g : Nat) (s : State) : exec (.vminn d a b g) s = execVminn d a b g s := rfl
theorem exec_vmaxn (d : Nat) (a : Nat) (b : Nat) (g : Nat) (s : State) : exec (.vmaxn d a b g) s = execVmaxn d a b g s := rfl
theorem exec_vsel (d : Nat) (a : Nat) (b : Nat) (g : Nat) (s : State) : exec (.vsel d a b g) s = execVsel d a b g s := rfl
theorem exec_vpadd (d : Nat) (a : Nat) (b : Nat) (g : Nat) (w : Nat) (s : State) : exec (.vpadd d a b g w) s = execVpadd d a b g w s := rfl
theorem exec_vpshl (d : Nat) (a : Nat) (b : Nat) (g : Nat) (w : Nat) (s : State) : exec (.vpshl d a b g w) s = execVpshl d a b g w s := rfl
theorem exec_vpshr (d : Nat) (a : Nat) (b : Nat) (g : Nat) (w : Nat) (s : State) : exec (.vpshr d a b g w) s = execVpshr d a b g w s := rfl
theorem exec_vcmp (d : Nat) (a : Nat) (b : Nat) (g : Nat) (c : Nat) (s : State) : exec (.vcmp d a b g c) s = execVcmp d a b g c s := rfl
theorem exec_vcvt (d : Nat) (a : Nat) (x : Nat) (t : Nat) (g : Nat) (r : Nat) (st0 : Nat) (s : State) : exec (.vcvt d a x t g r st0) s = execVcvt d a x t g r st0 s := rfl
theorem exec_vexp2 (d : Nat) (a : Nat) (g : Nat) (s : State) : exec (.vexp2 d a g) s = execVexp2 d a g s := rfl
theorem exec_vlog2 (d : Nat) (a : Nat) (g : Nat) (s : State) : exec (.vlog2 d a g) s = execVlog2 d a g s := rfl
theorem exec_vrcp (d : Nat) (a : Nat) (g : Nat) (s : State) : exec (.vrcp d a g) s = execVrcp d a g s := rfl
theorem exec_vrsq (d : Nat) (a : Nat) (g : Nat) (s : State) : exec (.vrsq d a g) s = execVrsq d a g s := rfl
theorem exec_vsqrt (d : Nat) (a : Nat) (g : Nat) (s : State) : exec (.vsqrt d a g) s = execVsqrt d a g s := rfl
theorem exec_vtanh (d : Nat) (a : Nat) (g : Nat) (s : State) : exec (.vtanh d a g) s = execVtanh d a g s := rfl
theorem exec_vredaddF32 (d : Nat) (a : Nat) (g : Nat) (s : State) : exec (.vredaddF32 d a g) s = execVredaddF32 d a g s := rfl
theorem exec_vredaddS32 (d : Nat) (a : Nat) (g : Nat) (s : State) : exec (.vredaddS32 d a g) s = execVredaddS32 d a g s := rfl
theorem exec_vredminF32 (d : Nat) (a : Nat) (g : Nat) (s : State) : exec (.vredminF32 d a g) s = execVredminF32 d a g s := rfl
theorem exec_vredminS32 (d : Nat) (a : Nat) (g : Nat) (s : State) : exec (.vredminS32 d a g) s = execVredminS32 d a g s := rfl
theorem exec_vredminN32 (d : Nat) (a : Nat) (g : Nat) (s : State) : exec (.vredminN32 d a g) s = execVredminN32 d a g s := rfl
theorem exec_vredmaxF32 (d : Nat) (a : Nat) (g : Nat) (s : State) : exec (.vredmaxF32 d a g) s = execVredmaxF32 d a g s := rfl
theorem exec_vredmaxS32 (d : Nat) (a : Nat) (g : Nat) (s : State) : exec (.vredmaxS32 d a g) s = execVredmaxS32 d a g s := rfl
theorem exec_vredmaxN32 (d : Nat) (a : Nat) (g : Nat) (s : State) : exec (.vredmaxN32 d a g) s = execVredmaxN32 d a g s := rfl
theorem exec_vperm (d : Nat) (a : Nat) (b : Nat) (g : Nat) (s : State) : exec (.vperm d a b g) s = execVperm d a b g s := rfl
theorem exec_vslide (d : Nat) (a : Nat) (b : Nat) (g : Nat) (s : State) : exec (.vslide d a b g) s = execVslide d a b g s := rfl
theorem exec_vcompress (d : Nat) (a : Nat) (g : Nat) (s : State) : exec (.vcompress d a g) s = execVcompress d a g s := rfl
theorem exec_vexpand (d : Nat) (a : Nat) (g : Nat) (s : State) : exec (.vexpand d a g) s = execVexpand d a g s := rfl
theorem exec_aadd (a : Nat) (b : Nat) (c : Nat) (scope : Nat) (ord : Nat) (w : Nat) (s : State) : exec (.aadd a b c scope ord w) s = execAadd a b c scope ord w s := rfl
theorem exec_afadd (a : Nat) (b : Nat) (c : Nat) (scope : Nat) (ord : Nat) (w : Nat) (s : State) : exec (.afadd a b c scope ord w) s = execAfadd a b c scope ord w s := rfl
theorem exec_amin (a : Nat) (b : Nat) (c : Nat) (scope : Nat) (ord : Nat) (w : Nat) (s : State) : exec (.amin a b c scope ord w) s = execAmin a b c scope ord w s := rfl
theorem exec_amax (a : Nat) (b : Nat) (c : Nat) (scope : Nat) (ord : Nat) (w : Nat) (s : State) : exec (.amax a b c scope ord w) s = execAmax a b c scope ord w s := rfl
theorem exec_aminn (a : Nat) (b : Nat) (c : Nat) (scope : Nat) (ord : Nat) (w : Nat) (s : State) : exec (.aminn a b c scope ord w) s = execAminn a b c scope ord w s := rfl
theorem exec_amaxn (a : Nat) (b : Nat) (c : Nat) (scope : Nat) (ord : Nat) (w : Nat) (s : State) : exec (.amaxn a b c scope ord w) s = execAmaxn a b c scope ord w s := rfl
theorem exec_aand (a : Nat) (b : Nat) (c : Nat) (scope : Nat) (ord : Nat) (w : Nat) (s : State) : exec (.aand a b c scope ord w) s = execAand a b c scope ord w s := rfl
theorem exec_aor (a : Nat) (b : Nat) (c : Nat) (scope : Nat) (ord : Nat) (w : Nat) (s : State) : exec (.aor a b c scope ord w) s = execAor a b c scope ord w s := rfl
theorem exec_axor (a : Nat) (b : Nat) (c : Nat) (scope : Nat) (ord : Nat) (w : Nat) (s : State) : exec (.axor a b c scope ord w) s = execAxor a b c scope ord w s := rfl
theorem exec_aswp (a : Nat) (b : Nat) (c : Nat) (scope : Nat) (ord : Nat) (w : Nat) (s : State) : exec (.aswp a b c scope ord w) s = execAswp a b c scope ord w s := rfl
theorem exec_acas (a : Nat) (b : Nat) (c : Nat) (scope : Nat) (ord : Nat) (w : Nat) (s : State) : exec (.acas a b c scope ord w) s = execAcas a b c scope ord w s := rfl
theorem exec_cadd (a : Nat) (b : Nat) (c : Nat) (scope : Nat) (ord : Nat) (w : Nat) (s : State) : exec (.cadd a b c scope ord w) s = execCadd a b c scope ord w s := rfl
theorem exec_fetch (a : Nat) (b : Nat) (c : Nat) (tag : Nat) (scope : Nat) (cnt : Bool) (s : State) : exec (.fetch a b c tag scope cnt) s = execFetch a b c tag scope cnt s := rfl
theorem exec_push (a : Nat) (b : Nat) (c : Nat) (tag : Nat) (scope : Nat) (cnt : Bool) (s : State) : exec (.push a b c tag scope cnt) s = execPush a b c tag scope cnt s := rfl
theorem exec_pushX (obj : Nat) (a : Nat) (b : Nat) (c : Nat) (tag : Nat) (scope : Nat) (cnt : Bool) (s : State) : exec (.pushX obj a b c tag scope cnt) s = execPushX obj a b c tag scope cnt s := rfl
theorem exec_pushm (obj : Nat) (a : Nat) (b : Nat) (c : Nat) (tag : Nat) (scope : Nat) (cnt : Bool) (s : State) : exec (.pushm obj a b c tag scope cnt) s = execPushm obj a b c tag scope cnt s := rfl
theorem exec_storeb (a : Nat) (b : Nat) (c : Nat) (tag : Nat) (scope : Nat) (cnt : Bool) (s : State) : exec (.storeb a b c tag scope cnt) s = execStoreb a b c tag scope cnt s := rfl
theorem exec_gather (obj : Nat) (a : Nat) (b : Nat) (c : Nat) (tag : Nat) (scope : Nat) (t : Bool) (cnt : Bool) (s : State) : exec (.gather obj a b c tag scope t cnt) s = execGather obj a b c tag scope t cnt s := rfl
theorem exec_scatter (obj : Nat) (a : Nat) (b : Nat) (c : Nat) (tag : Nat) (scope : Nat) (t : Bool) (add : Bool) (cnt : Bool) (s : State) : exec (.scatter obj a b c tag scope t add cnt) s = execScatter obj a b c tag scope t add cnt s := rfl
theorem exec_fabred (obj : Nat) (a : Nat) (b : Nat) (c : Nat) (tag : Nat) (scope : Nat) (cnt : Bool) (s : State) : exec (.fabred obj a b c tag scope cnt) s = execFabred obj a b c tag scope cnt s := rfl
theorem exec_donate (obj : Nat) (a : Nat) (b : Nat) (tag : Nat) (scope : Nat) (cnt : Bool) (s : State) : exec (.donate obj a b tag scope cnt) s = execDonate obj a b tag scope cnt s := rfl
theorem exec_mclaimClaim (a : Nat) (s : State) : exec (.mclaimClaim a) s = execMclaimClaim a s := rfl
theorem exec_mclaimRelease (a : Nat) (s : State) : exec (.mclaimRelease a) s = execMclaimRelease a s := rfl
theorem exec_ldw (obj : Nat) (a : Nat) (ty : Nat) (s : State) : exec (.ldw obj a ty) s = execLdw obj a ty s := rfl
theorem exec_swpw (s : State) : exec (.swpw) s = execSwpw s := rfl
theorem exec_mma (obj : Nat) (a : Nat) (b : Nat) (c : Nat) (ty : Nat) (z : Bool) (s : State) : exec (.mma obj a b c ty z) s = execMma obj a b c ty z s := rfl
theorem exec_mchain (b : Nat) (c : Nat) (ty : Nat) (z : Bool) (s : State) : exec (.mchain b c ty z) s = execMchain b c ty z s := rfl
theorem exec_munchain (a : Nat) (s : State) : exec (.munchain a) s = execMunchain a s := rfl
theorem exec_mova (v : Nat) (b : Nat) (c : Nat) (s : State) : exec (.mova v b c) s = execMova v b c s := rfl
theorem exec_msta (obj : Nat) (a : Nat) (b : Nat) (c : Nat) (s : State) : exec (.msta obj a b c) s = execMsta obj a b c s := rfl
theorem exec_mlda (obj : Nat) (a : Nat) (b : Nat) (c : Nat) (s : State) : exec (.mlda obj a b c) s = execMlda obj a b c s := rfl
theorem exec_mzero (c : Nat) (s : State) : exec (.mzero c) s = execMzero c s := rfl
theorem exec_msel (a : Nat) (b : Nat) (c : Nat) (s : State) : exec (.msel a b c) s = execMsel a b c s := rfl
theorem exec_mscale (a : Nat) (b : Nat) (ty : Nat) (s : State) : exec (.mscale a b ty) s = execMscale a b ty s := rfl
theorem exec_mstat (a : Nat) (op : Nat) (s : State) : exec (.mstat a op) s = execMstat a op s := rfl
theorem exec_divideComplete (k : Nat) (s : State) : exec (.divideComplete k) s = execDivideComplete k s := rfl
theorem exec_replyArrival (id : Nat) (s : State) : exec (.replyArrival id) s = execReplyArrival id s := rfl
theorem exec_remoteStoreAck (id : Nat) (s : State) : exec (.remoteStoreAck id) s = execRemoteStoreAck id s := rfl
theorem exec_homeAccess (id : Nat) (s : State) : exec (.homeAccess id) s = execHomeAccess id s := rfl
theorem exec_nackReceived (id : Nat) (s : State) : exec (.nackReceived id) s = execNackReceived id s := rfl
theorem exec_retryParkExpiry (k : Nat) (s : State) : exec (.retryParkExpiry k) s = execRetryParkExpiry k s := rfl
theorem exec_parkTimeout (k : Nat) (s : State) : exec (.parkTimeout k) s = execParkTimeout k s := rfl
theorem exec_scopeMissReturn (id : Nat) (s : State) : exec (.scopeMissReturn id) s = execScopeMissReturn id s := rfl
theorem exec_omegaCombine (id0 : Nat) (id1 : Nat) (s : State) : exec (.omegaCombine id0 id1) s = execOmegaCombine id0 id1 s := rfl
theorem exec_combinedReplySplit (id : Nat) (s : State) : exec (.combinedReplySplit id) s = execCombinedReplySplit id s := rfl
theorem exec_bankMissFill (line : Nat) (s : State) : exec (.bankMissFill line) s = execBankMissFill line s := rfl
theorem exec_conflictQueueServe (line : Nat) (s : State) : exec (.conflictQueueServe line) s = execConflictQueueServe line s := rfl
theorem exec_hotWindowEnd (bank : Nat) (s : State) : exec (.hotWindowEnd bank) s = execHotWindowEnd bank s := rfl
theorem exec_hotReplicaAck (line : Nat) (s : State) : exec (.hotReplicaAck line) s = execHotReplicaAck line s := rfl
theorem exec_redirectInstall (tile : Nat) (line : Nat) (s : State) : exec (.redirectInstall tile line) s = execRedirectInstall tile line s := rfl
theorem exec_hotLineRecall (line : Nat) (s : State) : exec (.hotLineRecall line) s = execHotLineRecall line s := rfl
theorem exec_recallWithdraw (line : Nat) (who : Holder) (s : State) : exec (.recallWithdraw line who) s = execRecallWithdraw line who s := rfl
theorem exec_recallComplete (line : Nat) (s : State) : exec (.recallComplete line) s = execRecallComplete line s := rfl
theorem exec_helperEvictReport (line : Nat) (slice : Nat) (s : State) : exec (.helperEvictReport line slice) s = execHelperEvictReport line slice s := rfl
theorem exec_redirectDrain (id : Nat) (s : State) : exec (.redirectDrain id) s = execRedirectDrain id s := rfl
theorem exec_bridgeFlitReceive (dir : Nat) (s : State) : exec (.bridgeFlitReceive dir) s = execBridgeFlitReceive dir s := rfl
theorem exec_bridgeAckReceive (dir : Nat) (n : Nat) (s : State) : exec (.bridgeAckReceive dir n) s = execBridgeAckReceive dir n s := rfl
theorem exec_bridgeRetrain (dir : Nat) (s : State) : exec (.bridgeRetrain dir) s = execBridgeRetrain dir s := rfl
theorem exec_bridgeRetrainDone (dir : Nat) (s : State) : exec (.bridgeRetrainDone dir) s = execBridgeRetrainDone dir s := rfl
theorem exec_bridgeFailTimeout (dir : Nat) (s : State) : exec (.bridgeFailTimeout dir) s = execBridgeFailTimeout dir s := rfl
theorem exec_relayFrameReceive (port : Nat) (frame : Nat) (pkts : List RelayPkt) (s : State) : exec (.relayFrameReceive port frame pkts) s = execRelayFrameReceive port frame pkts s := rfl
theorem exec_relayPortTimeout (port : Nat) (s : State) : exec (.relayPortTimeout port) s = execRelayPortTimeout port s := rfl
theorem exec_sendrDelivery (id : Nat) (s : State) : exec (.sendrDelivery id) s = execSendrDelivery id s := rfl
theorem exec_hubAllocate (core : Nat) (s : State) : exec (.hubAllocate core) s = execHubAllocate core s := rfl
theorem exec_stealSweep (core : Nat) (s : State) : exec (.stealSweep core) s = execStealSweep core s := rfl
theorem exec_stealRestExpiry (core : Nat) (s : State) : exec (.stealRestExpiry core) s = execStealRestExpiry core s := rfl
theorem exec_stealHubAck (core : Nat) (s : State) : exec (.stealHubAck core) s = execStealHubAck core s := rfl
theorem exec_stealArrival (core : Nat) (s : State) : exec (.stealArrival core) s = execStealArrival core s := rfl
theorem exec_tcbDecrement (key : Nat) (requester : Word) (s : State) : exec (.tcbDecrement key requester) s = execTcbDecrement key requester s := rfl
theorem exec_taskRetire (key : Nat) (requester : Word) (s : State) : exec (.taskRetire key requester) s = execTaskRetire key requester s := rfl
theorem exec_dequeRefillArrival (k : Nat) (s : State) : exec (.dequeRefillArrival k) s = execDequeRefillArrival k s := rfl
theorem exec_migrationArrival (id : Nat) (s : State) : exec (.migrationArrival id) s = execMigrationArrival id s := rfl
theorem exec_landingQueueTake (core : Nat) (s : State) : exec (.landingQueueTake core) s = execLandingQueueTake core s := rfl
theorem exec_landingAck (id : Nat) (s : State) : exec (.landingAck id) s = execLandingAck id s := rfl
theorem exec_bounceReturn (id : Nat) (s : State) : exec (.bounceReturn id) s = execBounceReturn id s := rfl
theorem exec_landnRaiseComplete (core : Nat) (s : State) : exec (.landnRaiseComplete core) s = execLandnRaiseComplete core s := rfl
theorem exec_vectorStep (core : Nat) (s : State) : exec (.vectorStep core) s = execVectorStep core s := rfl
theorem exec_vectorPendingWrite (core : Nat) (s : State) : exec (.vectorPendingWrite core) s = execVectorPendingWrite core s := rfl
theorem exec_vectorElementReply (id : Nat) (s : State) : exec (.vectorElementReply id) s = execVectorElementReply id s := rfl
theorem exec_matrixArraySelect (tile : Nat) (s : State) : exec (.matrixArraySelect tile) s = execMatrixArraySelect tile s := rfl
theorem exec_matrixOpStart (core : Nat) (s : State) : exec (.matrixOpStart core) s = execMatrixOpStart core s := rfl
theorem exec_matrixOpRetire (core : Nat) (s : State) : exec (.matrixOpRetire core) s = execMatrixOpRetire core s := rfl
theorem exec_accAccessAttempt (core : Nat) (s : State) : exec (.accAccessAttempt core) s = execAccAccessAttempt core s := rfl
theorem exec_engineComplete (id : Nat) (s : State) : exec (.engineComplete id) s = execEngineComplete id s := rfl
theorem exec_strideSpillReturn (tile : Nat) (s : State) : exec (.strideSpillReturn tile) s = execStrideSpillReturn tile s := rfl
theorem exec_pushmMemberAck (id : Nat) (member : Nat) (s : State) : exec (.pushmMemberAck id member) s = execPushmMemberAck id member s := rfl
theorem exec_pushXTimeout (id : Nat) (s : State) : exec (.pushXTimeout id) s = execPushXTimeout id s := rfl
theorem exec_fabredRankTimeout (id : Nat) (rank : Nat) (s : State) : exec (.fabredRankTimeout id rank) s = execFabredRankTimeout id rank s := rfl
theorem exec_donateAnswer (id : Nat) (status : Nat) (s : State) : exec (.donateAnswer id status) s = execDonateAnswer id status s := rfl
theorem exec_donateTimeout (id : Nat) (s : State) : exec (.donateTimeout id) s = execDonateTimeout id s := rfl
theorem exec_donationReceive (srcChip : Nat) (id : Nat) (tregion : Nat) (tobj : Nat) (image : List Word) (s : State) : exec (.donationReceive srcChip id tregion tobj image) s = execDonationReceive srcChip id tregion tobj image s := rfl
theorem exec_donationDrain (region : Nat) (obj : Nat) (s : State) : exec (.donationDrain region obj) s = execDonationDrain region obj s := rfl
theorem exec_handlerOwedStart (cluster : Nat) (s : State) : exec (.handlerOwedStart cluster) s = execHandlerOwedStart cluster s := rfl
theorem exec_eventDelivery (region : Nat) (code : Nat) (w1 : Word) (w2 : Word) (s : State) : exec (.eventDelivery region code w1 w2) s = execEventDelivery region code w1 w2 s := rfl
theorem exec_preemptDecision (cluster : Nat) (s : State) : exec (.preemptDecision cluster) s = execPreemptDecision cluster s := rfl
theorem exec_preemptRequestArrival (k : Nat) (s : State) : exec (.preemptRequestArrival k) s = execPreemptRequestArrival k s := rfl
theorem exec_preemptSaveComplete (k : Nat) (s : State) : exec (.preemptSaveComplete k) s = execPreemptSaveComplete k s := rfl
theorem exec_threadRestore (image : Nat) (s : State) : exec (.threadRestore image) s = execThreadRestore image s := rfl
theorem exec_threadStale (k : Nat) (s : State) : exec (.threadStale k) s = execThreadStale k s := rfl
theorem exec_translationWalk (id : Nat) (s : State) : exec (.translationWalk id) s = execTranslationWalk id s := rfl
theorem exec_walkComplete (id : Nat) (s : State) : exec (.walkComplete id) s = execWalkComplete id s := rfl
theorem exec_levelChange (tile : Nat) (s : State) : exec (.levelChange tile) s = execLevelChange tile s := rfl
theorem exec_clockRestart (tile : Nat) (s : State) : exec (.clockRestart tile) s = execClockRestart tile s := rfl
theorem exec_shutterUpdate (core : Nat) (count : Nat) (s : State) : exec (.shutterUpdate core count) s = execShutterUpdate core count s := rfl
theorem exec_billingSend (s : State) : exec (.billingSend) s = execBillingSend s := rfl
theorem exec_billingReceive (region : Nat) (nj : Nat) (s : State) : exec (.billingReceive region nj) s = execBillingReceive region nj s := rfl
theorem exec_pacerEpochReceive (m : EpochMsg) (s : State) : exec (.pacerEpochReceive m) s = execPacerEpochReceive m s := rfl
theorem exec_pacerCeilingApply (s : State) : exec (.pacerCeilingApply) s = execPacerCeilingApply s := rfl
theorem exec_pacerAnnounce (level : Nat) (bite : Nat) (s : State) : exec (.pacerAnnounce level bite) s = execPacerAnnounce level bite s := rfl
theorem exec_leaderAnnounceHandle (chip : Nat) (level : Nat) (bite : Nat) (hard : Bool) (s : State) : exec (.leaderAnnounceHandle chip level bite hard) s = execLeaderAnnounceHandle chip level bite hard s := rfl
theorem exec_announceRejected (s : State) : exec (.announceRejected) s = execAnnounceRejected s := rfl
theorem exec_hardDrop (level : Nat) (s : State) : exec (.hardDrop level) s = execHardDrop level s := rfl
theorem exec_leaderRaise (lead : Nat) (s : State) : exec (.leaderRaise lead) s = execLeaderRaise lead s := rfl
theorem exec_pacerHeartbeat (s : State) : exec (.pacerHeartbeat) s = execPacerHeartbeat s := rfl
theorem exec_proposalChange (level : Nat) (s : State) : exec (.proposalChange level) s = execProposalChange level s := rfl
theorem exec_memberSilence (chip : Nat) (s : State) : exec (.memberSilence chip) s = execMemberSilence chip s := rfl
theorem exec_leaderSilence (s : State) : exec (.leaderSilence) s = execLeaderSilence s := rfl
theorem exec_slackWindowEnd (s : State) : exec (.slackWindowEnd) s = execSlackWindowEnd s := rfl
theorem exec_launch (h : CtlHdr) (desc : Nat) (flags : Nat) (capBase : Nat) (capLen : Nat) (s : State) : exec (.launch h desc flags capBase capLen) s = execLaunch h desc flags capBase capLen s := rfl
theorem exec_memrd (h : CtlHdr) (addr : Nat) (len : Nat) (s : State) : exec (.memrd h addr len) s = execMemrd h addr len s := rfl
theorem exec_memwr (h : CtlHdr) (addr : Nat) (data : List Byte) (s : State) : exec (.memwr h addr data) s = execMemwr h addr data s := rfl
theorem exec_exrd (h : CtlHdr) (exno : Nat) (off : Nat) (len : Nat) (s : State) : exec (.exrd h exno off len) s = execExrd h exno off len s := rfl
theorem exec_exwr (h : CtlHdr) (exno : Nat) (off : Nat) (data : List Byte) (s : State) : exec (.exwr h exno off data) s = execExwr h exno off data s := rfl
theorem exec_regctlHalt (h : CtlHdr) (region : Nat) (s : State) : exec (.regctlHalt h region) s = execRegctlHalt h region s := rfl
theorem exec_regctlResume (h : CtlHdr) (region : Nat) (s : State) : exec (.regctlResume h region) s = execRegctlResume h region s := rfl
theorem exec_regctlEnd (h : CtlHdr) (region : Nat) (s : State) : exec (.regctlEnd h region) s = execRegctlEnd h region s := rfl
theorem exec_setobj (h : CtlHdr) (region : Nat) (index : Nat) (image : List Word) (s : State) : exec (.setobj h region index image) s = execSetobj h region index image s := rfl
theorem exec_logrd (h : CtlHdr) (s : State) : exec (.logrd h) s = execLogrd h s := rfl
theorem exec_energyrd (h : CtlHdr) (region : Nat) (s : State) : exec (.energyrd h region) s = execEnergyrd h region s := rfl
theorem exec_hkrd (h : CtlHdr) (off : Nat) (s : State) : exec (.hkrd h off) s = execHkrd h off s := rfl
theorem exec_semtake (h : CtlHdr) (s : State) : exec (.semtake h) s = execSemtake h s := rfl
theorem exec_semgive (h : CtlHdr) (s : State) : exec (.semgive h) s = execSemgive h s := rfl
theorem exec_keyloadClear (h : CtlHdr) (slot : Nat) (s : State) : exec (.keyloadClear h slot) s = execKeyloadClear h slot s := rfl
theorem exec_keyloadLoad (h : CtlHdr) (slot : Nat) (owner : Nat) (wrapped : List Byte) (s : State) : exec (.keyloadLoad h slot owner wrapped) s = execKeyloadLoad h slot owner wrapped s := rfl
theorem exec_fwupd (h : CtlHdr) (chunk : List Byte) (s : State) : exec (.fwupd h chunk) s = execFwupd h chunk s := rfl
theorem exec_reset (h : CtlHdr) (s : State) : exec (.reset h) s = execReset h s := rfl
theorem exec_setchip (h : CtlHdr) (chip : Nat) (s : State) : exec (.setchip h chip) s = execSetchip h chip s := rfl
theorem exec_groupJoin (h : CtlHdr) (group : Nat) (s : State) : exec (.groupJoin h group) s = execGroupJoin h group s := rfl
theorem exec_groupLeave (h : CtlHdr) (group : Nat) (s : State) : exec (.groupLeave h group) s = execGroupLeave h group s := rfl
theorem exec_route (h : CtlHdr) (chip : Nat) (mask : Nat) (s : State) : exec (.route h chip mask) s = execRoute h chip mask s := rfl
theorem exec_wqcfg (h : CtlHdr) (queue : Nat) (addr : Nat) (port : Nat) (s : State) : exec (.wqcfg h queue addr port) s = execWqcfg h queue addr port s := rfl
theorem exec_caprd (h : CtlHdr) (region : Nat) (off : Nat) (len : Nat) (s : State) : exec (.caprd h region off len) s = execCaprd h region off len s := rfl
theorem exec_attest (h : CtlHdr) (nonce : List Byte) (s : State) : exec (.attest h nonce) s = execAttest h nonce s := rfl
theorem exec_controlBadcmd (h : CtlHdr) (code : Nat) (s : State) : exec (.controlBadcmd h code) s = execControlBadcmd h code s := rfl
theorem exec_foreignFrame (s : State) : exec (.foreignFrame) s = execForeignFrame s := rfl
theorem exec_ctlsemTimeout (s : State) : exec (.ctlsemTimeout) s = execCtlsemTimeout s := rfl
theorem exec_wicketEgress (queue : Nat) (s : State) : exec (.wicketEgress queue) s = execWicketEgress queue s := rfl
theorem exec_replayHeldAccess (id : Nat) (s : State) : exec (.replayHeldAccess id) s = execReplayHeldAccess id s := rfl
theorem exec_powerOnReset (s : State) : exec (.powerOnReset) s = execPowerOnReset s := rfl
theorem exec_discoveryFloodReceive (core : Nat) (round : Nat) (s : State) : exec (.discoveryFloodReceive core round) s = execDiscoveryFloodReceive core round s := rfl
theorem exec_discoveryAnswer (core : Nat) (round : Nat) (s : State) : exec (.discoveryAnswer core round) s = execDiscoveryAnswer core round s := rfl
theorem exec_discoveryTimeout (s : State) : exec (.discoveryTimeout) s = execDiscoveryTimeout s := rfl
theorem exec_relayLinkRetrain (port : Nat) (s : State) : exec (.relayLinkRetrain port) s = execRelayLinkRetrain port s := rfl
theorem exec_relayLinkRetrainDone (port : Nat) (s : State) : exec (.relayLinkRetrainDone port) s = execRelayLinkRetrainDone port s := rfl
theorem exec_lineEviction (level : CacheLevel) (line : Nat) (s : State) : exec (.lineEviction level line) s = execLineEviction level line s := rfl
theorem exec_patrolScrub (place : Nat) (s : State) : exec (.patrolScrub place) s = execPatrolScrub place s := rfl
theorem exec_replayExternalInput (region : Nat) (input : ExtInput) (s : State) : exec (.replayExternalInput region input) s = execReplayExternalInput region input s := rfl

/-! The length of each instruction in bytes (R59). -/

@[simp] theorem len_add (d : Nat) (a : Nat) (b : Nat) : (Instr.add d a b).len = 4 := rfl
@[simp] theorem len_sub (d : Nat) (a : Nat) (b : Nat) : (Instr.sub d a b).len = 4 := rfl
@[simp] theorem len_mul (d : Nat) (a : Nat) (b : Nat) : (Instr.mul d a b).len = 4 := rfl
@[simp] theorem len_mulh (d : Nat) (a : Nat) (b : Nat) : (Instr.mulh d a b).len = 4 := rfl
@[simp] theorem len_mulhn (d : Nat) (a : Nat) (b : Nat) : (Instr.mulhn d a b).len = 4 := rfl
@[simp] theorem len_div (d : Nat) (a : Nat) (b : Nat) : (Instr.div d a b).len = 4 := rfl
@[simp] theorem len_divn (d : Nat) (a : Nat) (b : Nat) : (Instr.divn d a b).len = 4 := rfl
@[simp] theorem len_rem (d : Nat) (a : Nat) (b : Nat) : (Instr.rem d a b).len = 4 := rfl
@[simp] theorem len_remn (d : Nat) (a : Nat) (b : Nat) : (Instr.remn d a b).len = 4 := rfl
@[simp] theorem len_min (d : Nat) (a : Nat) (b : Nat) : (Instr.min d a b).len = 4 := rfl
@[simp] theorem len_max (d : Nat) (a : Nat) (b : Nat) : (Instr.max d a b).len = 4 := rfl
@[simp] theorem len_minn (d : Nat) (a : Nat) (b : Nat) : (Instr.minn d a b).len = 4 := rfl
@[simp] theorem len_maxn (d : Nat) (a : Nat) (b : Nat) : (Instr.maxn d a b).len = 4 := rfl
@[simp] theorem len_abs (d : Nat) (a : Nat) : (Instr.abs d a).len = 4 := rfl
@[simp] theorem len_and (d : Nat) (a : Nat) (b : Nat) : (Instr.and d a b).len = 4 := rfl
@[simp] theorem len_or (d : Nat) (a : Nat) (b : Nat) : (Instr.or d a b).len = 4 := rfl
@[simp] theorem len_xor (d : Nat) (a : Nat) (b : Nat) : (Instr.xor d a b).len = 4 := rfl
@[simp] theorem len_andn (d : Nat) (a : Nat) (b : Nat) : (Instr.andn d a b).len = 4 := rfl
@[simp] theorem len_orn (d : Nat) (a : Nat) (b : Nat) : (Instr.orn d a b).len = 4 := rfl
@[simp] theorem len_xnor (d : Nat) (a : Nat) (b : Nat) : (Instr.xnor d a b).len = 4 := rfl
@[simp] theorem len_shl (d : Nat) (a : Nat) (b : Nat) : (Instr.shl d a b).len = 4 := rfl
@[simp] theorem len_shr (d : Nat) (a : Nat) (b : Nat) : (Instr.shr d a b).len = 4 := rfl
@[simp] theorem len_sar (d : Nat) (a : Nat) (b : Nat) : (Instr.sar d a b).len = 4 := rfl
@[simp] theorem len_rol (d : Nat) (a : Nat) (b : Nat) : (Instr.rol d a b).len = 4 := rfl
@[simp] theorem len_ror (d : Nat) (a : Nat) (b : Nat) : (Instr.ror d a b).len = 4 := rfl
@[simp] theorem len_popc (d : Nat) (a : Nat) : (Instr.popc d a).len = 4 := rfl
@[simp] theorem len_clz (d : Nat) (a : Nat) : (Instr.clz d a).len = 4 := rfl
@[simp] theorem len_ctz (d : Nat) (a : Nat) : (Instr.ctz d a).len = 4 := rfl
@[simp] theorem len_brev (d : Nat) (a : Nat) : (Instr.brev d a).len = 4 := rfl
@[simp] theorem len_bswap (d : Nat) (a : Nat) : (Instr.bswap d a).len = 4 := rfl
@[simp] theorem len_bext (d : Nat) (a : Nat) (b : Nat) : (Instr.bext d a b).len = 4 := rfl
@[simp] theorem len_bdep (d : Nat) (a : Nat) (b : Nat) : (Instr.bdep d a b).len = 4 := rfl
@[simp] theorem len_sextS8 (d : Nat) (a : Nat) : (Instr.sextS8 d a).len = 4 := rfl
@[simp] theorem len_sextS16 (d : Nat) (a : Nat) : (Instr.sextS16 d a).len = 4 := rfl
@[simp] theorem len_sextS32 (d : Nat) (a : Nat) : (Instr.sextS32 d a).len = 4 := rfl
@[simp] theorem len_zextN8 (d : Nat) (a : Nat) : (Instr.zextN8 d a).len = 4 := rfl
@[simp] theorem len_zextN16 (d : Nat) (a : Nat) : (Instr.zextN16 d a).len = 4 := rfl
@[simp] theorem len_zextN32 (d : Nat) (a : Nat) : (Instr.zextN32 d a).len = 4 := rfl
@[simp] theorem len_padd (d : Nat) (a : Nat) (b : Nat) (w : Nat) : (Instr.padd d a b w).len = 4 := rfl
@[simp] theorem len_psub (d : Nat) (a : Nat) (b : Nat) (w : Nat) : (Instr.psub d a b w).len = 4 := rfl
@[simp] theorem len_paddsS (d : Nat) (a : Nat) (b : Nat) (w : Nat) : (Instr.paddsS d a b w).len = 4 := rfl
@[simp] theorem len_paddsN (d : Nat) (a : Nat) (b : Nat) (w : Nat) : (Instr.paddsN d a b w).len = 4 := rfl
@[simp] theorem len_psubsS (d : Nat) (a : Nat) (b : Nat) (w : Nat) : (Instr.psubsS d a b w).len = 4 := rfl
@[simp] theorem len_psubsN (d : Nat) (a : Nat) (b : Nat) (w : Nat) : (Instr.psubsN d a b w).len = 4 := rfl
@[simp] theorem len_pmin (d : Nat) (a : Nat) (b : Nat) (w : Nat) : (Instr.pmin d a b w).len = 4 := rfl
@[simp] theorem len_pmax (d : Nat) (a : Nat) (b : Nat) (w : Nat) : (Instr.pmax d a b w).len = 4 := rfl
@[simp] theorem len_pminn (d : Nat) (a : Nat) (b : Nat) (w : Nat) : (Instr.pminn d a b w).len = 4 := rfl
@[simp] theorem len_pmaxn (d : Nat) (a : Nat) (b : Nat) (w : Nat) : (Instr.pmaxn d a b w).len = 4 := rfl
@[simp] theorem len_pshl (d : Nat) (a : Nat) (b : Nat) (w : Nat) : (Instr.pshl d a b w).len = 4 := rfl
@[simp] theorem len_pshr (d : Nat) (a : Nat) (b : Nat) (w : Nat) : (Instr.pshr d a b w).len = 4 := rfl
@[simp] theorem len_psar (d : Nat) (a : Nat) (b : Nat) (w : Nat) : (Instr.psar d a b w).len = 4 := rfl
@[simp] theorem len_pshlV (d : Nat) (a : Nat) (b : Nat) (w : Nat) : (Instr.pshlV d a b w).len = 4 := rfl
@[simp] theorem len_pshrV (d : Nat) (a : Nat) (b : Nat) (w : Nat) : (Instr.pshrV d a b w).len = 4 := rfl
@[simp] theorem len_psarV (d : Nat) (a : Nat) (b : Nat) (w : Nat) : (Instr.psarV d a b w).len = 4 := rfl
@[simp] theorem len_pcmp (d : Nat) (a : Nat) (b : Nat) (c : Nat) (w : Nat) : (Instr.pcmp d a b c w).len = 4 := rfl
@[simp] theorem len_mov (d : Nat) (a : Nat) : (Instr.mov d a).len = 4 := rfl
@[simp] theorem len_pmovToG (d : Nat) : (Instr.pmovToG d).len = 4 := rfl
@[simp] theorem len_pmovToPw (a : Nat) : (Instr.pmovToPw a).len = 4 := rfl
@[simp] theorem len_sel (d : Nat) (a : Nat) (b : Nat) (n : Nat) (k : Nat) : (Instr.sel d a b n k).len = 4 := rfl
@[simp] theorem len_addi (d : Nat) (a : Nat) (i : Nat) : (Instr.addi d a i).len = 4 := rfl
@[simp] theorem len_andi (d : Nat) (a : Nat) (i : Nat) : (Instr.andi d a i).len = 4 := rfl
@[simp] theorem len_ori (d : Nat) (a : Nat) (i : Nat) : (Instr.ori d a i).len = 4 := rfl
@[simp] theorem len_xori (d : Nat) (a : Nat) (i : Nat) : (Instr.xori d a i).len = 4 := rfl
@[simp] theorem len_shli (d : Nat) (a : Nat) (n : Nat) : (Instr.shli d a n).len = 4 := rfl
@[simp] theorem len_shri (d : Nat) (a : Nat) (n : Nat) : (Instr.shri d a n).len = 4 := rfl
@[simp] theorem len_sari (d : Nat) (a : Nat) (n : Nat) : (Instr.sari d a n).len = 4 := rfl
@[simp] theorem len_rori (d : Nat) (a : Nat) (n : Nat) : (Instr.rori d a n).len = 4 := rfl
@[simp] theorem len_bfx (d : Nat) (a : Nat) (p : Nat) (l : Nat) : (Instr.bfx d a p l).len = 4 := rfl
@[simp] theorem len_bfi (d : Nat) (a : Nat) (p : Nat) (l : Nat) : (Instr.bfi d a p l).len = 4 := rfl
@[simp] theorem len_lim (d : Nat) (i : Nat) : (Instr.lim d i).len = 4 := rfl
@[simp] theorem len_limH (d : Nat) (k : Nat) (h : Nat) : (Instr.limH d k h).len = 4 := rfl
@[simp] theorem len_addpc (d : Nat) (i : Nat) : (Instr.addpc d i).len = 4 := rfl
@[simp] theorem len_cmp (p : Nat) (c : Nat) (a : Nat) (b : Nat) (s : Nat) : (Instr.cmp p c a b s).len = 4 := rfl
@[simp] theorem len_cmpi (p : Nat) (c : Nat) (a : Nat) (i : Nat) : (Instr.cmpi p c a i).len = 4 := rfl
@[simp] theorem len_plog (p : Nat) (c : Nat) (x : Nat) (y : Nat) : (Instr.plog p c x y).len = 4 := rfl
@[simp] theorem len_b (n : Nat) (p : Nat) (o : Nat) : (Instr.b n p o).len = 4 := rfl
@[simp] theorem len_j (o : Nat) : (Instr.j o).len = 4 := rfl
@[simp] theorem len_call (o : Nat) : (Instr.call o).len = 4 := rfl
@[simp] theorem len_callr (a : Nat) : (Instr.callr a).len = 4 := rfl
@[simp] theorem len_jr (a : Nat) : (Instr.jr a).len = 4 := rfl
@[simp] theorem len_ret : (Instr.ret).len = 4 := rfl
@[simp] theorem len_objset (a : Nat) (b : Nat) : (Instr.objset a b).len = 4 := rfl
@[simp] theorem len_mfs (d : Nat) (s : Nat) : (Instr.mfs d s).len = 4 := rfl
@[simp] theorem len_mts (d : Nat) (s : Nat) : (Instr.mts d s).len = 4 := rfl
@[simp] theorem len_mtsPortmap (d : Nat) : (Instr.mtsPortmap d).len = 4 := rfl
@[simp] theorem len_mtsVl (d : Nat) : (Instr.mtsVl d).len = 4 := rfl
@[simp] theorem len_mtsFpstat (d : Nat) : (Instr.mtsFpstat d).len = 4 := rfl
@[simp] theorem len_mtsRndseed (d : Nat) : (Instr.mtsRndseed d).len = 4 := rfl
@[simp] theorem len_mtsCarve (d : Nat) : (Instr.mtsCarve d).len = 4 := rfl
@[simp] theorem len_mtsLandn (d : Nat) : (Instr.mtsLandn d).len = 4 := rfl
@[simp] theorem len_trap (c : Nat) : (Instr.trap c).len = 4 := rfl
@[simp] theorem len_svc (c : Nat) : (Instr.svc c).len = 4 := rfl
@[simp] theorem len_svcSetCarve : (Instr.svcSetCarve).len = 4 := rfl
@[simp] theorem len_svcSetVgroup : (Instr.svcSetVgroup).len = 4 := rfl
@[simp] theorem len_svcSetLandn : (Instr.svcSetLandn).len = 4 := rfl
@[simp] theorem len_svcSetAccmap : (Instr.svcSetAccmap).len = 4 := rfl
@[simp] theorem len_svcLaunch : (Instr.svcLaunch).len = 4 := rfl
@[simp] theorem len_eret (d : Nat) : (Instr.eret d).len = 4 := rfl
@[simp] theorem len_yield : (Instr.yield).len = 4 := rfl
@[simp] theorem len_park : (Instr.park).len = 4 := rfl
@[simp] theorem len_hint (h : Nat) (i : Nat) (n : Nat) : (Instr.hint h i n).len = 4 := rfl
@[simp] theorem len_ldD (t : Nat) (b : Nat) (g : Nat) (o : Nat) : (Instr.ldD t b g o).len = 4 := rfl
@[simp] theorem len_stD (t : Nat) (b : Nat) (g : Nat) (o : Nat) : (Instr.stD t b g o).len = 4 := rfl
@[simp] theorem len_ld (t : Nat) (b : Nat) (i : Nat) (y : Nat) : (Instr.ld t b i y).len = 4 := rfl
@[simp] theorem len_ldx (t : Nat) (b : Nat) (x : Nat) (y : Nat) : (Instr.ldx t b x y).len = 4 := rfl
@[simp] theorem len_st (t : Nat) (b : Nat) (i : Nat) (y : Nat) : (Instr.st t b i y).len = 4 := rfl
@[simp] theorem len_stx (t : Nat) (b : Nat) (x : Nat) (y : Nat) : (Instr.stx t b x y).len = 4 := rfl
@[simp] theorem len_ldm (d : Nat) (a : Nat) (n : Nat) : (Instr.ldm d a n).len = 4 := rfl
@[simp] theorem len_stm (d : Nat) (a : Nat) (n : Nat) : (Instr.stm d a n).len = 4 := rfl
@[simp] theorem len_ldfe (t : Nat) (b : Nat) (s : Nat) (o : Nat) : (Instr.ldfe t b s o).len = 4 := rfl
@[simp] theorem len_ldff (t : Nat) (b : Nat) (s : Nat) (o : Nat) : (Instr.ldff t b s o).len = 4 := rfl
@[simp] theorem len_stfe (t : Nat) (b : Nat) (s : Nat) (o : Nat) : (Instr.stfe t b s o).len = 4 := rfl
@[simp] theorem len_stf (t : Nat) (b : Nat) (s : Nat) (o : Nat) : (Instr.stf t b s o).len = 4 := rfl
@[simp] theorem len_sete (b : Nat) (s : Nat) (o : Nat) : (Instr.sete b s o).len = 4 := rfl
@[simp] theorem len_feq (t : Nat) (b : Nat) (s : Nat) (o : Nat) : (Instr.feq t b s o).len = 4 := rfl
@[simp] theorem len_ldfeStrand (t : Nat) (b : Nat) : (Instr.ldfeStrand t b).len = 4 := rfl
@[simp] theorem len_ldffStrand (t : Nat) (b : Nat) : (Instr.ldffStrand t b).len = 4 := rfl
@[simp] theorem len_seteStrand (t : Nat) : (Instr.seteStrand t).len = 4 := rfl
@[simp] theorem len_feqStrand (t : Nat) (b : Nat) : (Instr.feqStrand t b).len = 4 := rfl
@[simp] theorem len_fence (s : Nat) : (Instr.fence s).len = 4 := rfl
@[simp] theorem len_discard (b : Nat) (s : Nat) (o : Nat) : (Instr.discard b s o).len = 4 := rfl
@[simp] theorem len_flush (b : Nat) (s : Nat) (o : Nat) : (Instr.flush b s o).len = 4 := rfl
@[simp] theorem len_inval (b : Nat) (s : Nat) (o : Nat) : (Instr.inval b s o).len = 4 := rfl
@[simp] theorem len_pref (b : Nat) (s : Nat) (o : Nat) : (Instr.pref b s o).len = 4 := rfl
@[simp] theorem len_tlbinvPage (b : Nat) (s : Nat) : (Instr.tlbinvPage b s).len = 4 := rfl
@[simp] theorem len_tlbinvRegion (s : Nat) : (Instr.tlbinvRegion s).len = 4 := rfl
@[simp] theorem len_hop (b : Nat) (o : Nat) : (Instr.hop b o).len = 4 := rfl
@[simp] theorem len_sendr (t : Nat) (b : Nat) (s : Nat) (r : Nat) : (Instr.sendr t b s r).len = 4 := rfl
@[simp] theorem len_arrive (t : Nat) (b : Nat) (s : Nat) (o : Nat) : (Instr.arrive t b s o).len = 4 := rfl
@[simp] theorem len_arriveRelaxed (t : Nat) (b : Nat) (s : Nat) (o : Nat) : (Instr.arriveRelaxed t b s o).len = 4 := rfl
@[simp] theorem len_hwait (t : Nat) (b : Nat) (s : Nat) (o : Nat) : (Instr.hwait t b s o).len = 4 := rfl
@[simp] theorem len_htest (t : Nat) (b : Nat) (s : Nat) (o : Nat) : (Instr.htest t b s o).len = 4 := rfl
@[simp] theorem len_pubf (a : Nat) : (Instr.pubf a).len = 4 := rfl
@[simp] theorem len_sync (a : Nat) : (Instr.sync a).len = 4 := rfl
@[simp] theorem len_done : (Instr.done).len = 4 := rfl
@[simp] theorem len_tcbnew (d : Nat) (a : Nat) : (Instr.tcbnew d a).len = 4 := rfl
@[simp] theorem len_tcbsucc (a : Nat) (b : Nat) : (Instr.tcbsucc a b).len = 4 := rfl
@[simp] theorem len_tcbpred (a : Nat) (b : Nat) : (Instr.tcbpred a b).len = 4 := rfl
@[simp] theorem len_spawn (d : Nat) (i : Nat) : (Instr.spawn d i).len = 4 := rfl
@[simp] theorem len_waitt (a : Nat) : (Instr.waitt a).len = 4 := rfl
@[simp] theorem len_waita (a : Nat) : (Instr.waita a).len = 4 := rfl
@[simp] theorem len_tfirst (d : Nat) : (Instr.tfirst d).len = 4 := rfl
@[simp] theorem len_tclr (a : Nat) : (Instr.tclr a).len = 4 := rfl
@[simp] theorem len_cwait (a : Nat) (b : Nat) : (Instr.cwait a b).len = 4 := rfl
@[simp] theorem len_cread (d : Nat) (a : Nat) : (Instr.cread d a).len = 4 := rfl
@[simp] theorem len_rdpace (d : Nat) : (Instr.rdpace d).len = 4 := rfl
@[simp] theorem len_vclaim (q : Nat) (g : Nat) : (Instr.vclaim q g).len = 4 := rfl
@[simp] theorem len_vfree : (Instr.vfree).len = 4 := rfl
@[simp] theorem len_repf (s : Nat) (l : Nat) (g : Nat) : (Instr.repf s l g).len = 4 := rfl
@[simp] theorem len_vwait : (Instr.vwait).len = 4 := rfl
@[simp] theorem len_vld (d : Nat) (a : Nat) (g : Nat) (w : Nat) : (Instr.vld d a g w).len = 4 := rfl
@[simp] theorem len_vlds (d : Nat) (a : Nat) (b : Nat) (g : Nat) (w : Nat) : (Instr.vlds d a b g w).len = 4 := rfl
@[simp] theorem len_vldx (d : Nat) (a : Nat) (b : Nat) (g : Nat) (w : Nat) : (Instr.vldx d a b g w).len = 4 := rfl
@[simp] theorem len_vldPostinc (d : Nat) (a : Nat) (g : Nat) (w : Nat) : (Instr.vldPostinc d a g w).len = 4 := rfl
@[simp] theorem len_vst (d : Nat) (a : Nat) (g : Nat) (w : Nat) : (Instr.vst d a g w).len = 4 := rfl
@[simp] theorem len_vsts (d : Nat) (a : Nat) (b : Nat) (g : Nat) (w : Nat) : (Instr.vsts d a b g w).len = 4 := rfl
@[simp] theorem len_vstx (d : Nat) (a : Nat) (b : Nat) (g : Nat) (w : Nat) : (Instr.vstx d a b g w).len = 4 := rfl
@[simp] theorem len_vstPostinc (d : Nat) (a : Nat) (g : Nat) (w : Nat) : (Instr.vstPostinc d a g w).len = 4 := rfl
@[simp] theorem len_vbcast (d : Nat) (b : Nat) (g : Nat) : (Instr.vbcast d b g).len = 4 := rfl
@[simp] theorem len_vmovg (d : Nat) (a : Nat) (l : Nat) : (Instr.vmovg d a l).len = 4 := rfl
@[simp] theorem len_vmovl (d : Nat) (b : Nat) (l : Nat) : (Instr.vmovl d b l).len = 4 := rfl
@[simp] theorem len_viota (d : Nat) (g : Nat) : (Instr.viota d g).len = 4 := rfl
@[simp] theorem len_vfadd (d : Nat) (a : Nat) (b : Nat) (g : Nat) : (Instr.vfadd d a b g).len = 4 := rfl
@[simp] theorem len_vfsub (d : Nat) (a : Nat) (b : Nat) (g : Nat) : (Instr.vfsub d a b g).len = 4 := rfl
@[simp] theorem len_vfmul (d : Nat) (a : Nat) (b : Nat) (g : Nat) : (Instr.vfmul d a b g).len = 4 := rfl
@[simp] theorem len_vfma (d : Nat) (a : Nat) (b : Nat) (g : Nat) : (Instr.vfma d a b g).len = 4 := rfl
@[simp] theorem len_vfnma (d : Nat) (a : Nat) (b : Nat) (g : Nat) : (Instr.vfnma d a b g).len = 4 := rfl
@[simp] theorem len_vfmin (d : Nat) (a : Nat) (b : Nat) (g : Nat) : (Instr.vfmin d a b g).len = 4 := rfl
@[simp] theorem len_vfmax (d : Nat) (a : Nat) (b : Nat) (g : Nat) : (Instr.vfmax d a b g).len = 4 := rfl
@[simp] theorem len_vfabs (d : Nat) (a : Nat) (g : Nat) : (Instr.vfabs d a g).len = 4 := rfl
@[simp] theorem len_vfneg (d : Nat) (a : Nat) (g : Nat) : (Instr.vfneg d a g).len = 4 := rfl
@[simp] theorem len_vfcmp (d : Nat) (a : Nat) (b : Nat) (g : Nat) (c : Nat) : (Instr.vfcmp d a b g c).len = 4 := rfl
@[simp] theorem len_vadd (d : Nat) (a : Nat) (b : Nat) (g : Nat) : (Instr.vadd d a b g).len = 4 := rfl
@[simp] theorem len_vsub (d : Nat) (a : Nat) (b : Nat) (g : Nat) : (Instr.vsub d a b g).len = 4 := rfl
@[simp] theorem len_vmul (d : Nat) (a : Nat) (b : Nat) (g : Nat) : (Instr.vmul d a b g).len = 4 := rfl
@[simp] theorem len_vmulh (d : Nat) (a : Nat) (b : Nat) (g : Nat) : (Instr.vmulh d a b g).len = 4 := rfl
@[simp] theorem len_vmulhn (d : Nat) (a : Nat) (b : Nat) (g : Nat) : (Instr.vmulhn d a b g).len = 4 := rfl
@[simp] theorem len_vand (d : Nat) (a : Nat) (b : Nat) (g : Nat) : (Instr.vand d a b g).len = 4 := rfl
@[simp] theorem len_vor (d : Nat) (a : Nat) (b : Nat) (g : Nat) : (Instr.vor d a b g).len = 4 := rfl
@[simp] theorem len_vxor (d : Nat) (a : Nat) (b : Nat) (g : Nat) : (Instr.vxor d a b g).len = 4 := rfl
@[simp] theorem len_vandn (d : Nat) (a : Nat) (b : Nat) (g : Nat) : (Instr.vandn d a b g).len = 4 := rfl
@[simp] theorem len_vshl (d : Nat) (a : Nat) (b : Nat) (g : Nat) : (Instr.vshl d a b g).len = 4 := rfl
@[simp] theorem len_vshr (d : Nat) (a : Nat) (b : Nat) (g : Nat) : (Instr.vshr d a b g).len = 4 := rfl
@[simp] theorem len_vsar (d : Nat) (a : Nat) (b : Nat) (g : Nat) : (Instr.vsar d a b g).len = 4 := rfl
@[simp] theorem len_vrol (d : Nat) (a : Nat) (b : Nat) (g : Nat) : (Instr.vrol d a b g).len = 4 := rfl
@[simp] theorem len_vmin (d : Nat) (a : Nat) (b : Nat) (g : Nat) : (Instr.vmin d a b g).len = 4 := rfl
@[simp] theorem len_vmax (d : Nat) (a : Nat) (b : Nat) (g : Nat) : (Instr.vmax d a b g).len = 4 := rfl
@[simp] theorem len_vminn (d : Nat) (a : Nat) (b : Nat) (g : Nat) : (Instr.vminn d a b g).len = 4 := rfl
@[simp] theorem len_vmaxn (d : Nat) (a : Nat) (b : Nat) (g : Nat) : (Instr.vmaxn d a b g).len = 4 := rfl
@[simp] theorem len_vsel (d : Nat) (a : Nat) (b : Nat) (g : Nat) : (Instr.vsel d a b g).len = 4 := rfl
@[simp] theorem len_vpadd (d : Nat) (a : Nat) (b : Nat) (g : Nat) (w : Nat) : (Instr.vpadd d a b g w).len = 4 := rfl
@[simp] theorem len_vpshl (d : Nat) (a : Nat) (b : Nat) (g : Nat) (w : Nat) : (Instr.vpshl d a b g w).len = 4 := rfl
@[simp] theorem len_vpshr (d : Nat) (a : Nat) (b : Nat) (g : Nat) (w : Nat) : (Instr.vpshr d a b g w).len = 4 := rfl
@[simp] theorem len_vcmp (d : Nat) (a : Nat) (b : Nat) (g : Nat) (c : Nat) : (Instr.vcmp d a b g c).len = 4 := rfl
@[simp] theorem len_vcvt (d : Nat) (a : Nat) (x : Nat) (t : Nat) (g : Nat) (r : Nat) (s : Nat) : (Instr.vcvt d a x t g r s).len = 4 := rfl
@[simp] theorem len_vexp2 (d : Nat) (a : Nat) (g : Nat) : (Instr.vexp2 d a g).len = 4 := rfl
@[simp] theorem len_vlog2 (d : Nat) (a : Nat) (g : Nat) : (Instr.vlog2 d a g).len = 4 := rfl
@[simp] theorem len_vrcp (d : Nat) (a : Nat) (g : Nat) : (Instr.vrcp d a g).len = 4 := rfl
@[simp] theorem len_vrsq (d : Nat) (a : Nat) (g : Nat) : (Instr.vrsq d a g).len = 4 := rfl
@[simp] theorem len_vsqrt (d : Nat) (a : Nat) (g : Nat) : (Instr.vsqrt d a g).len = 4 := rfl
@[simp] theorem len_vtanh (d : Nat) (a : Nat) (g : Nat) : (Instr.vtanh d a g).len = 4 := rfl
@[simp] theorem len_vredaddF32 (d : Nat) (a : Nat) (g : Nat) : (Instr.vredaddF32 d a g).len = 4 := rfl
@[simp] theorem len_vredaddS32 (d : Nat) (a : Nat) (g : Nat) : (Instr.vredaddS32 d a g).len = 4 := rfl
@[simp] theorem len_vredminF32 (d : Nat) (a : Nat) (g : Nat) : (Instr.vredminF32 d a g).len = 4 := rfl
@[simp] theorem len_vredminS32 (d : Nat) (a : Nat) (g : Nat) : (Instr.vredminS32 d a g).len = 4 := rfl
@[simp] theorem len_vredminN32 (d : Nat) (a : Nat) (g : Nat) : (Instr.vredminN32 d a g).len = 4 := rfl
@[simp] theorem len_vredmaxF32 (d : Nat) (a : Nat) (g : Nat) : (Instr.vredmaxF32 d a g).len = 4 := rfl
@[simp] theorem len_vredmaxS32 (d : Nat) (a : Nat) (g : Nat) : (Instr.vredmaxS32 d a g).len = 4 := rfl
@[simp] theorem len_vredmaxN32 (d : Nat) (a : Nat) (g : Nat) : (Instr.vredmaxN32 d a g).len = 4 := rfl
@[simp] theorem len_vperm (d : Nat) (a : Nat) (b : Nat) (g : Nat) : (Instr.vperm d a b g).len = 4 := rfl
@[simp] theorem len_vslide (d : Nat) (a : Nat) (b : Nat) (g : Nat) : (Instr.vslide d a b g).len = 4 := rfl
@[simp] theorem len_vcompress (d : Nat) (a : Nat) (g : Nat) : (Instr.vcompress d a g).len = 4 := rfl
@[simp] theorem len_vexpand (d : Nat) (a : Nat) (g : Nat) : (Instr.vexpand d a g).len = 4 := rfl
@[simp] theorem len_aadd (a : Nat) (b : Nat) (c : Nat) (scope : Nat) (ord : Nat) (w : Nat) : (Instr.aadd a b c scope ord w).len = 8 := rfl
@[simp] theorem len_afadd (a : Nat) (b : Nat) (c : Nat) (scope : Nat) (ord : Nat) (w : Nat) : (Instr.afadd a b c scope ord w).len = 8 := rfl
@[simp] theorem len_amin (a : Nat) (b : Nat) (c : Nat) (scope : Nat) (ord : Nat) (w : Nat) : (Instr.amin a b c scope ord w).len = 8 := rfl
@[simp] theorem len_amax (a : Nat) (b : Nat) (c : Nat) (scope : Nat) (ord : Nat) (w : Nat) : (Instr.amax a b c scope ord w).len = 8 := rfl
@[simp] theorem len_aminn (a : Nat) (b : Nat) (c : Nat) (scope : Nat) (ord : Nat) (w : Nat) : (Instr.aminn a b c scope ord w).len = 8 := rfl
@[simp] theorem len_amaxn (a : Nat) (b : Nat) (c : Nat) (scope : Nat) (ord : Nat) (w : Nat) : (Instr.amaxn a b c scope ord w).len = 8 := rfl
@[simp] theorem len_aand (a : Nat) (b : Nat) (c : Nat) (scope : Nat) (ord : Nat) (w : Nat) : (Instr.aand a b c scope ord w).len = 8 := rfl
@[simp] theorem len_aor (a : Nat) (b : Nat) (c : Nat) (scope : Nat) (ord : Nat) (w : Nat) : (Instr.aor a b c scope ord w).len = 8 := rfl
@[simp] theorem len_axor (a : Nat) (b : Nat) (c : Nat) (scope : Nat) (ord : Nat) (w : Nat) : (Instr.axor a b c scope ord w).len = 8 := rfl
@[simp] theorem len_aswp (a : Nat) (b : Nat) (c : Nat) (scope : Nat) (ord : Nat) (w : Nat) : (Instr.aswp a b c scope ord w).len = 8 := rfl
@[simp] theorem len_acas (a : Nat) (b : Nat) (c : Nat) (scope : Nat) (ord : Nat) (w : Nat) : (Instr.acas a b c scope ord w).len = 8 := rfl
@[simp] theorem len_cadd (a : Nat) (b : Nat) (c : Nat) (scope : Nat) (ord : Nat) (w : Nat) : (Instr.cadd a b c scope ord w).len = 8 := rfl
@[simp] theorem len_fetch (a : Nat) (b : Nat) (c : Nat) (tag : Nat) (scope : Nat) (cnt : Bool) : (Instr.fetch a b c tag scope cnt).len = 8 := rfl
@[simp] theorem len_push (a : Nat) (b : Nat) (c : Nat) (tag : Nat) (scope : Nat) (cnt : Bool) : (Instr.push a b c tag scope cnt).len = 8 := rfl
@[simp] theorem len_pushX (obj : Nat) (a : Nat) (b : Nat) (c : Nat) (tag : Nat) (scope : Nat) (cnt : Bool) : (Instr.pushX obj a b c tag scope cnt).len = 8 := rfl
@[simp] theorem len_pushm (obj : Nat) (a : Nat) (b : Nat) (c : Nat) (tag : Nat) (scope : Nat) (cnt : Bool) : (Instr.pushm obj a b c tag scope cnt).len = 8 := rfl
@[simp] theorem len_storeb (a : Nat) (b : Nat) (c : Nat) (tag : Nat) (scope : Nat) (cnt : Bool) : (Instr.storeb a b c tag scope cnt).len = 8 := rfl
@[simp] theorem len_gather (obj : Nat) (a : Nat) (b : Nat) (c : Nat) (tag : Nat) (scope : Nat) (t : Bool) (cnt : Bool) : (Instr.gather obj a b c tag scope t cnt).len = 8 := rfl
@[simp] theorem len_scatter (obj : Nat) (a : Nat) (b : Nat) (c : Nat) (tag : Nat) (scope : Nat) (t : Bool) (add : Bool) (cnt : Bool) : (Instr.scatter obj a b c tag scope t add cnt).len = 8 := rfl
@[simp] theorem len_fabred (obj : Nat) (a : Nat) (b : Nat) (c : Nat) (tag : Nat) (scope : Nat) (cnt : Bool) : (Instr.fabred obj a b c tag scope cnt).len = 8 := rfl
@[simp] theorem len_donate (obj : Nat) (a : Nat) (b : Nat) (tag : Nat) (scope : Nat) (cnt : Bool) : (Instr.donate obj a b tag scope cnt).len = 8 := rfl
@[simp] theorem len_mclaimClaim (a : Nat) : (Instr.mclaimClaim a).len = 8 := rfl
@[simp] theorem len_mclaimRelease (a : Nat) : (Instr.mclaimRelease a).len = 8 := rfl
@[simp] theorem len_ldw (obj : Nat) (a : Nat) (ty : Nat) : (Instr.ldw obj a ty).len = 8 := rfl
@[simp] theorem len_swpw : (Instr.swpw).len = 8 := rfl
@[simp] theorem len_mma (obj : Nat) (a : Nat) (b : Nat) (c : Nat) (ty : Nat) (z : Bool) : (Instr.mma obj a b c ty z).len = 8 := rfl
@[simp] theorem len_mchain (b : Nat) (c : Nat) (ty : Nat) (z : Bool) : (Instr.mchain b c ty z).len = 8 := rfl
@[simp] theorem len_munchain (a : Nat) : (Instr.munchain a).len = 8 := rfl
@[simp] theorem len_mova (v : Nat) (b : Nat) (c : Nat) : (Instr.mova v b c).len = 8 := rfl
@[simp] theorem len_msta (obj : Nat) (a : Nat) (b : Nat) (c : Nat) : (Instr.msta obj a b c).len = 8 := rfl
@[simp] theorem len_mlda (obj : Nat) (a : Nat) (b : Nat) (c : Nat) : (Instr.mlda obj a b c).len = 8 := rfl
@[simp] theorem len_mzero (c : Nat) : (Instr.mzero c).len = 8 := rfl
@[simp] theorem len_msel (a : Nat) (b : Nat) (c : Nat) : (Instr.msel a b c).len = 8 := rfl
@[simp] theorem len_mscale (a : Nat) (b : Nat) (ty : Nat) : (Instr.mscale a b ty).len = 8 := rfl
@[simp] theorem len_mstat (a : Nat) (op : Nat) : (Instr.mstat a op).len = 8 := rfl

end Sys2Proof.Machine
end

