-- ==== Sys2Proof/Laws/Memory.lean ====
section
/-! SUPPORT. Laws of the byte memory: what a byte reads as after a write, and that every operation on the list keeps its
canonical form. -/

namespace Sys2Proof.Machine

/-- The canonical form in terms of a bound below every place. -/
theorem Memory.wf_cons (a : Nat) (b : Byte) (r : List Host.Cell) :
    Memory.wf ((a, b) :: r) = true ↔ b ≠ emptyByte ∧ (∀ c ∈ r, a < c.1) ∧ Memory.wf r = true := by
  induction r generalizing a b with
  | nil => simp [Memory.wf]
  | cons c r ih =>
    obtain ⟨c, d⟩ := c
    simp only [Memory.wf, Bool.and_eq_true, decide_eq_true_eq, bne_iff_ne, ne_eq, List.mem_cons]
    constructor
    · rintro ⟨⟨h1, h2⟩, h3⟩
      refine ⟨h2, ?_, h3⟩
      rintro x (rfl | hx)
      · exact h1
      · exact Nat.lt_trans h1 (((ih c d).1 h3).2.1 x hx)
    · rintro ⟨h2, h1, h3⟩
      exact ⟨⟨h1 (c, d) (.inl rfl), h2⟩, h3⟩

@[simp] theorem Memory.wf_nil : Memory.wf [] = true := rfl

/-! ## Reading after a write -/

theorem readByte_insertByte_same (m : List Host.Cell) (p : Nat) (b : Byte) : readByte (insertByte m p b) p = b := by
  induction m with
  | nil => simp [insertByte, readByte]
  | cons c r ih =>
    obtain ⟨a, c⟩ := c
    simp only [insertByte]
    split
    · simp [readByte]
    · split
      · simp [readByte]
      · next h => simp [readByte, h, ih]

theorem readByte_insertByte_ne (m : List Host.Cell) {p q : Nat} (b : Byte) (h : q ≠ p) :
    readByte (insertByte m p b) q = readByte m q := by
  induction m with
  | nil => simp [insertByte, readByte, Ne.symm h]
  | cons c r ih =>
    obtain ⟨a, c⟩ := c
    simp only [insertByte]
    split
    · simp [readByte, Ne.symm h]
    · split
      · next e => subst e; simp [readByte, Ne.symm h]
      · simp [readByte, ih]

theorem readByte_filter_same (m : List Host.Cell) (p : Nat) : readByte (m.filter (·.1 != p)) p = emptyByte := by
  induction m with
  | nil => rfl
  | cons c r ih =>
    obtain ⟨a, c⟩ := c
    by_cases h : a = p
    · simp [h, ih]
    · simp [h, readByte, ih]

theorem readByte_filter_ne (m : List Host.Cell) {p q : Nat} (h : q ≠ p) :
    readByte (m.filter (·.1 != p)) q = readByte m q := by
  induction m with
  | nil => rfl
  | cons c r ih =>
    obtain ⟨a, c⟩ := c
    by_cases e : a = p
    · subst e; simp [readByte, Ne.symm h, ih]
    · simp [e, readByte, ih]

theorem readByte_writeByte_same (m : List Host.Cell) (p : Nat) (b : Byte) : readByte (writeByte m p b) p = b := by
  unfold writeByte
  split
  · next h => rw [readByte_filter_same, h]
  · exact readByte_insertByte_same m p b

theorem readByte_writeByte_ne (m : List Host.Cell) {p q : Nat} (b : Byte) (h : q ≠ p) :
    readByte (writeByte m p b) q = readByte m q := by
  unfold writeByte
  split
  · exact readByte_filter_ne m h
  · exact readByte_insertByte_ne m b h

/-- A byte outside the bytes written reads as before. -/
theorem readByte_writeBytes_out (l : List Byte) (m : List Host.Cell) (p q : Nat) (h : q < p ∨ p + l.length ≤ q) :
    readByte (writeBytes m p l) q = readByte m q := by
  induction l generalizing m p with
  | nil => rfl
  | cons b r ih =>
    simp only [List.length_cons] at h
    rw [writeBytes, ih _ _ (by omega), readByte_writeByte_ne _ _ (by omega)]

/-- A byte inside the bytes written reads as the byte written there. -/
theorem readByte_writeBytes_in (l : List Byte) (m : List Host.Cell) (p i : Nat) (h : i < l.length) :
    readByte (writeBytes m p l) (p + i) = l[i] := by
  induction l generalizing m p i with
  | nil => simp at h
  | cons b r ih =>
    cases i with
    | zero =>
      have := readByte_writeBytes_out r (writeByte m p b) (p + 1) p (.inl (by omega))
      rw [writeBytes]
      exact this.trans (readByte_writeByte_same m p b)
    | succ i =>
      have := ih (writeByte m p b) (p + 1) i (by simpa using h)
      rw [writeBytes, show p + (i + 1) = p + 1 + i by omega, this]
      rfl

/-! ## The canonical form is kept -/

theorem insertByte_places (m : List Host.Cell) (p : Nat) (b : Byte) (c : Host.Cell) (h : c ∈ insertByte m p b) :
    c.1 = p ∨ c ∈ m := by
  induction m with
  | nil => simp [insertByte] at h; exact .inl (by rw [h])
  | cons x r ih =>
    obtain ⟨a, d⟩ := x
    simp only [insertByte] at h
    split at h
    · rcases List.mem_cons.1 h with h | h
      · exact .inl (by rw [h])
      · exact .inr h
    · split at h
      · rcases List.mem_cons.1 h with h | h
        · exact .inl (by rw [h])
        · exact .inr (List.mem_cons_of_mem _ h)
      · rcases List.mem_cons.1 h with h | h
        · exact .inr (by rw [h]; exact List.mem_cons_self)
        · rcases ih h with h | h
          · exact .inl h
          · exact .inr (List.mem_cons_of_mem _ h)

theorem Memory.wf_insertByte (m : List Host.Cell) (p : Nat) (b : Byte) (hb : b ≠ emptyByte) (h : Memory.wf m = true) :
    Memory.wf (insertByte m p b) = true := by
  induction m with
  | nil => simp [insertByte, Memory.wf, hb]
  | cons x r ih =>
    obtain ⟨a, d⟩ := x
    have ⟨h1, h2, h3⟩ := (Memory.wf_cons a d r).1 h
    simp only [insertByte]
    split
    · next hp =>
      refine (Memory.wf_cons _ _ _).2 ⟨hb, ?_, h⟩
      intro c hc
      rcases List.mem_cons.1 hc with e | hc
      · rw [e]; exact hp
      · exact Nat.lt_trans hp (h2 c hc)
    · split
      · next hp hq =>
        subst hq
        exact (Memory.wf_cons _ _ _).2 ⟨hb, h2, h3⟩
      · next hp hq =>
        refine (Memory.wf_cons _ _ _).2 ⟨h1, ?_, ih h3⟩
        intro c hc
        rcases insertByte_places r p b c hc with e | hc
        · omega
        · exact h2 c hc

/-- Leaving entries out keeps the canonical form. -/
theorem Memory.wf_filter (m : List Host.Cell) (f : Host.Cell → Bool) (h : Memory.wf m = true) :
    Memory.wf (m.filter f) = true := by
  induction m with
  | nil => rfl
  | cons x r ih =>
    obtain ⟨a, d⟩ := x
    have ⟨h1, h2, h3⟩ := (Memory.wf_cons a d r).1 h
    rw [List.filter_cons]
    split
    · exact (Memory.wf_cons _ _ _).2 ⟨h1, fun c hc => h2 c (List.mem_filter.1 hc).1, ih h3⟩
    · exact ih h3

theorem Memory.wf_writeByte (m : List Host.Cell) (p : Nat) (b : Byte) (h : Memory.wf m = true) :
    Memory.wf (writeByte m p b) = true := by
  unfold writeByte
  split
  · exact Memory.wf_filter m _ h
  · next hb => exact Memory.wf_insertByte m p b hb h

theorem Memory.wf_writeBytes (l : List Byte) (m : List Host.Cell) (p : Nat) (h : Memory.wf m = true) :
    Memory.wf (writeBytes m p l) = true := by
  induction l generalizing m p with
  | nil => exact h
  | cons b r ih => exact ih _ _ (Memory.wf_writeByte m p b h)

end Sys2Proof.Machine
end

