-- ==== Sys2Proof/Laws/Homes.lean ====
section
/-! SUPPORT. What the operations of Machine/Memory.lean on lines, homes, L1 caches and page tables can change, and that each keeps the
canonical form of memory. -/

namespace Sys2Proof.Machine

/-- Only the caches, the storage behind them, the device error log and the count of corrected errors differ, with what a step that finds
something away asks for, walks and TLB entries, and passes asked for; the canonical form of memory is kept. -/
structure HomeFrame (s t : State) : Prop where
  eq : t = { s with mem := t.mem, hbmKey := t.hbmKey, dead := t.dead, poison := t.poison, flips := t.flips, cache := t.cache,
                    soft := t.soft, host := { s.host with log := t.host.log, logCount := t.host.logCount, ecccnt := t.host.ecccnt },
                    stalled := t.stalled, wants := t.wants, walks := t.walks, nextId := t.nextId, tlb := t.tlb, agenda := t.agenda }
  wf : Memory.wf s.mem = true → Memory.wf t.mem = true

/-- The same where fills on their way may have been marked as not to be kept. -/
structure PurgeFrame (s t : State) : Prop where
  eq : t = { s with mem := t.mem, hbmKey := t.hbmKey, dead := t.dead, poison := t.poison, flips := t.flips, cache := t.cache,
                    soft := t.soft, host := { s.host with log := t.host.log, logCount := t.host.logCount, ecccnt := t.host.ecccnt },
                    stalled := t.stalled, wants := t.wants, walks := t.walks, nextId := t.nextId, tlb := t.tlb, agenda := t.agenda,
                    reqs := t.reqs, reps := t.reps }
  wf : Memory.wf s.mem = true → Memory.wf t.mem = true

namespace HomeFrame

theorem refl (s : State) : HomeFrame s s := ⟨rfl, id⟩

theorem trans {s t u : State} (h : HomeFrame s t) (k : HomeFrame t u) : HomeFrame s u :=
  ⟨by rw [k.eq, h.eq], k.wf ∘ h.wf⟩

theorem purge {s t : State} (h : HomeFrame s t) : PurgeFrame s t := ⟨by rw [h.eq], h.wf⟩

theorem ite {s t u : State} {c : Prop} [Decidable c] (h : HomeFrame s t) (k : HomeFrame s u) : HomeFrame s (if c then t else u) := by
  split <;> assumption

theorem slots {s t : State} (h : HomeFrame s t) : t.slots = s.slots := by rw [h.eq]
theorem regs {s t : State} (h : HomeFrame s t) : t.regs = s.regs := by rw [h.eq]
theorem cores {s t : State} (h : HomeFrame s t) : t.cores = s.cores := by rw [h.eq]
theorem tcbs {s t : State} (h : HomeFrame s t) : t.tcbs = s.tcbs := by rw [h.eq]
theorem regions {s t : State} (h : HomeFrame s t) : t.regions = s.regions := by rw [h.eq]
theorem engs {s t : State} (h : HomeFrame s t) : t.engs = s.engs := by rw [h.eq]
theorem work {s t : State} (h : HomeFrame s t) : t.work = s.work := by rw [h.eq]
theorem cur {s t : State} (h : HomeFrame s t) : t.cur = s.cur := by rw [h.eq]
theorem reqs {s t : State} (h : HomeFrame s t) : t.reqs = s.reqs := by rw [h.eq]
theorem me {s t : State} (h : HomeFrame s t) : t.me = s.me := by rw [h.eq]; rfl
theorem slot {s t : State} (h : HomeFrame s t) (k : Nat) : t.slot k = s.slot k := by rw [h.eq]; rfl
theorem core {s t : State} (h : HomeFrame s t) (c : Nat) : t.core c = s.core c := by rw [h.eq]; rfl
theorem greg {s t : State} (h : HomeFrame s t) (k r : Nat) : t.greg k r = s.greg k r := by rw [h.eq]; rfl

end HomeFrame

namespace PurgeFrame

theorem refl (s : State) : PurgeFrame s s := ⟨rfl, id⟩

theorem trans {s t u : State} (h : PurgeFrame s t) (k : PurgeFrame t u) : PurgeFrame s u :=
  ⟨by rw [k.eq, h.eq], k.wf ∘ h.wf⟩

theorem foldl {α : Type} (f : State → α → State) (h : ∀ s a, PurgeFrame s (f s a)) (l : List α) (s : State) :
    PurgeFrame s (l.foldl f s) := by
  induction l generalizing s with
  | nil => exact refl s
  | cons a r ih => exact (h s a).trans (ih (f s a))

theorem slots {s t : State} (h : PurgeFrame s t) : t.slots = s.slots := by rw [h.eq]
theorem regs {s t : State} (h : PurgeFrame s t) : t.regs = s.regs := by rw [h.eq]
theorem cores {s t : State} (h : PurgeFrame s t) : t.cores = s.cores := by rw [h.eq]
theorem tcbs {s t : State} (h : PurgeFrame s t) : t.tcbs = s.tcbs := by rw [h.eq]
theorem regions {s t : State} (h : PurgeFrame s t) : t.regions = s.regions := by rw [h.eq]
theorem engs {s t : State} (h : PurgeFrame s t) : t.engs = s.engs := by rw [h.eq]
theorem work {s t : State} (h : PurgeFrame s t) : t.work = s.work := by rw [h.eq]
theorem cur {s t : State} (h : PurgeFrame s t) : t.cur = s.cur := by rw [h.eq]
theorem me {s t : State} (h : PurgeFrame s t) : t.me = s.me := by rw [h.eq]; rfl
theorem slot {s t : State} (h : PurgeFrame s t) (k : Nat) : t.slot k = s.slot k := by rw [h.eq]; rfl
theorem core {s t : State} (h : PurgeFrame s t) (c : Nat) : t.core c = s.core c := by rw [h.eq]; rfl
theorem greg {s t : State} (h : PurgeFrame s t) (k r : Nat) : t.greg k r = s.greg k r := by rw [h.eq]; rfl

end PurgeFrame

/-! ## Lines and homes -/

theorem putOff_frame (s : State) (a : Ask) : HomeFrame s (s.putOff a) := ⟨rfl, id⟩

theorem unitLine_frame (s : State) (line key : Nat) (write : Bool) : HomeFrame s (s.unitLine line key write) :=
  (HomeFrame.refl s).ite (putOff_frame s _)

theorem crossing_frame (s : State) (d e place out back : Nat) : HomeFrame s (s.crossing d e place out back) := by
  unfold State.crossing
  split
  · exact .refl s
  · split
    · exact (HomeFrame.refl s).ite (putOff_frame s _)
    · exact putOff_frame s _

theorem ask_frame (s : State) (e : Ev) : HomeFrame s (s.ask e) := (HomeFrame.refl s).ite ⟨rfl, id⟩

theorem logErr_frame (s : State) (kind source : Nat) (who addr : Word) : HomeFrame s (s.logErr kind source who addr) := ⟨rfl, id⟩

theorem correct_frame (s : State) (w : Nat) : HomeFrame s (s.correct w) := by
  unfold State.correct
  split
  · exact ⟨rfl, id⟩
  · exact .refl s

theorem setFes_frame (n : Nat) : ∀ (s : State) (w v : Nat), HomeFrame s (s.setFes w n v) := by
  induction n with
  | zero => intro s w v; exact .refl s
  | succ n ih => intro s w v; exact (HomeFrame.mk rfl id : HomeFrame s (s.setFeRaw w (v % 2 == 1))).trans (ih _ _ _)

theorem storeSector_frame (s : State) (line h : Nat) (l : Line) : HomeFrame s (s.storeSector line h l) := by
  have a : HomeFrame s { s with
      mem := writeBytes s.mem (64 * (2 * line + h)) (leBytes 64 (l.num (64 * h) 64)),
      hbmKey := put s.hbmKey (2 * line + h) (s.keyId l.key), dead := s.dead.filter fun w => w / 64 != 2 * line + h,
      poison := setMember s.poison (2 * line + h) (l.badSector h) } :=
    ⟨rfl, fun w => Memory.wf_writeBytes _ _ _ w⟩
  have b := a.trans (setFes_frame 8 _ (64 * (2 * line + h)) (l.fe.toNat / 2 ^ (8 * h)))
  exact (HomeFrame.trans b (logErr_frame _ 5 0 0 _)).ite b

theorem cleanMsc_frame (s : State) (line : Nat) : HomeFrame s (s.cleanMsc line) := by
  unfold State.cleanMsc
  split
  · exact .refl s
  · rename_i l _
    have a : HomeFrame s (if l.dirtySector 0 then s.storeSector line 0 l else s) := (storeSector_frame s line 0 l).ite (.refl s)
    have b := a.trans (((storeSector_frame _ line 1 l).ite (.refl _)) : HomeFrame _ (if l.dirtySector 1 then State.storeSector _ line 1 l else _))
    exact b.trans ⟨rfl, id⟩

theorem dropMsc_frame (s : State) (line : Nat) : HomeFrame s (s.dropMsc line) := ⟨rfl, id⟩

theorem mscRoom_frame (s : State) (line : Nat) : HomeFrame s (s.mscRoom line) :=
  HomeFrame.ite (.refl s) ((cleanMsc_frame s _).trans (dropMsc_frame _ _))

theorem withCache_frame (s : State) (c : CacheSys) : HomeFrame s { s with cache := c } := ⟨rfl, id⟩

theorem fillMsc_frame (s : State) (line key : Nat) : HomeFrame s (s.fillMsc line key) := by
  unfold State.fillMsc
  split
  · split
    · exact .refl s
    · exact ((cleanMsc_frame s line).trans (dropMsc_frame _ line)).trans (withCache_frame _ _)
  · exact (mscRoom_frame s line).trans (withCache_frame _ _)

theorem logWriteBack_frame (s : State) (line : Nat) (l : Line) : HomeFrame s (s.logWriteBack line l) := by
  have a : HomeFrame s (if l.dirtySector 0 && l.badSector 0 then s.logErr 5 0 0 (BitVec.ofNat 64 (128 * line)) else s) :=
    (logErr_frame s 5 0 0 _).ite (.refl s)
  exact a.trans ((logErr_frame _ 5 0 0 _).ite (.refl _))

theorem cleanL2_frame (s : State) (line : Nat) : HomeFrame s (s.cleanL2 line) := by
  unfold State.cleanL2
  split
  · exact .refl s
  · split
    · exact .refl s
    · refine HomeFrame.trans ?_ (logWriteBack_frame _ line _)
      exact ((crossing_frame s _ _ _ _ _).trans (fillMsc_frame _ line _)).trans (withCache_frame _ _)

theorem dropL2_frame (s : State) (line : Nat) : HomeFrame s (s.dropL2 line) := ⟨rfl, id⟩

theorem l2Room_frame (s : State) (bank line : Nat) : HomeFrame s (s.l2Room bank line) :=
  HomeFrame.ite (.refl s) ((cleanL2_frame s _).trans (dropL2_frame _ _))

theorem fillL2_frame (s : State) (line key : Nat) : HomeFrame s (s.fillL2 line key) := by
  unfold State.fillL2
  split
  · split
    · exact .refl s
    · exact (((cleanL2_frame s line).trans (dropL2_frame _ line)).trans (fillMsc_frame _ line key)).trans (withCache_frame _ _)
  · exact ((l2Room_frame s _ line).trans (fillMsc_frame _ line key)).trans (withCache_frame _ _)

theorem setHomeLine_frame (s : State) (line : Nat) (l : Line) : HomeFrame s (s.setHomeLine line l) := ⟨rfl, id⟩

theorem atHome_frame (s : State) (p key : Nat) : HomeFrame s (s.atHome p key) := (fillL2_frame s _ key).ite (.refl s)

theorem unitHome_frame (s : State) (p key : Nat) (write : Bool) : HomeFrame s (s.unitHome p key write) := by
  unfold State.unitHome
  split
  · refine HomeFrame.trans ?_ ((unitLine_frame _ _ _ _).trans (atHome_frame _ _ _))
    split
    · exact crossing_frame s _ _ _ _ _
    · exact .refl s
  · exact .refl s

theorem homeSet_frame (s : State) (p len v : Nat) : HomeFrame s (s.homeSet p len v) := by
  unfold State.homeSet
  split
  · exact setHomeLine_frame s _ _
  · exact ⟨rfl, fun w => Memory.wf_writeBytes _ _ _ w⟩

theorem homeSetFull_frame (s : State) (p : Nat) (full : Bool) : HomeFrame s (s.homeSetFull p full) :=
  (setHomeLine_frame s _ _).ite ⟨rfl, id⟩

/-! ## L1 caches -/

theorem setL1_frame (s : State) (core line : Nat) (l : Line) : HomeFrame s (s.setL1 core line l) := ⟨rfl, id⟩

theorem dropL1_frame (s : State) (core line : Nat) : HomeFrame s (s.dropL1 core line) := ⟨rfl, id⟩

theorem mergeHome_frame (s : State) (line : Nat) (l : Line) : HomeFrame s (s.mergeHome line l) := by
  have a (m : Line) := ((fillL2_frame s line l.key).trans (setHomeLine_frame _ line m)).trans (logWriteBack_frame _ line l)
  exact ((a _).trans (ask_frame _ _)).ite (a _)

theorem cleanL1_frame (s : State) (core line : Nat) : HomeFrame s (s.cleanL1 core line) := by
  unfold State.cleanL1
  split
  · exact .refl s
  · split
    · exact .refl s
    · exact (mergeHome_frame s line _).trans (setL1_frame _ core line _)

theorem HomeFrame.foldl {α : Type} (f : State → α → State) (h : ∀ s a, HomeFrame s (f s a)) (l : List α) (s : State) :
    HomeFrame s (l.foldl f s) := by
  induction l generalizing s with
  | nil => exact .refl s
  | cons a r ih => exact (h s a).trans (ih (f s a))

theorem noFills_frame (s : State) (f : Nat → Nat → Bool) : PurgeFrame s (s.noFills f) := ⟨rfl, id⟩

theorem dropCleanL1_frame (s : State) (core : Nat) : PurgeFrame s (s.dropCleanL1 core) := ⟨rfl, id⟩

/-! ## Page tables and words through a translation -/

theorem walkFrom_frame (va level : Nat) : ∀ (s : State) (table : Nat), HomeFrame s (s.walkFrom va level table).2 := by
  induction level with
  | zero => intro s _; exact .refl s
  | succ n ih =>
    intro s table
    have a := (unitHome_frame s (ptePlace table (n + 1) va) 0 false).trans (correct_frame _ (ptePlace table (n + 1) va))
    unfold State.walkFrom
    simp only
    split
    · exact a.trans (logErr_frame _ 1 0 0 _)
    · split
      · exact a.trans (logErr_frame _ 4 0 0 _)
      · split
        · exact a
        · split
          · exact a.trans (ih _ _)
          · exact a

theorem walk_frame (s : State) (region va : Nat) (need : Acc3) : HomeFrame s (s.walk region va need).2 := by
  unfold State.walk
  split
  · exact .refl s
  · rename_i g _
    have a := walkFrom_frame va 4 s g.ptroot
    split
    · next h => rw [h] at a; exact a
    · next h =>
      rw [h] at a
      split
      · exact a
      · exact HomeFrame.ite a (a.trans ((unitHome_frame _ _ _ _).trans (homeSet_frame _ _ _ _)))

theorem tlbInstall_frame (s : State) (e : TlbEnt) : HomeFrame s (s.tlbInstall e) := ⟨rfl, id⟩

theorem tlbFor_frame (s : State) (core region va : Nat) : HomeFrame s (s.tlbFor core region va).2 := by
  unfold State.tlbFor
  split
  · exact .refl s
  · split
    · exact tlbInstall_frame s _
    · exact .refl s

theorem pendUnit_frame (s : State) (core : Option Nat) (tile region va : Nat) (need : Acc3) :
    HomeFrame s (s.pendUnit core tile region va need) := by
  unfold State.pendUnit
  simp only
  split
  · exact putOff_frame s _
  · exact (putOff_frame s _).ite ⟨rfl, id⟩

theorem unitXlate_frame (s : State) (core : Option Nat) (tile region va : Nat) (need : Acc3) :
    HomeFrame s (s.unitXlate core tile region va need).2 := by
  have a (c : Nat) := tlbFor_frame s c region va
  have b := HomeFrame.refl s
  have miss {t : State} (h : HomeFrame s t) (l : List Walk) : HomeFrame s { t with walks := l } := h.trans ⟨rfl, id⟩
  have pend {t : State} (h : HomeFrame s t) := h.trans (pendUnit_frame t core tile region va need)
  unfold State.unitXlate
  cases core <;> simp only <;> repeat' split
  all_goals first | exact a _ | exact b | exact miss (a _) _ | exact miss b _ | exact pend (a _) | exact pend b

theorem xlate_frame (s : State) (region va : Nat) (need : Acc3) : HomeFrame s (s.xlate region va need).2 := by
  unfold State.xlate
  split
  · exact unitXlate_frame s _ _ _ _ _
  · have a := walk_frame s region (va % 2 ^ 56) need
    split <;> next h => rw [h] at a; exact a

theorem devRead_frame (s : State) (region va : Nat) : HomeFrame s (s.devRead region va).2 := by
  have a := xlate_frame s region va .r
  unfold State.devRead
  split
  · next h => rw [h] at a; exact a
  · next x t h =>
    rw [h] at a
    have b := (a.trans (unitHome_frame t x.pa x.key false)).trans (correct_frame _ (wordOf x.pa))
    simp only
    split
    · exact b.trans (logErr_frame _ 1 0 0 _)
    · split
      · exact b.trans (logErr_frame _ 4 0 0 _)
      · exact b

theorem devWrite_frame (s : State) (region va : Nat) (v : Word) : HomeFrame s (s.devWrite region va v).2 := by
  have a := xlate_frame s region va .w
  unfold State.devWrite
  split
  · next h => rw [h] at a; exact a
  · next x t h =>
    rw [h] at a
    have b := a.trans (unitHome_frame t x.pa x.key true)
    simp only
    split
    · exact b.trans (logErr_frame _ 1 0 0 _)
    · split
      · exact b.trans (logErr_frame _ 4 0 0 _)
      · exact b.trans (homeSet_frame _ _ _ _)

theorem devReads_frame (region : Nat) (n : Nat) : ∀ (s : State) (va : Nat), HomeFrame s (s.devReads region va n).2 := by
  induction n with
  | zero => intro s _; exact .refl s
  | succ n ih =>
    intro s va
    have a := devRead_frame s region va
    unfold State.devReads
    split
    · next h => rw [h] at a; exact a
    · next h =>
      rw [h] at a
      have b := ih _ (va + 8) |> a.trans
      split <;> next k => rw [k] at b; exact b

theorem devWrites_frame (region : Nat) (l : List Word) : ∀ (s : State) (va : Nat), HomeFrame s (s.devWrites region va l).2 := by
  induction l with
  | nil => intro s _; exact .refl s
  | cons w r ih =>
    intro s va
    have a := devWrite_frame s region va w
    unfold State.devWrites
    split
    · next h => rw [h] at a; exact a
    · next h => rw [h] at a; exact a.trans (ih _ _)

theorem physRead_frame (s : State) (pa : Nat) : HomeFrame s (s.physRead pa).2 := (unitHome_frame s pa 0 false).trans (correct_frame _ _)

theorem physReads_frame (n : Nat) : ∀ (s : State) (pa : Nat), HomeFrame s (s.physReads pa n).2 := by
  induction n with
  | zero => intro s _; exact .refl s
  | succ n ih => intro s pa; exact (physRead_frame s pa).trans (ih _ _)

end Sys2Proof.Machine
end

