-- ==== Sys2Proof/Laws/State.lean ====
section
/-! SUPPORT. One lemma per field of the state per update of Base.lean: the update leaves the field as it is. -/

namespace Sys2Proof.Machine

/-! ## `modSlot` -/

@[simp] theorem modSlot_cur (s : State) (k : Nat) (f : Slot → Slot) : (s.modSlot k f).cur = s.cur := rfl
@[simp] theorem modSlot_regs (s : State) (k : Nat) (f : Slot → Slot) : (s.modSlot k f).regs = s.regs := rfl
@[simp] theorem modSlot_cores (s : State) (k : Nat) (f : Slot → Slot) : (s.modSlot k f).cores = s.cores := rfl
@[simp] theorem modSlot_queues (s : State) (k : Nat) (f : Slot → Slot) : (s.modSlot k f).queues = s.queues := rfl
@[simp] theorem modSlot_vregs (s : State) (k : Nat) (f : Slot → Slot) : (s.modSlot k f).vregs = s.vregs := rfl
@[simp] theorem modSlot_accs (s : State) (k : Nat) (f : Slot → Slot) : (s.modSlot k f).accs = s.accs := rfl
@[simp] theorem modSlot_planes (s : State) (k : Nat) (f : Slot → Slot) : (s.modSlot k f).planes = s.planes := rfl
@[simp] theorem modSlot_tiles (s : State) (k : Nat) (f : Slot → Slot) : (s.modSlot k f).tiles = s.tiles := rfl
@[simp] theorem modSlot_hubs (s : State) (k : Nat) (f : Slot → Slot) : (s.modSlot k f).hubs = s.hubs := rfl
@[simp] theorem modSlot_tcbs (s : State) (k : Nat) (f : Slot → Slot) : (s.modSlot k f).tcbs = s.tcbs := rfl
@[simp] theorem modSlot_regions (s : State) (k : Nat) (f : Slot → Slot) : (s.modSlot k f).regions = s.regions := rfl
@[simp] theorem modSlot_mem (s : State) (k : Nat) (f : Slot → Slot) : (s.modSlot k f).mem = s.mem := rfl
@[simp] theorem modSlot_flips (s : State) (k : Nat) (f : Slot → Slot) : (s.modSlot k f).flips = s.flips := rfl
@[simp] theorem modSlot_hbmKey (s : State) (k : Nat) (f : Slot → Slot) : (s.modSlot k f).hbmKey = s.hbmKey := rfl
@[simp] theorem modSlot_soft (s : State) (k : Nat) (f : Slot → Slot) : (s.modSlot k f).soft = s.soft := rfl
@[simp] theorem modSlot_dead (s : State) (k : Nat) (f : Slot → Slot) : (s.modSlot k f).dead = s.dead := rfl
@[simp] theorem modSlot_poison (s : State) (k : Nat) (f : Slot → Slot) : (s.modSlot k f).poison = s.poison := rfl
@[simp] theorem modSlot_cache (s : State) (k : Nat) (f : Slot → Slot) : (s.modSlot k f).cache = s.cache := rfl
@[simp] theorem modSlot_tlb (s : State) (k : Nat) (f : Slot → Slot) : (s.modSlot k f).tlb = s.tlb := rfl
@[simp] theorem modSlot_walks (s : State) (k : Nat) (f : Slot → Slot) : (s.modSlot k f).walks = s.walks := rfl
@[simp] theorem modSlot_reqs (s : State) (k : Nat) (f : Slot → Slot) : (s.modSlot k f).reqs = s.reqs := rfl
@[simp] theorem modSlot_reps (s : State) (k : Nat) (f : Slot → Slot) : (s.modSlot k f).reps = s.reps := rfl
@[simp] theorem modSlot_deferred (s : State) (k : Nat) (f : Slot → Slot) : (s.modSlot k f).deferred = s.deferred := rfl
@[simp] theorem modSlot_heldReqs (s : State) (k : Nat) (f : Slot → Slot) : (s.modSlot k f).heldReqs = s.heldReqs := rfl
@[simp] theorem modSlot_splits (s : State) (k : Nat) (f : Slot → Slot) : (s.modSlot k f).splits = s.splits := rfl
@[simp] theorem modSlot_sendrs (s : State) (k : Nat) (f : Slot → Slot) : (s.modSlot k f).sendrs = s.sendrs := rfl
@[simp] theorem modSlot_migs (s : State) (k : Nat) (f : Slot → Slot) : (s.modSlot k f).migs = s.migs := rfl
@[simp] theorem modSlot_parcels (s : State) (k : Nat) (f : Slot → Slot) : (s.modSlot k f).parcels = s.parcels := rfl
@[simp] theorem modSlot_engs (s : State) (k : Nat) (f : Slot → Slot) : (s.modSlot k f).engs = s.engs := rfl
@[simp] theorem modSlot_rings (s : State) (k : Nat) (f : Slot → Slot) : (s.modSlot k f).rings = s.rings := rfl
@[simp] theorem modSlot_donations (s : State) (k : Nat) (f : Slot → Slot) : (s.modSlot k f).donations = s.donations := rfl
@[simp] theorem modSlot_told (s : State) (k : Nat) (f : Slot → Slot) : (s.modSlot k f).told = s.told := rfl
@[simp] theorem modSlot_bridges (s : State) (k : Nat) (f : Slot → Slot) : (s.modSlot k f).bridges = s.bridges := rfl
@[simp] theorem modSlot_relScopes (s : State) (k : Nat) (f : Slot → Slot) : (s.modSlot k f).relScopes = s.relScopes := rfl
@[simp] theorem modSlot_rems (s : State) (k : Nat) (f : Slot → Slot) : (s.modSlot k f).rems = s.rems := rfl
@[simp] theorem modSlot_ports (s : State) (k : Nat) (f : Slot → Slot) : (s.modSlot k f).ports = s.ports := rfl
@[simp] theorem modSlot_images (s : State) (k : Nat) (f : Slot → Slot) : (s.modSlot k f).images = s.images := rfl
@[simp] theorem modSlot_pacer (s : State) (k : Nat) (f : Slot → Slot) : (s.modSlot k f).pacer = s.pacer := rfl
@[simp] theorem modSlot_host (s : State) (k : Nat) (f : Slot → Slot) : (s.modSlot k f).host = s.host := rfl
@[simp] theorem modSlot_now (s : State) (k : Nat) (f : Slot → Slot) : (s.modSlot k f).now = s.now := rfl
@[simp] theorem modSlot_timeBefore (s : State) (k : Nat) (f : Slot → Slot) : (s.modSlot k f).timeBefore = s.timeBefore := rfl
@[simp] theorem modSlot_lagged (s : State) (k : Nat) (f : Slot → Slot) : (s.modSlot k f).lagged = s.lagged := rfl
@[simp] theorem modSlot_lastIssue (s : State) (k : Nat) (f : Slot → Slot) : (s.modSlot k f).lastIssue = s.lastIssue := rfl
@[simp] theorem modSlot_agenda (s : State) (k : Nat) (f : Slot → Slot) : (s.modSlot k f).agenda = s.agenda := rfl
@[simp] theorem modSlot_out (s : State) (k : Nat) (f : Slot → Slot) : (s.modSlot k f).out = s.out := rfl
@[simp] theorem modSlot_nextId (s : State) (k : Nat) (f : Slot → Slot) : (s.modSlot k f).nextId = s.nextId := rfl
@[simp] theorem modSlot_tick (s : State) (k : Nat) (f : Slot → Slot) : (s.modSlot k f).tick = s.tick := rfl
@[simp] theorem modSlot_work (s : State) (k : Nat) (f : Slot → Slot) : (s.modSlot k f).work = s.work := rfl
@[simp] theorem modSlot_stalled (s : State) (k : Nat) (f : Slot → Slot) : (s.modSlot k f).stalled = s.stalled := rfl
@[simp] theorem modSlot_wants (s : State) (k : Nat) (f : Slot → Slot) : (s.modSlot k f).wants = s.wants := rfl
@[simp] theorem modSlot_visits (s : State) (k : Nat) (f : Slot → Slot) : (s.modSlot k f).visits = s.visits := rfl

/-! ## `modCore` -/

@[simp] theorem modCore_cur (s : State) (c : Nat) (f : CoreRec → CoreRec) : (s.modCore c f).cur = s.cur := rfl
@[simp] theorem modCore_slots (s : State) (c : Nat) (f : CoreRec → CoreRec) : (s.modCore c f).slots = s.slots := rfl
@[simp] theorem modCore_regs (s : State) (c : Nat) (f : CoreRec → CoreRec) : (s.modCore c f).regs = s.regs := rfl
@[simp] theorem modCore_queues (s : State) (c : Nat) (f : CoreRec → CoreRec) : (s.modCore c f).queues = s.queues := rfl
@[simp] theorem modCore_vregs (s : State) (c : Nat) (f : CoreRec → CoreRec) : (s.modCore c f).vregs = s.vregs := rfl
@[simp] theorem modCore_accs (s : State) (c : Nat) (f : CoreRec → CoreRec) : (s.modCore c f).accs = s.accs := rfl
@[simp] theorem modCore_planes (s : State) (c : Nat) (f : CoreRec → CoreRec) : (s.modCore c f).planes = s.planes := rfl
@[simp] theorem modCore_tiles (s : State) (c : Nat) (f : CoreRec → CoreRec) : (s.modCore c f).tiles = s.tiles := rfl
@[simp] theorem modCore_hubs (s : State) (c : Nat) (f : CoreRec → CoreRec) : (s.modCore c f).hubs = s.hubs := rfl
@[simp] theorem modCore_tcbs (s : State) (c : Nat) (f : CoreRec → CoreRec) : (s.modCore c f).tcbs = s.tcbs := rfl
@[simp] theorem modCore_regions (s : State) (c : Nat) (f : CoreRec → CoreRec) : (s.modCore c f).regions = s.regions := rfl
@[simp] theorem modCore_mem (s : State) (c : Nat) (f : CoreRec → CoreRec) : (s.modCore c f).mem = s.mem := rfl
@[simp] theorem modCore_flips (s : State) (c : Nat) (f : CoreRec → CoreRec) : (s.modCore c f).flips = s.flips := rfl
@[simp] theorem modCore_hbmKey (s : State) (c : Nat) (f : CoreRec → CoreRec) : (s.modCore c f).hbmKey = s.hbmKey := rfl
@[simp] theorem modCore_soft (s : State) (c : Nat) (f : CoreRec → CoreRec) : (s.modCore c f).soft = s.soft := rfl
@[simp] theorem modCore_dead (s : State) (c : Nat) (f : CoreRec → CoreRec) : (s.modCore c f).dead = s.dead := rfl
@[simp] theorem modCore_poison (s : State) (c : Nat) (f : CoreRec → CoreRec) : (s.modCore c f).poison = s.poison := rfl
@[simp] theorem modCore_cache (s : State) (c : Nat) (f : CoreRec → CoreRec) : (s.modCore c f).cache = s.cache := rfl
@[simp] theorem modCore_tlb (s : State) (c : Nat) (f : CoreRec → CoreRec) : (s.modCore c f).tlb = s.tlb := rfl
@[simp] theorem modCore_walks (s : State) (c : Nat) (f : CoreRec → CoreRec) : (s.modCore c f).walks = s.walks := rfl
@[simp] theorem modCore_reqs (s : State) (c : Nat) (f : CoreRec → CoreRec) : (s.modCore c f).reqs = s.reqs := rfl
@[simp] theorem modCore_reps (s : State) (c : Nat) (f : CoreRec → CoreRec) : (s.modCore c f).reps = s.reps := rfl
@[simp] theorem modCore_deferred (s : State) (c : Nat) (f : CoreRec → CoreRec) : (s.modCore c f).deferred = s.deferred := rfl
@[simp] theorem modCore_heldReqs (s : State) (c : Nat) (f : CoreRec → CoreRec) : (s.modCore c f).heldReqs = s.heldReqs := rfl
@[simp] theorem modCore_splits (s : State) (c : Nat) (f : CoreRec → CoreRec) : (s.modCore c f).splits = s.splits := rfl
@[simp] theorem modCore_sendrs (s : State) (c : Nat) (f : CoreRec → CoreRec) : (s.modCore c f).sendrs = s.sendrs := rfl
@[simp] theorem modCore_migs (s : State) (c : Nat) (f : CoreRec → CoreRec) : (s.modCore c f).migs = s.migs := rfl
@[simp] theorem modCore_parcels (s : State) (c : Nat) (f : CoreRec → CoreRec) : (s.modCore c f).parcels = s.parcels := rfl
@[simp] theorem modCore_engs (s : State) (c : Nat) (f : CoreRec → CoreRec) : (s.modCore c f).engs = s.engs := rfl
@[simp] theorem modCore_rings (s : State) (c : Nat) (f : CoreRec → CoreRec) : (s.modCore c f).rings = s.rings := rfl
@[simp] theorem modCore_donations (s : State) (c : Nat) (f : CoreRec → CoreRec) : (s.modCore c f).donations = s.donations := rfl
@[simp] theorem modCore_told (s : State) (c : Nat) (f : CoreRec → CoreRec) : (s.modCore c f).told = s.told := rfl
@[simp] theorem modCore_bridges (s : State) (c : Nat) (f : CoreRec → CoreRec) : (s.modCore c f).bridges = s.bridges := rfl
@[simp] theorem modCore_relScopes (s : State) (c : Nat) (f : CoreRec → CoreRec) : (s.modCore c f).relScopes = s.relScopes := rfl
@[simp] theorem modCore_rems (s : State) (c : Nat) (f : CoreRec → CoreRec) : (s.modCore c f).rems = s.rems := rfl
@[simp] theorem modCore_ports (s : State) (c : Nat) (f : CoreRec → CoreRec) : (s.modCore c f).ports = s.ports := rfl
@[simp] theorem modCore_images (s : State) (c : Nat) (f : CoreRec → CoreRec) : (s.modCore c f).images = s.images := rfl
@[simp] theorem modCore_pacer (s : State) (c : Nat) (f : CoreRec → CoreRec) : (s.modCore c f).pacer = s.pacer := rfl
@[simp] theorem modCore_host (s : State) (c : Nat) (f : CoreRec → CoreRec) : (s.modCore c f).host = s.host := rfl
@[simp] theorem modCore_now (s : State) (c : Nat) (f : CoreRec → CoreRec) : (s.modCore c f).now = s.now := rfl
@[simp] theorem modCore_timeBefore (s : State) (c : Nat) (f : CoreRec → CoreRec) : (s.modCore c f).timeBefore = s.timeBefore := rfl
@[simp] theorem modCore_lagged (s : State) (c : Nat) (f : CoreRec → CoreRec) : (s.modCore c f).lagged = s.lagged := rfl
@[simp] theorem modCore_lastIssue (s : State) (c : Nat) (f : CoreRec → CoreRec) : (s.modCore c f).lastIssue = s.lastIssue := rfl
@[simp] theorem modCore_agenda (s : State) (c : Nat) (f : CoreRec → CoreRec) : (s.modCore c f).agenda = s.agenda := rfl
@[simp] theorem modCore_out (s : State) (c : Nat) (f : CoreRec → CoreRec) : (s.modCore c f).out = s.out := rfl
@[simp] theorem modCore_nextId (s : State) (c : Nat) (f : CoreRec → CoreRec) : (s.modCore c f).nextId = s.nextId := rfl
@[simp] theorem modCore_tick (s : State) (c : Nat) (f : CoreRec → CoreRec) : (s.modCore c f).tick = s.tick := rfl
@[simp] theorem modCore_work (s : State) (c : Nat) (f : CoreRec → CoreRec) : (s.modCore c f).work = s.work := rfl
@[simp] theorem modCore_stalled (s : State) (c : Nat) (f : CoreRec → CoreRec) : (s.modCore c f).stalled = s.stalled := rfl
@[simp] theorem modCore_wants (s : State) (c : Nat) (f : CoreRec → CoreRec) : (s.modCore c f).wants = s.wants := rfl
@[simp] theorem modCore_visits (s : State) (c : Nat) (f : CoreRec → CoreRec) : (s.modCore c f).visits = s.visits := rfl

/-! ## `modTile` -/

@[simp] theorem modTile_cur (s : State) (n : Nat) (f : TileRec → TileRec) : (s.modTile n f).cur = s.cur := rfl
@[simp] theorem modTile_slots (s : State) (n : Nat) (f : TileRec → TileRec) : (s.modTile n f).slots = s.slots := rfl
@[simp] theorem modTile_regs (s : State) (n : Nat) (f : TileRec → TileRec) : (s.modTile n f).regs = s.regs := rfl
@[simp] theorem modTile_cores (s : State) (n : Nat) (f : TileRec → TileRec) : (s.modTile n f).cores = s.cores := rfl
@[simp] theorem modTile_queues (s : State) (n : Nat) (f : TileRec → TileRec) : (s.modTile n f).queues = s.queues := rfl
@[simp] theorem modTile_vregs (s : State) (n : Nat) (f : TileRec → TileRec) : (s.modTile n f).vregs = s.vregs := rfl
@[simp] theorem modTile_accs (s : State) (n : Nat) (f : TileRec → TileRec) : (s.modTile n f).accs = s.accs := rfl
@[simp] theorem modTile_planes (s : State) (n : Nat) (f : TileRec → TileRec) : (s.modTile n f).planes = s.planes := rfl
@[simp] theorem modTile_hubs (s : State) (n : Nat) (f : TileRec → TileRec) : (s.modTile n f).hubs = s.hubs := rfl
@[simp] theorem modTile_tcbs (s : State) (n : Nat) (f : TileRec → TileRec) : (s.modTile n f).tcbs = s.tcbs := rfl
@[simp] theorem modTile_regions (s : State) (n : Nat) (f : TileRec → TileRec) : (s.modTile n f).regions = s.regions := rfl
@[simp] theorem modTile_mem (s : State) (n : Nat) (f : TileRec → TileRec) : (s.modTile n f).mem = s.mem := rfl
@[simp] theorem modTile_flips (s : State) (n : Nat) (f : TileRec → TileRec) : (s.modTile n f).flips = s.flips := rfl
@[simp] theorem modTile_hbmKey (s : State) (n : Nat) (f : TileRec → TileRec) : (s.modTile n f).hbmKey = s.hbmKey := rfl
@[simp] theorem modTile_soft (s : State) (n : Nat) (f : TileRec → TileRec) : (s.modTile n f).soft = s.soft := rfl
@[simp] theorem modTile_dead (s : State) (n : Nat) (f : TileRec → TileRec) : (s.modTile n f).dead = s.dead := rfl
@[simp] theorem modTile_poison (s : State) (n : Nat) (f : TileRec → TileRec) : (s.modTile n f).poison = s.poison := rfl
@[simp] theorem modTile_cache (s : State) (n : Nat) (f : TileRec → TileRec) : (s.modTile n f).cache = s.cache := rfl
@[simp] theorem modTile_tlb (s : State) (n : Nat) (f : TileRec → TileRec) : (s.modTile n f).tlb = s.tlb := rfl
@[simp] theorem modTile_walks (s : State) (n : Nat) (f : TileRec → TileRec) : (s.modTile n f).walks = s.walks := rfl
@[simp] theorem modTile_reqs (s : State) (n : Nat) (f : TileRec → TileRec) : (s.modTile n f).reqs = s.reqs := rfl
@[simp] theorem modTile_reps (s : State) (n : Nat) (f : TileRec → TileRec) : (s.modTile n f).reps = s.reps := rfl
@[simp] theorem modTile_deferred (s : State) (n : Nat) (f : TileRec → TileRec) : (s.modTile n f).deferred = s.deferred := rfl
@[simp] theorem modTile_heldReqs (s : State) (n : Nat) (f : TileRec → TileRec) : (s.modTile n f).heldReqs = s.heldReqs := rfl
@[simp] theorem modTile_splits (s : State) (n : Nat) (f : TileRec → TileRec) : (s.modTile n f).splits = s.splits := rfl
@[simp] theorem modTile_sendrs (s : State) (n : Nat) (f : TileRec → TileRec) : (s.modTile n f).sendrs = s.sendrs := rfl
@[simp] theorem modTile_migs (s : State) (n : Nat) (f : TileRec → TileRec) : (s.modTile n f).migs = s.migs := rfl
@[simp] theorem modTile_parcels (s : State) (n : Nat) (f : TileRec → TileRec) : (s.modTile n f).parcels = s.parcels := rfl
@[simp] theorem modTile_engs (s : State) (n : Nat) (f : TileRec → TileRec) : (s.modTile n f).engs = s.engs := rfl
@[simp] theorem modTile_rings (s : State) (n : Nat) (f : TileRec → TileRec) : (s.modTile n f).rings = s.rings := rfl
@[simp] theorem modTile_donations (s : State) (n : Nat) (f : TileRec → TileRec) : (s.modTile n f).donations = s.donations := rfl
@[simp] theorem modTile_told (s : State) (n : Nat) (f : TileRec → TileRec) : (s.modTile n f).told = s.told := rfl
@[simp] theorem modTile_bridges (s : State) (n : Nat) (f : TileRec → TileRec) : (s.modTile n f).bridges = s.bridges := rfl
@[simp] theorem modTile_relScopes (s : State) (n : Nat) (f : TileRec → TileRec) : (s.modTile n f).relScopes = s.relScopes := rfl
@[simp] theorem modTile_rems (s : State) (n : Nat) (f : TileRec → TileRec) : (s.modTile n f).rems = s.rems := rfl
@[simp] theorem modTile_ports (s : State) (n : Nat) (f : TileRec → TileRec) : (s.modTile n f).ports = s.ports := rfl
@[simp] theorem modTile_images (s : State) (n : Nat) (f : TileRec → TileRec) : (s.modTile n f).images = s.images := rfl
@[simp] theorem modTile_pacer (s : State) (n : Nat) (f : TileRec → TileRec) : (s.modTile n f).pacer = s.pacer := rfl
@[simp] theorem modTile_host (s : State) (n : Nat) (f : TileRec → TileRec) : (s.modTile n f).host = s.host := rfl
@[simp] theorem modTile_now (s : State) (n : Nat) (f : TileRec → TileRec) : (s.modTile n f).now = s.now := rfl
@[simp] theorem modTile_timeBefore (s : State) (n : Nat) (f : TileRec → TileRec) : (s.modTile n f).timeBefore = s.timeBefore := rfl
@[simp] theorem modTile_lagged (s : State) (n : Nat) (f : TileRec → TileRec) : (s.modTile n f).lagged = s.lagged := rfl
@[simp] theorem modTile_lastIssue (s : State) (n : Nat) (f : TileRec → TileRec) : (s.modTile n f).lastIssue = s.lastIssue := rfl
@[simp] theorem modTile_agenda (s : State) (n : Nat) (f : TileRec → TileRec) : (s.modTile n f).agenda = s.agenda := rfl
@[simp] theorem modTile_out (s : State) (n : Nat) (f : TileRec → TileRec) : (s.modTile n f).out = s.out := rfl
@[simp] theorem modTile_nextId (s : State) (n : Nat) (f : TileRec → TileRec) : (s.modTile n f).nextId = s.nextId := rfl
@[simp] theorem modTile_tick (s : State) (n : Nat) (f : TileRec → TileRec) : (s.modTile n f).tick = s.tick := rfl
@[simp] theorem modTile_work (s : State) (n : Nat) (f : TileRec → TileRec) : (s.modTile n f).work = s.work := rfl
@[simp] theorem modTile_stalled (s : State) (n : Nat) (f : TileRec → TileRec) : (s.modTile n f).stalled = s.stalled := rfl
@[simp] theorem modTile_wants (s : State) (n : Nat) (f : TileRec → TileRec) : (s.modTile n f).wants = s.wants := rfl
@[simp] theorem modTile_visits (s : State) (n : Nat) (f : TileRec → TileRec) : (s.modTile n f).visits = s.visits := rfl

/-! ## `modHub` -/

@[simp] theorem modHub_cur (s : State) (c : Nat) (f : HubRec → HubRec) : (s.modHub c f).cur = s.cur := rfl
@[simp] theorem modHub_slots (s : State) (c : Nat) (f : HubRec → HubRec) : (s.modHub c f).slots = s.slots := rfl
@[simp] theorem modHub_regs (s : State) (c : Nat) (f : HubRec → HubRec) : (s.modHub c f).regs = s.regs := rfl
@[simp] theorem modHub_cores (s : State) (c : Nat) (f : HubRec → HubRec) : (s.modHub c f).cores = s.cores := rfl
@[simp] theorem modHub_queues (s : State) (c : Nat) (f : HubRec → HubRec) : (s.modHub c f).queues = s.queues := rfl
@[simp] theorem modHub_vregs (s : State) (c : Nat) (f : HubRec → HubRec) : (s.modHub c f).vregs = s.vregs := rfl
@[simp] theorem modHub_accs (s : State) (c : Nat) (f : HubRec → HubRec) : (s.modHub c f).accs = s.accs := rfl
@[simp] theorem modHub_planes (s : State) (c : Nat) (f : HubRec → HubRec) : (s.modHub c f).planes = s.planes := rfl
@[simp] theorem modHub_tiles (s : State) (c : Nat) (f : HubRec → HubRec) : (s.modHub c f).tiles = s.tiles := rfl
@[simp] theorem modHub_tcbs (s : State) (c : Nat) (f : HubRec → HubRec) : (s.modHub c f).tcbs = s.tcbs := rfl
@[simp] theorem modHub_regions (s : State) (c : Nat) (f : HubRec → HubRec) : (s.modHub c f).regions = s.regions := rfl
@[simp] theorem modHub_mem (s : State) (c : Nat) (f : HubRec → HubRec) : (s.modHub c f).mem = s.mem := rfl
@[simp] theorem modHub_flips (s : State) (c : Nat) (f : HubRec → HubRec) : (s.modHub c f).flips = s.flips := rfl
@[simp] theorem modHub_hbmKey (s : State) (c : Nat) (f : HubRec → HubRec) : (s.modHub c f).hbmKey = s.hbmKey := rfl
@[simp] theorem modHub_soft (s : State) (c : Nat) (f : HubRec → HubRec) : (s.modHub c f).soft = s.soft := rfl
@[simp] theorem modHub_dead (s : State) (c : Nat) (f : HubRec → HubRec) : (s.modHub c f).dead = s.dead := rfl
@[simp] theorem modHub_poison (s : State) (c : Nat) (f : HubRec → HubRec) : (s.modHub c f).poison = s.poison := rfl
@[simp] theorem modHub_cache (s : State) (c : Nat) (f : HubRec → HubRec) : (s.modHub c f).cache = s.cache := rfl
@[simp] theorem modHub_tlb (s : State) (c : Nat) (f : HubRec → HubRec) : (s.modHub c f).tlb = s.tlb := rfl
@[simp] theorem modHub_walks (s : State) (c : Nat) (f : HubRec → HubRec) : (s.modHub c f).walks = s.walks := rfl
@[simp] theorem modHub_reqs (s : State) (c : Nat) (f : HubRec → HubRec) : (s.modHub c f).reqs = s.reqs := rfl
@[simp] theorem modHub_reps (s : State) (c : Nat) (f : HubRec → HubRec) : (s.modHub c f).reps = s.reps := rfl
@[simp] theorem modHub_deferred (s : State) (c : Nat) (f : HubRec → HubRec) : (s.modHub c f).deferred = s.deferred := rfl
@[simp] theorem modHub_heldReqs (s : State) (c : Nat) (f : HubRec → HubRec) : (s.modHub c f).heldReqs = s.heldReqs := rfl
@[simp] theorem modHub_splits (s : State) (c : Nat) (f : HubRec → HubRec) : (s.modHub c f).splits = s.splits := rfl
@[simp] theorem modHub_sendrs (s : State) (c : Nat) (f : HubRec → HubRec) : (s.modHub c f).sendrs = s.sendrs := rfl
@[simp] theorem modHub_migs (s : State) (c : Nat) (f : HubRec → HubRec) : (s.modHub c f).migs = s.migs := rfl
@[simp] theorem modHub_parcels (s : State) (c : Nat) (f : HubRec → HubRec) : (s.modHub c f).parcels = s.parcels := rfl
@[simp] theorem modHub_engs (s : State) (c : Nat) (f : HubRec → HubRec) : (s.modHub c f).engs = s.engs := rfl
@[simp] theorem modHub_rings (s : State) (c : Nat) (f : HubRec → HubRec) : (s.modHub c f).rings = s.rings := rfl
@[simp] theorem modHub_donations (s : State) (c : Nat) (f : HubRec → HubRec) : (s.modHub c f).donations = s.donations := rfl
@[simp] theorem modHub_told (s : State) (c : Nat) (f : HubRec → HubRec) : (s.modHub c f).told = s.told := rfl
@[simp] theorem modHub_bridges (s : State) (c : Nat) (f : HubRec → HubRec) : (s.modHub c f).bridges = s.bridges := rfl
@[simp] theorem modHub_relScopes (s : State) (c : Nat) (f : HubRec → HubRec) : (s.modHub c f).relScopes = s.relScopes := rfl
@[simp] theorem modHub_rems (s : State) (c : Nat) (f : HubRec → HubRec) : (s.modHub c f).rems = s.rems := rfl
@[simp] theorem modHub_ports (s : State) (c : Nat) (f : HubRec → HubRec) : (s.modHub c f).ports = s.ports := rfl
@[simp] theorem modHub_images (s : State) (c : Nat) (f : HubRec → HubRec) : (s.modHub c f).images = s.images := rfl
@[simp] theorem modHub_pacer (s : State) (c : Nat) (f : HubRec → HubRec) : (s.modHub c f).pacer = s.pacer := rfl
@[simp] theorem modHub_host (s : State) (c : Nat) (f : HubRec → HubRec) : (s.modHub c f).host = s.host := rfl
@[simp] theorem modHub_now (s : State) (c : Nat) (f : HubRec → HubRec) : (s.modHub c f).now = s.now := rfl
@[simp] theorem modHub_timeBefore (s : State) (c : Nat) (f : HubRec → HubRec) : (s.modHub c f).timeBefore = s.timeBefore := rfl
@[simp] theorem modHub_lagged (s : State) (c : Nat) (f : HubRec → HubRec) : (s.modHub c f).lagged = s.lagged := rfl
@[simp] theorem modHub_lastIssue (s : State) (c : Nat) (f : HubRec → HubRec) : (s.modHub c f).lastIssue = s.lastIssue := rfl
@[simp] theorem modHub_agenda (s : State) (c : Nat) (f : HubRec → HubRec) : (s.modHub c f).agenda = s.agenda := rfl
@[simp] theorem modHub_out (s : State) (c : Nat) (f : HubRec → HubRec) : (s.modHub c f).out = s.out := rfl
@[simp] theorem modHub_nextId (s : State) (c : Nat) (f : HubRec → HubRec) : (s.modHub c f).nextId = s.nextId := rfl
@[simp] theorem modHub_tick (s : State) (c : Nat) (f : HubRec → HubRec) : (s.modHub c f).tick = s.tick := rfl
@[simp] theorem modHub_work (s : State) (c : Nat) (f : HubRec → HubRec) : (s.modHub c f).work = s.work := rfl
@[simp] theorem modHub_stalled (s : State) (c : Nat) (f : HubRec → HubRec) : (s.modHub c f).stalled = s.stalled := rfl
@[simp] theorem modHub_wants (s : State) (c : Nat) (f : HubRec → HubRec) : (s.modHub c f).wants = s.wants := rfl
@[simp] theorem modHub_visits (s : State) (c : Nat) (f : HubRec → HubRec) : (s.modHub c f).visits = s.visits := rfl

/-! ## `modTcb` -/

@[simp] theorem modTcb_cur (s : State) (k : Nat) (f : Tcb → Tcb) : (s.modTcb k f).cur = s.cur := rfl
@[simp] theorem modTcb_slots (s : State) (k : Nat) (f : Tcb → Tcb) : (s.modTcb k f).slots = s.slots := rfl
@[simp] theorem modTcb_regs (s : State) (k : Nat) (f : Tcb → Tcb) : (s.modTcb k f).regs = s.regs := rfl
@[simp] theorem modTcb_cores (s : State) (k : Nat) (f : Tcb → Tcb) : (s.modTcb k f).cores = s.cores := rfl
@[simp] theorem modTcb_queues (s : State) (k : Nat) (f : Tcb → Tcb) : (s.modTcb k f).queues = s.queues := rfl
@[simp] theorem modTcb_vregs (s : State) (k : Nat) (f : Tcb → Tcb) : (s.modTcb k f).vregs = s.vregs := rfl
@[simp] theorem modTcb_accs (s : State) (k : Nat) (f : Tcb → Tcb) : (s.modTcb k f).accs = s.accs := rfl
@[simp] theorem modTcb_planes (s : State) (k : Nat) (f : Tcb → Tcb) : (s.modTcb k f).planes = s.planes := rfl
@[simp] theorem modTcb_tiles (s : State) (k : Nat) (f : Tcb → Tcb) : (s.modTcb k f).tiles = s.tiles := rfl
@[simp] theorem modTcb_hubs (s : State) (k : Nat) (f : Tcb → Tcb) : (s.modTcb k f).hubs = s.hubs := rfl
@[simp] theorem modTcb_regions (s : State) (k : Nat) (f : Tcb → Tcb) : (s.modTcb k f).regions = s.regions := rfl
@[simp] theorem modTcb_mem (s : State) (k : Nat) (f : Tcb → Tcb) : (s.modTcb k f).mem = s.mem := rfl
@[simp] theorem modTcb_flips (s : State) (k : Nat) (f : Tcb → Tcb) : (s.modTcb k f).flips = s.flips := rfl
@[simp] theorem modTcb_hbmKey (s : State) (k : Nat) (f : Tcb → Tcb) : (s.modTcb k f).hbmKey = s.hbmKey := rfl
@[simp] theorem modTcb_soft (s : State) (k : Nat) (f : Tcb → Tcb) : (s.modTcb k f).soft = s.soft := rfl
@[simp] theorem modTcb_dead (s : State) (k : Nat) (f : Tcb → Tcb) : (s.modTcb k f).dead = s.dead := rfl
@[simp] theorem modTcb_poison (s : State) (k : Nat) (f : Tcb → Tcb) : (s.modTcb k f).poison = s.poison := rfl
@[simp] theorem modTcb_cache (s : State) (k : Nat) (f : Tcb → Tcb) : (s.modTcb k f).cache = s.cache := rfl
@[simp] theorem modTcb_tlb (s : State) (k : Nat) (f : Tcb → Tcb) : (s.modTcb k f).tlb = s.tlb := rfl
@[simp] theorem modTcb_walks (s : State) (k : Nat) (f : Tcb → Tcb) : (s.modTcb k f).walks = s.walks := rfl
@[simp] theorem modTcb_reqs (s : State) (k : Nat) (f : Tcb → Tcb) : (s.modTcb k f).reqs = s.reqs := rfl
@[simp] theorem modTcb_reps (s : State) (k : Nat) (f : Tcb → Tcb) : (s.modTcb k f).reps = s.reps := rfl
@[simp] theorem modTcb_deferred (s : State) (k : Nat) (f : Tcb → Tcb) : (s.modTcb k f).deferred = s.deferred := rfl
@[simp] theorem modTcb_heldReqs (s : State) (k : Nat) (f : Tcb → Tcb) : (s.modTcb k f).heldReqs = s.heldReqs := rfl
@[simp] theorem modTcb_splits (s : State) (k : Nat) (f : Tcb → Tcb) : (s.modTcb k f).splits = s.splits := rfl
@[simp] theorem modTcb_sendrs (s : State) (k : Nat) (f : Tcb → Tcb) : (s.modTcb k f).sendrs = s.sendrs := rfl
@[simp] theorem modTcb_migs (s : State) (k : Nat) (f : Tcb → Tcb) : (s.modTcb k f).migs = s.migs := rfl
@[simp] theorem modTcb_parcels (s : State) (k : Nat) (f : Tcb → Tcb) : (s.modTcb k f).parcels = s.parcels := rfl
@[simp] theorem modTcb_engs (s : State) (k : Nat) (f : Tcb → Tcb) : (s.modTcb k f).engs = s.engs := rfl
@[simp] theorem modTcb_rings (s : State) (k : Nat) (f : Tcb → Tcb) : (s.modTcb k f).rings = s.rings := rfl
@[simp] theorem modTcb_donations (s : State) (k : Nat) (f : Tcb → Tcb) : (s.modTcb k f).donations = s.donations := rfl
@[simp] theorem modTcb_told (s : State) (k : Nat) (f : Tcb → Tcb) : (s.modTcb k f).told = s.told := rfl
@[simp] theorem modTcb_bridges (s : State) (k : Nat) (f : Tcb → Tcb) : (s.modTcb k f).bridges = s.bridges := rfl
@[simp] theorem modTcb_relScopes (s : State) (k : Nat) (f : Tcb → Tcb) : (s.modTcb k f).relScopes = s.relScopes := rfl
@[simp] theorem modTcb_rems (s : State) (k : Nat) (f : Tcb → Tcb) : (s.modTcb k f).rems = s.rems := rfl
@[simp] theorem modTcb_ports (s : State) (k : Nat) (f : Tcb → Tcb) : (s.modTcb k f).ports = s.ports := rfl
@[simp] theorem modTcb_images (s : State) (k : Nat) (f : Tcb → Tcb) : (s.modTcb k f).images = s.images := rfl
@[simp] theorem modTcb_pacer (s : State) (k : Nat) (f : Tcb → Tcb) : (s.modTcb k f).pacer = s.pacer := rfl
@[simp] theorem modTcb_host (s : State) (k : Nat) (f : Tcb → Tcb) : (s.modTcb k f).host = s.host := rfl
@[simp] theorem modTcb_now (s : State) (k : Nat) (f : Tcb → Tcb) : (s.modTcb k f).now = s.now := rfl
@[simp] theorem modTcb_timeBefore (s : State) (k : Nat) (f : Tcb → Tcb) : (s.modTcb k f).timeBefore = s.timeBefore := rfl
@[simp] theorem modTcb_lagged (s : State) (k : Nat) (f : Tcb → Tcb) : (s.modTcb k f).lagged = s.lagged := rfl
@[simp] theorem modTcb_lastIssue (s : State) (k : Nat) (f : Tcb → Tcb) : (s.modTcb k f).lastIssue = s.lastIssue := rfl
@[simp] theorem modTcb_agenda (s : State) (k : Nat) (f : Tcb → Tcb) : (s.modTcb k f).agenda = s.agenda := rfl
@[simp] theorem modTcb_out (s : State) (k : Nat) (f : Tcb → Tcb) : (s.modTcb k f).out = s.out := rfl
@[simp] theorem modTcb_nextId (s : State) (k : Nat) (f : Tcb → Tcb) : (s.modTcb k f).nextId = s.nextId := rfl
@[simp] theorem modTcb_tick (s : State) (k : Nat) (f : Tcb → Tcb) : (s.modTcb k f).tick = s.tick := rfl
@[simp] theorem modTcb_work (s : State) (k : Nat) (f : Tcb → Tcb) : (s.modTcb k f).work = s.work := rfl
@[simp] theorem modTcb_stalled (s : State) (k : Nat) (f : Tcb → Tcb) : (s.modTcb k f).stalled = s.stalled := rfl
@[simp] theorem modTcb_wants (s : State) (k : Nat) (f : Tcb → Tcb) : (s.modTcb k f).wants = s.wants := rfl
@[simp] theorem modTcb_visits (s : State) (k : Nat) (f : Tcb → Tcb) : (s.modTcb k f).visits = s.visits := rfl

/-! ## `setRf` -/

@[simp] theorem setRf_cur (s : State) (c n : Nat) (r : Reg) : (s.setRf c n r).cur = s.cur := rfl
@[simp] theorem setRf_slots (s : State) (c n : Nat) (r : Reg) : (s.setRf c n r).slots = s.slots := rfl
@[simp] theorem setRf_cores (s : State) (c n : Nat) (r : Reg) : (s.setRf c n r).cores = s.cores := rfl
@[simp] theorem setRf_queues (s : State) (c n : Nat) (r : Reg) : (s.setRf c n r).queues = s.queues := rfl
@[simp] theorem setRf_vregs (s : State) (c n : Nat) (r : Reg) : (s.setRf c n r).vregs = s.vregs := rfl
@[simp] theorem setRf_accs (s : State) (c n : Nat) (r : Reg) : (s.setRf c n r).accs = s.accs := rfl
@[simp] theorem setRf_planes (s : State) (c n : Nat) (r : Reg) : (s.setRf c n r).planes = s.planes := rfl
@[simp] theorem setRf_tiles (s : State) (c n : Nat) (r : Reg) : (s.setRf c n r).tiles = s.tiles := rfl
@[simp] theorem setRf_hubs (s : State) (c n : Nat) (r : Reg) : (s.setRf c n r).hubs = s.hubs := rfl
@[simp] theorem setRf_tcbs (s : State) (c n : Nat) (r : Reg) : (s.setRf c n r).tcbs = s.tcbs := rfl
@[simp] theorem setRf_regions (s : State) (c n : Nat) (r : Reg) : (s.setRf c n r).regions = s.regions := rfl
@[simp] theorem setRf_mem (s : State) (c n : Nat) (r : Reg) : (s.setRf c n r).mem = s.mem := rfl
@[simp] theorem setRf_flips (s : State) (c n : Nat) (r : Reg) : (s.setRf c n r).flips = s.flips := rfl
@[simp] theorem setRf_hbmKey (s : State) (c n : Nat) (r : Reg) : (s.setRf c n r).hbmKey = s.hbmKey := rfl
@[simp] theorem setRf_poison (s : State) (c n : Nat) (r : Reg) : (s.setRf c n r).poison = s.poison := rfl
@[simp] theorem setRf_cache (s : State) (c n : Nat) (r : Reg) : (s.setRf c n r).cache = s.cache := rfl
@[simp] theorem setRf_tlb (s : State) (c n : Nat) (r : Reg) : (s.setRf c n r).tlb = s.tlb := rfl
@[simp] theorem setRf_walks (s : State) (c n : Nat) (r : Reg) : (s.setRf c n r).walks = s.walks := rfl
@[simp] theorem setRf_reqs (s : State) (c n : Nat) (r : Reg) : (s.setRf c n r).reqs = s.reqs := rfl
@[simp] theorem setRf_reps (s : State) (c n : Nat) (r : Reg) : (s.setRf c n r).reps = s.reps := rfl
@[simp] theorem setRf_deferred (s : State) (c n : Nat) (r : Reg) : (s.setRf c n r).deferred = s.deferred := rfl
@[simp] theorem setRf_heldReqs (s : State) (c n : Nat) (r : Reg) : (s.setRf c n r).heldReqs = s.heldReqs := rfl
@[simp] theorem setRf_splits (s : State) (c n : Nat) (r : Reg) : (s.setRf c n r).splits = s.splits := rfl
@[simp] theorem setRf_sendrs (s : State) (c n : Nat) (r : Reg) : (s.setRf c n r).sendrs = s.sendrs := rfl
@[simp] theorem setRf_migs (s : State) (c n : Nat) (r : Reg) : (s.setRf c n r).migs = s.migs := rfl
@[simp] theorem setRf_parcels (s : State) (c n : Nat) (r : Reg) : (s.setRf c n r).parcels = s.parcels := rfl
@[simp] theorem setRf_engs (s : State) (c n : Nat) (r : Reg) : (s.setRf c n r).engs = s.engs := rfl
@[simp] theorem setRf_rings (s : State) (c n : Nat) (r : Reg) : (s.setRf c n r).rings = s.rings := rfl
@[simp] theorem setRf_donations (s : State) (c n : Nat) (r : Reg) : (s.setRf c n r).donations = s.donations := rfl
@[simp] theorem setRf_told (s : State) (c n : Nat) (r : Reg) : (s.setRf c n r).told = s.told := rfl
@[simp] theorem setRf_bridges (s : State) (c n : Nat) (r : Reg) : (s.setRf c n r).bridges = s.bridges := rfl
@[simp] theorem setRf_relScopes (s : State) (c n : Nat) (r : Reg) : (s.setRf c n r).relScopes = s.relScopes := rfl
@[simp] theorem setRf_rems (s : State) (c n : Nat) (r : Reg) : (s.setRf c n r).rems = s.rems := rfl
@[simp] theorem setRf_ports (s : State) (c n : Nat) (r : Reg) : (s.setRf c n r).ports = s.ports := rfl
@[simp] theorem setRf_images (s : State) (c n : Nat) (r : Reg) : (s.setRf c n r).images = s.images := rfl
@[simp] theorem setRf_pacer (s : State) (c n : Nat) (r : Reg) : (s.setRf c n r).pacer = s.pacer := rfl
@[simp] theorem setRf_host (s : State) (c n : Nat) (r : Reg) : (s.setRf c n r).host = s.host := rfl
@[simp] theorem setRf_now (s : State) (c n : Nat) (r : Reg) : (s.setRf c n r).now = s.now := rfl
@[simp] theorem setRf_timeBefore (s : State) (c n : Nat) (r : Reg) : (s.setRf c n r).timeBefore = s.timeBefore := rfl
@[simp] theorem setRf_lagged (s : State) (c n : Nat) (r : Reg) : (s.setRf c n r).lagged = s.lagged := rfl
@[simp] theorem setRf_lastIssue (s : State) (c n : Nat) (r : Reg) : (s.setRf c n r).lastIssue = s.lastIssue := rfl
@[simp] theorem setRf_agenda (s : State) (c n : Nat) (r : Reg) : (s.setRf c n r).agenda = s.agenda := rfl
@[simp] theorem setRf_out (s : State) (c n : Nat) (r : Reg) : (s.setRf c n r).out = s.out := rfl
@[simp] theorem setRf_nextId (s : State) (c n : Nat) (r : Reg) : (s.setRf c n r).nextId = s.nextId := rfl
@[simp] theorem setRf_tick (s : State) (c n : Nat) (r : Reg) : (s.setRf c n r).tick = s.tick := rfl
@[simp] theorem setRf_work (s : State) (c n : Nat) (r : Reg) : (s.setRf c n r).work = s.work := rfl
@[simp] theorem setRf_stalled (s : State) (c n : Nat) (r : Reg) : (s.setRf c n r).stalled = s.stalled := rfl
@[simp] theorem setRf_wants (s : State) (c n : Nat) (r : Reg) : (s.setRf c n r).wants = s.wants := rfl
@[simp] theorem setRf_visits (s : State) (c n : Nat) (r : Reg) : (s.setRf c n r).visits = s.visits := rfl

/-! ## `setQueue` -/

@[simp] theorem setQueue_cur (s : State) (c q : Nat) (l : List QPlace) : (s.setQueue c q l).cur = s.cur := rfl
@[simp] theorem setQueue_slots (s : State) (c q : Nat) (l : List QPlace) : (s.setQueue c q l).slots = s.slots := rfl
@[simp] theorem setQueue_regs (s : State) (c q : Nat) (l : List QPlace) : (s.setQueue c q l).regs = s.regs := rfl
@[simp] theorem setQueue_cores (s : State) (c q : Nat) (l : List QPlace) : (s.setQueue c q l).cores = s.cores := rfl
@[simp] theorem setQueue_vregs (s : State) (c q : Nat) (l : List QPlace) : (s.setQueue c q l).vregs = s.vregs := rfl
@[simp] theorem setQueue_accs (s : State) (c q : Nat) (l : List QPlace) : (s.setQueue c q l).accs = s.accs := rfl
@[simp] theorem setQueue_planes (s : State) (c q : Nat) (l : List QPlace) : (s.setQueue c q l).planes = s.planes := rfl
@[simp] theorem setQueue_tiles (s : State) (c q : Nat) (l : List QPlace) : (s.setQueue c q l).tiles = s.tiles := rfl
@[simp] theorem setQueue_hubs (s : State) (c q : Nat) (l : List QPlace) : (s.setQueue c q l).hubs = s.hubs := rfl
@[simp] theorem setQueue_tcbs (s : State) (c q : Nat) (l : List QPlace) : (s.setQueue c q l).tcbs = s.tcbs := rfl
@[simp] theorem setQueue_regions (s : State) (c q : Nat) (l : List QPlace) : (s.setQueue c q l).regions = s.regions := rfl
@[simp] theorem setQueue_mem (s : State) (c q : Nat) (l : List QPlace) : (s.setQueue c q l).mem = s.mem := rfl
@[simp] theorem setQueue_flips (s : State) (c q : Nat) (l : List QPlace) : (s.setQueue c q l).flips = s.flips := rfl
@[simp] theorem setQueue_hbmKey (s : State) (c q : Nat) (l : List QPlace) : (s.setQueue c q l).hbmKey = s.hbmKey := rfl
@[simp] theorem setQueue_soft (s : State) (c q : Nat) (l : List QPlace) : (s.setQueue c q l).soft = s.soft := rfl
@[simp] theorem setQueue_dead (s : State) (c q : Nat) (l : List QPlace) : (s.setQueue c q l).dead = s.dead := rfl
@[simp] theorem setQueue_poison (s : State) (c q : Nat) (l : List QPlace) : (s.setQueue c q l).poison = s.poison := rfl
@[simp] theorem setQueue_cache (s : State) (c q : Nat) (l : List QPlace) : (s.setQueue c q l).cache = s.cache := rfl
@[simp] theorem setQueue_tlb (s : State) (c q : Nat) (l : List QPlace) : (s.setQueue c q l).tlb = s.tlb := rfl
@[simp] theorem setQueue_walks (s : State) (c q : Nat) (l : List QPlace) : (s.setQueue c q l).walks = s.walks := rfl
@[simp] theorem setQueue_reqs (s : State) (c q : Nat) (l : List QPlace) : (s.setQueue c q l).reqs = s.reqs := rfl
@[simp] theorem setQueue_reps (s : State) (c q : Nat) (l : List QPlace) : (s.setQueue c q l).reps = s.reps := rfl
@[simp] theorem setQueue_deferred (s : State) (c q : Nat) (l : List QPlace) : (s.setQueue c q l).deferred = s.deferred := rfl
@[simp] theorem setQueue_heldReqs (s : State) (c q : Nat) (l : List QPlace) : (s.setQueue c q l).heldReqs = s.heldReqs := rfl
@[simp] theorem setQueue_splits (s : State) (c q : Nat) (l : List QPlace) : (s.setQueue c q l).splits = s.splits := rfl
@[simp] theorem setQueue_sendrs (s : State) (c q : Nat) (l : List QPlace) : (s.setQueue c q l).sendrs = s.sendrs := rfl
@[simp] theorem setQueue_migs (s : State) (c q : Nat) (l : List QPlace) : (s.setQueue c q l).migs = s.migs := rfl
@[simp] theorem setQueue_parcels (s : State) (c q : Nat) (l : List QPlace) : (s.setQueue c q l).parcels = s.parcels := rfl
@[simp] theorem setQueue_engs (s : State) (c q : Nat) (l : List QPlace) : (s.setQueue c q l).engs = s.engs := rfl
@[simp] theorem setQueue_rings (s : State) (c q : Nat) (l : List QPlace) : (s.setQueue c q l).rings = s.rings := rfl
@[simp] theorem setQueue_donations (s : State) (c q : Nat) (l : List QPlace) : (s.setQueue c q l).donations = s.donations := rfl
@[simp] theorem setQueue_told (s : State) (c q : Nat) (l : List QPlace) : (s.setQueue c q l).told = s.told := rfl
@[simp] theorem setQueue_bridges (s : State) (c q : Nat) (l : List QPlace) : (s.setQueue c q l).bridges = s.bridges := rfl
@[simp] theorem setQueue_relScopes (s : State) (c q : Nat) (l : List QPlace) : (s.setQueue c q l).relScopes = s.relScopes := rfl
@[simp] theorem setQueue_rems (s : State) (c q : Nat) (l : List QPlace) : (s.setQueue c q l).rems = s.rems := rfl
@[simp] theorem setQueue_ports (s : State) (c q : Nat) (l : List QPlace) : (s.setQueue c q l).ports = s.ports := rfl
@[simp] theorem setQueue_images (s : State) (c q : Nat) (l : List QPlace) : (s.setQueue c q l).images = s.images := rfl
@[simp] theorem setQueue_pacer (s : State) (c q : Nat) (l : List QPlace) : (s.setQueue c q l).pacer = s.pacer := rfl
@[simp] theorem setQueue_host (s : State) (c q : Nat) (l : List QPlace) : (s.setQueue c q l).host = s.host := rfl
@[simp] theorem setQueue_now (s : State) (c q : Nat) (l : List QPlace) : (s.setQueue c q l).now = s.now := rfl
@[simp] theorem setQueue_timeBefore (s : State) (c q : Nat) (l : List QPlace) : (s.setQueue c q l).timeBefore = s.timeBefore := rfl
@[simp] theorem setQueue_lagged (s : State) (c q : Nat) (l : List QPlace) : (s.setQueue c q l).lagged = s.lagged := rfl
@[simp] theorem setQueue_lastIssue (s : State) (c q : Nat) (l : List QPlace) : (s.setQueue c q l).lastIssue = s.lastIssue := rfl
@[simp] theorem setQueue_agenda (s : State) (c q : Nat) (l : List QPlace) : (s.setQueue c q l).agenda = s.agenda := rfl
@[simp] theorem setQueue_out (s : State) (c q : Nat) (l : List QPlace) : (s.setQueue c q l).out = s.out := rfl
@[simp] theorem setQueue_nextId (s : State) (c q : Nat) (l : List QPlace) : (s.setQueue c q l).nextId = s.nextId := rfl
@[simp] theorem setQueue_tick (s : State) (c q : Nat) (l : List QPlace) : (s.setQueue c q l).tick = s.tick := rfl
@[simp] theorem setQueue_work (s : State) (c q : Nat) (l : List QPlace) : (s.setQueue c q l).work = s.work := rfl
@[simp] theorem setQueue_stalled (s : State) (c q : Nat) (l : List QPlace) : (s.setQueue c q l).stalled = s.stalled := rfl
@[simp] theorem setQueue_wants (s : State) (c q : Nat) (l : List QPlace) : (s.setQueue c q l).wants = s.wants := rfl
@[simp] theorem setQueue_visits (s : State) (c q : Nat) (l : List QPlace) : (s.setQueue c q l).visits = s.visits := rfl

/-! ## `setLane` -/

@[simp] theorem setLane_cur (s : State) (c v n : Nat) (x : Lane) : (s.setLane c v n x).cur = s.cur := rfl
@[simp] theorem setLane_slots (s : State) (c v n : Nat) (x : Lane) : (s.setLane c v n x).slots = s.slots := rfl
@[simp] theorem setLane_regs (s : State) (c v n : Nat) (x : Lane) : (s.setLane c v n x).regs = s.regs := rfl
@[simp] theorem setLane_cores (s : State) (c v n : Nat) (x : Lane) : (s.setLane c v n x).cores = s.cores := rfl
@[simp] theorem setLane_queues (s : State) (c v n : Nat) (x : Lane) : (s.setLane c v n x).queues = s.queues := rfl
@[simp] theorem setLane_accs (s : State) (c v n : Nat) (x : Lane) : (s.setLane c v n x).accs = s.accs := rfl
@[simp] theorem setLane_planes (s : State) (c v n : Nat) (x : Lane) : (s.setLane c v n x).planes = s.planes := rfl
@[simp] theorem setLane_tiles (s : State) (c v n : Nat) (x : Lane) : (s.setLane c v n x).tiles = s.tiles := rfl
@[simp] theorem setLane_hubs (s : State) (c v n : Nat) (x : Lane) : (s.setLane c v n x).hubs = s.hubs := rfl
@[simp] theorem setLane_tcbs (s : State) (c v n : Nat) (x : Lane) : (s.setLane c v n x).tcbs = s.tcbs := rfl
@[simp] theorem setLane_regions (s : State) (c v n : Nat) (x : Lane) : (s.setLane c v n x).regions = s.regions := rfl
@[simp] theorem setLane_mem (s : State) (c v n : Nat) (x : Lane) : (s.setLane c v n x).mem = s.mem := rfl
@[simp] theorem setLane_flips (s : State) (c v n : Nat) (x : Lane) : (s.setLane c v n x).flips = s.flips := rfl
@[simp] theorem setLane_hbmKey (s : State) (c v n : Nat) (x : Lane) : (s.setLane c v n x).hbmKey = s.hbmKey := rfl
@[simp] theorem setLane_soft (s : State) (c v n : Nat) (x : Lane) : (s.setLane c v n x).soft = s.soft := rfl
@[simp] theorem setLane_dead (s : State) (c v n : Nat) (x : Lane) : (s.setLane c v n x).dead = s.dead := rfl
@[simp] theorem setLane_poison (s : State) (c v n : Nat) (x : Lane) : (s.setLane c v n x).poison = s.poison := rfl
@[simp] theorem setLane_cache (s : State) (c v n : Nat) (x : Lane) : (s.setLane c v n x).cache = s.cache := rfl
@[simp] theorem setLane_tlb (s : State) (c v n : Nat) (x : Lane) : (s.setLane c v n x).tlb = s.tlb := rfl
@[simp] theorem setLane_walks (s : State) (c v n : Nat) (x : Lane) : (s.setLane c v n x).walks = s.walks := rfl
@[simp] theorem setLane_reqs (s : State) (c v n : Nat) (x : Lane) : (s.setLane c v n x).reqs = s.reqs := rfl
@[simp] theorem setLane_reps (s : State) (c v n : Nat) (x : Lane) : (s.setLane c v n x).reps = s.reps := rfl
@[simp] theorem setLane_deferred (s : State) (c v n : Nat) (x : Lane) : (s.setLane c v n x).deferred = s.deferred := rfl
@[simp] theorem setLane_heldReqs (s : State) (c v n : Nat) (x : Lane) : (s.setLane c v n x).heldReqs = s.heldReqs := rfl
@[simp] theorem setLane_splits (s : State) (c v n : Nat) (x : Lane) : (s.setLane c v n x).splits = s.splits := rfl
@[simp] theorem setLane_sendrs (s : State) (c v n : Nat) (x : Lane) : (s.setLane c v n x).sendrs = s.sendrs := rfl
@[simp] theorem setLane_migs (s : State) (c v n : Nat) (x : Lane) : (s.setLane c v n x).migs = s.migs := rfl
@[simp] theorem setLane_parcels (s : State) (c v n : Nat) (x : Lane) : (s.setLane c v n x).parcels = s.parcels := rfl
@[simp] theorem setLane_engs (s : State) (c v n : Nat) (x : Lane) : (s.setLane c v n x).engs = s.engs := rfl
@[simp] theorem setLane_rings (s : State) (c v n : Nat) (x : Lane) : (s.setLane c v n x).rings = s.rings := rfl
@[simp] theorem setLane_donations (s : State) (c v n : Nat) (x : Lane) : (s.setLane c v n x).donations = s.donations := rfl
@[simp] theorem setLane_told (s : State) (c v n : Nat) (x : Lane) : (s.setLane c v n x).told = s.told := rfl
@[simp] theorem setLane_bridges (s : State) (c v n : Nat) (x : Lane) : (s.setLane c v n x).bridges = s.bridges := rfl
@[simp] theorem setLane_relScopes (s : State) (c v n : Nat) (x : Lane) : (s.setLane c v n x).relScopes = s.relScopes := rfl
@[simp] theorem setLane_rems (s : State) (c v n : Nat) (x : Lane) : (s.setLane c v n x).rems = s.rems := rfl
@[simp] theorem setLane_ports (s : State) (c v n : Nat) (x : Lane) : (s.setLane c v n x).ports = s.ports := rfl
@[simp] theorem setLane_images (s : State) (c v n : Nat) (x : Lane) : (s.setLane c v n x).images = s.images := rfl
@[simp] theorem setLane_pacer (s : State) (c v n : Nat) (x : Lane) : (s.setLane c v n x).pacer = s.pacer := rfl
@[simp] theorem setLane_host (s : State) (c v n : Nat) (x : Lane) : (s.setLane c v n x).host = s.host := rfl
@[simp] theorem setLane_now (s : State) (c v n : Nat) (x : Lane) : (s.setLane c v n x).now = s.now := rfl
@[simp] theorem setLane_timeBefore (s : State) (c v n : Nat) (x : Lane) : (s.setLane c v n x).timeBefore = s.timeBefore := rfl
@[simp] theorem setLane_lagged (s : State) (c v n : Nat) (x : Lane) : (s.setLane c v n x).lagged = s.lagged := rfl
@[simp] theorem setLane_lastIssue (s : State) (c v n : Nat) (x : Lane) : (s.setLane c v n x).lastIssue = s.lastIssue := rfl
@[simp] theorem setLane_agenda (s : State) (c v n : Nat) (x : Lane) : (s.setLane c v n x).agenda = s.agenda := rfl
@[simp] theorem setLane_out (s : State) (c v n : Nat) (x : Lane) : (s.setLane c v n x).out = s.out := rfl
@[simp] theorem setLane_nextId (s : State) (c v n : Nat) (x : Lane) : (s.setLane c v n x).nextId = s.nextId := rfl
@[simp] theorem setLane_tick (s : State) (c v n : Nat) (x : Lane) : (s.setLane c v n x).tick = s.tick := rfl
@[simp] theorem setLane_work (s : State) (c v n : Nat) (x : Lane) : (s.setLane c v n x).work = s.work := rfl
@[simp] theorem setLane_stalled (s : State) (c v n : Nat) (x : Lane) : (s.setLane c v n x).stalled = s.stalled := rfl
@[simp] theorem setLane_wants (s : State) (c v n : Nat) (x : Lane) : (s.setLane c v n x).wants = s.wants := rfl
@[simp] theorem setLane_visits (s : State) (c v n : Nat) (x : Lane) : (s.setLane c v n x).visits = s.visits := rfl

/-! ## `setAcc` -/

@[simp] theorem setAcc_cur (s : State) (u a r c : Nat) (x : Acc) : (s.setAcc u a r c x).cur = s.cur := rfl
@[simp] theorem setAcc_slots (s : State) (u a r c : Nat) (x : Acc) : (s.setAcc u a r c x).slots = s.slots := rfl
@[simp] theorem setAcc_regs (s : State) (u a r c : Nat) (x : Acc) : (s.setAcc u a r c x).regs = s.regs := rfl
@[simp] theorem setAcc_cores (s : State) (u a r c : Nat) (x : Acc) : (s.setAcc u a r c x).cores = s.cores := rfl
@[simp] theorem setAcc_queues (s : State) (u a r c : Nat) (x : Acc) : (s.setAcc u a r c x).queues = s.queues := rfl
@[simp] theorem setAcc_vregs (s : State) (u a r c : Nat) (x : Acc) : (s.setAcc u a r c x).vregs = s.vregs := rfl
@[simp] theorem setAcc_planes (s : State) (u a r c : Nat) (x : Acc) : (s.setAcc u a r c x).planes = s.planes := rfl
@[simp] theorem setAcc_tiles (s : State) (u a r c : Nat) (x : Acc) : (s.setAcc u a r c x).tiles = s.tiles := rfl
@[simp] theorem setAcc_hubs (s : State) (u a r c : Nat) (x : Acc) : (s.setAcc u a r c x).hubs = s.hubs := rfl
@[simp] theorem setAcc_tcbs (s : State) (u a r c : Nat) (x : Acc) : (s.setAcc u a r c x).tcbs = s.tcbs := rfl
@[simp] theorem setAcc_regions (s : State) (u a r c : Nat) (x : Acc) : (s.setAcc u a r c x).regions = s.regions := rfl
@[simp] theorem setAcc_mem (s : State) (u a r c : Nat) (x : Acc) : (s.setAcc u a r c x).mem = s.mem := rfl
@[simp] theorem setAcc_flips (s : State) (u a r c : Nat) (x : Acc) : (s.setAcc u a r c x).flips = s.flips := rfl
@[simp] theorem setAcc_hbmKey (s : State) (u a r c : Nat) (x : Acc) : (s.setAcc u a r c x).hbmKey = s.hbmKey := rfl
@[simp] theorem setAcc_soft (s : State) (u a r c : Nat) (x : Acc) : (s.setAcc u a r c x).soft = s.soft := rfl
@[simp] theorem setAcc_dead (s : State) (u a r c : Nat) (x : Acc) : (s.setAcc u a r c x).dead = s.dead := rfl
@[simp] theorem setAcc_poison (s : State) (u a r c : Nat) (x : Acc) : (s.setAcc u a r c x).poison = s.poison := rfl
@[simp] theorem setAcc_cache (s : State) (u a r c : Nat) (x : Acc) : (s.setAcc u a r c x).cache = s.cache := rfl
@[simp] theorem setAcc_tlb (s : State) (u a r c : Nat) (x : Acc) : (s.setAcc u a r c x).tlb = s.tlb := rfl
@[simp] theorem setAcc_walks (s : State) (u a r c : Nat) (x : Acc) : (s.setAcc u a r c x).walks = s.walks := rfl
@[simp] theorem setAcc_reqs (s : State) (u a r c : Nat) (x : Acc) : (s.setAcc u a r c x).reqs = s.reqs := rfl
@[simp] theorem setAcc_reps (s : State) (u a r c : Nat) (x : Acc) : (s.setAcc u a r c x).reps = s.reps := rfl
@[simp] theorem setAcc_deferred (s : State) (u a r c : Nat) (x : Acc) : (s.setAcc u a r c x).deferred = s.deferred := rfl
@[simp] theorem setAcc_heldReqs (s : State) (u a r c : Nat) (x : Acc) : (s.setAcc u a r c x).heldReqs = s.heldReqs := rfl
@[simp] theorem setAcc_splits (s : State) (u a r c : Nat) (x : Acc) : (s.setAcc u a r c x).splits = s.splits := rfl
@[simp] theorem setAcc_sendrs (s : State) (u a r c : Nat) (x : Acc) : (s.setAcc u a r c x).sendrs = s.sendrs := rfl
@[simp] theorem setAcc_migs (s : State) (u a r c : Nat) (x : Acc) : (s.setAcc u a r c x).migs = s.migs := rfl
@[simp] theorem setAcc_parcels (s : State) (u a r c : Nat) (x : Acc) : (s.setAcc u a r c x).parcels = s.parcels := rfl
@[simp] theorem setAcc_engs (s : State) (u a r c : Nat) (x : Acc) : (s.setAcc u a r c x).engs = s.engs := rfl
@[simp] theorem setAcc_rings (s : State) (u a r c : Nat) (x : Acc) : (s.setAcc u a r c x).rings = s.rings := rfl
@[simp] theorem setAcc_donations (s : State) (u a r c : Nat) (x : Acc) : (s.setAcc u a r c x).donations = s.donations := rfl
@[simp] theorem setAcc_told (s : State) (u a r c : Nat) (x : Acc) : (s.setAcc u a r c x).told = s.told := rfl
@[simp] theorem setAcc_bridges (s : State) (u a r c : Nat) (x : Acc) : (s.setAcc u a r c x).bridges = s.bridges := rfl
@[simp] theorem setAcc_relScopes (s : State) (u a r c : Nat) (x : Acc) : (s.setAcc u a r c x).relScopes = s.relScopes := rfl
@[simp] theorem setAcc_rems (s : State) (u a r c : Nat) (x : Acc) : (s.setAcc u a r c x).rems = s.rems := rfl
@[simp] theorem setAcc_ports (s : State) (u a r c : Nat) (x : Acc) : (s.setAcc u a r c x).ports = s.ports := rfl
@[simp] theorem setAcc_images (s : State) (u a r c : Nat) (x : Acc) : (s.setAcc u a r c x).images = s.images := rfl
@[simp] theorem setAcc_pacer (s : State) (u a r c : Nat) (x : Acc) : (s.setAcc u a r c x).pacer = s.pacer := rfl
@[simp] theorem setAcc_host (s : State) (u a r c : Nat) (x : Acc) : (s.setAcc u a r c x).host = s.host := rfl
@[simp] theorem setAcc_now (s : State) (u a r c : Nat) (x : Acc) : (s.setAcc u a r c x).now = s.now := rfl
@[simp] theorem setAcc_timeBefore (s : State) (u a r c : Nat) (x : Acc) : (s.setAcc u a r c x).timeBefore = s.timeBefore := rfl
@[simp] theorem setAcc_lagged (s : State) (u a r c : Nat) (x : Acc) : (s.setAcc u a r c x).lagged = s.lagged := rfl
@[simp] theorem setAcc_lastIssue (s : State) (u a r c : Nat) (x : Acc) : (s.setAcc u a r c x).lastIssue = s.lastIssue := rfl
@[simp] theorem setAcc_agenda (s : State) (u a r c : Nat) (x : Acc) : (s.setAcc u a r c x).agenda = s.agenda := rfl
@[simp] theorem setAcc_out (s : State) (u a r c : Nat) (x : Acc) : (s.setAcc u a r c x).out = s.out := rfl
@[simp] theorem setAcc_nextId (s : State) (u a r c : Nat) (x : Acc) : (s.setAcc u a r c x).nextId = s.nextId := rfl
@[simp] theorem setAcc_tick (s : State) (u a r c : Nat) (x : Acc) : (s.setAcc u a r c x).tick = s.tick := rfl
@[simp] theorem setAcc_work (s : State) (u a r c : Nat) (x : Acc) : (s.setAcc u a r c x).work = s.work := rfl
@[simp] theorem setAcc_stalled (s : State) (u a r c : Nat) (x : Acc) : (s.setAcc u a r c x).stalled = s.stalled := rfl
@[simp] theorem setAcc_wants (s : State) (u a r c : Nat) (x : Acc) : (s.setAcc u a r c x).wants = s.wants := rfl
@[simp] theorem setAcc_visits (s : State) (u a r c : Nat) (x : Acc) : (s.setAcc u a r c x).visits = s.visits := rfl

/-! ## `later` -/

@[simp] theorem later_cur (s : State) (e : Ev) (w : When) : (s.later e w).cur = s.cur := rfl
@[simp] theorem later_slots (s : State) (e : Ev) (w : When) : (s.later e w).slots = s.slots := rfl
@[simp] theorem later_regs (s : State) (e : Ev) (w : When) : (s.later e w).regs = s.regs := rfl
@[simp] theorem later_cores (s : State) (e : Ev) (w : When) : (s.later e w).cores = s.cores := rfl
@[simp] theorem later_queues (s : State) (e : Ev) (w : When) : (s.later e w).queues = s.queues := rfl
@[simp] theorem later_vregs (s : State) (e : Ev) (w : When) : (s.later e w).vregs = s.vregs := rfl
@[simp] theorem later_accs (s : State) (e : Ev) (w : When) : (s.later e w).accs = s.accs := rfl
@[simp] theorem later_planes (s : State) (e : Ev) (w : When) : (s.later e w).planes = s.planes := rfl
@[simp] theorem later_tiles (s : State) (e : Ev) (w : When) : (s.later e w).tiles = s.tiles := rfl
@[simp] theorem later_hubs (s : State) (e : Ev) (w : When) : (s.later e w).hubs = s.hubs := rfl
@[simp] theorem later_tcbs (s : State) (e : Ev) (w : When) : (s.later e w).tcbs = s.tcbs := rfl
@[simp] theorem later_regions (s : State) (e : Ev) (w : When) : (s.later e w).regions = s.regions := rfl
@[simp] theorem later_mem (s : State) (e : Ev) (w : When) : (s.later e w).mem = s.mem := rfl
@[simp] theorem later_flips (s : State) (e : Ev) (w : When) : (s.later e w).flips = s.flips := rfl
@[simp] theorem later_hbmKey (s : State) (e : Ev) (w : When) : (s.later e w).hbmKey = s.hbmKey := rfl
@[simp] theorem later_soft (s : State) (e : Ev) (w : When) : (s.later e w).soft = s.soft := rfl
@[simp] theorem later_dead (s : State) (e : Ev) (w : When) : (s.later e w).dead = s.dead := rfl
@[simp] theorem later_poison (s : State) (e : Ev) (w : When) : (s.later e w).poison = s.poison := rfl
@[simp] theorem later_cache (s : State) (e : Ev) (w : When) : (s.later e w).cache = s.cache := rfl
@[simp] theorem later_tlb (s : State) (e : Ev) (w : When) : (s.later e w).tlb = s.tlb := rfl
@[simp] theorem later_walks (s : State) (e : Ev) (w : When) : (s.later e w).walks = s.walks := rfl
@[simp] theorem later_reqs (s : State) (e : Ev) (w : When) : (s.later e w).reqs = s.reqs := rfl
@[simp] theorem later_reps (s : State) (e : Ev) (w : When) : (s.later e w).reps = s.reps := rfl
@[simp] theorem later_deferred (s : State) (e : Ev) (w : When) : (s.later e w).deferred = s.deferred := rfl
@[simp] theorem later_heldReqs (s : State) (e : Ev) (w : When) : (s.later e w).heldReqs = s.heldReqs := rfl
@[simp] theorem later_splits (s : State) (e : Ev) (w : When) : (s.later e w).splits = s.splits := rfl
@[simp] theorem later_sendrs (s : State) (e : Ev) (w : When) : (s.later e w).sendrs = s.sendrs := rfl
@[simp] theorem later_migs (s : State) (e : Ev) (w : When) : (s.later e w).migs = s.migs := rfl
@[simp] theorem later_parcels (s : State) (e : Ev) (w : When) : (s.later e w).parcels = s.parcels := rfl
@[simp] theorem later_engs (s : State) (e : Ev) (w : When) : (s.later e w).engs = s.engs := rfl
@[simp] theorem later_rings (s : State) (e : Ev) (w : When) : (s.later e w).rings = s.rings := rfl
@[simp] theorem later_donations (s : State) (e : Ev) (w : When) : (s.later e w).donations = s.donations := rfl
@[simp] theorem later_told (s : State) (e : Ev) (w : When) : (s.later e w).told = s.told := rfl
@[simp] theorem later_bridges (s : State) (e : Ev) (w : When) : (s.later e w).bridges = s.bridges := rfl
@[simp] theorem later_relScopes (s : State) (e : Ev) (w : When) : (s.later e w).relScopes = s.relScopes := rfl
@[simp] theorem later_rems (s : State) (e : Ev) (w : When) : (s.later e w).rems = s.rems := rfl
@[simp] theorem later_ports (s : State) (e : Ev) (w : When) : (s.later e w).ports = s.ports := rfl
@[simp] theorem later_images (s : State) (e : Ev) (w : When) : (s.later e w).images = s.images := rfl
@[simp] theorem later_pacer (s : State) (e : Ev) (w : When) : (s.later e w).pacer = s.pacer := rfl
@[simp] theorem later_host (s : State) (e : Ev) (w : When) : (s.later e w).host = s.host := rfl
@[simp] theorem later_now (s : State) (e : Ev) (w : When) : (s.later e w).now = s.now := rfl
@[simp] theorem later_timeBefore (s : State) (e : Ev) (w : When) : (s.later e w).timeBefore = s.timeBefore := rfl
@[simp] theorem later_lagged (s : State) (e : Ev) (w : When) : (s.later e w).lagged = s.lagged := rfl
@[simp] theorem later_lastIssue (s : State) (e : Ev) (w : When) : (s.later e w).lastIssue = s.lastIssue := rfl
@[simp] theorem later_out (s : State) (e : Ev) (w : When) : (s.later e w).out = s.out := rfl
@[simp] theorem later_nextId (s : State) (e : Ev) (w : When) : (s.later e w).nextId = s.nextId := rfl
@[simp] theorem later_tick (s : State) (e : Ev) (w : When) : (s.later e w).tick = s.tick := rfl
@[simp] theorem later_work (s : State) (e : Ev) (w : When) : (s.later e w).work = s.work := rfl
@[simp] theorem later_stalled (s : State) (e : Ev) (w : When) : (s.later e w).stalled = s.stalled := rfl
@[simp] theorem later_wants (s : State) (e : Ev) (w : When) : (s.later e w).wants = s.wants := rfl
@[simp] theorem later_visits (s : State) (e : Ev) (w : When) : (s.later e w).visits = s.visits := rfl

/-! ## `laters` -/

@[simp] theorem laters_cur (s : State) (l : List Ev) : (s.laters l).cur = s.cur := rfl
@[simp] theorem laters_slots (s : State) (l : List Ev) : (s.laters l).slots = s.slots := rfl
@[simp] theorem laters_regs (s : State) (l : List Ev) : (s.laters l).regs = s.regs := rfl
@[simp] theorem laters_cores (s : State) (l : List Ev) : (s.laters l).cores = s.cores := rfl
@[simp] theorem laters_queues (s : State) (l : List Ev) : (s.laters l).queues = s.queues := rfl
@[simp] theorem laters_vregs (s : State) (l : List Ev) : (s.laters l).vregs = s.vregs := rfl
@[simp] theorem laters_accs (s : State) (l : List Ev) : (s.laters l).accs = s.accs := rfl
@[simp] theorem laters_planes (s : State) (l : List Ev) : (s.laters l).planes = s.planes := rfl
@[simp] theorem laters_tiles (s : State) (l : List Ev) : (s.laters l).tiles = s.tiles := rfl
@[simp] theorem laters_hubs (s : State) (l : List Ev) : (s.laters l).hubs = s.hubs := rfl
@[simp] theorem laters_tcbs (s : State) (l : List Ev) : (s.laters l).tcbs = s.tcbs := rfl
@[simp] theorem laters_regions (s : State) (l : List Ev) : (s.laters l).regions = s.regions := rfl
@[simp] theorem laters_mem (s : State) (l : List Ev) : (s.laters l).mem = s.mem := rfl
@[simp] theorem laters_flips (s : State) (l : List Ev) : (s.laters l).flips = s.flips := rfl
@[simp] theorem laters_hbmKey (s : State) (l : List Ev) : (s.laters l).hbmKey = s.hbmKey := rfl
@[simp] theorem laters_soft (s : State) (l : List Ev) : (s.laters l).soft = s.soft := rfl
@[simp] theorem laters_dead (s : State) (l : List Ev) : (s.laters l).dead = s.dead := rfl
@[simp] theorem laters_poison (s : State) (l : List Ev) : (s.laters l).poison = s.poison := rfl
@[simp] theorem laters_cache (s : State) (l : List Ev) : (s.laters l).cache = s.cache := rfl
@[simp] theorem laters_tlb (s : State) (l : List Ev) : (s.laters l).tlb = s.tlb := rfl
@[simp] theorem laters_walks (s : State) (l : List Ev) : (s.laters l).walks = s.walks := rfl
@[simp] theorem laters_reqs (s : State) (l : List Ev) : (s.laters l).reqs = s.reqs := rfl
@[simp] theorem laters_reps (s : State) (l : List Ev) : (s.laters l).reps = s.reps := rfl
@[simp] theorem laters_deferred (s : State) (l : List Ev) : (s.laters l).deferred = s.deferred := rfl
@[simp] theorem laters_heldReqs (s : State) (l : List Ev) : (s.laters l).heldReqs = s.heldReqs := rfl
@[simp] theorem laters_splits (s : State) (l : List Ev) : (s.laters l).splits = s.splits := rfl
@[simp] theorem laters_sendrs (s : State) (l : List Ev) : (s.laters l).sendrs = s.sendrs := rfl
@[simp] theorem laters_migs (s : State) (l : List Ev) : (s.laters l).migs = s.migs := rfl
@[simp] theorem laters_parcels (s : State) (l : List Ev) : (s.laters l).parcels = s.parcels := rfl
@[simp] theorem laters_engs (s : State) (l : List Ev) : (s.laters l).engs = s.engs := rfl
@[simp] theorem laters_rings (s : State) (l : List Ev) : (s.laters l).rings = s.rings := rfl
@[simp] theorem laters_donations (s : State) (l : List Ev) : (s.laters l).donations = s.donations := rfl
@[simp] theorem laters_told (s : State) (l : List Ev) : (s.laters l).told = s.told := rfl
@[simp] theorem laters_bridges (s : State) (l : List Ev) : (s.laters l).bridges = s.bridges := rfl
@[simp] theorem laters_relScopes (s : State) (l : List Ev) : (s.laters l).relScopes = s.relScopes := rfl
@[simp] theorem laters_rems (s : State) (l : List Ev) : (s.laters l).rems = s.rems := rfl
@[simp] theorem laters_ports (s : State) (l : List Ev) : (s.laters l).ports = s.ports := rfl
@[simp] theorem laters_images (s : State) (l : List Ev) : (s.laters l).images = s.images := rfl
@[simp] theorem laters_pacer (s : State) (l : List Ev) : (s.laters l).pacer = s.pacer := rfl
@[simp] theorem laters_host (s : State) (l : List Ev) : (s.laters l).host = s.host := rfl
@[simp] theorem laters_now (s : State) (l : List Ev) : (s.laters l).now = s.now := rfl
@[simp] theorem laters_timeBefore (s : State) (l : List Ev) : (s.laters l).timeBefore = s.timeBefore := rfl
@[simp] theorem laters_lagged (s : State) (l : List Ev) : (s.laters l).lagged = s.lagged := rfl
@[simp] theorem laters_lastIssue (s : State) (l : List Ev) : (s.laters l).lastIssue = s.lastIssue := rfl
@[simp] theorem laters_out (s : State) (l : List Ev) : (s.laters l).out = s.out := rfl
@[simp] theorem laters_nextId (s : State) (l : List Ev) : (s.laters l).nextId = s.nextId := rfl
@[simp] theorem laters_tick (s : State) (l : List Ev) : (s.laters l).tick = s.tick := rfl
@[simp] theorem laters_work (s : State) (l : List Ev) : (s.laters l).work = s.work := rfl
@[simp] theorem laters_stalled (s : State) (l : List Ev) : (s.laters l).stalled = s.stalled := rfl
@[simp] theorem laters_wants (s : State) (l : List Ev) : (s.laters l).wants = s.wants := rfl
@[simp] theorem laters_visits (s : State) (l : List Ev) : (s.laters l).visits = s.visits := rfl

/-! ## `logErr` -/

@[simp] theorem logErr_cur (s : State) (a b : Nat) (x y : Word) : (s.logErr a b x y).cur = s.cur := rfl
@[simp] theorem logErr_slots (s : State) (a b : Nat) (x y : Word) : (s.logErr a b x y).slots = s.slots := rfl
@[simp] theorem logErr_regs (s : State) (a b : Nat) (x y : Word) : (s.logErr a b x y).regs = s.regs := rfl
@[simp] theorem logErr_cores (s : State) (a b : Nat) (x y : Word) : (s.logErr a b x y).cores = s.cores := rfl
@[simp] theorem logErr_queues (s : State) (a b : Nat) (x y : Word) : (s.logErr a b x y).queues = s.queues := rfl
@[simp] theorem logErr_vregs (s : State) (a b : Nat) (x y : Word) : (s.logErr a b x y).vregs = s.vregs := rfl
@[simp] theorem logErr_accs (s : State) (a b : Nat) (x y : Word) : (s.logErr a b x y).accs = s.accs := rfl
@[simp] theorem logErr_planes (s : State) (a b : Nat) (x y : Word) : (s.logErr a b x y).planes = s.planes := rfl
@[simp] theorem logErr_tiles (s : State) (a b : Nat) (x y : Word) : (s.logErr a b x y).tiles = s.tiles := rfl
@[simp] theorem logErr_hubs (s : State) (a b : Nat) (x y : Word) : (s.logErr a b x y).hubs = s.hubs := rfl
@[simp] theorem logErr_tcbs (s : State) (a b : Nat) (x y : Word) : (s.logErr a b x y).tcbs = s.tcbs := rfl
@[simp] theorem logErr_regions (s : State) (a b : Nat) (x y : Word) : (s.logErr a b x y).regions = s.regions := rfl
@[simp] theorem logErr_mem (s : State) (a b : Nat) (x y : Word) : (s.logErr a b x y).mem = s.mem := rfl
@[simp] theorem logErr_flips (s : State) (a b : Nat) (x y : Word) : (s.logErr a b x y).flips = s.flips := rfl
@[simp] theorem logErr_hbmKey (s : State) (a b : Nat) (x y : Word) : (s.logErr a b x y).hbmKey = s.hbmKey := rfl
@[simp] theorem logErr_soft (s : State) (a b : Nat) (x y : Word) : (s.logErr a b x y).soft = s.soft := rfl
@[simp] theorem logErr_dead (s : State) (a b : Nat) (x y : Word) : (s.logErr a b x y).dead = s.dead := rfl
@[simp] theorem logErr_poison (s : State) (a b : Nat) (x y : Word) : (s.logErr a b x y).poison = s.poison := rfl
@[simp] theorem logErr_cache (s : State) (a b : Nat) (x y : Word) : (s.logErr a b x y).cache = s.cache := rfl
@[simp] theorem logErr_tlb (s : State) (a b : Nat) (x y : Word) : (s.logErr a b x y).tlb = s.tlb := rfl
@[simp] theorem logErr_walks (s : State) (a b : Nat) (x y : Word) : (s.logErr a b x y).walks = s.walks := rfl
@[simp] theorem logErr_reqs (s : State) (a b : Nat) (x y : Word) : (s.logErr a b x y).reqs = s.reqs := rfl
@[simp] theorem logErr_reps (s : State) (a b : Nat) (x y : Word) : (s.logErr a b x y).reps = s.reps := rfl
@[simp] theorem logErr_deferred (s : State) (a b : Nat) (x y : Word) : (s.logErr a b x y).deferred = s.deferred := rfl
@[simp] theorem logErr_heldReqs (s : State) (a b : Nat) (x y : Word) : (s.logErr a b x y).heldReqs = s.heldReqs := rfl
@[simp] theorem logErr_splits (s : State) (a b : Nat) (x y : Word) : (s.logErr a b x y).splits = s.splits := rfl
@[simp] theorem logErr_sendrs (s : State) (a b : Nat) (x y : Word) : (s.logErr a b x y).sendrs = s.sendrs := rfl
@[simp] theorem logErr_migs (s : State) (a b : Nat) (x y : Word) : (s.logErr a b x y).migs = s.migs := rfl
@[simp] theorem logErr_parcels (s : State) (a b : Nat) (x y : Word) : (s.logErr a b x y).parcels = s.parcels := rfl
@[simp] theorem logErr_engs (s : State) (a b : Nat) (x y : Word) : (s.logErr a b x y).engs = s.engs := rfl
@[simp] theorem logErr_rings (s : State) (a b : Nat) (x y : Word) : (s.logErr a b x y).rings = s.rings := rfl
@[simp] theorem logErr_donations (s : State) (a b : Nat) (x y : Word) : (s.logErr a b x y).donations = s.donations := rfl
@[simp] theorem logErr_told (s : State) (a b : Nat) (x y : Word) : (s.logErr a b x y).told = s.told := rfl
@[simp] theorem logErr_bridges (s : State) (a b : Nat) (x y : Word) : (s.logErr a b x y).bridges = s.bridges := rfl
@[simp] theorem logErr_relScopes (s : State) (a b : Nat) (x y : Word) : (s.logErr a b x y).relScopes = s.relScopes := rfl
@[simp] theorem logErr_rems (s : State) (a b : Nat) (x y : Word) : (s.logErr a b x y).rems = s.rems := rfl
@[simp] theorem logErr_ports (s : State) (a b : Nat) (x y : Word) : (s.logErr a b x y).ports = s.ports := rfl
@[simp] theorem logErr_images (s : State) (a b : Nat) (x y : Word) : (s.logErr a b x y).images = s.images := rfl
@[simp] theorem logErr_pacer (s : State) (a b : Nat) (x y : Word) : (s.logErr a b x y).pacer = s.pacer := rfl
@[simp] theorem logErr_now (s : State) (a b : Nat) (x y : Word) : (s.logErr a b x y).now = s.now := rfl
@[simp] theorem logErr_timeBefore (s : State) (a b : Nat) (x y : Word) : (s.logErr a b x y).timeBefore = s.timeBefore := rfl
@[simp] theorem logErr_lagged (s : State) (a b : Nat) (x y : Word) : (s.logErr a b x y).lagged = s.lagged := rfl
@[simp] theorem logErr_lastIssue (s : State) (a b : Nat) (x y : Word) : (s.logErr a b x y).lastIssue = s.lastIssue := rfl
@[simp] theorem logErr_agenda (s : State) (a b : Nat) (x y : Word) : (s.logErr a b x y).agenda = s.agenda := rfl
@[simp] theorem logErr_out (s : State) (a b : Nat) (x y : Word) : (s.logErr a b x y).out = s.out := rfl
@[simp] theorem logErr_nextId (s : State) (a b : Nat) (x y : Word) : (s.logErr a b x y).nextId = s.nextId := rfl
@[simp] theorem logErr_tick (s : State) (a b : Nat) (x y : Word) : (s.logErr a b x y).tick = s.tick := rfl
@[simp] theorem logErr_work (s : State) (a b : Nat) (x y : Word) : (s.logErr a b x y).work = s.work := rfl
@[simp] theorem logErr_stalled (s : State) (a b : Nat) (x y : Word) : (s.logErr a b x y).stalled = s.stalled := rfl
@[simp] theorem logErr_wants (s : State) (a b : Nat) (x y : Word) : (s.logErr a b x y).wants = s.wants := rfl
@[simp] theorem logErr_visits (s : State) (a b : Nat) (x y : Word) : (s.logErr a b x y).visits = s.visits := rfl

end Sys2Proof.Machine
end

