-- ==== Sys2Proof/Laws/Ops.lean ====
section
/-! SUPPORT. Laws of the shared operations of Machine/Ops.lean: what issuing, reading sources, writing a destination and going
on can do. -/

namespace Sys2Proof.Machine

/-! ## Issue -/

/-- An admitted instruction goes on to its own meaning. -/
theorem issueWith_of_admits {i : Instr} {a b d : Option Nat} {s : State} (body : State → Out) (h : admits i a b d s = true) :
    issueWith i a b d body s = body s := by
  simp only [admits, Bool.and_eq_true, beq_iff_eq, Bool.not_eq_true', Option.isNone_iff_eq_none] at h
  obtain ⟨⟨⟨⟨⟨h1, h2⟩, h3⟩, h4⟩, h5⟩, h6⟩ := h
  simp only [issueWith, h1, h2, h3, h4, h5, h6, bne_self_eq_false, Bool.not_true, Bool.false_eq_true, if_false]

theorem issue_of_admits {i : Instr} {a b d : Option Nat} {s : State} (body : Word → Word → State → Out)
    (h : admits i a b d s = true) : issue i a b d body s = body (srcA a s) (srcB a b s) (takeBoth a b s) := by
  rw [issue, issueWith_of_admits _ h]
  rfl

theorem peek_of_admits {i : Instr} {a b d : Option Nat} {s : State} (body : Word → Word → State → Out)
    (h : admits i a b d s = true) : peek i a b d body s = body (srcA a s) (srcB a b s) s := by
  rw [peek, issueWith_of_admits _ h]
  rfl

/-- Everything the issue checks can do: no thread is there, the instruction waits or traps, or it goes on to its meaning. -/
theorem issueWith_cases (i : Instr) (a b d : Option Nat) (body : State → Out) (s : State) :
    (s.me.st ≠ .ready ∧ issueWith i a b d body s = .fault .noThread) ∨ (∃ t, issueWith i a b d body s = .next t) ∨
      (admits i a b d s = true ∧ issueWith i a b d body s = body s) := by
  by_cases h1 : s.me.st = .ready
  · by_cases h2 : (s.capturing && !bodyAllowed i) = true
    · exact .inr (.inl ⟨_, by simp only [issueWith, h1, h2, bne_self_eq_false, Bool.false_eq_true, if_false, if_true]; rfl⟩)
    by_cases h3 : ((named i).any (s.me.size ≤ ·)) = true
    · exact .inr (.inl ⟨_, by
        simp only [issueWith, h1, h2, h3, bne_self_eq_false, Bool.false_eq_true, if_false, if_true]; rfl⟩)
    by_cases h4 : s.pendingOf s.cur (named i) = []
    · by_cases h5 : s.portsOk s.myCore (portNeeds s.me.portmap a b d) = true
      · cases h6 : s.deadReg? i a b with
        | some r =>
          exact .inr (.inl ⟨s.trapAt .machine 8 0 (BitVec.ofNat 64 r) 0 0, by
            simp only [issueWith, h1, h2, h3, h4, h5, h6, bne_self_eq_false, Bool.not_true, Bool.false_eq_true, if_false]⟩)
        | none =>
          have h : admits i a b d s = true := by simp [admits, h1, h2, h3, h4, h5, h6]
          exact .inr (.inr ⟨h, issueWith_of_admits body h⟩)
      · exact .inr (.inl ⟨_, by
          simp only [issueWith, h1, h2, h3, h4, h5, bne_self_eq_false, Bool.not_false, Bool.false_eq_true, if_false, if_true]; rfl⟩)
    · exact .inr (.inl ⟨_, by
        simp only [issueWith, h1, h2, h3, h4, bne_self_eq_false, bne_iff_ne, ne_eq, not_false_eq_true, Bool.false_eq_true, if_false,
          if_true]; rfl⟩)
  · exact .inl ⟨h1, by simp only [issueWith, bne_iff_ne, ne_eq, h1, not_false_eq_true, if_true]⟩

/-- An instruction whose meaning answers a next state wherever it is reached answers one wherever a ready thread issues it. -/
theorem issueWith_answers {i : Instr} {a b d : Option Nat} {body : State → Out} {s : State} (h : s.me.st = .ready)
    (hb : admits i a b d s = true → ∃ t, body s = .next t) : ∃ t, issueWith i a b d body s = .next t := by
  obtain ⟨h', _⟩ | h' | ⟨h', e⟩ := issueWith_cases i a b d body s
  · exact absurd h h'
  · exact h'
  · rw [e]; exact hb h'

theorem issue_answers {i : Instr} {a b d : Option Nat} {body : Word → Word → State → Out} {s : State} (h : s.me.st = .ready)
    (hb : ∀ x y t, ∃ u, body x y t = .next u) : ∃ t, issue i a b d body s = .next t :=
  issueWith_answers h fun _ => hb _ _ _

theorem peek_answers {i : Instr} {a b d : Option Nat} {body : Word → Word → State → Out} {s : State} (h : s.me.st = .ready)
    (hb : ∀ x y, ∃ u, body x y s = .next u) : ∃ t, peek i a b d body s = .next t :=
  issueWith_answers h fun _ => hb _ _

theorem alu_answers {i : Instr} {a b : Option Nat} {d : Nat} {f : Word → Word → State → Word} {s : State} (h : s.me.st = .ready) :
    ∃ t, alu i a b d f s = .next t := issue_answers h fun _ _ _ => ⟨_, rfl⟩

theorem whenAcked_answers {s : State} {body : State → Out} (h : ∃ t, body s = .next t) : ∃ t, whenAcked s body = .next t := by
  unfold whenAcked
  split
  · exact ⟨_, rfl⟩
  · split
    · exact ⟨_, rfl⟩
    · exact h

theorem release_answers {scope : Nat} {s : State} {body : State → Out} (h : ∀ t, ∃ u, body t = .next u) :
    ∃ t, release scope s body = .next t := by
  refine whenAcked_answers ?_
  split
  · exact ⟨_, rfl⟩
  · split
    · exact h _
    · split <;> split <;> first | exact h _ | exact ⟨_, rfl⟩

/-- A release with nothing outstanding goes straight on. -/
theorem release_of_quiet {scope : Nat} {s : State} {body : State → Out} (h : quiet s) : release scope s body = body s := by
  obtain ⟨h1, h2, h3, h4, h5⟩ := h
  simp only [release, whenAcked, h1, h2, h3, h4, h5, bne_self_eq_false, Bool.not_true, Bool.false_eq_true, if_false, if_true, ite_self]

theorem acquiring_answers {s : State} {body : State → Out} (h : ∃ t, body s = .next t) : ∃ t, acquiring s body = .next t := by
  unfold acquiring
  split
  · exact ⟨_, rfl⟩
  · exact h

/-! ## Reading sources changes queues alone -/

theorem takeSrc_eq (r : Option Nat) (s : State) : (takeSrc r s).2 = { s with queues := (takeSrc r s).2.queues } := by
  unfold takeSrc
  split
  · rfl
  · split
    · rfl
    · split <;> rfl

theorem takeBoth_eq (a b : Option Nat) (s : State) : takeBoth a b s = { s with queues := (takeBoth a b s).queues } := by
  rw [takeBoth, takeSrc_eq b, takeSrc_eq a]

@[simp] theorem takeBoth_slots (a b : Option Nat) (s : State) : (takeBoth a b s).slots = s.slots := by rw [takeBoth_eq]
@[simp] theorem takeBoth_cur (a b : Option Nat) (s : State) : (takeBoth a b s).cur = s.cur := by rw [takeBoth_eq]
@[simp] theorem takeBoth_me (a b : Option Nat) (s : State) : (takeBoth a b s).me = s.me := by rw [takeBoth_eq]; rfl
@[simp] theorem takeBoth_slot (a b : Option Nat) (s : State) (k : Nat) : (takeBoth a b s).slot k = s.slot k := by
  rw [takeBoth_eq]; rfl
@[simp] theorem takeBoth_none (s : State) : takeBoth none none s = s := rfl

/-- An instruction of the pipeline that is admitted writes its result and goes on. -/
theorem alu_of_admits {i : Instr} {a b : Option Nat} {d : Nat} {s : State} (f : Word → Word → State → Word)
    (h : admits i a b (some d) s = true) :
    alu i a b d f s = .next (retired i a b d (f (srcA a s) (srcB a b s) (takeBoth a b s)) s) := by
  rw [alu, issue_of_admits _ h]
  simp only [done, retired]
  congr 2
  unfold putDst
  split <;> simp [State.setG, State.setGreg, State.setRf, State.setQueue]

end Sys2Proof.Machine
end

