-- ==== Sys2Proof/Laws/PerInstr.lean ====
section
/-! SUPPORT. Statements per instruction: the family RoundTrip says that the decoder reads a well-formed instruction back from
its own words. -/

set_option linter.unusedSimpArgs false
set_option Elab.async false

namespace Sys2Proof

/-- A word whose major decodes to a well-formed instruction decodes to it. -/
theorem decode_of_major {w x : Nat} {i : Instr} (h0 : w ≠ 0) (h1 : w ≠ 4294967295) (hm : decodeMajor w x = .ok i)
    (hw : wellFormed i = true) : decode w x = .ok i := by
  unfold decode
  rw [if_neg h0, if_neg h1, hm]
  simp only [hw, if_true]

theorem bits_at {w l f h lo len : Nat} (hw : w = l + 2 ^ lo * (f + 2 ^ len * h)) (hl : l < 2 ^ lo) (hf : f < 2 ^ len) :
    bits w lo len = f := by
  subst hw
  rw [bits, Nat.add_mul_div_left _ _ (Nat.two_pow_pos lo), Nat.div_eq_of_lt hl, Nat.zero_add, Nat.add_mul_mod_self_left,
    Nat.mod_eq_of_lt hf]

theorem word_ne {w n : Nat} (m : bits w 26 6 = n) (hn : 0 < n ∧ n < 63) : w ≠ 0 ∧ w ≠ 4294967295 := by
  constructor
  · rintro rfl
    have z : bits 0 26 6 = 0 := by decide
    omega
  · rintro rfl
    have z : bits 4294967295 26 6 = 63 := by decide
    omega

theorem decode_of_one {w n : Nat} {i : Instr} (e : encode i = [w]) (m : bits w 26 6 = n) (hn : 0 < n ∧ n < 63)
    (hm : ∀ x, decodeMajor w x = .ok i) (hw : wellFormed i = true) : decode i.w0 i.w1 = .ok i := by
  rw [Instr.w0, Instr.w1, e]
  exact decode_of_major (word_ne m hn).1 (word_ne m hn).2 (hm _) hw

theorem decode_of_two {w x n : Nat} {i : Instr} (e : encode i = [w, x]) (m : bits w 26 6 = n) (hn : 0 < n ∧ n < 63)
    (hm : decodeMajor w x = .ok i) (hw : wellFormed i = true) : decode i.w0 i.w1 = .ok i := by
  rw [Instr.w0, Instr.w1, e]
  exact decode_of_major (word_ne m hn).1 (word_ne m hn).2 hm hw

theorem decodeMajor_01 {w : Nat} (x : Nat) (h : bits w 26 6 = 1) : decodeMajor w x = decodeM01 w := by
  unfold decodeMajor
  rw [h]
  rfl

theorem decodeMajor_02 {w : Nat} (x : Nat) (h : bits w 26 6 = 2) : decodeMajor w x = decodeM02 w := by
  unfold decodeMajor
  rw [h]
  rfl

theorem decodeMajor_03 {w : Nat} (x : Nat) (h : bits w 26 6 = 3) : decodeMajor w x = decodeM03 w := by
  unfold decodeMajor
  rw [h]
  rfl

theorem decodeMajor_04 {w : Nat} (x : Nat) (h : bits w 26 6 = 4) : decodeMajor w x = decodeM04 w := by
  unfold decodeMajor
  rw [h]
  rfl

theorem decodeMajor_05 {w : Nat} (x : Nat) (h : bits w 26 6 = 5) : decodeMajor w x = decodeM05 w := by
  unfold decodeMajor
  rw [h]
  rfl

theorem decodeMajor_06 {w : Nat} (x : Nat) (h : bits w 26 6 = 6) : decodeMajor w x = decodeM06 w := by
  unfold decodeMajor
  rw [h]
  rfl

theorem decodeMajor_07 {w : Nat} (x : Nat) (h : bits w 26 6 = 7) : decodeMajor w x = decodeM07 w := by
  unfold decodeMajor
  rw [h]
  rfl

theorem decodeMajor_08 {w : Nat} (x : Nat) (h : bits w 26 6 = 8) : decodeMajor w x = decodeM08 w := by
  unfold decodeMajor
  rw [h]
  rfl

theorem decodeMajor_09 {w : Nat} (x : Nat) (h : bits w 26 6 = 9) : decodeMajor w x = decodeM09 w := by
  unfold decodeMajor
  rw [h]
  rfl

theorem decodeMajor_0A {w : Nat} (x : Nat) (h : bits w 26 6 = 10) : decodeMajor w x = decodeM0A w := by
  unfold decodeMajor
  rw [h]
  rfl

theorem decodeMajor_0B {w : Nat} (x : Nat) (h : bits w 26 6 = 11) : decodeMajor w x = decodeM0B w := by
  unfold decodeMajor
  rw [h]
  rfl

theorem decodeMajor_0C {w : Nat} (x : Nat) (h : bits w 26 6 = 12) : decodeMajor w x = decodeM0C w := by
  unfold decodeMajor
  rw [h]
  rfl

theorem decodeMajor_0D {w : Nat} (x : Nat) (h : bits w 26 6 = 13) : decodeMajor w x = decodeM0D w := by
  unfold decodeMajor
  rw [h]
  rfl

theorem decodeMajor_0E {w : Nat} (x : Nat) (h : bits w 26 6 = 14) : decodeMajor w x = decodeM0E w := by
  unfold decodeMajor
  rw [h]
  rfl

theorem decodeMajor_0F {w : Nat} (x : Nat) (h : bits w 26 6 = 15) : decodeMajor w x = decodeM0F w := by
  unfold decodeMajor
  rw [h]
  rfl

theorem decodeMajor_10 {w : Nat} (x : Nat) (h : bits w 26 6 = 16) : decodeMajor w x = decodeM10 w := by
  unfold decodeMajor
  rw [h]
  rfl

theorem decodeMajor_11 {w : Nat} (x : Nat) (h : bits w 26 6 = 17) : decodeMajor w x = decodeM11 w := by
  unfold decodeMajor
  rw [h]
  rfl

theorem decodeMajor_12 {w : Nat} (x : Nat) (h : bits w 26 6 = 18) : decodeMajor w x = decodeM12 w := by
  unfold decodeMajor
  rw [h]
  rfl

theorem decodeMajor_13 {w : Nat} (x : Nat) (h : bits w 26 6 = 19) : decodeMajor w x = decodeM13 w := by
  unfold decodeMajor
  rw [h]
  rfl

theorem decodeMajor_14 {w : Nat} (x : Nat) (h : bits w 26 6 = 20) : decodeMajor w x = decodeM14 w := by
  unfold decodeMajor
  rw [h]
  rfl

theorem decodeMajor_15 {w : Nat} (x : Nat) (h : bits w 26 6 = 21) : decodeMajor w x = decodeM15 w := by
  unfold decodeMajor
  rw [h]
  rfl

theorem decodeMajor_16 {w : Nat} (x : Nat) (h : bits w 26 6 = 22) : decodeMajor w x = decodeM16 w := by
  unfold decodeMajor
  rw [h]
  rfl

theorem decodeMajor_17 {w : Nat} (x : Nat) (h : bits w 26 6 = 23) : decodeMajor w x = decodeM17 w := by
  unfold decodeMajor
  rw [h]
  rfl

theorem decodeMajor_18 {w : Nat} (x : Nat) (h : bits w 26 6 = 24) : decodeMajor w x = decodeM18 w := by
  unfold decodeMajor
  rw [h]
  rfl

theorem decodeMajor_19 {w : Nat} (x : Nat) (h : bits w 26 6 = 25) : decodeMajor w x = decodeM19 w := by
  unfold decodeMajor
  rw [h]
  rfl

theorem decodeMajor_1A {w : Nat} (x : Nat) (h : bits w 26 6 = 26) : decodeMajor w x = decodeM1A w := by
  unfold decodeMajor
  rw [h]
  rfl

theorem decodeMajor_1B {w : Nat} (x : Nat) (h : bits w 26 6 = 27) : decodeMajor w x = decodeM1B w := by
  unfold decodeMajor
  rw [h]
  rfl

theorem decodeMajor_1C {w : Nat} (x : Nat) (h : bits w 26 6 = 28) : decodeMajor w x = decodeM1C w := by
  unfold decodeMajor
  rw [h]
  rfl

theorem decodeMajor_1D {w : Nat} (x : Nat) (h : bits w 26 6 = 29) : decodeMajor w x = decodeM1D w := by
  unfold decodeMajor
  rw [h]
  rfl

theorem decodeMajor_1E {w : Nat} (x : Nat) (h : bits w 26 6 = 30) : decodeMajor w x = decodeM1E w := by
  unfold decodeMajor
  rw [h]
  rfl

theorem decodeMajor_1F {w : Nat} (x : Nat) (h : bits w 26 6 = 31) : decodeMajor w x = decodeM1F w := by
  unfold decodeMajor
  rw [h]
  rfl

theorem decodeMajor_20 {w : Nat} (x : Nat) (h : bits w 26 6 = 32) : decodeMajor w x = decodeM20 w := by
  unfold decodeMajor
  rw [h]
  rfl

theorem decodeMajor_21 {w : Nat} (x : Nat) (h : bits w 26 6 = 33) : decodeMajor w x = decodeM21 w := by
  unfold decodeMajor
  rw [h]
  rfl

theorem decodeMajor_22 {w : Nat} (x : Nat) (h : bits w 26 6 = 34) : decodeMajor w x = decodeM22 w := by
  unfold decodeMajor
  rw [h]
  rfl

theorem decodeMajor_28 {w : Nat} (x : Nat) (h : bits w 26 6 = 40) : decodeMajor w x = decodeM28 w := by
  unfold decodeMajor
  rw [h]
  rfl

theorem decodeMajor_29 {w : Nat} (x : Nat) (h : bits w 26 6 = 41) : decodeMajor w x = decodeM29 w := by
  unfold decodeMajor
  rw [h]
  rfl

theorem decodeMajor_2A {w : Nat} (x : Nat) (h : bits w 26 6 = 42) : decodeMajor w x = decodeM2A w := by
  unfold decodeMajor
  rw [h]
  rfl

theorem decodeMajor_2B {w : Nat} (x : Nat) (h : bits w 26 6 = 43) : decodeMajor w x = decodeM2B w := by
  unfold decodeMajor
  rw [h]
  rfl

theorem decodeMajor_2C {w : Nat} (x : Nat) (h : bits w 26 6 = 44) : decodeMajor w x = decodeM2C w := by
  unfold decodeMajor
  rw [h]
  rfl

theorem decodeMajor_2D {w : Nat} (x : Nat) (h : bits w 26 6 = 45) : decodeMajor w x = decodeM2D w := by
  unfold decodeMajor
  rw [h]
  rfl

theorem decodeMajor_2E {w : Nat} (x : Nat) (h : bits w 26 6 = 46) : decodeMajor w x = decodeM2E w := by
  unfold decodeMajor
  rw [h]
  rfl

theorem decodeMajor_2F {w : Nat} (x : Nat) (h : bits w 26 6 = 47) : decodeMajor w x = decodeM2F w := by
  unfold decodeMajor
  rw [h]
  rfl

theorem decodeMajor_30 {w : Nat} (x : Nat) (h : bits w 26 6 = 48) : decodeMajor w x = decodeM30 w := by
  unfold decodeMajor
  rw [h]
  rfl

theorem decodeMajor_31 {w : Nat} (x : Nat) (h : bits w 26 6 = 49) : decodeMajor w x = decodeM31 w := by
  unfold decodeMajor
  rw [h]
  rfl

theorem decodeMajor_32 {w : Nat} (x : Nat) (h : bits w 26 6 = 50) : decodeMajor w x = decodeM32 w := by
  unfold decodeMajor
  rw [h]
  rfl

theorem decodeMajor_33 {w : Nat} (x : Nat) (h : bits w 26 6 = 51) : decodeMajor w x = decodeM33 w := by
  unfold decodeMajor
  rw [h]
  rfl

theorem decodeMajor_34 {w : Nat} (x : Nat) (h : bits w 26 6 = 52) : decodeMajor w x = decodeM34 w := by
  unfold decodeMajor
  rw [h]
  rfl

theorem decodeMajor_38 {w : Nat} (x : Nat) (h : bits w 26 6 = 56) : decodeMajor w x = decodeM38 w x := by
  unfold decodeMajor
  rw [h]
  rfl

theorem decodeMajor_39 {w : Nat} (x : Nat) (h : bits w 26 6 = 57) : decodeMajor w x = decodeM39 w x := by
  unfold decodeMajor
  rw [h]
  rfl

theorem decodeMajor_3A {w : Nat} (x : Nat) (h : bits w 26 6 = 58) : decodeMajor w x = decodeM3A w x := by
  unfold decodeMajor
  rw [h]
  rfl

/-! The fields of the forms, each read back from the sum that places it. -/

theorem field0 {x0 x1 x2 x3 cl ch cm : Nat} (hC : x0 = cl + cm * 67108864 + ch * 4294967296) (h1 : x1 < 128) (h2 : x2 < 128) (h3 : x3 < 128) (hl : cl + 67108832 < 67108864) (hm : cm < 64) :
    bits (x0 + x1 * 524288 + x2 * 4096 + x3 * 32) 26 6 = cm :=
  bits_at (l := cl + x1 * 524288 + x2 * 4096 + x3 * 32) (h := ch) (by omega) (by omega) (by omega)

theorem field1 {x0 x1 x2 x3 cl ch cm : Nat} (hC : x0 = cl + cm * 1 + ch * 32) (_h1 : x1 < 128) (_h2 : x2 < 128) (_h3 : x3 < 128) (hl : cl + 0 < 1) (hm : cm < 32) :
    bits (x0 + x1 * 524288 + x2 * 4096 + x3 * 32) 0 5 = cm :=
  bits_at (l := cl) (h := ch + x1 * 16384 + x2 * 128 + x3 * 1) (by omega) (by omega) (by omega)

theorem field2 {x0 x1 x2 x3 cl ch : Nat} (hC : x0 = cl + ch * 524288) (_h1 : x1 < 128) (h2 : x2 < 128) (h3 : x3 < 128) (hl : cl + 4064 < 4096) :
    bits (x0 + x1 * 524288 + x2 * 4096 + x3 * 32) 12 7 = x2 :=
  bits_at (l := cl + x3 * 32) (h := ch + x1 * 1) (by omega) (by omega) (by omega)

theorem field3 {x0 x1 x2 x3 cl ch : Nat} (hC : x0 = cl + ch * 67108864) (h1 : x1 < 128) (h2 : x2 < 128) (h3 : x3 < 128) (hl : cl + 524256 < 524288) :
    bits (x0 + x1 * 524288 + x2 * 4096 + x3 * 32) 19 7 = x1 :=
  bits_at (l := cl + x2 * 4096 + x3 * 32) (h := ch) (by omega) (by omega) (by omega)

theorem field4 {x0 x1 x2 x3 cl ch : Nat} (hC : x0 = cl + ch * 4096) (_h1 : x1 < 128) (_h2 : x2 < 128) (h3 : x3 < 128) (hl : cl + 0 < 32) :
    bits (x0 + x1 * 524288 + x2 * 4096 + x3 * 32) 5 7 = x3 :=
  bits_at (l := cl) (h := ch + x1 * 128 + x2 * 1) (by omega) (by omega) (by omega)

theorem field5 {x0 x1 x2 cl ch cm : Nat} (hC : x0 = cl + cm * 67108864 + ch * 4294967296) (h1 : x1 < 128) (h2 : x2 < 128) (hl : cl + 67104768 < 67108864) (hm : cm < 64) :
    bits (x0 + x1 * 524288 + x2 * 4096) 26 6 = cm :=
  bits_at (l := cl + x1 * 524288 + x2 * 4096) (h := ch) (by omega) (by omega) (by omega)

theorem field6 {x0 x1 x2 cl ch cm : Nat} (hC : x0 = cl + cm * 1 + ch * 32) (_h1 : x1 < 128) (_h2 : x2 < 128) (hl : cl + 0 < 1) (hm : cm < 32) :
    bits (x0 + x1 * 524288 + x2 * 4096) 0 5 = cm :=
  bits_at (l := cl) (h := ch + x1 * 16384 + x2 * 128) (by omega) (by omega) (by omega)

theorem field7 {x0 x1 x2 cl ch : Nat} (hC : x0 = cl + ch * 524288) (_h1 : x1 < 128) (h2 : x2 < 128) (hl : cl + 0 < 4096) :
    bits (x0 + x1 * 524288 + x2 * 4096) 12 7 = x2 :=
  bits_at (l := cl) (h := ch + x1 * 1) (by omega) (by omega) (by omega)

theorem field8 {x0 x1 x2 cl ch : Nat} (hC : x0 = cl + ch * 67108864) (h1 : x1 < 128) (h2 : x2 < 128) (hl : cl + 520192 < 524288) :
    bits (x0 + x1 * 524288 + x2 * 4096) 19 7 = x1 :=
  bits_at (l := cl + x2 * 4096) (h := ch) (by omega) (by omega) (by omega)

theorem field9 {x0 x1 x2 cl ch cm : Nat} (hC : x0 = cl + cm * 32 + ch * 4096) (_h1 : x1 < 128) (_h2 : x2 < 128) (hl : cl + 0 < 32) (hm : cm < 128) :
    bits (x0 + x1 * 524288 + x2 * 4096) 5 7 = cm :=
  bits_at (l := cl) (h := ch + x1 * 128 + x2 * 1) (by omega) (by omega) (by omega)

theorem field10 {x0 x1 x2 x3 x4 cl ch cm : Nat} (hC : x0 = cl + cm * 67108864 + ch * 4294967296) (h1 : x1 < 128) (h2 : x2 < 128) (h3 : x3 < 128) (h4 : x4 < 2) (hl : cl + 67108833 < 67108864) (hm : cm < 64) :
    bits (x0 + x1 * 524288 + x2 * 4096 + x3 * 32 + x4) 26 6 = cm :=
  bits_at (l := cl + x1 * 524288 + x2 * 4096 + x3 * 32 + x4 * 1) (h := ch) (by omega) (by omega) (by omega)

theorem field11 {x0 x1 x2 x3 x4 cl ch : Nat} (hC : x0 = cl + ch * 2) (_h1 : x1 < 128) (_h2 : x2 < 128) (_h3 : x3 < 128) (h4 : x4 < 2) (hl : cl + 0 < 1) :
    bits (x0 + x1 * 524288 + x2 * 4096 + x3 * 32 + x4) 0 1 = x4 :=
  bits_at (l := cl) (h := ch + x1 * 262144 + x2 * 2048 + x3 * 16) (by omega) (by omega) (by omega)

theorem field12 {x0 x1 x2 x3 x4 cl ch cm : Nat} (hC : x0 = cl + cm * 2 + ch * 32) (_h1 : x1 < 128) (_h2 : x2 < 128) (_h3 : x3 < 128) (h4 : x4 < 2) (hl : cl + 1 < 2) (hm : cm < 16) :
    bits (x0 + x1 * 524288 + x2 * 4096 + x3 * 32 + x4) 1 4 = cm :=
  bits_at (l := cl + x4 * 1) (h := ch + x1 * 16384 + x2 * 128 + x3 * 1) (by omega) (by omega) (by omega)

theorem field13 {x0 x1 x2 x3 x4 cl ch : Nat} (hC : x0 = cl + ch * 524288) (_h1 : x1 < 128) (h2 : x2 < 128) (h3 : x3 < 128) (h4 : x4 < 2) (hl : cl + 4065 < 4096) :
    bits (x0 + x1 * 524288 + x2 * 4096 + x3 * 32 + x4) 12 7 = x2 :=
  bits_at (l := cl + x3 * 32 + x4 * 1) (h := ch + x1 * 1) (by omega) (by omega) (by omega)

theorem field14 {x0 x1 x2 x3 x4 cl ch : Nat} (hC : x0 = cl + ch * 67108864) (h1 : x1 < 128) (h2 : x2 < 128) (h3 : x3 < 128) (h4 : x4 < 2) (hl : cl + 524257 < 524288) :
    bits (x0 + x1 * 524288 + x2 * 4096 + x3 * 32 + x4) 19 7 = x1 :=
  bits_at (l := cl + x2 * 4096 + x3 * 32 + x4 * 1) (h := ch) (by omega) (by omega) (by omega)

theorem field15 {x0 x1 x2 x3 x4 cl ch : Nat} (hC : x0 = cl + ch * 4096) (_h1 : x1 < 128) (_h2 : x2 < 128) (h3 : x3 < 128) (h4 : x4 < 2) (hl : cl + 1 < 32) :
    bits (x0 + x1 * 524288 + x2 * 4096 + x3 * 32 + x4) 5 7 = x3 :=
  bits_at (l := cl + x4 * 1) (h := ch + x1 * 128 + x2 * 1) (by omega) (by omega) (by omega)

theorem field16 {x0 x1 x2 x3 x4 x5 cl ch cm : Nat} (hC : x0 = cl + cm * 67108864 + ch * 4294967296) (h1 : x1 < 128) (h2 : x2 < 128) (h3 : x3 < 128) (h4 : x4 < 8) (h5 : x5 < 2) (hl : cl + 67108847 < 67108864) (hm : cm < 64) :
    bits (x0 + x1 * 524288 + x2 * 4096 + x3 * 32 + x4 * 2 + x5) 26 6 = cm :=
  bits_at (l := cl + x1 * 524288 + x2 * 4096 + x3 * 32 + x4 * 2 + x5 * 1) (h := ch) (by omega) (by omega) (by omega)

theorem field17 {x0 x1 x2 x3 x4 x5 cl ch : Nat} (hC : x0 = cl + ch * 2) (_h1 : x1 < 128) (_h2 : x2 < 128) (_h3 : x3 < 128) (_h4 : x4 < 8) (h5 : x5 < 2) (hl : cl + 0 < 1) :
    bits (x0 + x1 * 524288 + x2 * 4096 + x3 * 32 + x4 * 2 + x5) 0 1 = x5 :=
  bits_at (l := cl) (h := ch + x1 * 262144 + x2 * 2048 + x3 * 16 + x4 * 1) (by omega) (by omega) (by omega)

theorem field18 {x0 x1 x2 x3 x4 x5 cl ch : Nat} (hC : x0 = cl + ch * 32) (_h1 : x1 < 128) (_h2 : x2 < 128) (_h3 : x3 < 128) (h4 : x4 < 8) (h5 : x5 < 2) (hl : cl + 1 < 2) :
    bits (x0 + x1 * 524288 + x2 * 4096 + x3 * 32 + x4 * 2 + x5) 1 4 = x4 :=
  bits_at (l := cl + x5 * 1) (h := ch + x1 * 16384 + x2 * 128 + x3 * 1) (by omega) (by omega) (by omega)

theorem field19 {x0 x1 x2 x3 x4 x5 cl ch : Nat} (hC : x0 = cl + ch * 524288) (_h1 : x1 < 128) (h2 : x2 < 128) (h3 : x3 < 128) (h4 : x4 < 8) (h5 : x5 < 2) (hl : cl + 4079 < 4096) :
    bits (x0 + x1 * 524288 + x2 * 4096 + x3 * 32 + x4 * 2 + x5) 12 7 = x2 :=
  bits_at (l := cl + x3 * 32 + x4 * 2 + x5 * 1) (h := ch + x1 * 1) (by omega) (by omega) (by omega)

theorem field20 {x0 x1 x2 x3 x4 x5 cl ch : Nat} (hC : x0 = cl + ch * 67108864) (h1 : x1 < 128) (h2 : x2 < 128) (h3 : x3 < 128) (h4 : x4 < 8) (h5 : x5 < 2) (hl : cl + 524271 < 524288) :
    bits (x0 + x1 * 524288 + x2 * 4096 + x3 * 32 + x4 * 2 + x5) 19 7 = x1 :=
  bits_at (l := cl + x2 * 4096 + x3 * 32 + x4 * 2 + x5 * 1) (h := ch) (by omega) (by omega) (by omega)

theorem field21 {x0 x1 x2 x3 x4 x5 cl ch : Nat} (hC : x0 = cl + ch * 4096) (_h1 : x1 < 128) (_h2 : x2 < 128) (h3 : x3 < 128) (h4 : x4 < 8) (h5 : x5 < 2) (hl : cl + 15 < 32) :
    bits (x0 + x1 * 524288 + x2 * 4096 + x3 * 32 + x4 * 2 + x5) 5 7 = x3 :=
  bits_at (l := cl + x4 * 2 + x5 * 1) (h := ch + x1 * 128 + x2 * 1) (by omega) (by omega) (by omega)

theorem field22 {x0 x1 cl ch cm : Nat} (hC : x0 = cl + cm * 67108864 + ch * 4294967296) (h1 : x1 < 128) (hl : cl + 66584576 < 67108864) (hm : cm < 64) :
    bits (x0 + x1 * 524288) 26 6 = cm :=
  bits_at (l := cl + x1 * 524288) (h := ch) (by omega) (by omega) (by omega)

theorem field23 {x0 x1 cl ch cm : Nat} (hC : x0 = cl + cm * 1 + ch * 32) (_h1 : x1 < 128) (hl : cl + 0 < 1) (hm : cm < 32) :
    bits (x0 + x1 * 524288) 0 5 = cm :=
  bits_at (l := cl) (h := ch + x1 * 16384) (by omega) (by omega) (by omega)

theorem field24 {x0 x1 cl ch : Nat} (hC : x0 = cl + ch * 67108864) (h1 : x1 < 128) (hl : cl + 0 < 524288) :
    bits (x0 + x1 * 524288) 19 7 = x1 :=
  bits_at (l := cl) (h := ch) (by omega) (by omega) (by omega)

theorem field25 {x0 x1 cl ch cm : Nat} (hC : x0 = cl + cm * 32 + ch * 524288) (_h1 : x1 < 128) (hl : cl + 0 < 32) (hm : cm < 16384) :
    bits (x0 + x1 * 524288) 5 14 = cm :=
  bits_at (l := cl) (h := ch + x1 * 1) (by omega) (by omega) (by omega)

theorem field26 {x0 x1 cl ch cm : Nat} (hC : x0 = cl + cm * 67108864 + ch * 4294967296) (h1 : x1 < 128) (hl : cl + 520192 < 67108864) (hm : cm < 64) :
    bits (x0 + x1 * 4096) 26 6 = cm :=
  bits_at (l := cl + x1 * 4096) (h := ch) (by omega) (by omega) (by omega)

theorem field27 {x0 x1 cl ch cm : Nat} (hC : x0 = cl + cm * 1 + ch * 32) (_h1 : x1 < 128) (hl : cl + 0 < 1) (hm : cm < 32) :
    bits (x0 + x1 * 4096) 0 5 = cm :=
  bits_at (l := cl) (h := ch + x1 * 128) (by omega) (by omega) (by omega)

theorem field28 {x0 x1 cl ch : Nat} (hC : x0 = cl + ch * 524288) (h1 : x1 < 128) (hl : cl + 0 < 4096) :
    bits (x0 + x1 * 4096) 12 7 = x1 :=
  bits_at (l := cl) (h := ch) (by omega) (by omega) (by omega)

theorem field29 {x0 x1 cl ch cm : Nat} (hC : x0 = cl + cm * 524288 + ch * 67108864) (h1 : x1 < 128) (hl : cl + 520192 < 524288) (hm : cm < 128) :
    bits (x0 + x1 * 4096) 19 7 = cm :=
  bits_at (l := cl + x1 * 4096) (h := ch) (by omega) (by omega) (by omega)

theorem field30 {x0 x1 cl ch cm : Nat} (hC : x0 = cl + cm * 32 + ch * 4096) (_h1 : x1 < 128) (hl : cl + 0 < 32) (hm : cm < 128) :
    bits (x0 + x1 * 4096) 5 7 = cm :=
  bits_at (l := cl) (h := ch + x1 * 1) (by omega) (by omega) (by omega)

theorem field31 {x0 x1 x2 x3 x4 x5 cl ch cm : Nat} (hC : x0 = cl + cm * 67108864 + ch * 4294967296) (h1 : x1 < 128) (h2 : x2 < 128) (h3 : x3 < 128) (h4 : x4 < 2) (h5 : x5 < 16) (hl : cl + 67108863 < 67108864) (hm : cm < 64) :
    bits (x0 + x1 * 524288 + x2 * 4096 + x3 * 32 + x4 * 16 + x5) 26 6 = cm :=
  bits_at (l := cl + x1 * 524288 + x2 * 4096 + x3 * 32 + x4 * 16 + x5 * 1) (h := ch) (by omega) (by omega) (by omega)

theorem field32 {x0 x1 x2 x3 x4 x5 cl ch : Nat} (hC : x0 = cl + ch * 16) (_h1 : x1 < 128) (_h2 : x2 < 128) (_h3 : x3 < 128) (_h4 : x4 < 2) (h5 : x5 < 16) (hl : cl + 0 < 1) :
    bits (x0 + x1 * 524288 + x2 * 4096 + x3 * 32 + x4 * 16 + x5) 0 4 = x5 :=
  bits_at (l := cl) (h := ch + x1 * 32768 + x2 * 256 + x3 * 2 + x4 * 1) (by omega) (by omega) (by omega)

theorem field33 {x0 x1 x2 x3 x4 x5 cl ch : Nat} (hC : x0 = cl + ch * 524288) (_h1 : x1 < 128) (h2 : x2 < 128) (h3 : x3 < 128) (h4 : x4 < 2) (h5 : x5 < 16) (hl : cl + 4095 < 4096) :
    bits (x0 + x1 * 524288 + x2 * 4096 + x3 * 32 + x4 * 16 + x5) 12 7 = x2 :=
  bits_at (l := cl + x3 * 32 + x4 * 16 + x5 * 1) (h := ch + x1 * 1) (by omega) (by omega) (by omega)

theorem field34 {x0 x1 x2 x3 x4 x5 cl ch : Nat} (hC : x0 = cl + ch * 67108864) (h1 : x1 < 128) (h2 : x2 < 128) (h3 : x3 < 128) (h4 : x4 < 2) (h5 : x5 < 16) (hl : cl + 524287 < 524288) :
    bits (x0 + x1 * 524288 + x2 * 4096 + x3 * 32 + x4 * 16 + x5) 19 7 = x1 :=
  bits_at (l := cl + x2 * 4096 + x3 * 32 + x4 * 16 + x5 * 1) (h := ch) (by omega) (by omega) (by omega)

theorem field35 {x0 x1 x2 x3 x4 x5 cl ch : Nat} (hC : x0 = cl + ch * 32) (_h1 : x1 < 128) (_h2 : x2 < 128) (_h3 : x3 < 128) (h4 : x4 < 2) (h5 : x5 < 16) (hl : cl + 15 < 16) :
    bits (x0 + x1 * 524288 + x2 * 4096 + x3 * 32 + x4 * 16 + x5) 4 1 = x4 :=
  bits_at (l := cl + x5 * 1) (h := ch + x1 * 16384 + x2 * 128 + x3 * 1) (by omega) (by omega) (by omega)

theorem field36 {x0 x1 x2 x3 x4 x5 cl ch : Nat} (hC : x0 = cl + ch * 4096) (_h1 : x1 < 128) (_h2 : x2 < 128) (h3 : x3 < 128) (h4 : x4 < 2) (h5 : x5 < 16) (hl : cl + 31 < 32) :
    bits (x0 + x1 * 524288 + x2 * 4096 + x3 * 32 + x4 * 16 + x5) 5 7 = x3 :=
  bits_at (l := cl + x4 * 16 + x5 * 1) (h := ch + x1 * 128 + x2 * 1) (by omega) (by omega) (by omega)

theorem field37 {x0 x1 x2 x3 cl ch cm : Nat} (hC : x0 = cl + cm * 67108864 + ch * 4294967296) (h1 : x1 < 128) (h2 : x2 < 128) (h3 : x3 < 4096) (hl : cl + 67108863 < 67108864) (hm : cm < 64) :
    bits (x0 + x1 * 524288 + x2 * 4096 + x3) 26 6 = cm :=
  bits_at (l := cl + x1 * 524288 + x2 * 4096 + x3 * 1) (h := ch) (by omega) (by omega) (by omega)

theorem field38 {x0 x1 x2 x3 cl ch : Nat} (hC : x0 = cl + ch * 4096) (_h1 : x1 < 128) (_h2 : x2 < 128) (h3 : x3 < 4096) (hl : cl + 0 < 1) :
    bits (x0 + x1 * 524288 + x2 * 4096 + x3) 0 12 = x3 :=
  bits_at (l := cl) (h := ch + x1 * 128 + x2 * 1) (by omega) (by omega) (by omega)

theorem field39 {x0 x1 x2 x3 cl ch : Nat} (hC : x0 = cl + ch * 524288) (_h1 : x1 < 128) (h2 : x2 < 128) (h3 : x3 < 4096) (hl : cl + 4095 < 4096) :
    bits (x0 + x1 * 524288 + x2 * 4096 + x3) 12 7 = x2 :=
  bits_at (l := cl + x3 * 1) (h := ch + x1 * 1) (by omega) (by omega) (by omega)

theorem field40 {x0 x1 x2 x3 cl ch : Nat} (hC : x0 = cl + ch * 67108864) (h1 : x1 < 128) (h2 : x2 < 128) (h3 : x3 < 4096) (hl : cl + 524287 < 524288) :
    bits (x0 + x1 * 524288 + x2 * 4096 + x3) 19 7 = x1 :=
  bits_at (l := cl + x2 * 4096 + x3 * 1) (h := ch) (by omega) (by omega) (by omega)

theorem field41 {x0 x1 x2 x3 cl ch cm : Nat} (hC : x0 = cl + cm * 67108864 + ch * 4294967296) (h1 : x1 < 128) (h2 : x2 < 128) (h3 : x3 < 256) (hl : cl + 67105023 < 67108864) (hm : cm < 64) :
    bits (x0 + x1 * 524288 + x2 * 4096 + x3) 26 6 = cm :=
  bits_at (l := cl + x1 * 524288 + x2 * 4096 + x3 * 1) (h := ch) (by omega) (by omega) (by omega)

theorem field42 {x0 x1 x2 x3 cl ch : Nat} (hC : x0 = cl + ch * 256) (_h1 : x1 < 128) (_h2 : x2 < 128) (h3 : x3 < 256) (hl : cl + 0 < 1) :
    bits (x0 + x1 * 524288 + x2 * 4096 + x3) 0 8 = x3 :=
  bits_at (l := cl) (h := ch + x1 * 2048 + x2 * 16) (by omega) (by omega) (by omega)

theorem field43 {x0 x1 x2 x3 cl ch : Nat} (hC : x0 = cl + ch * 524288) (_h1 : x1 < 128) (h2 : x2 < 128) (h3 : x3 < 256) (hl : cl + 255 < 4096) :
    bits (x0 + x1 * 524288 + x2 * 4096 + x3) 12 7 = x2 :=
  bits_at (l := cl + x3 * 1) (h := ch + x1 * 1) (by omega) (by omega) (by omega)

theorem field44 {x0 x1 x2 x3 cl ch : Nat} (hC : x0 = cl + ch * 67108864) (h1 : x1 < 128) (h2 : x2 < 128) (h3 : x3 < 256) (hl : cl + 520447 < 524288) :
    bits (x0 + x1 * 524288 + x2 * 4096 + x3) 19 7 = x1 :=
  bits_at (l := cl + x2 * 4096 + x3 * 1) (h := ch) (by omega) (by omega) (by omega)

theorem field45 {x0 x1 x2 x3 cl ch cm : Nat} (hC : x0 = cl + cm * 256 + ch * 4096) (_h1 : x1 < 128) (_h2 : x2 < 128) (h3 : x3 < 256) (hl : cl + 255 < 256) (hm : cm < 16) :
    bits (x0 + x1 * 524288 + x2 * 4096 + x3) 8 4 = cm :=
  bits_at (l := cl + x3 * 1) (h := ch + x1 * 128 + x2 * 1) (by omega) (by omega) (by omega)

theorem field46 {x0 x1 x2 x3 x4 cl ch cm : Nat} (hC : x0 = cl + cm * 67108864 + ch * 4294967296) (h1 : x1 < 128) (h2 : x2 < 128) (h3 : x3 < 64) (h4 : x4 < 64) (hl : cl + 67108863 < 67108864) (hm : cm < 64) :
    bits (x0 + x1 * 524288 + x2 * 4096 + x3 * 64 + x4) 26 6 = cm :=
  bits_at (l := cl + x1 * 524288 + x2 * 4096 + x3 * 64 + x4 * 1) (h := ch) (by omega) (by omega) (by omega)

theorem field47 {x0 x1 x2 x3 x4 cl ch : Nat} (hC : x0 = cl + ch * 64) (_h1 : x1 < 128) (_h2 : x2 < 128) (_h3 : x3 < 64) (h4 : x4 < 64) (hl : cl + 0 < 1) :
    bits (x0 + x1 * 524288 + x2 * 4096 + x3 * 64 + x4) 0 6 = x4 :=
  bits_at (l := cl) (h := ch + x1 * 8192 + x2 * 64 + x3 * 1) (by omega) (by omega) (by omega)

theorem field48 {x0 x1 x2 x3 x4 cl ch : Nat} (hC : x0 = cl + ch * 524288) (_h1 : x1 < 128) (h2 : x2 < 128) (h3 : x3 < 64) (h4 : x4 < 64) (hl : cl + 4095 < 4096) :
    bits (x0 + x1 * 524288 + x2 * 4096 + x3 * 64 + x4) 12 7 = x2 :=
  bits_at (l := cl + x3 * 64 + x4 * 1) (h := ch + x1 * 1) (by omega) (by omega) (by omega)

theorem field49 {x0 x1 x2 x3 x4 cl ch : Nat} (hC : x0 = cl + ch * 67108864) (h1 : x1 < 128) (h2 : x2 < 128) (h3 : x3 < 64) (h4 : x4 < 64) (hl : cl + 524287 < 524288) :
    bits (x0 + x1 * 524288 + x2 * 4096 + x3 * 64 + x4) 19 7 = x1 :=
  bits_at (l := cl + x2 * 4096 + x3 * 64 + x4 * 1) (h := ch) (by omega) (by omega) (by omega)

theorem field50 {x0 x1 x2 x3 x4 cl ch : Nat} (hC : x0 = cl + ch * 4096) (_h1 : x1 < 128) (_h2 : x2 < 128) (h3 : x3 < 64) (h4 : x4 < 64) (hl : cl + 63 < 64) :
    bits (x0 + x1 * 524288 + x2 * 4096 + x3 * 64 + x4) 6 6 = x3 :=
  bits_at (l := cl + x4 * 1) (h := ch + x1 * 128 + x2 * 1) (by omega) (by omega) (by omega)

theorem field51 {x0 x1 x2 cl ch cm : Nat} (hC : x0 = cl + cm * 67108864 + ch * 4294967296) (h1 : x1 < 128) (h2 : x2 < 524288) (hl : cl + 67108863 < 67108864) (hm : cm < 64) :
    bits (x0 + x1 * 524288 + x2) 26 6 = cm :=
  bits_at (l := cl + x1 * 524288 + x2 * 1) (h := ch) (by omega) (by omega) (by omega)

theorem field52 {x0 x1 x2 cl ch : Nat} (hC : x0 = cl + ch * 524288) (_h1 : x1 < 128) (h2 : x2 < 524288) (hl : cl + 0 < 1) :
    bits (x0 + x1 * 524288 + x2) 0 19 = x2 :=
  bits_at (l := cl) (h := ch + x1 * 1) (by omega) (by omega) (by omega)

theorem field53 {x0 x1 x2 cl ch : Nat} (hC : x0 = cl + ch * 67108864) (h1 : x1 < 128) (h2 : x2 < 524288) (hl : cl + 524287 < 524288) :
    bits (x0 + x1 * 524288 + x2) 19 7 = x1 :=
  bits_at (l := cl + x2 * 1) (h := ch) (by omega) (by omega) (by omega)

theorem field54 {x0 x1 x2 x3 cl ch cm : Nat} (hC : x0 = cl + cm * 67108864 + ch * 4294967296) (h1 : x1 < 128) (h2 : x2 < 4) (h3 : x3 < 65536) (hl : cl + 66846719 < 67108864) (hm : cm < 64) :
    bits (x0 + x1 * 524288 + x2 * 65536 + x3) 26 6 = cm :=
  bits_at (l := cl + x1 * 524288 + x2 * 65536 + x3 * 1) (h := ch) (by omega) (by omega) (by omega)

theorem field55 {x0 x1 x2 x3 cl ch : Nat} (hC : x0 = cl + ch * 65536) (_h1 : x1 < 128) (_h2 : x2 < 4) (h3 : x3 < 65536) (hl : cl + 0 < 1) :
    bits (x0 + x1 * 524288 + x2 * 65536 + x3) 0 16 = x3 :=
  bits_at (l := cl) (h := ch + x1 * 8 + x2 * 1) (by omega) (by omega) (by omega)

theorem field56 {x0 x1 x2 x3 cl ch : Nat} (hC : x0 = cl + ch * 262144) (_h1 : x1 < 128) (h2 : x2 < 4) (h3 : x3 < 65536) (hl : cl + 65535 < 65536) :
    bits (x0 + x1 * 524288 + x2 * 65536 + x3) 16 2 = x2 :=
  bits_at (l := cl + x3 * 1) (h := ch + x1 * 2) (by omega) (by omega) (by omega)

theorem field57 {x0 x1 x2 x3 cl ch cm : Nat} (hC : x0 = cl + cm * 262144 + ch * 524288) (_h1 : x1 < 128) (h2 : x2 < 4) (h3 : x3 < 65536) (hl : cl + 262143 < 262144) (hm : cm < 2) :
    bits (x0 + x1 * 524288 + x2 * 65536 + x3) 18 1 = cm :=
  bits_at (l := cl + x2 * 65536 + x3 * 1) (h := ch + x1 * 1) (by omega) (by omega) (by omega)

theorem field58 {x0 x1 x2 x3 cl ch : Nat} (hC : x0 = cl + ch * 67108864) (h1 : x1 < 128) (h2 : x2 < 4) (h3 : x3 < 65536) (hl : cl + 262143 < 524288) :
    bits (x0 + x1 * 524288 + x2 * 65536 + x3) 19 7 = x1 :=
  bits_at (l := cl + x2 * 65536 + x3 * 1) (h := ch) (by omega) (by omega) (by omega)

theorem field59 {x0 x1 x2 x3 x4 x5 cl ch cm : Nat} (hC : x0 = cl + cm * 67108864 + ch * 4294967296) (h1 : x1 < 16) (h2 : x2 < 16) (h3 : x3 < 128) (h4 : x4 < 128) (h5 : x5 < 4) (hl : cl + 67108851 < 67108864) (hm : cm < 64) :
    bits (x0 + x1 * 4194304 + x2 * 262144 + x3 * 2048 + x4 * 16 + x5) 26 6 = cm :=
  bits_at (l := cl + x1 * 4194304 + x2 * 262144 + x3 * 2048 + x4 * 16 + x5 * 1) (h := ch) (by omega) (by omega) (by omega)

theorem field60 {x0 x1 x2 x3 x4 x5 cl ch : Nat} (hC : x0 = cl + ch * 4) (_h1 : x1 < 16) (_h2 : x2 < 16) (_h3 : x3 < 128) (_h4 : x4 < 128) (h5 : x5 < 4) (hl : cl + 0 < 1) :
    bits (x0 + x1 * 4194304 + x2 * 262144 + x3 * 2048 + x4 * 16 + x5) 0 2 = x5 :=
  bits_at (l := cl) (h := ch + x1 * 1048576 + x2 * 65536 + x3 * 512 + x4 * 4) (by omega) (by omega) (by omega)

theorem field61 {x0 x1 x2 x3 x4 x5 cl ch : Nat} (hC : x0 = cl + ch * 262144) (_h1 : x1 < 16) (_h2 : x2 < 16) (h3 : x3 < 128) (h4 : x4 < 128) (h5 : x5 < 4) (hl : cl + 2035 < 2048) :
    bits (x0 + x1 * 4194304 + x2 * 262144 + x3 * 2048 + x4 * 16 + x5) 11 7 = x3 :=
  bits_at (l := cl + x4 * 16 + x5 * 1) (h := ch + x1 * 16 + x2 * 1) (by omega) (by omega) (by omega)

theorem field62 {x0 x1 x2 x3 x4 x5 cl ch : Nat} (hC : x0 = cl + ch * 4194304) (_h1 : x1 < 16) (h2 : x2 < 16) (h3 : x3 < 128) (h4 : x4 < 128) (h5 : x5 < 4) (hl : cl + 262131 < 262144) :
    bits (x0 + x1 * 4194304 + x2 * 262144 + x3 * 2048 + x4 * 16 + x5) 18 4 = x2 :=
  bits_at (l := cl + x3 * 2048 + x4 * 16 + x5 * 1) (h := ch + x1 * 1) (by omega) (by omega) (by omega)

theorem field63 {x0 x1 x2 x3 x4 x5 cl ch cm : Nat} (hC : x0 = cl + cm * 4 + ch * 16) (_h1 : x1 < 16) (_h2 : x2 < 16) (_h3 : x3 < 128) (_h4 : x4 < 128) (h5 : x5 < 4) (hl : cl + 3 < 4) (hm : cm < 4) :
    bits (x0 + x1 * 4194304 + x2 * 262144 + x3 * 2048 + x4 * 16 + x5) 2 2 = cm :=
  bits_at (l := cl + x5 * 1) (h := ch + x1 * 262144 + x2 * 16384 + x3 * 128 + x4 * 1) (by omega) (by omega) (by omega)

theorem field64 {x0 x1 x2 x3 x4 x5 cl ch : Nat} (hC : x0 = cl + ch * 67108864) (h1 : x1 < 16) (h2 : x2 < 16) (h3 : x3 < 128) (h4 : x4 < 128) (h5 : x5 < 4) (hl : cl + 4194291 < 4194304) :
    bits (x0 + x1 * 4194304 + x2 * 262144 + x3 * 2048 + x4 * 16 + x5) 22 4 = x1 :=
  bits_at (l := cl + x2 * 262144 + x3 * 2048 + x4 * 16 + x5 * 1) (h := ch) (by omega) (by omega) (by omega)

theorem field65 {x0 x1 x2 x3 x4 x5 cl ch : Nat} (hC : x0 = cl + ch * 2048) (_h1 : x1 < 16) (_h2 : x2 < 16) (_h3 : x3 < 128) (h4 : x4 < 128) (h5 : x5 < 4) (hl : cl + 3 < 16) :
    bits (x0 + x1 * 4194304 + x2 * 262144 + x3 * 2048 + x4 * 16 + x5) 4 7 = x4 :=
  bits_at (l := cl + x5 * 1) (h := ch + x1 * 2048 + x2 * 128 + x3 * 1) (by omega) (by omega) (by omega)

theorem field66 {x0 x1 x2 x3 x4 cl ch cm : Nat} (hC : x0 = cl + cm * 67108864 + ch * 4294967296) (h1 : x1 < 16) (h2 : x2 < 16) (h3 : x3 < 128) (h4 : x4 < 2048) (hl : cl + 67108863 < 67108864) (hm : cm < 64) :
    bits (x0 + x1 * 4194304 + x2 * 262144 + x3 * 2048 + x4) 26 6 = cm :=
  bits_at (l := cl + x1 * 4194304 + x2 * 262144 + x3 * 2048 + x4 * 1) (h := ch) (by omega) (by omega) (by omega)

theorem field67 {x0 x1 x2 x3 x4 cl ch : Nat} (hC : x0 = cl + ch * 2048) (_h1 : x1 < 16) (_h2 : x2 < 16) (_h3 : x3 < 128) (h4 : x4 < 2048) (hl : cl + 0 < 1) :
    bits (x0 + x1 * 4194304 + x2 * 262144 + x3 * 2048 + x4) 0 11 = x4 :=
  bits_at (l := cl) (h := ch + x1 * 2048 + x2 * 128 + x3 * 1) (by omega) (by omega) (by omega)

theorem field68 {x0 x1 x2 x3 x4 cl ch : Nat} (hC : x0 = cl + ch * 262144) (_h1 : x1 < 16) (_h2 : x2 < 16) (h3 : x3 < 128) (h4 : x4 < 2048) (hl : cl + 2047 < 2048) :
    bits (x0 + x1 * 4194304 + x2 * 262144 + x3 * 2048 + x4) 11 7 = x3 :=
  bits_at (l := cl + x4 * 1) (h := ch + x1 * 16 + x2 * 1) (by omega) (by omega) (by omega)

theorem field69 {x0 x1 x2 x3 x4 cl ch : Nat} (hC : x0 = cl + ch * 4194304) (_h1 : x1 < 16) (h2 : x2 < 16) (h3 : x3 < 128) (h4 : x4 < 2048) (hl : cl + 262143 < 262144) :
    bits (x0 + x1 * 4194304 + x2 * 262144 + x3 * 2048 + x4) 18 4 = x2 :=
  bits_at (l := cl + x3 * 2048 + x4 * 1) (h := ch + x1 * 1) (by omega) (by omega) (by omega)

theorem field70 {x0 x1 x2 x3 x4 cl ch : Nat} (hC : x0 = cl + ch * 67108864) (h1 : x1 < 16) (h2 : x2 < 16) (h3 : x3 < 128) (h4 : x4 < 2048) (hl : cl + 4194303 < 4194304) :
    bits (x0 + x1 * 4194304 + x2 * 262144 + x3 * 2048 + x4) 22 4 = x1 :=
  bits_at (l := cl + x2 * 262144 + x3 * 2048 + x4 * 1) (h := ch) (by omega) (by omega) (by omega)

theorem field71 {x0 x1 x2 x3 x4 cl ch cm : Nat} (hC : x0 = cl + cm * 67108864 + ch * 4294967296) (h1 : x1 < 16) (h2 : x2 < 8) (h3 : x3 < 16) (h4 : x4 < 16) (hl : cl + 64780528 < 67108864) (hm : cm < 64) :
    bits (x0 + x1 * 4194304 + x2 * 262144 + x3 * 2048 + x4 * 16) 26 6 = cm :=
  bits_at (l := cl + x1 * 4194304 + x2 * 262144 + x3 * 2048 + x4 * 16) (h := ch) (by omega) (by omega) (by omega)

theorem field72 {x0 x1 x2 x3 x4 cl ch cm : Nat} (hC : x0 = cl + cm * 1 + ch * 16) (_h1 : x1 < 16) (_h2 : x2 < 8) (_h3 : x3 < 16) (_h4 : x4 < 16) (hl : cl + 0 < 1) (hm : cm < 16) :
    bits (x0 + x1 * 4194304 + x2 * 262144 + x3 * 2048 + x4 * 16) 0 4 = cm :=
  bits_at (l := cl) (h := ch + x1 * 262144 + x2 * 16384 + x3 * 128 + x4 * 1) (by omega) (by omega) (by omega)

theorem field73 {x0 x1 x2 x3 x4 cl ch : Nat} (hC : x0 = cl + ch * 32768) (_h1 : x1 < 16) (_h2 : x2 < 8) (h3 : x3 < 16) (h4 : x4 < 16) (hl : cl + 240 < 2048) :
    bits (x0 + x1 * 4194304 + x2 * 262144 + x3 * 2048 + x4 * 16) 11 4 = x3 :=
  bits_at (l := cl + x4 * 16) (h := ch + x1 * 128 + x2 * 8) (by omega) (by omega) (by omega)

theorem field74 {x0 x1 x2 x3 x4 cl ch cm : Nat} (hC : x0 = cl + cm * 32768 + ch * 262144) (_h1 : x1 < 16) (_h2 : x2 < 8) (h3 : x3 < 16) (h4 : x4 < 16) (hl : cl + 30960 < 32768) (hm : cm < 8) :
    bits (x0 + x1 * 4194304 + x2 * 262144 + x3 * 2048 + x4 * 16) 15 3 = cm :=
  bits_at (l := cl + x3 * 2048 + x4 * 16) (h := ch + x1 * 16 + x2 * 1) (by omega) (by omega) (by omega)

theorem field75 {x0 x1 x2 x3 x4 cl ch : Nat} (hC : x0 = cl + ch * 2097152) (_h1 : x1 < 16) (h2 : x2 < 8) (h3 : x3 < 16) (h4 : x4 < 16) (hl : cl + 30960 < 262144) :
    bits (x0 + x1 * 4194304 + x2 * 262144 + x3 * 2048 + x4 * 16) 18 3 = x2 :=
  bits_at (l := cl + x3 * 2048 + x4 * 16) (h := ch + x1 * 2) (by omega) (by omega) (by omega)

theorem field76 {x0 x1 x2 x3 x4 cl ch cm : Nat} (hC : x0 = cl + cm * 2097152 + ch * 4194304) (_h1 : x1 < 16) (h2 : x2 < 8) (h3 : x3 < 16) (h4 : x4 < 16) (hl : cl + 1865968 < 2097152) (hm : cm < 2) :
    bits (x0 + x1 * 4194304 + x2 * 262144 + x3 * 2048 + x4 * 16) 21 1 = cm :=
  bits_at (l := cl + x2 * 262144 + x3 * 2048 + x4 * 16) (h := ch + x1 * 1) (by omega) (by omega) (by omega)

theorem field77 {x0 x1 x2 x3 x4 cl ch : Nat} (hC : x0 = cl + ch * 67108864) (h1 : x1 < 16) (h2 : x2 < 8) (h3 : x3 < 16) (h4 : x4 < 16) (hl : cl + 1865968 < 4194304) :
    bits (x0 + x1 * 4194304 + x2 * 262144 + x3 * 2048 + x4 * 16) 22 4 = x1 :=
  bits_at (l := cl + x2 * 262144 + x3 * 2048 + x4 * 16) (h := ch) (by omega) (by omega) (by omega)

theorem field78 {x0 x1 x2 x3 x4 cl ch : Nat} (hC : x0 = cl + ch * 256) (_h1 : x1 < 16) (_h2 : x2 < 8) (_h3 : x3 < 16) (h4 : x4 < 16) (hl : cl + 0 < 16) :
    bits (x0 + x1 * 4194304 + x2 * 262144 + x3 * 2048 + x4 * 16) 4 4 = x4 :=
  bits_at (l := cl) (h := ch + x1 * 16384 + x2 * 1024 + x3 * 8) (by omega) (by omega) (by omega)

theorem field79 {x0 x1 x2 x3 x4 cl ch cm : Nat} (hC : x0 = cl + cm * 256 + ch * 2048) (_h1 : x1 < 16) (_h2 : x2 < 8) (_h3 : x3 < 16) (h4 : x4 < 16) (hl : cl + 240 < 256) (hm : cm < 8) :
    bits (x0 + x1 * 4194304 + x2 * 262144 + x3 * 2048 + x4 * 16) 8 3 = cm :=
  bits_at (l := cl + x4 * 16) (h := ch + x1 * 2048 + x2 * 128 + x3 * 1) (by omega) (by omega) (by omega)

theorem field80 {x0 x1 x2 x3 cl ch cm : Nat} (hC : x0 = cl + cm * 67108864 + ch * 4294967296) (h1 : x1 < 2) (h2 : x2 < 16) (h3 : x3 < 2097152) (hl : cl + 67108863 < 67108864) (hm : cm < 64) :
    bits (x0 + x1 * 33554432 + x2 * 2097152 + x3) 26 6 = cm :=
  bits_at (l := cl + x1 * 33554432 + x2 * 2097152 + x3 * 1) (h := ch) (by omega) (by omega) (by omega)

theorem field81 {x0 x1 x2 x3 cl ch : Nat} (hC : x0 = cl + ch * 2097152) (_h1 : x1 < 2) (_h2 : x2 < 16) (h3 : x3 < 2097152) (hl : cl + 0 < 1) :
    bits (x0 + x1 * 33554432 + x2 * 2097152 + x3) 0 21 = x3 :=
  bits_at (l := cl) (h := ch + x1 * 16 + x2 * 1) (by omega) (by omega) (by omega)

theorem field82 {x0 x1 x2 x3 cl ch : Nat} (hC : x0 = cl + ch * 33554432) (_h1 : x1 < 2) (h2 : x2 < 16) (h3 : x3 < 2097152) (hl : cl + 2097151 < 2097152) :
    bits (x0 + x1 * 33554432 + x2 * 2097152 + x3) 21 4 = x2 :=
  bits_at (l := cl + x3 * 1) (h := ch + x1 * 1) (by omega) (by omega) (by omega)

theorem field83 {x0 x1 x2 x3 cl ch : Nat} (hC : x0 = cl + ch * 67108864) (h1 : x1 < 2) (h2 : x2 < 16) (h3 : x3 < 2097152) (hl : cl + 33554431 < 33554432) :
    bits (x0 + x1 * 33554432 + x2 * 2097152 + x3) 25 1 = x1 :=
  bits_at (l := cl + x2 * 2097152 + x3 * 1) (h := ch) (by omega) (by omega) (by omega)

theorem field84 {x0 x1 cl ch cm : Nat} (hC : x0 = cl + cm * 67108864 + ch * 4294967296) (h1 : x1 < 67108864) (hl : cl + 67108863 < 67108864) (hm : cm < 64) :
    bits (x0 + x1) 26 6 = cm :=
  bits_at (l := cl + x1 * 1) (h := ch) (by omega) (by omega) (by omega)

theorem field85 {x0 x1 cl ch : Nat} (hC : x0 = cl + ch * 67108864) (h1 : x1 < 67108864) (hl : cl + 0 < 1) :
    bits (x0 + x1) 0 26 = x1 :=
  bits_at (l := cl) (h := ch) (by omega) (by omega) (by omega)

theorem field86 {x0 cl ch cm : Nat} (hC : x0 = cl + cm * 67108864 + ch * 4294967296) (hl : cl + 0 < 67108864) (hm : cm < 64) :
    bits (x0) 26 6 = cm :=
  bits_at (l := cl) (h := ch) (by omega) (by omega) (by omega)

theorem field87 {x0 cl ch cm : Nat} (hC : x0 = cl + cm * 1 + ch * 32) (hl : cl + 0 < 1) (hm : cm < 32) :
    bits (x0) 0 5 = cm :=
  bits_at (l := cl) (h := ch) (by omega) (by omega) (by omega)

theorem field88 {x0 cl ch cm : Nat} (hC : x0 = cl + cm * 32 + ch * 67108864) (hl : cl + 0 < 32) (hm : cm < 2097152) :
    bits (x0) 5 21 = cm :=
  bits_at (l := cl) (h := ch) (by omega) (by omega) (by omega)

theorem field89 {x0 x1 x2 cl ch cm : Nat} (hC : x0 = cl + cm * 67108864 + ch * 4294967296) (h1 : x1 < 128) (h2 : x2 < 128) (hl : cl + 524256 < 67108864) (hm : cm < 64) :
    bits (x0 + x1 * 4096 + x2 * 32) 26 6 = cm :=
  bits_at (l := cl + x1 * 4096 + x2 * 32) (h := ch) (by omega) (by omega) (by omega)

theorem field90 {x0 x1 x2 cl ch cm : Nat} (hC : x0 = cl + cm * 1 + ch * 32) (_h1 : x1 < 128) (_h2 : x2 < 128) (hl : cl + 0 < 1) (hm : cm < 32) :
    bits (x0 + x1 * 4096 + x2 * 32) 0 5 = cm :=
  bits_at (l := cl) (h := ch + x1 * 128 + x2 * 1) (by omega) (by omega) (by omega)

theorem field91 {x0 x1 x2 cl ch : Nat} (hC : x0 = cl + ch * 524288) (h1 : x1 < 128) (h2 : x2 < 128) (hl : cl + 4064 < 4096) :
    bits (x0 + x1 * 4096 + x2 * 32) 12 7 = x1 :=
  bits_at (l := cl + x2 * 32) (h := ch) (by omega) (by omega) (by omega)

theorem field92 {x0 x1 x2 cl ch cm : Nat} (hC : x0 = cl + cm * 524288 + ch * 67108864) (h1 : x1 < 128) (h2 : x2 < 128) (hl : cl + 524256 < 524288) (hm : cm < 128) :
    bits (x0 + x1 * 4096 + x2 * 32) 19 7 = cm :=
  bits_at (l := cl + x1 * 4096 + x2 * 32) (h := ch) (by omega) (by omega) (by omega)

theorem field93 {x0 x1 x2 cl ch : Nat} (hC : x0 = cl + ch * 4096) (_h1 : x1 < 128) (h2 : x2 < 128) (hl : cl + 0 < 32) :
    bits (x0 + x1 * 4096 + x2 * 32) 5 7 = x2 :=
  bits_at (l := cl) (h := ch + x1 * 1) (by omega) (by omega) (by omega)

theorem field94 {x0 x1 x2 cl ch cm : Nat} (hC : x0 = cl + cm * 67108864 + ch * 4294967296) (h1 : x1 < 128) (h2 : x2 < 4096) (hl : cl + 67108736 < 67108864) (hm : cm < 64) :
    bits (x0 + x1 * 524288 + x2 * 128) 26 6 = cm :=
  bits_at (l := cl + x1 * 524288 + x2 * 128) (h := ch) (by omega) (by omega) (by omega)

theorem field95 {x0 x1 x2 cl ch cm : Nat} (hC : x0 = cl + cm * 1 + ch * 128) (_h1 : x1 < 128) (_h2 : x2 < 4096) (hl : cl + 0 < 1) (hm : cm < 128) :
    bits (x0 + x1 * 524288 + x2 * 128) 0 7 = cm :=
  bits_at (l := cl) (h := ch + x1 * 4096 + x2 * 1) (by omega) (by omega) (by omega)

theorem field96 {x0 x1 x2 cl ch : Nat} (hC : x0 = cl + ch * 67108864) (h1 : x1 < 128) (h2 : x2 < 4096) (hl : cl + 524160 < 524288) :
    bits (x0 + x1 * 524288 + x2 * 128) 19 7 = x1 :=
  bits_at (l := cl + x2 * 128) (h := ch) (by omega) (by omega) (by omega)

theorem field97 {x0 x1 x2 cl ch : Nat} (hC : x0 = cl + ch * 524288) (_h1 : x1 < 128) (h2 : x2 < 4096) (hl : cl + 0 < 128) :
    bits (x0 + x1 * 524288 + x2 * 128) 7 12 = x2 :=
  bits_at (l := cl) (h := ch + x1 * 1) (by omega) (by omega) (by omega)

theorem field98 {x0 x1 cl ch cm : Nat} (hC : x0 = cl + cm * 1 + ch * 128) (_h1 : x1 < 128) (hl : cl + 0 < 1) (hm : cm < 128) :
    bits (x0 + x1 * 524288) 0 7 = cm :=
  bits_at (l := cl) (h := ch + x1 * 4096) (by omega) (by omega) (by omega)

theorem field99 {x0 x1 cl ch cm : Nat} (hC : x0 = cl + cm * 128 + ch * 524288) (_h1 : x1 < 128) (hl : cl + 0 < 128) (hm : cm < 4096) :
    bits (x0 + x1 * 524288) 7 12 = cm :=
  bits_at (l := cl) (h := ch + x1 * 1) (by omega) (by omega) (by omega)

theorem field100 {x0 x1 cl ch cm : Nat} (hC : x0 = cl + cm * 67108864 + ch * 4294967296) (h1 : x1 < 4096) (hl : cl + 524160 < 67108864) (hm : cm < 64) :
    bits (x0 + x1 * 128) 26 6 = cm :=
  bits_at (l := cl + x1 * 128) (h := ch) (by omega) (by omega) (by omega)

theorem field101 {x0 x1 cl ch cm : Nat} (hC : x0 = cl + cm * 1 + ch * 128) (_h1 : x1 < 4096) (hl : cl + 0 < 1) (hm : cm < 128) :
    bits (x0 + x1 * 128) 0 7 = cm :=
  bits_at (l := cl) (h := ch + x1 * 1) (by omega) (by omega) (by omega)

theorem field102 {x0 x1 cl ch cm : Nat} (hC : x0 = cl + cm * 524288 + ch * 67108864) (h1 : x1 < 4096) (hl : cl + 524160 < 524288) (hm : cm < 128) :
    bits (x0 + x1 * 128) 19 7 = cm :=
  bits_at (l := cl + x1 * 128) (h := ch) (by omega) (by omega) (by omega)

theorem field103 {x0 x1 cl ch : Nat} (hC : x0 = cl + ch * 524288) (h1 : x1 < 4096) (hl : cl + 0 < 128) :
    bits (x0 + x1 * 128) 7 12 = x1 :=
  bits_at (l := cl) (h := ch) (by omega) (by omega) (by omega)

theorem field104 {x0 cl ch cm : Nat} (hC : x0 = cl + cm * 1 + ch * 128) (hl : cl + 0 < 1) (hm : cm < 128) :
    bits (x0) 0 7 = cm :=
  bits_at (l := cl) (h := ch) (by omega) (by omega) (by omega)

theorem field105 {x0 cl ch cm : Nat} (hC : x0 = cl + cm * 524288 + ch * 67108864) (hl : cl + 0 < 524288) (hm : cm < 128) :
    bits (x0) 19 7 = cm :=
  bits_at (l := cl) (h := ch) (by omega) (by omega) (by omega)

theorem field106 {x0 cl ch cm : Nat} (hC : x0 = cl + cm * 128 + ch * 524288) (hl : cl + 0 < 128) (hm : cm < 4096) :
    bits (x0) 7 12 = cm :=
  bits_at (l := cl) (h := ch) (by omega) (by omega) (by omega)

theorem field107 {x0 cl ch cm : Nat} (hC : x0 = cl + cm * 128 + ch * 67108864) (hl : cl + 0 < 128) (hm : cm < 524288) :
    bits (x0) 7 19 = cm :=
  bits_at (l := cl) (h := ch) (by omega) (by omega) (by omega)

theorem field108 {x0 x1 x2 x3 cl ch cm : Nat} (hC : x0 = cl + cm * 67108864 + ch * 4294967296) (h1 : x1 < 128) (h2 : x2 < 4096) (h3 : x3 < 64) (hl : cl + 67108799 < 67108864) (hm : cm < 64) :
    bits (x0 + x1 * 524288 + x2 * 128 + x3) 26 6 = cm :=
  bits_at (l := cl + x1 * 524288 + x2 * 128 + x3 * 1) (h := ch) (by omega) (by omega) (by omega)

theorem field109 {x0 x1 x2 x3 cl ch : Nat} (hC : x0 = cl + ch * 64) (_h1 : x1 < 128) (_h2 : x2 < 4096) (h3 : x3 < 64) (hl : cl + 0 < 1) :
    bits (x0 + x1 * 524288 + x2 * 128 + x3) 0 6 = x3 :=
  bits_at (l := cl) (h := ch + x1 * 8192 + x2 * 2) (by omega) (by omega) (by omega)

theorem field110 {x0 x1 x2 x3 cl ch : Nat} (hC : x0 = cl + ch * 67108864) (h1 : x1 < 128) (h2 : x2 < 4096) (h3 : x3 < 64) (hl : cl + 524223 < 524288) :
    bits (x0 + x1 * 524288 + x2 * 128 + x3) 19 7 = x1 :=
  bits_at (l := cl + x2 * 128 + x3 * 1) (h := ch) (by omega) (by omega) (by omega)

theorem field111 {x0 x1 x2 x3 cl ch cm : Nat} (hC : x0 = cl + cm * 64 + ch * 128) (_h1 : x1 < 128) (_h2 : x2 < 4096) (h3 : x3 < 64) (hl : cl + 63 < 64) (hm : cm < 2) :
    bits (x0 + x1 * 524288 + x2 * 128 + x3) 6 1 = cm :=
  bits_at (l := cl + x3 * 1) (h := ch + x1 * 4096 + x2 * 1) (by omega) (by omega) (by omega)

theorem field112 {x0 x1 x2 x3 cl ch : Nat} (hC : x0 = cl + ch * 524288) (_h1 : x1 < 128) (h2 : x2 < 4096) (h3 : x3 < 64) (hl : cl + 63 < 128) :
    bits (x0 + x1 * 524288 + x2 * 128 + x3) 7 12 = x2 :=
  bits_at (l := cl + x3 * 1) (h := ch + x1 * 1) (by omega) (by omega) (by omega)

theorem field113 {x0 x1 x2 x3 x4 cl ch cm : Nat} (hC : x0 = cl + cm * 67108864 + ch * 4294967296) (h1 : x1 < 128) (h2 : x2 < 128) (h3 : x3 < 2) (h4 : x4 < 512) (hl : cl + 67105791 < 67108864) (hm : cm < 64) :
    bits (x0 + x1 * 524288 + x2 * 4096 + x3 * 512 + x4) 26 6 = cm :=
  bits_at (l := cl + x1 * 524288 + x2 * 4096 + x3 * 512 + x4 * 1) (h := ch) (by omega) (by omega) (by omega)

theorem field114 {x0 x1 x2 x3 x4 cl ch : Nat} (hC : x0 = cl + ch * 512) (_h1 : x1 < 128) (_h2 : x2 < 128) (_h3 : x3 < 2) (h4 : x4 < 512) (hl : cl + 0 < 1) :
    bits (x0 + x1 * 524288 + x2 * 4096 + x3 * 512 + x4) 0 9 = x4 :=
  bits_at (l := cl) (h := ch + x1 * 1024 + x2 * 8 + x3 * 1) (by omega) (by omega) (by omega)

theorem field115 {x0 x1 x2 x3 x4 cl ch cm : Nat} (hC : x0 = cl + cm * 1024 + ch * 4096) (_h1 : x1 < 128) (_h2 : x2 < 128) (h3 : x3 < 2) (h4 : x4 < 512) (hl : cl + 1023 < 1024) (hm : cm < 4) :
    bits (x0 + x1 * 524288 + x2 * 4096 + x3 * 512 + x4) 10 2 = cm :=
  bits_at (l := cl + x3 * 512 + x4 * 1) (h := ch + x1 * 128 + x2 * 1) (by omega) (by omega) (by omega)

theorem field116 {x0 x1 x2 x3 x4 cl ch : Nat} (hC : x0 = cl + ch * 524288) (_h1 : x1 < 128) (h2 : x2 < 128) (h3 : x3 < 2) (h4 : x4 < 512) (hl : cl + 1023 < 4096) :
    bits (x0 + x1 * 524288 + x2 * 4096 + x3 * 512 + x4) 12 7 = x2 :=
  bits_at (l := cl + x3 * 512 + x4 * 1) (h := ch + x1 * 1) (by omega) (by omega) (by omega)

theorem field117 {x0 x1 x2 x3 x4 cl ch : Nat} (hC : x0 = cl + ch * 67108864) (h1 : x1 < 128) (h2 : x2 < 128) (h3 : x3 < 2) (h4 : x4 < 512) (hl : cl + 521215 < 524288) :
    bits (x0 + x1 * 524288 + x2 * 4096 + x3 * 512 + x4) 19 7 = x1 :=
  bits_at (l := cl + x2 * 4096 + x3 * 512 + x4 * 1) (h := ch) (by omega) (by omega) (by omega)

theorem field118 {x0 x1 x2 x3 x4 cl ch : Nat} (hC : x0 = cl + ch * 1024) (_h1 : x1 < 128) (_h2 : x2 < 128) (h3 : x3 < 2) (h4 : x4 < 512) (hl : cl + 511 < 512) :
    bits (x0 + x1 * 524288 + x2 * 4096 + x3 * 512 + x4) 9 1 = x3 :=
  bits_at (l := cl + x4 * 1) (h := ch + x1 * 512 + x2 * 4) (by omega) (by omega) (by omega)

theorem field119 {x0 x1 x2 x3 x4 cl ch cm : Nat} (hC : x0 = cl + cm * 67108864 + ch * 4294967296) (h1 : x1 < 128) (h2 : x2 < 128) (h3 : x3 < 128) (h4 : x4 < 8) (hl : cl + 67108839 < 67108864) (hm : cm < 64) :
    bits (x0 + x1 * 524288 + x2 * 4096 + x3 * 32 + x4) 26 6 = cm :=
  bits_at (l := cl + x1 * 524288 + x2 * 4096 + x3 * 32 + x4 * 1) (h := ch) (by omega) (by omega) (by omega)

theorem field120 {x0 x1 x2 x3 x4 cl ch : Nat} (hC : x0 = cl + ch * 8) (_h1 : x1 < 128) (_h2 : x2 < 128) (_h3 : x3 < 128) (h4 : x4 < 8) (hl : cl + 0 < 1) :
    bits (x0 + x1 * 524288 + x2 * 4096 + x3 * 32 + x4) 0 3 = x4 :=
  bits_at (l := cl) (h := ch + x1 * 65536 + x2 * 512 + x3 * 4) (by omega) (by omega) (by omega)

theorem field121 {x0 x1 x2 x3 x4 cl ch : Nat} (hC : x0 = cl + ch * 524288) (_h1 : x1 < 128) (h2 : x2 < 128) (h3 : x3 < 128) (h4 : x4 < 8) (hl : cl + 4071 < 4096) :
    bits (x0 + x1 * 524288 + x2 * 4096 + x3 * 32 + x4) 12 7 = x2 :=
  bits_at (l := cl + x3 * 32 + x4 * 1) (h := ch + x1 * 1) (by omega) (by omega) (by omega)

theorem field122 {x0 x1 x2 x3 x4 cl ch : Nat} (hC : x0 = cl + ch * 67108864) (h1 : x1 < 128) (h2 : x2 < 128) (h3 : x3 < 128) (h4 : x4 < 8) (hl : cl + 524263 < 524288) :
    bits (x0 + x1 * 524288 + x2 * 4096 + x3 * 32 + x4) 19 7 = x1 :=
  bits_at (l := cl + x2 * 4096 + x3 * 32 + x4 * 1) (h := ch) (by omega) (by omega) (by omega)

theorem field123 {x0 x1 x2 x3 x4 cl ch cm : Nat} (hC : x0 = cl + cm * 8 + ch * 32) (_h1 : x1 < 128) (_h2 : x2 < 128) (_h3 : x3 < 128) (h4 : x4 < 8) (hl : cl + 7 < 8) (hm : cm < 4) :
    bits (x0 + x1 * 524288 + x2 * 4096 + x3 * 32 + x4) 3 2 = cm :=
  bits_at (l := cl + x4 * 1) (h := ch + x1 * 16384 + x2 * 128 + x3 * 1) (by omega) (by omega) (by omega)

theorem field124 {x0 x1 x2 x3 x4 cl ch : Nat} (hC : x0 = cl + ch * 4096) (_h1 : x1 < 128) (_h2 : x2 < 128) (h3 : x3 < 128) (h4 : x4 < 8) (hl : cl + 7 < 32) :
    bits (x0 + x1 * 524288 + x2 * 4096 + x3 * 32 + x4) 5 7 = x3 :=
  bits_at (l := cl + x4 * 1) (h := ch + x1 * 128 + x2 * 1) (by omega) (by omega) (by omega)

theorem field125 {x0 x1 x2 x3 x4 cl ch cm : Nat} (hC : x0 = cl + cm * 67108864 + ch * 4294967296) (h1 : x1 < 128) (h2 : x2 < 128) (h3 : x3 < 8) (h4 : x4 < 64) (hl : cl + 67108415 < 67108864) (hm : cm < 64) :
    bits (x0 + x1 * 524288 + x2 * 4096 + x3 * 512 + x4) 26 6 = cm :=
  bits_at (l := cl + x1 * 524288 + x2 * 4096 + x3 * 512 + x4 * 1) (h := ch) (by omega) (by omega) (by omega)

theorem field126 {x0 x1 x2 x3 x4 cl ch : Nat} (hC : x0 = cl + ch * 64) (_h1 : x1 < 128) (_h2 : x2 < 128) (_h3 : x3 < 8) (h4 : x4 < 64) (hl : cl + 0 < 1) :
    bits (x0 + x1 * 524288 + x2 * 4096 + x3 * 512 + x4) 0 6 = x4 :=
  bits_at (l := cl) (h := ch + x1 * 8192 + x2 * 64 + x3 * 8) (by omega) (by omega) (by omega)

theorem field127 {x0 x1 x2 x3 x4 cl ch : Nat} (hC : x0 = cl + ch * 524288) (_h1 : x1 < 128) (h2 : x2 < 128) (h3 : x3 < 8) (h4 : x4 < 64) (hl : cl + 3647 < 4096) :
    bits (x0 + x1 * 524288 + x2 * 4096 + x3 * 512 + x4) 12 7 = x2 :=
  bits_at (l := cl + x3 * 512 + x4 * 1) (h := ch + x1 * 1) (by omega) (by omega) (by omega)

theorem field128 {x0 x1 x2 x3 x4 cl ch : Nat} (hC : x0 = cl + ch * 67108864) (h1 : x1 < 128) (h2 : x2 < 128) (h3 : x3 < 8) (h4 : x4 < 64) (hl : cl + 523839 < 524288) :
    bits (x0 + x1 * 524288 + x2 * 4096 + x3 * 512 + x4) 19 7 = x1 :=
  bits_at (l := cl + x2 * 4096 + x3 * 512 + x4 * 1) (h := ch) (by omega) (by omega) (by omega)

theorem field129 {x0 x1 x2 x3 x4 cl ch cm : Nat} (hC : x0 = cl + cm * 64 + ch * 512) (_h1 : x1 < 128) (_h2 : x2 < 128) (_h3 : x3 < 8) (h4 : x4 < 64) (hl : cl + 63 < 64) (hm : cm < 8) :
    bits (x0 + x1 * 524288 + x2 * 4096 + x3 * 512 + x4) 6 3 = cm :=
  bits_at (l := cl + x4 * 1) (h := ch + x1 * 1024 + x2 * 8 + x3 * 1) (by omega) (by omega) (by omega)

theorem field130 {x0 x1 x2 x3 x4 cl ch : Nat} (hC : x0 = cl + ch * 4096) (_h1 : x1 < 128) (_h2 : x2 < 128) (h3 : x3 < 8) (h4 : x4 < 64) (hl : cl + 63 < 512) :
    bits (x0 + x1 * 524288 + x2 * 4096 + x3 * 512 + x4) 9 3 = x3 :=
  bits_at (l := cl + x4 * 1) (h := ch + x1 * 128 + x2 * 1) (by omega) (by omega) (by omega)

theorem field131 {x0 x1 x2 x3 cl ch cm : Nat} (hC : x0 = cl + cm * 67108864 + ch * 4294967296) (h1 : x1 < 128) (h2 : x2 < 8) (h3 : x3 < 64) (hl : cl + 523839 < 67108864) (hm : cm < 64) :
    bits (x0 + x1 * 4096 + x2 * 512 + x3) 26 6 = cm :=
  bits_at (l := cl + x1 * 4096 + x2 * 512 + x3 * 1) (h := ch) (by omega) (by omega) (by omega)

theorem field132 {x0 x1 x2 x3 cl ch : Nat} (hC : x0 = cl + ch * 64) (_h1 : x1 < 128) (_h2 : x2 < 8) (h3 : x3 < 64) (hl : cl + 0 < 1) :
    bits (x0 + x1 * 4096 + x2 * 512 + x3) 0 6 = x3 :=
  bits_at (l := cl) (h := ch + x1 * 64 + x2 * 8) (by omega) (by omega) (by omega)

theorem field133 {x0 x1 x2 x3 cl ch : Nat} (hC : x0 = cl + ch * 524288) (h1 : x1 < 128) (h2 : x2 < 8) (h3 : x3 < 64) (hl : cl + 3647 < 4096) :
    bits (x0 + x1 * 4096 + x2 * 512 + x3) 12 7 = x1 :=
  bits_at (l := cl + x2 * 512 + x3 * 1) (h := ch) (by omega) (by omega) (by omega)

theorem field134 {x0 x1 x2 x3 cl ch cm : Nat} (hC : x0 = cl + cm * 524288 + ch * 67108864) (h1 : x1 < 128) (h2 : x2 < 8) (h3 : x3 < 64) (hl : cl + 523839 < 524288) (hm : cm < 128) :
    bits (x0 + x1 * 4096 + x2 * 512 + x3) 19 7 = cm :=
  bits_at (l := cl + x1 * 4096 + x2 * 512 + x3 * 1) (h := ch) (by omega) (by omega) (by omega)

theorem field135 {x0 x1 x2 x3 cl ch cm : Nat} (hC : x0 = cl + cm * 64 + ch * 512) (_h1 : x1 < 128) (_h2 : x2 < 8) (h3 : x3 < 64) (hl : cl + 63 < 64) (hm : cm < 8) :
    bits (x0 + x1 * 4096 + x2 * 512 + x3) 6 3 = cm :=
  bits_at (l := cl + x3 * 1) (h := ch + x1 * 8 + x2 * 1) (by omega) (by omega) (by omega)

theorem field136 {x0 x1 x2 x3 cl ch : Nat} (hC : x0 = cl + ch * 4096) (_h1 : x1 < 128) (h2 : x2 < 8) (h3 : x3 < 64) (hl : cl + 63 < 512) :
    bits (x0 + x1 * 4096 + x2 * 512 + x3) 9 3 = x2 :=
  bits_at (l := cl + x3 * 1) (h := ch + x1 * 1) (by omega) (by omega) (by omega)

theorem field137 {x0 x1 x2 cl ch cm : Nat} (hC : x0 = cl + cm * 1 + ch * 64) (_h1 : x1 < 128) (_h2 : x2 < 128) (hl : cl + 0 < 1) (hm : cm < 64) :
    bits (x0 + x1 * 524288 + x2 * 4096) 0 6 = cm :=
  bits_at (l := cl) (h := ch + x1 * 8192 + x2 * 64) (by omega) (by omega) (by omega)

theorem field138 {x0 x1 x2 cl ch cm : Nat} (hC : x0 = cl + cm * 64 + ch * 512) (_h1 : x1 < 128) (_h2 : x2 < 128) (hl : cl + 0 < 64) (hm : cm < 8) :
    bits (x0 + x1 * 524288 + x2 * 4096) 6 3 = cm :=
  bits_at (l := cl) (h := ch + x1 * 1024 + x2 * 8) (by omega) (by omega) (by omega)

theorem field139 {x0 x1 x2 cl ch cm : Nat} (hC : x0 = cl + cm * 512 + ch * 4096) (_h1 : x1 < 128) (_h2 : x2 < 128) (hl : cl + 0 < 512) (hm : cm < 8) :
    bits (x0 + x1 * 524288 + x2 * 4096) 9 3 = cm :=
  bits_at (l := cl) (h := ch + x1 * 128 + x2 * 1) (by omega) (by omega) (by omega)

theorem field140 {x0 x1 cl ch cm : Nat} (hC : x0 = cl + cm * 1 + ch * 64) (_h1 : x1 < 128) (hl : cl + 0 < 1) (hm : cm < 64) :
    bits (x0 + x1 * 524288) 0 6 = cm :=
  bits_at (l := cl) (h := ch + x1 * 8192) (by omega) (by omega) (by omega)

theorem field141 {x0 x1 cl ch cm : Nat} (hC : x0 = cl + cm * 4096 + ch * 524288) (_h1 : x1 < 128) (hl : cl + 0 < 4096) (hm : cm < 128) :
    bits (x0 + x1 * 524288) 12 7 = cm :=
  bits_at (l := cl) (h := ch + x1 * 1) (by omega) (by omega) (by omega)

theorem field142 {x0 x1 cl ch cm : Nat} (hC : x0 = cl + cm * 64 + ch * 512) (_h1 : x1 < 128) (hl : cl + 0 < 64) (hm : cm < 8) :
    bits (x0 + x1 * 524288) 6 3 = cm :=
  bits_at (l := cl) (h := ch + x1 * 1024) (by omega) (by omega) (by omega)

theorem field143 {x0 x1 cl ch cm : Nat} (hC : x0 = cl + cm * 512 + ch * 524288) (_h1 : x1 < 128) (hl : cl + 0 < 512) (hm : cm < 1024) :
    bits (x0 + x1 * 524288) 9 10 = cm :=
  bits_at (l := cl) (h := ch + x1 * 1) (by omega) (by omega) (by omega)

theorem field144 {x0 x1 cl ch cm : Nat} (hC : x0 = cl + cm * 512 + ch * 4096) (_h1 : x1 < 128) (hl : cl + 0 < 512) (hm : cm < 8) :
    bits (x0 + x1 * 524288) 9 3 = cm :=
  bits_at (l := cl) (h := ch + x1 * 128) (by omega) (by omega) (by omega)

theorem field145 {x0 x1 cl ch cm : Nat} (hC : x0 = cl + cm * 67108864 + ch * 4294967296) (h1 : x1 < 8) (hl : cl + 3584 < 67108864) (hm : cm < 64) :
    bits (x0 + x1 * 512) 26 6 = cm :=
  bits_at (l := cl + x1 * 512) (h := ch) (by omega) (by omega) (by omega)

theorem field146 {x0 x1 cl ch cm : Nat} (hC : x0 = cl + cm * 1 + ch * 512) (_h1 : x1 < 8) (hl : cl + 0 < 1) (hm : cm < 512) :
    bits (x0 + x1 * 512) 0 9 = cm :=
  bits_at (l := cl) (h := ch + x1 * 1) (by omega) (by omega) (by omega)

theorem field147 {x0 x1 cl ch cm : Nat} (hC : x0 = cl + cm * 4096 + ch * 524288) (h1 : x1 < 8) (hl : cl + 3584 < 4096) (hm : cm < 128) :
    bits (x0 + x1 * 512) 12 7 = cm :=
  bits_at (l := cl + x1 * 512) (h := ch) (by omega) (by omega) (by omega)

theorem field148 {x0 x1 cl ch cm : Nat} (hC : x0 = cl + cm * 524288 + ch * 67108864) (h1 : x1 < 8) (hl : cl + 3584 < 524288) (hm : cm < 128) :
    bits (x0 + x1 * 512) 19 7 = cm :=
  bits_at (l := cl + x1 * 512) (h := ch) (by omega) (by omega) (by omega)

theorem field149 {x0 x1 cl ch : Nat} (hC : x0 = cl + ch * 4096) (h1 : x1 < 8) (hl : cl + 0 < 512) :
    bits (x0 + x1 * 512) 9 3 = x1 :=
  bits_at (l := cl) (h := ch) (by omega) (by omega) (by omega)

theorem field150 {x0 x1 x2 x3 cl ch cm : Nat} (hC : x0 = cl + cm * 67108864 + ch * 4294967296) (h1 : x1 < 128) (h2 : x2 < 8) (h3 : x3 < 512) (hl : cl + 524287 < 67108864) (hm : cm < 64) :
    bits (x0 + x1 * 4096 + x2 * 512 + x3) 26 6 = cm :=
  bits_at (l := cl + x1 * 4096 + x2 * 512 + x3 * 1) (h := ch) (by omega) (by omega) (by omega)

theorem field151 {x0 x1 x2 x3 cl ch : Nat} (hC : x0 = cl + ch * 512) (_h1 : x1 < 128) (_h2 : x2 < 8) (h3 : x3 < 512) (hl : cl + 0 < 1) :
    bits (x0 + x1 * 4096 + x2 * 512 + x3) 0 9 = x3 :=
  bits_at (l := cl) (h := ch + x1 * 8 + x2 * 1) (by omega) (by omega) (by omega)

theorem field152 {x0 x1 x2 x3 cl ch : Nat} (hC : x0 = cl + ch * 524288) (h1 : x1 < 128) (h2 : x2 < 8) (h3 : x3 < 512) (hl : cl + 4095 < 4096) :
    bits (x0 + x1 * 4096 + x2 * 512 + x3) 12 7 = x1 :=
  bits_at (l := cl + x2 * 512 + x3 * 1) (h := ch) (by omega) (by omega) (by omega)

theorem field153 {x0 x1 x2 x3 cl ch cm : Nat} (hC : x0 = cl + cm * 524288 + ch * 67108864) (h1 : x1 < 128) (h2 : x2 < 8) (h3 : x3 < 512) (hl : cl + 524287 < 524288) (hm : cm < 128) :
    bits (x0 + x1 * 4096 + x2 * 512 + x3) 19 7 = cm :=
  bits_at (l := cl + x1 * 4096 + x2 * 512 + x3 * 1) (h := ch) (by omega) (by omega) (by omega)

theorem field154 {x0 x1 x2 x3 cl ch : Nat} (hC : x0 = cl + ch * 4096) (_h1 : x1 < 128) (h2 : x2 < 8) (h3 : x3 < 512) (hl : cl + 511 < 512) :
    bits (x0 + x1 * 4096 + x2 * 512 + x3) 9 3 = x2 :=
  bits_at (l := cl + x3 * 1) (h := ch + x1 * 1) (by omega) (by omega) (by omega)

theorem field155 {x0 x1 x2 cl ch cm : Nat} (hC : x0 = cl + cm * 67108864 + ch * 4294967296) (h1 : x1 < 128) (h2 : x2 < 8) (hl : cl + 523776 < 67108864) (hm : cm < 64) :
    bits (x0 + x1 * 4096 + x2 * 512) 26 6 = cm :=
  bits_at (l := cl + x1 * 4096 + x2 * 512) (h := ch) (by omega) (by omega) (by omega)

theorem field156 {x0 x1 x2 cl ch cm : Nat} (hC : x0 = cl + cm * 1 + ch * 2) (_h1 : x1 < 128) (_h2 : x2 < 8) (hl : cl + 0 < 1) (hm : cm < 2) :
    bits (x0 + x1 * 4096 + x2 * 512) 0 1 = cm :=
  bits_at (l := cl) (h := ch + x1 * 2048 + x2 * 256) (by omega) (by omega) (by omega)

theorem field157 {x0 x1 x2 cl ch cm : Nat} (hC : x0 = cl + cm * 2 + ch * 512) (_h1 : x1 < 128) (_h2 : x2 < 8) (hl : cl + 0 < 2) (hm : cm < 256) :
    bits (x0 + x1 * 4096 + x2 * 512) 1 8 = cm :=
  bits_at (l := cl) (h := ch + x1 * 8 + x2 * 1) (by omega) (by omega) (by omega)

theorem field158 {x0 x1 x2 cl ch : Nat} (hC : x0 = cl + ch * 524288) (h1 : x1 < 128) (h2 : x2 < 8) (hl : cl + 3584 < 4096) :
    bits (x0 + x1 * 4096 + x2 * 512) 12 7 = x1 :=
  bits_at (l := cl + x2 * 512) (h := ch) (by omega) (by omega) (by omega)

theorem field159 {x0 x1 x2 cl ch cm : Nat} (hC : x0 = cl + cm * 524288 + ch * 67108864) (h1 : x1 < 128) (h2 : x2 < 8) (hl : cl + 523776 < 524288) (hm : cm < 128) :
    bits (x0 + x1 * 4096 + x2 * 512) 19 7 = cm :=
  bits_at (l := cl + x1 * 4096 + x2 * 512) (h := ch) (by omega) (by omega) (by omega)

theorem field160 {x0 x1 x2 cl ch : Nat} (hC : x0 = cl + ch * 4096) (_h1 : x1 < 128) (h2 : x2 < 8) (hl : cl + 0 < 512) :
    bits (x0 + x1 * 4096 + x2 * 512) 9 3 = x2 :=
  bits_at (l := cl) (h := ch + x1 * 1) (by omega) (by omega) (by omega)

theorem field161 {x0 x1 cl ch cm : Nat} (hC : x0 = cl + cm * 1 + ch * 2) (_h1 : x1 < 8) (hl : cl + 0 < 1) (hm : cm < 2) :
    bits (x0 + x1 * 512) 0 1 = cm :=
  bits_at (l := cl) (h := ch + x1 * 256) (by omega) (by omega) (by omega)

theorem field162 {x0 x1 cl ch cm : Nat} (hC : x0 = cl + cm * 2 + ch * 512) (_h1 : x1 < 8) (hl : cl + 0 < 2) (hm : cm < 256) :
    bits (x0 + x1 * 512) 1 8 = cm :=
  bits_at (l := cl) (h := ch + x1 * 1) (by omega) (by omega) (by omega)

theorem field163 {x0 x1 x2 cl ch cm : Nat} (hC : x0 = cl + cm * 67108864 + ch * 4294967296) (h1 : x1 < 128) (h2 : x2 < 512) (hl : cl + 520703 < 67108864) (hm : cm < 64) :
    bits (x0 + x1 * 4096 + x2) 26 6 = cm :=
  bits_at (l := cl + x1 * 4096 + x2 * 1) (h := ch) (by omega) (by omega) (by omega)

theorem field164 {x0 x1 x2 cl ch : Nat} (hC : x0 = cl + ch * 512) (_h1 : x1 < 128) (h2 : x2 < 512) (hl : cl + 0 < 1) :
    bits (x0 + x1 * 4096 + x2) 0 9 = x2 :=
  bits_at (l := cl) (h := ch + x1 * 8) (by omega) (by omega) (by omega)

theorem field165 {x0 x1 x2 cl ch : Nat} (hC : x0 = cl + ch * 524288) (h1 : x1 < 128) (h2 : x2 < 512) (hl : cl + 511 < 4096) :
    bits (x0 + x1 * 4096 + x2) 12 7 = x1 :=
  bits_at (l := cl + x2 * 1) (h := ch) (by omega) (by omega) (by omega)

theorem field166 {x0 x1 x2 cl ch cm : Nat} (hC : x0 = cl + cm * 524288 + ch * 67108864) (h1 : x1 < 128) (h2 : x2 < 512) (hl : cl + 520703 < 524288) (hm : cm < 128) :
    bits (x0 + x1 * 4096 + x2) 19 7 = cm :=
  bits_at (l := cl + x1 * 4096 + x2 * 1) (h := ch) (by omega) (by omega) (by omega)

theorem field167 {x0 x1 x2 cl ch cm : Nat} (hC : x0 = cl + cm * 512 + ch * 4096) (_h1 : x1 < 128) (h2 : x2 < 512) (hl : cl + 511 < 512) (hm : cm < 8) :
    bits (x0 + x1 * 4096 + x2) 9 3 = cm :=
  bits_at (l := cl + x2 * 1) (h := ch + x1 * 1) (by omega) (by omega) (by omega)

theorem field168 {x0 x1 x2 x3 x4 cl ch cm : Nat} (hC : x0 = cl + cm * 67108864 + ch * 4294967296) (h1 : x1 < 128) (h2 : x2 < 128) (h3 : x3 < 8) (h4 : x4 < 128) (hl : cl + 67108479 < 67108864) (hm : cm < 64) :
    bits (x0 + x1 * 524288 + x2 * 4096 + x3 * 512 + x4) 26 6 = cm :=
  bits_at (l := cl + x1 * 524288 + x2 * 4096 + x3 * 512 + x4 * 1) (h := ch) (by omega) (by omega) (by omega)

theorem field169 {x0 x1 x2 x3 x4 cl ch : Nat} (hC : x0 = cl + ch * 128) (_h1 : x1 < 128) (_h2 : x2 < 128) (_h3 : x3 < 8) (h4 : x4 < 128) (hl : cl + 0 < 1) :
    bits (x0 + x1 * 524288 + x2 * 4096 + x3 * 512 + x4) 0 7 = x4 :=
  bits_at (l := cl) (h := ch + x1 * 4096 + x2 * 32 + x3 * 4) (by omega) (by omega) (by omega)

theorem field170 {x0 x1 x2 x3 x4 cl ch : Nat} (hC : x0 = cl + ch * 524288) (_h1 : x1 < 128) (h2 : x2 < 128) (h3 : x3 < 8) (h4 : x4 < 128) (hl : cl + 3711 < 4096) :
    bits (x0 + x1 * 524288 + x2 * 4096 + x3 * 512 + x4) 12 7 = x2 :=
  bits_at (l := cl + x3 * 512 + x4 * 1) (h := ch + x1 * 1) (by omega) (by omega) (by omega)

theorem field171 {x0 x1 x2 x3 x4 cl ch : Nat} (hC : x0 = cl + ch * 67108864) (h1 : x1 < 128) (h2 : x2 < 128) (h3 : x3 < 8) (h4 : x4 < 128) (hl : cl + 523903 < 524288) :
    bits (x0 + x1 * 524288 + x2 * 4096 + x3 * 512 + x4) 19 7 = x1 :=
  bits_at (l := cl + x2 * 4096 + x3 * 512 + x4 * 1) (h := ch) (by omega) (by omega) (by omega)

theorem field172 {x0 x1 x2 x3 x4 cl ch cm : Nat} (hC : x0 = cl + cm * 128 + ch * 512) (_h1 : x1 < 128) (_h2 : x2 < 128) (_h3 : x3 < 8) (h4 : x4 < 128) (hl : cl + 127 < 128) (hm : cm < 4) :
    bits (x0 + x1 * 524288 + x2 * 4096 + x3 * 512 + x4) 7 2 = cm :=
  bits_at (l := cl + x4 * 1) (h := ch + x1 * 1024 + x2 * 8 + x3 * 1) (by omega) (by omega) (by omega)

theorem field173 {x0 x1 x2 x3 x4 cl ch : Nat} (hC : x0 = cl + ch * 4096) (_h1 : x1 < 128) (_h2 : x2 < 128) (h3 : x3 < 8) (h4 : x4 < 128) (hl : cl + 127 < 512) :
    bits (x0 + x1 * 524288 + x2 * 4096 + x3 * 512 + x4) 9 3 = x3 :=
  bits_at (l := cl + x4 * 1) (h := ch + x1 * 128 + x2 * 1) (by omega) (by omega) (by omega)

theorem field174 {x0 x1 x2 cl ch cm : Nat} (hC : x0 = cl + cm * 67108864 + ch * 4294967296) (h1 : x1 < 128) (h2 : x2 < 128) (hl : cl + 262128 < 67108864) (hm : cm < 64) :
    bits (x0 + x1 * 2048 + x2 * 16) 26 6 = cm :=
  bits_at (l := cl + x1 * 2048 + x2 * 16) (h := ch) (by omega) (by omega) (by omega)

theorem field175 {x0 x1 x2 cl ch cm : Nat} (hC : x0 = cl + cm * 1 + ch * 16) (_h1 : x1 < 128) (_h2 : x2 < 128) (hl : cl + 0 < 1) (hm : cm < 16) :
    bits (x0 + x1 * 2048 + x2 * 16) 0 4 = cm :=
  bits_at (l := cl) (h := ch + x1 * 128 + x2 * 1) (by omega) (by omega) (by omega)

theorem field176 {x0 x1 x2 cl ch : Nat} (hC : x0 = cl + ch * 262144) (h1 : x1 < 128) (h2 : x2 < 128) (hl : cl + 2032 < 2048) :
    bits (x0 + x1 * 2048 + x2 * 16) 11 7 = x1 :=
  bits_at (l := cl + x2 * 16) (h := ch) (by omega) (by omega) (by omega)

theorem field177 {x0 x1 x2 cl ch cm : Nat} (hC : x0 = cl + cm * 262144 + ch * 67108864) (h1 : x1 < 128) (h2 : x2 < 128) (hl : cl + 262128 < 262144) (hm : cm < 256) :
    bits (x0 + x1 * 2048 + x2 * 16) 18 8 = cm :=
  bits_at (l := cl + x1 * 2048 + x2 * 16) (h := ch) (by omega) (by omega) (by omega)

theorem field178 {x0 x1 x2 cl ch : Nat} (hC : x0 = cl + ch * 2048) (_h1 : x1 < 128) (h2 : x2 < 128) (hl : cl + 0 < 16) :
    bits (x0 + x1 * 2048 + x2 * 16) 4 7 = x2 :=
  bits_at (l := cl) (h := ch + x1 * 1) (by omega) (by omega) (by omega)

theorem field179 {x0 cl ch cm : Nat} (hC : x0 = cl + cm * 1 + ch * 16) (hl : cl + 0 < 1) (hm : cm < 16) :
    bits (x0) 0 4 = cm :=
  bits_at (l := cl) (h := ch) (by omega) (by omega) (by omega)

theorem field180 {x0 cl ch cm : Nat} (hC : x0 = cl + cm * 16 + ch * 67108864) (hl : cl + 0 < 16) (hm : cm < 4194304) :
    bits (x0) 4 22 = cm :=
  bits_at (l := cl) (h := ch) (by omega) (by omega) (by omega)

theorem field181 {x0 x1 x2 x3 cl ch cm : Nat} (hC : x0 = cl + cm * 67108864 + ch * 4294967296) (h1 : x1 < 32) (h2 : x2 < 16) (h3 : x3 < 128) (hl : cl + 1048560 < 67108864) (hm : cm < 64) :
    bits (x0 + x1 * 32768 + x2 * 2048 + x3 * 16) 26 6 = cm :=
  bits_at (l := cl + x1 * 32768 + x2 * 2048 + x3 * 16) (h := ch) (by omega) (by omega) (by omega)

theorem field182 {x0 x1 x2 x3 cl ch cm : Nat} (hC : x0 = cl + cm * 1 + ch * 16) (_h1 : x1 < 32) (_h2 : x2 < 16) (_h3 : x3 < 128) (hl : cl + 0 < 1) (hm : cm < 16) :
    bits (x0 + x1 * 32768 + x2 * 2048 + x3 * 16) 0 4 = cm :=
  bits_at (l := cl) (h := ch + x1 * 2048 + x2 * 128 + x3 * 1) (by omega) (by omega) (by omega)

theorem field183 {x0 x1 x2 x3 cl ch : Nat} (hC : x0 = cl + ch * 32768) (_h1 : x1 < 32) (h2 : x2 < 16) (h3 : x3 < 128) (hl : cl + 2032 < 2048) :
    bits (x0 + x1 * 32768 + x2 * 2048 + x3 * 16) 11 4 = x2 :=
  bits_at (l := cl + x3 * 16) (h := ch + x1 * 1) (by omega) (by omega) (by omega)

theorem field184 {x0 x1 x2 x3 cl ch : Nat} (hC : x0 = cl + ch * 1048576) (h1 : x1 < 32) (h2 : x2 < 16) (h3 : x3 < 128) (hl : cl + 32752 < 32768) :
    bits (x0 + x1 * 32768 + x2 * 2048 + x3 * 16) 15 5 = x1 :=
  bits_at (l := cl + x2 * 2048 + x3 * 16) (h := ch) (by omega) (by omega) (by omega)

theorem field185 {x0 x1 x2 x3 cl ch cm : Nat} (hC : x0 = cl + cm * 1048576 + ch * 67108864) (h1 : x1 < 32) (h2 : x2 < 16) (h3 : x3 < 128) (hl : cl + 1048560 < 1048576) (hm : cm < 64) :
    bits (x0 + x1 * 32768 + x2 * 2048 + x3 * 16) 20 6 = cm :=
  bits_at (l := cl + x1 * 32768 + x2 * 2048 + x3 * 16) (h := ch) (by omega) (by omega) (by omega)

theorem field186 {x0 x1 x2 x3 cl ch : Nat} (hC : x0 = cl + ch * 2048) (_h1 : x1 < 32) (_h2 : x2 < 16) (h3 : x3 < 128) (hl : cl + 0 < 16) :
    bits (x0 + x1 * 32768 + x2 * 2048 + x3 * 16) 4 7 = x3 :=
  bits_at (l := cl) (h := ch + x1 * 16 + x2 * 1) (by omega) (by omega) (by omega)

theorem field187 {x0 x1 x2 x3 x4 cl ch cm : Nat} (hC : x0 = cl + cm * 67108864 + ch * 4294967296) (h1 : x1 < 32) (h2 : x2 < 32) (h3 : x3 < 128) (h4 : x4 < 4) (hl : cl + 67045363 < 67108864) (hm : cm < 64) :
    bits (x0 + x1 * 2097152 + x2 * 65536 + x3 * 16 + x4) 26 6 = cm :=
  bits_at (l := cl + x1 * 2097152 + x2 * 65536 + x3 * 16 + x4 * 1) (h := ch) (by omega) (by omega) (by omega)

theorem field188 {x0 x1 x2 x3 x4 cl ch : Nat} (hC : x0 = cl + ch * 4) (_h1 : x1 < 32) (_h2 : x2 < 32) (_h3 : x3 < 128) (h4 : x4 < 4) (hl : cl + 0 < 1) :
    bits (x0 + x1 * 2097152 + x2 * 65536 + x3 * 16 + x4) 0 2 = x4 :=
  bits_at (l := cl) (h := ch + x1 * 524288 + x2 * 16384 + x3 * 4) (by omega) (by omega) (by omega)

theorem field189 {x0 x1 x2 x3 x4 cl ch cm : Nat} (hC : x0 = cl + cm * 2048 + ch * 65536) (_h1 : x1 < 32) (_h2 : x2 < 32) (h3 : x3 < 128) (h4 : x4 < 4) (hl : cl + 2035 < 2048) (hm : cm < 32) :
    bits (x0 + x1 * 2097152 + x2 * 65536 + x3 * 16 + x4) 11 5 = cm :=
  bits_at (l := cl + x3 * 16 + x4 * 1) (h := ch + x1 * 32 + x2 * 1) (by omega) (by omega) (by omega)

theorem field190 {x0 x1 x2 x3 x4 cl ch : Nat} (hC : x0 = cl + ch * 2097152) (_h1 : x1 < 32) (h2 : x2 < 32) (h3 : x3 < 128) (h4 : x4 < 4) (hl : cl + 2035 < 65536) :
    bits (x0 + x1 * 2097152 + x2 * 65536 + x3 * 16 + x4) 16 5 = x2 :=
  bits_at (l := cl + x3 * 16 + x4 * 1) (h := ch + x1 * 1) (by omega) (by omega) (by omega)

theorem field191 {x0 x1 x2 x3 x4 cl ch cm : Nat} (hC : x0 = cl + cm * 4 + ch * 16) (_h1 : x1 < 32) (_h2 : x2 < 32) (_h3 : x3 < 128) (h4 : x4 < 4) (hl : cl + 3 < 4) (hm : cm < 4) :
    bits (x0 + x1 * 2097152 + x2 * 65536 + x3 * 16 + x4) 2 2 = cm :=
  bits_at (l := cl + x4 * 1) (h := ch + x1 * 131072 + x2 * 4096 + x3 * 1) (by omega) (by omega) (by omega)

theorem field192 {x0 x1 x2 x3 x4 cl ch : Nat} (hC : x0 = cl + ch * 67108864) (h1 : x1 < 32) (h2 : x2 < 32) (h3 : x3 < 128) (h4 : x4 < 4) (hl : cl + 2033651 < 2097152) :
    bits (x0 + x1 * 2097152 + x2 * 65536 + x3 * 16 + x4) 21 5 = x1 :=
  bits_at (l := cl + x2 * 65536 + x3 * 16 + x4 * 1) (h := ch) (by omega) (by omega) (by omega)

theorem field193 {x0 x1 x2 x3 x4 cl ch : Nat} (hC : x0 = cl + ch * 2048) (_h1 : x1 < 32) (_h2 : x2 < 32) (h3 : x3 < 128) (h4 : x4 < 4) (hl : cl + 3 < 16) :
    bits (x0 + x1 * 2097152 + x2 * 65536 + x3 * 16 + x4) 4 7 = x3 :=
  bits_at (l := cl + x4 * 1) (h := ch + x1 * 1024 + x2 * 32) (by omega) (by omega) (by omega)

theorem field194 {x0 x1 x2 x3 x4 x5 cl ch cm : Nat} (hC : x0 = cl + cm * 67108864 + ch * 4294967296) (h1 : x1 < 32) (h2 : x2 < 32) (h3 : x3 < 32) (h4 : x4 < 128) (h5 : x5 < 4) (hl : cl + 67108851 < 67108864) (hm : cm < 64) :
    bits (x0 + x1 * 2097152 + x2 * 65536 + x3 * 2048 + x4 * 16 + x5) 26 6 = cm :=
  bits_at (l := cl + x1 * 2097152 + x2 * 65536 + x3 * 2048 + x4 * 16 + x5 * 1) (h := ch) (by omega) (by omega) (by omega)

theorem field195 {x0 x1 x2 x3 x4 x5 cl ch : Nat} (hC : x0 = cl + ch * 4) (_h1 : x1 < 32) (_h2 : x2 < 32) (_h3 : x3 < 32) (_h4 : x4 < 128) (h5 : x5 < 4) (hl : cl + 0 < 1) :
    bits (x0 + x1 * 2097152 + x2 * 65536 + x3 * 2048 + x4 * 16 + x5) 0 2 = x5 :=
  bits_at (l := cl) (h := ch + x1 * 524288 + x2 * 16384 + x3 * 512 + x4 * 4) (by omega) (by omega) (by omega)

theorem field196 {x0 x1 x2 x3 x4 x5 cl ch : Nat} (hC : x0 = cl + ch * 65536) (_h1 : x1 < 32) (_h2 : x2 < 32) (h3 : x3 < 32) (h4 : x4 < 128) (h5 : x5 < 4) (hl : cl + 2035 < 2048) :
    bits (x0 + x1 * 2097152 + x2 * 65536 + x3 * 2048 + x4 * 16 + x5) 11 5 = x3 :=
  bits_at (l := cl + x4 * 16 + x5 * 1) (h := ch + x1 * 32 + x2 * 1) (by omega) (by omega) (by omega)

theorem field197 {x0 x1 x2 x3 x4 x5 cl ch : Nat} (hC : x0 = cl + ch * 2097152) (_h1 : x1 < 32) (h2 : x2 < 32) (h3 : x3 < 32) (h4 : x4 < 128) (h5 : x5 < 4) (hl : cl + 65523 < 65536) :
    bits (x0 + x1 * 2097152 + x2 * 65536 + x3 * 2048 + x4 * 16 + x5) 16 5 = x2 :=
  bits_at (l := cl + x3 * 2048 + x4 * 16 + x5 * 1) (h := ch + x1 * 1) (by omega) (by omega) (by omega)

theorem field198 {x0 x1 x2 x3 x4 x5 cl ch cm : Nat} (hC : x0 = cl + cm * 4 + ch * 16) (_h1 : x1 < 32) (_h2 : x2 < 32) (_h3 : x3 < 32) (_h4 : x4 < 128) (h5 : x5 < 4) (hl : cl + 3 < 4) (hm : cm < 4) :
    bits (x0 + x1 * 2097152 + x2 * 65536 + x3 * 2048 + x4 * 16 + x5) 2 2 = cm :=
  bits_at (l := cl + x5 * 1) (h := ch + x1 * 131072 + x2 * 4096 + x3 * 128 + x4 * 1) (by omega) (by omega) (by omega)

theorem field199 {x0 x1 x2 x3 x4 x5 cl ch : Nat} (hC : x0 = cl + ch * 67108864) (h1 : x1 < 32) (h2 : x2 < 32) (h3 : x3 < 32) (h4 : x4 < 128) (h5 : x5 < 4) (hl : cl + 2097139 < 2097152) :
    bits (x0 + x1 * 2097152 + x2 * 65536 + x3 * 2048 + x4 * 16 + x5) 21 5 = x1 :=
  bits_at (l := cl + x2 * 65536 + x3 * 2048 + x4 * 16 + x5 * 1) (h := ch) (by omega) (by omega) (by omega)

theorem field200 {x0 x1 x2 x3 x4 x5 cl ch : Nat} (hC : x0 = cl + ch * 2048) (_h1 : x1 < 32) (_h2 : x2 < 32) (_h3 : x3 < 32) (h4 : x4 < 128) (h5 : x5 < 4) (hl : cl + 3 < 16) :
    bits (x0 + x1 * 2097152 + x2 * 65536 + x3 * 2048 + x4 * 16 + x5) 4 7 = x4 :=
  bits_at (l := cl + x5 * 1) (h := ch + x1 * 1024 + x2 * 32 + x3 * 1) (by omega) (by omega) (by omega)

theorem field201 {x0 x1 x2 x3 cl ch cm : Nat} (hC : x0 = cl + cm * 67108864 + ch * 4294967296) (h1 : x1 < 32) (h2 : x2 < 32) (h3 : x3 < 128) (hl : cl + 65077232 < 67108864) (hm : cm < 64) :
    bits (x0 + x1 * 2097152 + x2 * 2048 + x3 * 16) 26 6 = cm :=
  bits_at (l := cl + x1 * 2097152 + x2 * 2048 + x3 * 16) (h := ch) (by omega) (by omega) (by omega)

theorem field202 {x0 x1 x2 x3 cl ch cm : Nat} (hC : x0 = cl + cm * 1 + ch * 16) (_h1 : x1 < 32) (_h2 : x2 < 32) (_h3 : x3 < 128) (hl : cl + 0 < 1) (hm : cm < 16) :
    bits (x0 + x1 * 2097152 + x2 * 2048 + x3 * 16) 0 4 = cm :=
  bits_at (l := cl) (h := ch + x1 * 131072 + x2 * 128 + x3 * 1) (by omega) (by omega) (by omega)

theorem field203 {x0 x1 x2 x3 cl ch : Nat} (hC : x0 = cl + ch * 65536) (_h1 : x1 < 32) (h2 : x2 < 32) (h3 : x3 < 128) (hl : cl + 2032 < 2048) :
    bits (x0 + x1 * 2097152 + x2 * 2048 + x3 * 16) 11 5 = x2 :=
  bits_at (l := cl + x3 * 16) (h := ch + x1 * 32) (by omega) (by omega) (by omega)

theorem field204 {x0 x1 x2 x3 cl ch cm : Nat} (hC : x0 = cl + cm * 65536 + ch * 2097152) (_h1 : x1 < 32) (h2 : x2 < 32) (h3 : x3 < 128) (hl : cl + 65520 < 65536) (hm : cm < 32) :
    bits (x0 + x1 * 2097152 + x2 * 2048 + x3 * 16) 16 5 = cm :=
  bits_at (l := cl + x2 * 2048 + x3 * 16) (h := ch + x1 * 1) (by omega) (by omega) (by omega)

theorem field205 {x0 x1 x2 x3 cl ch : Nat} (hC : x0 = cl + ch * 67108864) (h1 : x1 < 32) (h2 : x2 < 32) (h3 : x3 < 128) (hl : cl + 65520 < 2097152) :
    bits (x0 + x1 * 2097152 + x2 * 2048 + x3 * 16) 21 5 = x1 :=
  bits_at (l := cl + x2 * 2048 + x3 * 16) (h := ch) (by omega) (by omega) (by omega)

theorem field206 {x0 x1 x2 x3 cl ch : Nat} (hC : x0 = cl + ch * 2048) (_h1 : x1 < 32) (_h2 : x2 < 32) (h3 : x3 < 128) (hl : cl + 0 < 16) :
    bits (x0 + x1 * 2097152 + x2 * 2048 + x3 * 16) 4 7 = x3 :=
  bits_at (l := cl) (h := ch + x1 * 1024 + x2 * 1) (by omega) (by omega) (by omega)

theorem field207 {x0 x1 x2 x3 cl ch cm : Nat} (hC : x0 = cl + cm * 67108864 + ch * 4294967296) (h1 : x1 < 32) (h2 : x2 < 32) (h3 : x3 < 64) (hl : cl + 67044336 < 67108864) (hm : cm < 64) :
    bits (x0 + x1 * 2097152 + x2 * 65536 + x3 * 16) 26 6 = cm :=
  bits_at (l := cl + x1 * 2097152 + x2 * 65536 + x3 * 16) (h := ch) (by omega) (by omega) (by omega)

theorem field208 {x0 x1 x2 x3 cl ch cm : Nat} (hC : x0 = cl + cm * 1 + ch * 16) (_h1 : x1 < 32) (_h2 : x2 < 32) (_h3 : x3 < 64) (hl : cl + 0 < 1) (hm : cm < 16) :
    bits (x0 + x1 * 2097152 + x2 * 65536 + x3 * 16) 0 4 = cm :=
  bits_at (l := cl) (h := ch + x1 * 131072 + x2 * 4096 + x3 * 1) (by omega) (by omega) (by omega)

theorem field209 {x0 x1 x2 x3 cl ch cm : Nat} (hC : x0 = cl + cm * 1024 + ch * 65536) (_h1 : x1 < 32) (_h2 : x2 < 32) (h3 : x3 < 64) (hl : cl + 1008 < 1024) (hm : cm < 64) :
    bits (x0 + x1 * 2097152 + x2 * 65536 + x3 * 16) 10 6 = cm :=
  bits_at (l := cl + x3 * 16) (h := ch + x1 * 32 + x2 * 1) (by omega) (by omega) (by omega)

theorem field210 {x0 x1 x2 x3 cl ch : Nat} (hC : x0 = cl + ch * 2097152) (_h1 : x1 < 32) (h2 : x2 < 32) (h3 : x3 < 64) (hl : cl + 1008 < 65536) :
    bits (x0 + x1 * 2097152 + x2 * 65536 + x3 * 16) 16 5 = x2 :=
  bits_at (l := cl + x3 * 16) (h := ch + x1 * 1) (by omega) (by omega) (by omega)

theorem field211 {x0 x1 x2 x3 cl ch : Nat} (hC : x0 = cl + ch * 67108864) (h1 : x1 < 32) (h2 : x2 < 32) (h3 : x3 < 64) (hl : cl + 2032624 < 2097152) :
    bits (x0 + x1 * 2097152 + x2 * 65536 + x3 * 16) 21 5 = x1 :=
  bits_at (l := cl + x2 * 65536 + x3 * 16) (h := ch) (by omega) (by omega) (by omega)

theorem field212 {x0 x1 x2 x3 cl ch : Nat} (hC : x0 = cl + ch * 1024) (_h1 : x1 < 32) (_h2 : x2 < 32) (h3 : x3 < 64) (hl : cl + 0 < 16) :
    bits (x0 + x1 * 2097152 + x2 * 65536 + x3 * 16) 4 6 = x3 :=
  bits_at (l := cl) (h := ch + x1 * 2048 + x2 * 64) (by omega) (by omega) (by omega)

theorem field213 {x0 x1 x2 x3 cl ch cm : Nat} (hC : x0 = cl + cm * 67108864 + ch * 4294967296) (h1 : x1 < 32) (h2 : x2 < 32) (h3 : x3 < 64) (hl : cl + 65076208 < 67108864) (hm : cm < 64) :
    bits (x0 + x1 * 2097152 + x2 * 2048 + x3 * 16) 26 6 = cm :=
  bits_at (l := cl + x1 * 2097152 + x2 * 2048 + x3 * 16) (h := ch) (by omega) (by omega) (by omega)

theorem field214 {x0 x1 x2 x3 cl ch cm : Nat} (hC : x0 = cl + cm * 1 + ch * 16) (_h1 : x1 < 32) (_h2 : x2 < 32) (_h3 : x3 < 64) (hl : cl + 0 < 1) (hm : cm < 16) :
    bits (x0 + x1 * 2097152 + x2 * 2048 + x3 * 16) 0 4 = cm :=
  bits_at (l := cl) (h := ch + x1 * 131072 + x2 * 128 + x3 * 1) (by omega) (by omega) (by omega)

theorem field215 {x0 x1 x2 x3 cl ch cm : Nat} (hC : x0 = cl + cm * 1024 + ch * 2048) (_h1 : x1 < 32) (_h2 : x2 < 32) (h3 : x3 < 64) (hl : cl + 1008 < 1024) (hm : cm < 2) :
    bits (x0 + x1 * 2097152 + x2 * 2048 + x3 * 16) 10 1 = cm :=
  bits_at (l := cl + x3 * 16) (h := ch + x1 * 1024 + x2 * 1) (by omega) (by omega) (by omega)

theorem field216 {x0 x1 x2 x3 cl ch : Nat} (hC : x0 = cl + ch * 65536) (_h1 : x1 < 32) (h2 : x2 < 32) (h3 : x3 < 64) (hl : cl + 1008 < 2048) :
    bits (x0 + x1 * 2097152 + x2 * 2048 + x3 * 16) 11 5 = x2 :=
  bits_at (l := cl + x3 * 16) (h := ch + x1 * 32) (by omega) (by omega) (by omega)

theorem field217 {x0 x1 x2 x3 cl ch cm : Nat} (hC : x0 = cl + cm * 65536 + ch * 2097152) (_h1 : x1 < 32) (h2 : x2 < 32) (h3 : x3 < 64) (hl : cl + 64496 < 65536) (hm : cm < 32) :
    bits (x0 + x1 * 2097152 + x2 * 2048 + x3 * 16) 16 5 = cm :=
  bits_at (l := cl + x2 * 2048 + x3 * 16) (h := ch + x1 * 1) (by omega) (by omega) (by omega)

theorem field218 {x0 x1 x2 x3 cl ch : Nat} (hC : x0 = cl + ch * 67108864) (h1 : x1 < 32) (h2 : x2 < 32) (h3 : x3 < 64) (hl : cl + 64496 < 2097152) :
    bits (x0 + x1 * 2097152 + x2 * 2048 + x3 * 16) 21 5 = x1 :=
  bits_at (l := cl + x2 * 2048 + x3 * 16) (h := ch) (by omega) (by omega) (by omega)

theorem field219 {x0 x1 x2 x3 cl ch : Nat} (hC : x0 = cl + ch * 1024) (_h1 : x1 < 32) (_h2 : x2 < 32) (h3 : x3 < 64) (hl : cl + 0 < 16) :
    bits (x0 + x1 * 2097152 + x2 * 2048 + x3 * 16) 4 6 = x3 :=
  bits_at (l := cl) (h := ch + x1 * 2048 + x2 * 2) (by omega) (by omega) (by omega)

theorem field220 {x0 x1 x2 cl ch cm : Nat} (hC : x0 = cl + cm * 67108864 + ch * 4294967296) (h1 : x1 < 32) (h2 : x2 < 128) (hl : cl + 65013744 < 67108864) (hm : cm < 64) :
    bits (x0 + x1 * 2097152 + x2 * 16) 26 6 = cm :=
  bits_at (l := cl + x1 * 2097152 + x2 * 16) (h := ch) (by omega) (by omega) (by omega)

theorem field221 {x0 x1 x2 cl ch cm : Nat} (hC : x0 = cl + cm * 1 + ch * 16) (_h1 : x1 < 32) (_h2 : x2 < 128) (hl : cl + 0 < 1) (hm : cm < 16) :
    bits (x0 + x1 * 2097152 + x2 * 16) 0 4 = cm :=
  bits_at (l := cl) (h := ch + x1 * 131072 + x2 * 1) (by omega) (by omega) (by omega)

theorem field222 {x0 x1 x2 cl ch cm : Nat} (hC : x0 = cl + cm * 2048 + ch * 2097152) (_h1 : x1 < 32) (h2 : x2 < 128) (hl : cl + 2032 < 2048) (hm : cm < 1024) :
    bits (x0 + x1 * 2097152 + x2 * 16) 11 10 = cm :=
  bits_at (l := cl + x2 * 16) (h := ch + x1 * 1) (by omega) (by omega) (by omega)

theorem field223 {x0 x1 x2 cl ch : Nat} (hC : x0 = cl + ch * 67108864) (h1 : x1 < 32) (h2 : x2 < 128) (hl : cl + 2032 < 2097152) :
    bits (x0 + x1 * 2097152 + x2 * 16) 21 5 = x1 :=
  bits_at (l := cl + x2 * 16) (h := ch) (by omega) (by omega) (by omega)

theorem field224 {x0 x1 x2 cl ch : Nat} (hC : x0 = cl + ch * 2048) (_h1 : x1 < 32) (h2 : x2 < 128) (hl : cl + 0 < 16) :
    bits (x0 + x1 * 2097152 + x2 * 16) 4 7 = x2 :=
  bits_at (l := cl) (h := ch + x1 * 1024) (by omega) (by omega) (by omega)

theorem field225 {x0 x1 x2 x3 x4 cl ch cm : Nat} (hC : x0 = cl + cm * 67108864 + ch * 4294967296) (h1 : x1 < 32) (h2 : x2 < 32) (h3 : x3 < 32) (h4 : x4 < 128) (hl : cl + 67108848 < 67108864) (hm : cm < 64) :
    bits (x0 + x1 * 2097152 + x2 * 65536 + x3 * 2048 + x4 * 16) 26 6 = cm :=
  bits_at (l := cl + x1 * 2097152 + x2 * 65536 + x3 * 2048 + x4 * 16) (h := ch) (by omega) (by omega) (by omega)

theorem field226 {x0 x1 x2 x3 x4 cl ch cm : Nat} (hC : x0 = cl + cm * 1 + ch * 16) (_h1 : x1 < 32) (_h2 : x2 < 32) (_h3 : x3 < 32) (_h4 : x4 < 128) (hl : cl + 0 < 1) (hm : cm < 16) :
    bits (x0 + x1 * 2097152 + x2 * 65536 + x3 * 2048 + x4 * 16) 0 4 = cm :=
  bits_at (l := cl) (h := ch + x1 * 131072 + x2 * 4096 + x3 * 128 + x4 * 1) (by omega) (by omega) (by omega)

theorem field227 {x0 x1 x2 x3 x4 cl ch : Nat} (hC : x0 = cl + ch * 65536) (_h1 : x1 < 32) (_h2 : x2 < 32) (h3 : x3 < 32) (h4 : x4 < 128) (hl : cl + 2032 < 2048) :
    bits (x0 + x1 * 2097152 + x2 * 65536 + x3 * 2048 + x4 * 16) 11 5 = x3 :=
  bits_at (l := cl + x4 * 16) (h := ch + x1 * 32 + x2 * 1) (by omega) (by omega) (by omega)

theorem field228 {x0 x1 x2 x3 x4 cl ch : Nat} (hC : x0 = cl + ch * 2097152) (_h1 : x1 < 32) (h2 : x2 < 32) (h3 : x3 < 32) (h4 : x4 < 128) (hl : cl + 65520 < 65536) :
    bits (x0 + x1 * 2097152 + x2 * 65536 + x3 * 2048 + x4 * 16) 16 5 = x2 :=
  bits_at (l := cl + x3 * 2048 + x4 * 16) (h := ch + x1 * 1) (by omega) (by omega) (by omega)

theorem field229 {x0 x1 x2 x3 x4 cl ch : Nat} (hC : x0 = cl + ch * 67108864) (h1 : x1 < 32) (h2 : x2 < 32) (h3 : x3 < 32) (h4 : x4 < 128) (hl : cl + 2097136 < 2097152) :
    bits (x0 + x1 * 2097152 + x2 * 65536 + x3 * 2048 + x4 * 16) 21 5 = x1 :=
  bits_at (l := cl + x2 * 65536 + x3 * 2048 + x4 * 16) (h := ch) (by omega) (by omega) (by omega)

theorem field230 {x0 x1 x2 x3 x4 cl ch : Nat} (hC : x0 = cl + ch * 2048) (_h1 : x1 < 32) (_h2 : x2 < 32) (_h3 : x3 < 32) (h4 : x4 < 128) (hl : cl + 0 < 16) :
    bits (x0 + x1 * 2097152 + x2 * 65536 + x3 * 2048 + x4 * 16) 4 7 = x4 :=
  bits_at (l := cl) (h := ch + x1 * 1024 + x2 * 32 + x3 * 1) (by omega) (by omega) (by omega)

theorem field231 {x0 x1 x2 x3 cl ch cm : Nat} (hC : x0 = cl + cm * 67108864 + ch * 4294967296) (h1 : x1 < 32) (h2 : x2 < 32) (h3 : x3 < 128) (hl : cl + 67045360 < 67108864) (hm : cm < 64) :
    bits (x0 + x1 * 2097152 + x2 * 65536 + x3 * 16) 26 6 = cm :=
  bits_at (l := cl + x1 * 2097152 + x2 * 65536 + x3 * 16) (h := ch) (by omega) (by omega) (by omega)

theorem field232 {x0 x1 x2 x3 cl ch cm : Nat} (hC : x0 = cl + cm * 1 + ch * 16) (_h1 : x1 < 32) (_h2 : x2 < 32) (_h3 : x3 < 128) (hl : cl + 0 < 1) (hm : cm < 16) :
    bits (x0 + x1 * 2097152 + x2 * 65536 + x3 * 16) 0 4 = cm :=
  bits_at (l := cl) (h := ch + x1 * 131072 + x2 * 4096 + x3 * 1) (by omega) (by omega) (by omega)

theorem field233 {x0 x1 x2 x3 cl ch cm : Nat} (hC : x0 = cl + cm * 2048 + ch * 65536) (_h1 : x1 < 32) (_h2 : x2 < 32) (h3 : x3 < 128) (hl : cl + 2032 < 2048) (hm : cm < 32) :
    bits (x0 + x1 * 2097152 + x2 * 65536 + x3 * 16) 11 5 = cm :=
  bits_at (l := cl + x3 * 16) (h := ch + x1 * 32 + x2 * 1) (by omega) (by omega) (by omega)

theorem field234 {x0 x1 x2 x3 cl ch : Nat} (hC : x0 = cl + ch * 2097152) (_h1 : x1 < 32) (h2 : x2 < 32) (h3 : x3 < 128) (hl : cl + 2032 < 65536) :
    bits (x0 + x1 * 2097152 + x2 * 65536 + x3 * 16) 16 5 = x2 :=
  bits_at (l := cl + x3 * 16) (h := ch + x1 * 1) (by omega) (by omega) (by omega)

theorem field235 {x0 x1 x2 x3 cl ch : Nat} (hC : x0 = cl + ch * 67108864) (h1 : x1 < 32) (h2 : x2 < 32) (h3 : x3 < 128) (hl : cl + 2033648 < 2097152) :
    bits (x0 + x1 * 2097152 + x2 * 65536 + x3 * 16) 21 5 = x1 :=
  bits_at (l := cl + x2 * 65536 + x3 * 16) (h := ch) (by omega) (by omega) (by omega)

theorem field236 {x0 x1 x2 x3 cl ch : Nat} (hC : x0 = cl + ch * 2048) (_h1 : x1 < 32) (_h2 : x2 < 32) (h3 : x3 < 128) (hl : cl + 0 < 16) :
    bits (x0 + x1 * 2097152 + x2 * 65536 + x3 * 16) 4 7 = x3 :=
  bits_at (l := cl) (h := ch + x1 * 1024 + x2 * 32) (by omega) (by omega) (by omega)

theorem field237 {x0 x1 x2 x3 x4 x5 cl ch cm : Nat} (hC : x0 = cl + cm * 67108864 + ch * 4294967296) (h1 : x1 < 32) (h2 : x2 < 32) (h3 : x3 < 32) (h4 : x4 < 128) (h5 : x5 < 8) (hl : cl + 67108855 < 67108864) (hm : cm < 64) :
    bits (x0 + x1 * 2097152 + x2 * 65536 + x3 * 2048 + x4 * 16 + x5) 26 6 = cm :=
  bits_at (l := cl + x1 * 2097152 + x2 * 65536 + x3 * 2048 + x4 * 16 + x5 * 1) (h := ch) (by omega) (by omega) (by omega)

theorem field238 {x0 x1 x2 x3 x4 x5 cl ch : Nat} (hC : x0 = cl + ch * 8) (_h1 : x1 < 32) (_h2 : x2 < 32) (_h3 : x3 < 32) (_h4 : x4 < 128) (h5 : x5 < 8) (hl : cl + 0 < 1) :
    bits (x0 + x1 * 2097152 + x2 * 65536 + x3 * 2048 + x4 * 16 + x5) 0 3 = x5 :=
  bits_at (l := cl) (h := ch + x1 * 262144 + x2 * 8192 + x3 * 256 + x4 * 2) (by omega) (by omega) (by omega)

theorem field239 {x0 x1 x2 x3 x4 x5 cl ch : Nat} (hC : x0 = cl + ch * 65536) (_h1 : x1 < 32) (_h2 : x2 < 32) (h3 : x3 < 32) (h4 : x4 < 128) (h5 : x5 < 8) (hl : cl + 2039 < 2048) :
    bits (x0 + x1 * 2097152 + x2 * 65536 + x3 * 2048 + x4 * 16 + x5) 11 5 = x3 :=
  bits_at (l := cl + x4 * 16 + x5 * 1) (h := ch + x1 * 32 + x2 * 1) (by omega) (by omega) (by omega)

theorem field240 {x0 x1 x2 x3 x4 x5 cl ch : Nat} (hC : x0 = cl + ch * 2097152) (_h1 : x1 < 32) (h2 : x2 < 32) (h3 : x3 < 32) (h4 : x4 < 128) (h5 : x5 < 8) (hl : cl + 65527 < 65536) :
    bits (x0 + x1 * 2097152 + x2 * 65536 + x3 * 2048 + x4 * 16 + x5) 16 5 = x2 :=
  bits_at (l := cl + x3 * 2048 + x4 * 16 + x5 * 1) (h := ch + x1 * 1) (by omega) (by omega) (by omega)

theorem field241 {x0 x1 x2 x3 x4 x5 cl ch : Nat} (hC : x0 = cl + ch * 67108864) (h1 : x1 < 32) (h2 : x2 < 32) (h3 : x3 < 32) (h4 : x4 < 128) (h5 : x5 < 8) (hl : cl + 2097143 < 2097152) :
    bits (x0 + x1 * 2097152 + x2 * 65536 + x3 * 2048 + x4 * 16 + x5) 21 5 = x1 :=
  bits_at (l := cl + x2 * 65536 + x3 * 2048 + x4 * 16 + x5 * 1) (h := ch) (by omega) (by omega) (by omega)

theorem field242 {x0 x1 x2 x3 x4 x5 cl ch cm : Nat} (hC : x0 = cl + cm * 8 + ch * 16) (_h1 : x1 < 32) (_h2 : x2 < 32) (_h3 : x3 < 32) (_h4 : x4 < 128) (h5 : x5 < 8) (hl : cl + 7 < 8) (hm : cm < 2) :
    bits (x0 + x1 * 2097152 + x2 * 65536 + x3 * 2048 + x4 * 16 + x5) 3 1 = cm :=
  bits_at (l := cl + x5 * 1) (h := ch + x1 * 131072 + x2 * 4096 + x3 * 128 + x4 * 1) (by omega) (by omega) (by omega)

theorem field243 {x0 x1 x2 x3 x4 x5 cl ch : Nat} (hC : x0 = cl + ch * 2048) (_h1 : x1 < 32) (_h2 : x2 < 32) (_h3 : x3 < 32) (h4 : x4 < 128) (h5 : x5 < 8) (hl : cl + 7 < 16) :
    bits (x0 + x1 * 2097152 + x2 * 65536 + x3 * 2048 + x4 * 16 + x5) 4 7 = x4 :=
  bits_at (l := cl + x5 * 1) (h := ch + x1 * 1024 + x2 * 32 + x3 * 1) (by omega) (by omega) (by omega)

theorem field244 {x0 x1 x2 x3 x4 x5 cl ch cm : Nat} (hC : x0 = cl + cm * 67108864 + ch * 4294967296) (h1 : x1 < 32) (h2 : x2 < 32) (h3 : x3 < 32) (h4 : x4 < 128) (h5 : x5 < 2) (hl : cl + 67108849 < 67108864) (hm : cm < 64) :
    bits (x0 + x1 * 2097152 + x2 * 65536 + x3 * 2048 + x4 * 16 + x5) 26 6 = cm :=
  bits_at (l := cl + x1 * 2097152 + x2 * 65536 + x3 * 2048 + x4 * 16 + x5 * 1) (h := ch) (by omega) (by omega) (by omega)

theorem field245 {x0 x1 x2 x3 x4 x5 cl ch : Nat} (hC : x0 = cl + ch * 2) (_h1 : x1 < 32) (_h2 : x2 < 32) (_h3 : x3 < 32) (_h4 : x4 < 128) (h5 : x5 < 2) (hl : cl + 0 < 1) :
    bits (x0 + x1 * 2097152 + x2 * 65536 + x3 * 2048 + x4 * 16 + x5) 0 1 = x5 :=
  bits_at (l := cl) (h := ch + x1 * 1048576 + x2 * 32768 + x3 * 1024 + x4 * 8) (by omega) (by omega) (by omega)

theorem field246 {x0 x1 x2 x3 x4 x5 cl ch : Nat} (hC : x0 = cl + ch * 65536) (_h1 : x1 < 32) (_h2 : x2 < 32) (h3 : x3 < 32) (h4 : x4 < 128) (h5 : x5 < 2) (hl : cl + 2033 < 2048) :
    bits (x0 + x1 * 2097152 + x2 * 65536 + x3 * 2048 + x4 * 16 + x5) 11 5 = x3 :=
  bits_at (l := cl + x4 * 16 + x5 * 1) (h := ch + x1 * 32 + x2 * 1) (by omega) (by omega) (by omega)

theorem field247 {x0 x1 x2 x3 x4 x5 cl ch : Nat} (hC : x0 = cl + ch * 2097152) (_h1 : x1 < 32) (h2 : x2 < 32) (h3 : x3 < 32) (h4 : x4 < 128) (h5 : x5 < 2) (hl : cl + 65521 < 65536) :
    bits (x0 + x1 * 2097152 + x2 * 65536 + x3 * 2048 + x4 * 16 + x5) 16 5 = x2 :=
  bits_at (l := cl + x3 * 2048 + x4 * 16 + x5 * 1) (h := ch + x1 * 1) (by omega) (by omega) (by omega)

theorem field248 {x0 x1 x2 x3 x4 x5 cl ch : Nat} (hC : x0 = cl + ch * 67108864) (h1 : x1 < 32) (h2 : x2 < 32) (h3 : x3 < 32) (h4 : x4 < 128) (h5 : x5 < 2) (hl : cl + 2097137 < 2097152) :
    bits (x0 + x1 * 2097152 + x2 * 65536 + x3 * 2048 + x4 * 16 + x5) 21 5 = x1 :=
  bits_at (l := cl + x2 * 65536 + x3 * 2048 + x4 * 16 + x5 * 1) (h := ch) (by omega) (by omega) (by omega)

theorem field249 {x0 x1 x2 x3 x4 x5 cl ch : Nat} (hC : x0 = cl + ch * 2048) (_h1 : x1 < 32) (_h2 : x2 < 32) (_h3 : x3 < 32) (h4 : x4 < 128) (h5 : x5 < 2) (hl : cl + 1 < 16) :
    bits (x0 + x1 * 2097152 + x2 * 65536 + x3 * 2048 + x4 * 16 + x5) 4 7 = x4 :=
  bits_at (l := cl + x5 * 1) (h := ch + x1 * 1024 + x2 * 32 + x3 * 1) (by omega) (by omega) (by omega)

theorem field250 {x0 x1 x2 x3 x4 x5 cl ch : Nat} (hC : x0 = cl + ch * 16) (_h1 : x1 < 32) (_h2 : x2 < 32) (_h3 : x3 < 32) (_h4 : x4 < 128) (h5 : x5 < 8) (hl : cl + 0 < 1) :
    bits (x0 + x1 * 2097152 + x2 * 65536 + x3 * 2048 + x4 * 16 + x5) 0 4 = x5 :=
  bits_at (l := cl) (h := ch + x1 * 131072 + x2 * 4096 + x3 * 128 + x4 * 1) (by omega) (by omega) (by omega)

theorem field251 {x0 x1 x2 x3 x4 x5 x6 x7 cl ch cm : Nat} (hC : x0 = cl + cm * 67108864 + ch * 4294967296) (h1 : x1 < 32) (h2 : x2 < 32) (h3 : x3 < 2) (h4 : x4 < 16) (h5 : x5 < 128) (h6 : x6 < 8) (h7 : x7 < 2) (hl : cl + 67108863 < 67108864) (hm : cm < 64) :
    bits (x0 + x1 * 2097152 + x2 * 65536 + x3 * 32768 + x4 * 2048 + x5 * 16 + x6 * 2 + x7) 26 6 = cm :=
  bits_at (l := cl + x1 * 2097152 + x2 * 65536 + x3 * 32768 + x4 * 2048 + x5 * 16 + x6 * 2 + x7 * 1) (h := ch) (by omega) (by omega) (by omega)

theorem field252 {x0 x1 x2 x3 x4 x5 x6 x7 cl ch : Nat} (hC : x0 = cl + ch * 2) (_h1 : x1 < 32) (_h2 : x2 < 32) (_h3 : x3 < 2) (_h4 : x4 < 16) (_h5 : x5 < 128) (_h6 : x6 < 8) (h7 : x7 < 2) (hl : cl + 0 < 1) :
    bits (x0 + x1 * 2097152 + x2 * 65536 + x3 * 32768 + x4 * 2048 + x5 * 16 + x6 * 2 + x7) 0 1 = x7 :=
  bits_at (l := cl) (h := ch + x1 * 1048576 + x2 * 32768 + x3 * 16384 + x4 * 1024 + x5 * 8 + x6 * 1) (by omega) (by omega) (by omega)

theorem field253 {x0 x1 x2 x3 x4 x5 x6 x7 cl ch : Nat} (hC : x0 = cl + ch * 16) (_h1 : x1 < 32) (_h2 : x2 < 32) (_h3 : x3 < 2) (_h4 : x4 < 16) (_h5 : x5 < 128) (h6 : x6 < 8) (h7 : x7 < 2) (hl : cl + 1 < 2) :
    bits (x0 + x1 * 2097152 + x2 * 65536 + x3 * 32768 + x4 * 2048 + x5 * 16 + x6 * 2 + x7) 1 3 = x6 :=
  bits_at (l := cl + x7 * 1) (h := ch + x1 * 131072 + x2 * 4096 + x3 * 2048 + x4 * 128 + x5 * 1) (by omega) (by omega) (by omega)

theorem field254 {x0 x1 x2 x3 x4 x5 x6 x7 cl ch : Nat} (hC : x0 = cl + ch * 32768) (_h1 : x1 < 32) (_h2 : x2 < 32) (_h3 : x3 < 2) (h4 : x4 < 16) (h5 : x5 < 128) (h6 : x6 < 8) (h7 : x7 < 2) (hl : cl + 2047 < 2048) :
    bits (x0 + x1 * 2097152 + x2 * 65536 + x3 * 32768 + x4 * 2048 + x5 * 16 + x6 * 2 + x7) 11 4 = x4 :=
  bits_at (l := cl + x5 * 16 + x6 * 2 + x7 * 1) (h := ch + x1 * 64 + x2 * 2 + x3 * 1) (by omega) (by omega) (by omega)

theorem field255 {x0 x1 x2 x3 x4 x5 x6 x7 cl ch : Nat} (hC : x0 = cl + ch * 65536) (_h1 : x1 < 32) (_h2 : x2 < 32) (h3 : x3 < 2) (h4 : x4 < 16) (h5 : x5 < 128) (h6 : x6 < 8) (h7 : x7 < 2) (hl : cl + 32767 < 32768) :
    bits (x0 + x1 * 2097152 + x2 * 65536 + x3 * 32768 + x4 * 2048 + x5 * 16 + x6 * 2 + x7) 15 1 = x3 :=
  bits_at (l := cl + x4 * 2048 + x5 * 16 + x6 * 2 + x7 * 1) (h := ch + x1 * 32 + x2 * 1) (by omega) (by omega) (by omega)

theorem field256 {x0 x1 x2 x3 x4 x5 x6 x7 cl ch : Nat} (hC : x0 = cl + ch * 2097152) (_h1 : x1 < 32) (h2 : x2 < 32) (h3 : x3 < 2) (h4 : x4 < 16) (h5 : x5 < 128) (h6 : x6 < 8) (h7 : x7 < 2) (hl : cl + 65535 < 65536) :
    bits (x0 + x1 * 2097152 + x2 * 65536 + x3 * 32768 + x4 * 2048 + x5 * 16 + x6 * 2 + x7) 16 5 = x2 :=
  bits_at (l := cl + x3 * 32768 + x4 * 2048 + x5 * 16 + x6 * 2 + x7 * 1) (h := ch + x1 * 1) (by omega) (by omega) (by omega)

theorem field257 {x0 x1 x2 x3 x4 x5 x6 x7 cl ch : Nat} (hC : x0 = cl + ch * 67108864) (h1 : x1 < 32) (h2 : x2 < 32) (h3 : x3 < 2) (h4 : x4 < 16) (h5 : x5 < 128) (h6 : x6 < 8) (h7 : x7 < 2) (hl : cl + 2097151 < 2097152) :
    bits (x0 + x1 * 2097152 + x2 * 65536 + x3 * 32768 + x4 * 2048 + x5 * 16 + x6 * 2 + x7) 21 5 = x1 :=
  bits_at (l := cl + x2 * 65536 + x3 * 32768 + x4 * 2048 + x5 * 16 + x6 * 2 + x7 * 1) (h := ch) (by omega) (by omega) (by omega)

theorem field258 {x0 x1 x2 x3 x4 x5 x6 x7 cl ch : Nat} (hC : x0 = cl + ch * 2048) (_h1 : x1 < 32) (_h2 : x2 < 32) (_h3 : x3 < 2) (_h4 : x4 < 16) (h5 : x5 < 128) (h6 : x6 < 8) (h7 : x7 < 2) (hl : cl + 15 < 16) :
    bits (x0 + x1 * 2097152 + x2 * 65536 + x3 * 32768 + x4 * 2048 + x5 * 16 + x6 * 2 + x7) 4 7 = x5 :=
  bits_at (l := cl + x6 * 2 + x7 * 1) (h := ch + x1 * 1024 + x2 * 32 + x3 * 16 + x4 * 1) (by omega) (by omega) (by omega)

theorem field259 {x0 x1 x2 x3 x4 : Nat} (h0 : x0 < 64) (h1 : x1 < 128) (h2 : x2 < 128) (h3 : x3 < 128) (h4 : x4 < 32) :
    bits (x0 * 67108864 + x1 * 524288 + x2 * 4096 + x3 * 32 + x4) 26 6 = x0 :=
  bits_at (l := x1 * 524288 + x2 * 4096 + x3 * 32 + x4 * 1) (h := 0) (by omega) (by omega) (by omega)

theorem field260 {x0 x1 x2 x3 x4 : Nat} (_h0 : x0 < 64) (_h1 : x1 < 128) (_h2 : x2 < 128) (_h3 : x3 < 128) (h4 : x4 < 32) :
    bits (x0 * 67108864 + x1 * 524288 + x2 * 4096 + x3 * 32 + x4) 0 5 = x4 :=
  bits_at (l := 0) (h := x0 * 2097152 + x1 * 16384 + x2 * 128 + x3 * 1) (by omega) (by omega) (by omega)

theorem field261 {x0 x1 x2 x3 x4 : Nat} (_h0 : x0 < 64) (_h1 : x1 < 128) (h2 : x2 < 128) (h3 : x3 < 128) (h4 : x4 < 32) :
    bits (x0 * 67108864 + x1 * 524288 + x2 * 4096 + x3 * 32 + x4) 12 7 = x2 :=
  bits_at (l := x3 * 32 + x4 * 1) (h := x0 * 128 + x1 * 1) (by omega) (by omega) (by omega)

theorem field262 {x0 x1 x2 x3 x4 : Nat} (_h0 : x0 < 64) (h1 : x1 < 128) (h2 : x2 < 128) (h3 : x3 < 128) (h4 : x4 < 32) :
    bits (x0 * 67108864 + x1 * 524288 + x2 * 4096 + x3 * 32 + x4) 19 7 = x1 :=
  bits_at (l := x2 * 4096 + x3 * 32 + x4 * 1) (h := x0 * 1) (by omega) (by omega) (by omega)

theorem field263 {x0 x1 x2 x3 x4 : Nat} (_h0 : x0 < 64) (_h1 : x1 < 128) (_h2 : x2 < 128) (h3 : x3 < 128) (h4 : x4 < 32) :
    bits (x0 * 67108864 + x1 * 524288 + x2 * 4096 + x3 * 32 + x4) 5 7 = x3 :=
  bits_at (l := x4 * 1) (h := x0 * 16384 + x1 * 128 + x2 * 1) (by omega) (by omega) (by omega)

theorem field264 {x0 x1 x2 : Nat} (_h0 : x0 < 8) (_h1 : x1 < 4) (h2 : x2 < 4) :
    bits (x0 * 128 + x1 * 4 + x2) 0 2 = x2 :=
  bits_at (l := 0) (h := x0 * 32 + x1 * 1) (by omega) (by omega) (by omega)

theorem field265 {x0 x1 x2 : Nat} (h0 : x0 < 8) (h1 : x1 < 4) (h2 : x2 < 4) :
    bits (x0 * 128 + x1 * 4 + x2) 10 6 = 0 :=
  bits_at (l := x0 * 128 + x1 * 4 + x2 * 1) (h := 0) (by omega) (by omega) (by omega)

theorem field266 {x0 x1 x2 : Nat} (h0 : x0 < 8) (h1 : x1 < 4) (h2 : x2 < 4) :
    bits (x0 * 128 + x1 * 4 + x2) 16 16 = 0 :=
  bits_at (l := x0 * 128 + x1 * 4 + x2 * 1) (h := 0) (by omega) (by omega) (by omega)

theorem field267 {x0 x1 x2 : Nat} (_h0 : x0 < 8) (h1 : x1 < 4) (h2 : x2 < 4) :
    bits (x0 * 128 + x1 * 4 + x2) 2 2 = x1 :=
  bits_at (l := x2 * 1) (h := x0 * 8) (by omega) (by omega) (by omega)

theorem field268 {x0 x1 x2 : Nat} (_h0 : x0 < 8) (h1 : x1 < 4) (h2 : x2 < 4) :
    bits (x0 * 128 + x1 * 4 + x2) 4 3 = 0 :=
  bits_at (l := x1 * 4 + x2 * 1) (h := x0 * 1) (by omega) (by omega) (by omega)

theorem field269 {x0 x1 x2 : Nat} (h0 : x0 < 8) (h1 : x1 < 4) (h2 : x2 < 4) :
    bits (x0 * 128 + x1 * 4 + x2) 7 3 = x0 :=
  bits_at (l := x1 * 4 + x2 * 1) (h := 0) (by omega) (by omega) (by omega)

theorem field270 {x0 x1 x2 : Nat} (_h0 : x0 < 8) (_h1 : x1 < 2) (h2 : x2 < 4) :
    bits (x0 * 128 + x1 * 4 + x2) 0 2 = x2 :=
  bits_at (l := 0) (h := x0 * 32 + x1 * 1) (by omega) (by omega) (by omega)

theorem field271 {x0 x1 x2 : Nat} (h0 : x0 < 8) (h1 : x1 < 2) (h2 : x2 < 4) :
    bits (x0 * 128 + x1 * 4 + x2) 10 6 = 0 :=
  bits_at (l := x0 * 128 + x1 * 4 + x2 * 1) (h := 0) (by omega) (by omega) (by omega)

theorem field272 {x0 x1 x2 : Nat} (h0 : x0 < 8) (h1 : x1 < 2) (h2 : x2 < 4) :
    bits (x0 * 128 + x1 * 4 + x2) 16 16 = 0 :=
  bits_at (l := x0 * 128 + x1 * 4 + x2 * 1) (h := 0) (by omega) (by omega) (by omega)

theorem field273 {x0 x1 x2 : Nat} (_h0 : x0 < 8) (h1 : x1 < 2) (h2 : x2 < 4) :
    bits (x0 * 128 + x1 * 4 + x2) 2 2 = x1 :=
  bits_at (l := x2 * 1) (h := x0 * 8) (by omega) (by omega) (by omega)

theorem field274 {x0 x1 x2 : Nat} (_h0 : x0 < 8) (h1 : x1 < 2) (h2 : x2 < 4) :
    bits (x0 * 128 + x1 * 4 + x2) 4 3 = 0 :=
  bits_at (l := x1 * 4 + x2 * 1) (h := x0 * 1) (by omega) (by omega) (by omega)

theorem field275 {x0 x1 x2 : Nat} (h0 : x0 < 8) (h1 : x1 < 2) (h2 : x2 < 4) :
    bits (x0 * 128 + x1 * 4 + x2) 7 3 = x0 :=
  bits_at (l := x1 * 4 + x2 * 1) (h := 0) (by omega) (by omega) (by omega)

theorem field276 {x0 x1 : Nat} (_h0 : x0 < 65536) (_h1 : x1 < 8) :
    bits (x0 * 65536 + x1 * 2) 0 1 = 0 :=
  bits_at (l := 0) (h := x0 * 32768 + x1 * 1) (by omega) (by omega) (by omega)

theorem field277 {x0 x1 : Nat} (_h0 : x0 < 65536) (h1 : x1 < 8) :
    bits (x0 * 65536 + x1 * 2) 1 3 = x1 :=
  bits_at (l := 0) (h := x0 * 4096) (by omega) (by omega) (by omega)

theorem field278 {x0 x1 : Nat} (h0 : x0 < 65536) (h1 : x1 < 8) :
    bits (x0 * 65536 + x1 * 2) 16 16 = x0 :=
  bits_at (l := x1 * 2) (h := 0) (by omega) (by omega) (by omega)

theorem field279 {x0 x1 : Nat} (_h0 : x0 < 65536) (h1 : x1 < 8) :
    bits (x0 * 65536 + x1 * 2) 4 12 = 0 :=
  bits_at (l := x1 * 2) (h := x0 * 1) (by omega) (by omega) (by omega)

theorem field280 {x0 : Nat} (_h0 : x0 < 65536) :
    bits (x0 * 65536) 0 1 = 0 :=
  bits_at (l := 0) (h := x0 * 32768) (by omega) (by omega) (by omega)

theorem field281 {x0 : Nat} (_h0 : x0 < 65536) :
    bits (x0 * 65536) 1 3 = 0 :=
  bits_at (l := 0) (h := x0 * 4096) (by omega) (by omega) (by omega)

theorem field282 {x0 : Nat} (h0 : x0 < 65536) :
    bits (x0 * 65536) 16 16 = x0 :=
  bits_at (l := 0) (h := 0) (by omega) (by omega) (by omega)

theorem field283 {x0 : Nat} (_h0 : x0 < 65536) :
    bits (x0 * 65536) 4 12 = 0 :=
  bits_at (l := 0) (h := x0 * 1) (by omega) (by omega) (by omega)

end Sys2Proof

namespace Sys2Proof.Laws.RoundTrip

/-- The decoder reads a well-formed instruction back from its own words. -/
def Statement (i : Instr) : Prop := wellFormed i = true → i.isWord = true → decode i.w0 i.w1 = .ok i

theorem add (d : Nat) (a : Nat) (b : Nat) : Statement (.add d a b) := by
  intro hwf _
  have hb : (d < 128 && a < 128 && b < 128) = true := hwf
  simp only [Bool.and_eq_true, decide_eq_true_eq] at hb
  obtain ⟨⟨hb0, hb1⟩, hb2⟩ := hb
  have m : bits (67108864 + d * 524288 + a * 4096 + b * 32) 26 6 = 1 := field0 (cl := 0) (cm := 1) (ch := 0) rfl hb0 hb1 hb2 (by decide) (by decide)
  have f0 : bits (67108864 + d * 524288 + a * 4096 + b * 32) 0 5 = 0 := field1 (cl := 0) (cm := 0) (ch := 2097152) rfl hb0 hb1 hb2 (by decide) (by decide)
  have f1 : bits (67108864 + d * 524288 + a * 4096 + b * 32) 12 7 = a := field2 (cl := 0) (ch := 128) rfl hb0 hb1 hb2 (by decide)
  have f2 : bits (67108864 + d * 524288 + a * 4096 + b * 32) 19 7 = d := field3 (cl := 0) (ch := 1) rfl hb0 hb1 hb2 (by decide)
  have f3 : bits (67108864 + d * 524288 + a * 4096 + b * 32) 5 7 = b := field4 (cl := 0) (ch := 16384) rfl hb0 hb1 hb2 (by decide)
  refine decode_of_one (w := 67108864 + d * 524288 + a * 4096 + b * 32) rfl m (by decide) (fun x => ?_) hwf
  rw [decodeMajor_01 _ m, decodeM01]
  simp only [f0, f1, f2, f3, use, if_true, Nat.reduceAdd, Nat.zero_ne_one, Nat.one_ne_zero, if_false]

theorem sub (d : Nat) (a : Nat) (b : Nat) : Statement (.sub d a b) := by
  intro hwf _
  have hb : (d < 128 && a < 128 && b < 128) = true := hwf
  simp only [Bool.and_eq_true, decide_eq_true_eq] at hb
  obtain ⟨⟨hb0, hb1⟩, hb2⟩ := hb
  have m : bits (67108865 + d * 524288 + a * 4096 + b * 32) 26 6 = 1 := field0 (cl := 1) (cm := 1) (ch := 0) rfl hb0 hb1 hb2 (by decide) (by decide)
  have f0 : bits (67108865 + d * 524288 + a * 4096 + b * 32) 0 5 = 1 := field1 (cl := 0) (cm := 1) (ch := 2097152) rfl hb0 hb1 hb2 (by decide) (by decide)
  have f1 : bits (67108865 + d * 524288 + a * 4096 + b * 32) 12 7 = a := field2 (cl := 1) (ch := 128) rfl hb0 hb1 hb2 (by decide)
  have f2 : bits (67108865 + d * 524288 + a * 4096 + b * 32) 19 7 = d := field3 (cl := 1) (ch := 1) rfl hb0 hb1 hb2 (by decide)
  have f3 : bits (67108865 + d * 524288 + a * 4096 + b * 32) 5 7 = b := field4 (cl := 1) (ch := 16384) rfl hb0 hb1 hb2 (by decide)
  refine decode_of_one (w := 67108865 + d * 524288 + a * 4096 + b * 32) rfl m (by decide) (fun x => ?_) hwf
  rw [decodeMajor_01 _ m, decodeM01]
  simp only [f0, f1, f2, f3, use, if_true, Nat.reduceAdd, Nat.zero_ne_one, Nat.one_ne_zero, if_false]

theorem mul (d : Nat) (a : Nat) (b : Nat) : Statement (.mul d a b) := by
  intro hwf _
  have hb : (d < 128 && a < 128 && b < 128) = true := hwf
  simp only [Bool.and_eq_true, decide_eq_true_eq] at hb
  obtain ⟨⟨hb0, hb1⟩, hb2⟩ := hb
  have m : bits (67108866 + d * 524288 + a * 4096 + b * 32) 26 6 = 1 := field0 (cl := 2) (cm := 1) (ch := 0) rfl hb0 hb1 hb2 (by decide) (by decide)
  have f0 : bits (67108866 + d * 524288 + a * 4096 + b * 32) 0 5 = 2 := field1 (cl := 0) (cm := 2) (ch := 2097152) rfl hb0 hb1 hb2 (by decide) (by decide)
  have f1 : bits (67108866 + d * 524288 + a * 4096 + b * 32) 12 7 = a := field2 (cl := 2) (ch := 128) rfl hb0 hb1 hb2 (by decide)
  have f2 : bits (67108866 + d * 524288 + a * 4096 + b * 32) 19 7 = d := field3 (cl := 2) (ch := 1) rfl hb0 hb1 hb2 (by decide)
  have f3 : bits (67108866 + d * 524288 + a * 4096 + b * 32) 5 7 = b := field4 (cl := 2) (ch := 16384) rfl hb0 hb1 hb2 (by decide)
  refine decode_of_one (w := 67108866 + d * 524288 + a * 4096 + b * 32) rfl m (by decide) (fun x => ?_) hwf
  rw [decodeMajor_01 _ m, decodeM01]
  simp only [f0, f1, f2, f3, use, if_true, Nat.reduceAdd, Nat.zero_ne_one, Nat.one_ne_zero, if_false]

theorem mulh (d : Nat) (a : Nat) (b : Nat) : Statement (.mulh d a b) := by
  intro hwf _
  have hb : (d < 128 && a < 128 && b < 128) = true := hwf
  simp only [Bool.and_eq_true, decide_eq_true_eq] at hb
  obtain ⟨⟨hb0, hb1⟩, hb2⟩ := hb
  have m : bits (67108867 + d * 524288 + a * 4096 + b * 32) 26 6 = 1 := field0 (cl := 3) (cm := 1) (ch := 0) rfl hb0 hb1 hb2 (by decide) (by decide)
  have f0 : bits (67108867 + d * 524288 + a * 4096 + b * 32) 0 5 = 3 := field1 (cl := 0) (cm := 3) (ch := 2097152) rfl hb0 hb1 hb2 (by decide) (by decide)
  have f1 : bits (67108867 + d * 524288 + a * 4096 + b * 32) 12 7 = a := field2 (cl := 3) (ch := 128) rfl hb0 hb1 hb2 (by decide)
  have f2 : bits (67108867 + d * 524288 + a * 4096 + b * 32) 19 7 = d := field3 (cl := 3) (ch := 1) rfl hb0 hb1 hb2 (by decide)
  have f3 : bits (67108867 + d * 524288 + a * 4096 + b * 32) 5 7 = b := field4 (cl := 3) (ch := 16384) rfl hb0 hb1 hb2 (by decide)
  refine decode_of_one (w := 67108867 + d * 524288 + a * 4096 + b * 32) rfl m (by decide) (fun x => ?_) hwf
  rw [decodeMajor_01 _ m, decodeM01]
  simp only [f0, f1, f2, f3, use, if_true, Nat.reduceAdd, Nat.zero_ne_one, Nat.one_ne_zero, if_false]

theorem mulhn (d : Nat) (a : Nat) (b : Nat) : Statement (.mulhn d a b) := by
  intro hwf _
  have hb : (d < 128 && a < 128 && b < 128) = true := hwf
  simp only [Bool.and_eq_true, decide_eq_true_eq] at hb
  obtain ⟨⟨hb0, hb1⟩, hb2⟩ := hb
  have m : bits (67108868 + d * 524288 + a * 4096 + b * 32) 26 6 = 1 := field0 (cl := 4) (cm := 1) (ch := 0) rfl hb0 hb1 hb2 (by decide) (by decide)
  have f0 : bits (67108868 + d * 524288 + a * 4096 + b * 32) 0 5 = 4 := field1 (cl := 0) (cm := 4) (ch := 2097152) rfl hb0 hb1 hb2 (by decide) (by decide)
  have f1 : bits (67108868 + d * 524288 + a * 4096 + b * 32) 12 7 = a := field2 (cl := 4) (ch := 128) rfl hb0 hb1 hb2 (by decide)
  have f2 : bits (67108868 + d * 524288 + a * 4096 + b * 32) 19 7 = d := field3 (cl := 4) (ch := 1) rfl hb0 hb1 hb2 (by decide)
  have f3 : bits (67108868 + d * 524288 + a * 4096 + b * 32) 5 7 = b := field4 (cl := 4) (ch := 16384) rfl hb0 hb1 hb2 (by decide)
  refine decode_of_one (w := 67108868 + d * 524288 + a * 4096 + b * 32) rfl m (by decide) (fun x => ?_) hwf
  rw [decodeMajor_01 _ m, decodeM01]
  simp only [f0, f1, f2, f3, use, if_true, Nat.reduceAdd, Nat.zero_ne_one, Nat.one_ne_zero, if_false]

theorem div (d : Nat) (a : Nat) (b : Nat) : Statement (.div d a b) := by
  intro hwf _
  have hb : (d < 128 && a < 128 && b < 128) = true := hwf
  simp only [Bool.and_eq_true, decide_eq_true_eq] at hb
  obtain ⟨⟨hb0, hb1⟩, hb2⟩ := hb
  have m : bits (67108869 + d * 524288 + a * 4096 + b * 32) 26 6 = 1 := field0 (cl := 5) (cm := 1) (ch := 0) rfl hb0 hb1 hb2 (by decide) (by decide)
  have f0 : bits (67108869 + d * 524288 + a * 4096 + b * 32) 0 5 = 5 := field1 (cl := 0) (cm := 5) (ch := 2097152) rfl hb0 hb1 hb2 (by decide) (by decide)
  have f1 : bits (67108869 + d * 524288 + a * 4096 + b * 32) 12 7 = a := field2 (cl := 5) (ch := 128) rfl hb0 hb1 hb2 (by decide)
  have f2 : bits (67108869 + d * 524288 + a * 4096 + b * 32) 19 7 = d := field3 (cl := 5) (ch := 1) rfl hb0 hb1 hb2 (by decide)
  have f3 : bits (67108869 + d * 524288 + a * 4096 + b * 32) 5 7 = b := field4 (cl := 5) (ch := 16384) rfl hb0 hb1 hb2 (by decide)
  refine decode_of_one (w := 67108869 + d * 524288 + a * 4096 + b * 32) rfl m (by decide) (fun x => ?_) hwf
  rw [decodeMajor_01 _ m, decodeM01]
  simp only [f0, f1, f2, f3, use, if_true, Nat.reduceAdd, Nat.zero_ne_one, Nat.one_ne_zero, if_false]

theorem divn (d : Nat) (a : Nat) (b : Nat) : Statement (.divn d a b) := by
  intro hwf _
  have hb : (d < 128 && a < 128 && b < 128) = true := hwf
  simp only [Bool.and_eq_true, decide_eq_true_eq] at hb
  obtain ⟨⟨hb0, hb1⟩, hb2⟩ := hb
  have m : bits (67108870 + d * 524288 + a * 4096 + b * 32) 26 6 = 1 := field0 (cl := 6) (cm := 1) (ch := 0) rfl hb0 hb1 hb2 (by decide) (by decide)
  have f0 : bits (67108870 + d * 524288 + a * 4096 + b * 32) 0 5 = 6 := field1 (cl := 0) (cm := 6) (ch := 2097152) rfl hb0 hb1 hb2 (by decide) (by decide)
  have f1 : bits (67108870 + d * 524288 + a * 4096 + b * 32) 12 7 = a := field2 (cl := 6) (ch := 128) rfl hb0 hb1 hb2 (by decide)
  have f2 : bits (67108870 + d * 524288 + a * 4096 + b * 32) 19 7 = d := field3 (cl := 6) (ch := 1) rfl hb0 hb1 hb2 (by decide)
  have f3 : bits (67108870 + d * 524288 + a * 4096 + b * 32) 5 7 = b := field4 (cl := 6) (ch := 16384) rfl hb0 hb1 hb2 (by decide)
  refine decode_of_one (w := 67108870 + d * 524288 + a * 4096 + b * 32) rfl m (by decide) (fun x => ?_) hwf
  rw [decodeMajor_01 _ m, decodeM01]
  simp only [f0, f1, f2, f3, use, if_true, Nat.reduceAdd, Nat.zero_ne_one, Nat.one_ne_zero, if_false]

theorem rem (d : Nat) (a : Nat) (b : Nat) : Statement (.rem d a b) := by
  intro hwf _
  have hb : (d < 128 && a < 128 && b < 128) = true := hwf
  simp only [Bool.and_eq_true, decide_eq_true_eq] at hb
  obtain ⟨⟨hb0, hb1⟩, hb2⟩ := hb
  have m : bits (67108871 + d * 524288 + a * 4096 + b * 32) 26 6 = 1 := field0 (cl := 7) (cm := 1) (ch := 0) rfl hb0 hb1 hb2 (by decide) (by decide)
  have f0 : bits (67108871 + d * 524288 + a * 4096 + b * 32) 0 5 = 7 := field1 (cl := 0) (cm := 7) (ch := 2097152) rfl hb0 hb1 hb2 (by decide) (by decide)
  have f1 : bits (67108871 + d * 524288 + a * 4096 + b * 32) 12 7 = a := field2 (cl := 7) (ch := 128) rfl hb0 hb1 hb2 (by decide)
  have f2 : bits (67108871 + d * 524288 + a * 4096 + b * 32) 19 7 = d := field3 (cl := 7) (ch := 1) rfl hb0 hb1 hb2 (by decide)
  have f3 : bits (67108871 + d * 524288 + a * 4096 + b * 32) 5 7 = b := field4 (cl := 7) (ch := 16384) rfl hb0 hb1 hb2 (by decide)
  refine decode_of_one (w := 67108871 + d * 524288 + a * 4096 + b * 32) rfl m (by decide) (fun x => ?_) hwf
  rw [decodeMajor_01 _ m, decodeM01]
  simp only [f0, f1, f2, f3, use, if_true, Nat.reduceAdd, Nat.zero_ne_one, Nat.one_ne_zero, if_false]

theorem remn (d : Nat) (a : Nat) (b : Nat) : Statement (.remn d a b) := by
  intro hwf _
  have hb : (d < 128 && a < 128 && b < 128) = true := hwf
  simp only [Bool.and_eq_true, decide_eq_true_eq] at hb
  obtain ⟨⟨hb0, hb1⟩, hb2⟩ := hb
  have m : bits (67108872 + d * 524288 + a * 4096 + b * 32) 26 6 = 1 := field0 (cl := 8) (cm := 1) (ch := 0) rfl hb0 hb1 hb2 (by decide) (by decide)
  have f0 : bits (67108872 + d * 524288 + a * 4096 + b * 32) 0 5 = 8 := field1 (cl := 0) (cm := 8) (ch := 2097152) rfl hb0 hb1 hb2 (by decide) (by decide)
  have f1 : bits (67108872 + d * 524288 + a * 4096 + b * 32) 12 7 = a := field2 (cl := 8) (ch := 128) rfl hb0 hb1 hb2 (by decide)
  have f2 : bits (67108872 + d * 524288 + a * 4096 + b * 32) 19 7 = d := field3 (cl := 8) (ch := 1) rfl hb0 hb1 hb2 (by decide)
  have f3 : bits (67108872 + d * 524288 + a * 4096 + b * 32) 5 7 = b := field4 (cl := 8) (ch := 16384) rfl hb0 hb1 hb2 (by decide)
  refine decode_of_one (w := 67108872 + d * 524288 + a * 4096 + b * 32) rfl m (by decide) (fun x => ?_) hwf
  rw [decodeMajor_01 _ m, decodeM01]
  simp only [f0, f1, f2, f3, use, if_true, Nat.reduceAdd, Nat.zero_ne_one, Nat.one_ne_zero, if_false]

theorem min (d : Nat) (a : Nat) (b : Nat) : Statement (.min d a b) := by
  intro hwf _
  have hb : (d < 128 && a < 128 && b < 128) = true := hwf
  simp only [Bool.and_eq_true, decide_eq_true_eq] at hb
  obtain ⟨⟨hb0, hb1⟩, hb2⟩ := hb
  have m : bits (67108873 + d * 524288 + a * 4096 + b * 32) 26 6 = 1 := field0 (cl := 9) (cm := 1) (ch := 0) rfl hb0 hb1 hb2 (by decide) (by decide)
  have f0 : bits (67108873 + d * 524288 + a * 4096 + b * 32) 0 5 = 9 := field1 (cl := 0) (cm := 9) (ch := 2097152) rfl hb0 hb1 hb2 (by decide) (by decide)
  have f1 : bits (67108873 + d * 524288 + a * 4096 + b * 32) 12 7 = a := field2 (cl := 9) (ch := 128) rfl hb0 hb1 hb2 (by decide)
  have f2 : bits (67108873 + d * 524288 + a * 4096 + b * 32) 19 7 = d := field3 (cl := 9) (ch := 1) rfl hb0 hb1 hb2 (by decide)
  have f3 : bits (67108873 + d * 524288 + a * 4096 + b * 32) 5 7 = b := field4 (cl := 9) (ch := 16384) rfl hb0 hb1 hb2 (by decide)
  refine decode_of_one (w := 67108873 + d * 524288 + a * 4096 + b * 32) rfl m (by decide) (fun x => ?_) hwf
  rw [decodeMajor_01 _ m, decodeM01]
  simp only [f0, f1, f2, f3, use, if_true, Nat.reduceAdd, Nat.zero_ne_one, Nat.one_ne_zero, if_false]

theorem max (d : Nat) (a : Nat) (b : Nat) : Statement (.max d a b) := by
  intro hwf _
  have hb : (d < 128 && a < 128 && b < 128) = true := hwf
  simp only [Bool.and_eq_true, decide_eq_true_eq] at hb
  obtain ⟨⟨hb0, hb1⟩, hb2⟩ := hb
  have m : bits (67108874 + d * 524288 + a * 4096 + b * 32) 26 6 = 1 := field0 (cl := 10) (cm := 1) (ch := 0) rfl hb0 hb1 hb2 (by decide) (by decide)
  have f0 : bits (67108874 + d * 524288 + a * 4096 + b * 32) 0 5 = 10 := field1 (cl := 0) (cm := 10) (ch := 2097152) rfl hb0 hb1 hb2 (by decide) (by decide)
  have f1 : bits (67108874 + d * 524288 + a * 4096 + b * 32) 12 7 = a := field2 (cl := 10) (ch := 128) rfl hb0 hb1 hb2 (by decide)
  have f2 : bits (67108874 + d * 524288 + a * 4096 + b * 32) 19 7 = d := field3 (cl := 10) (ch := 1) rfl hb0 hb1 hb2 (by decide)
  have f3 : bits (67108874 + d * 524288 + a * 4096 + b * 32) 5 7 = b := field4 (cl := 10) (ch := 16384) rfl hb0 hb1 hb2 (by decide)
  refine decode_of_one (w := 67108874 + d * 524288 + a * 4096 + b * 32) rfl m (by decide) (fun x => ?_) hwf
  rw [decodeMajor_01 _ m, decodeM01]
  simp only [f0, f1, f2, f3, use, if_true, Nat.reduceAdd, Nat.zero_ne_one, Nat.one_ne_zero, if_false]

theorem minn (d : Nat) (a : Nat) (b : Nat) : Statement (.minn d a b) := by
  intro hwf _
  have hb : (d < 128 && a < 128 && b < 128) = true := hwf
  simp only [Bool.and_eq_true, decide_eq_true_eq] at hb
  obtain ⟨⟨hb0, hb1⟩, hb2⟩ := hb
  have m : bits (67108875 + d * 524288 + a * 4096 + b * 32) 26 6 = 1 := field0 (cl := 11) (cm := 1) (ch := 0) rfl hb0 hb1 hb2 (by decide) (by decide)
  have f0 : bits (67108875 + d * 524288 + a * 4096 + b * 32) 0 5 = 11 := field1 (cl := 0) (cm := 11) (ch := 2097152) rfl hb0 hb1 hb2 (by decide) (by decide)
  have f1 : bits (67108875 + d * 524288 + a * 4096 + b * 32) 12 7 = a := field2 (cl := 11) (ch := 128) rfl hb0 hb1 hb2 (by decide)
  have f2 : bits (67108875 + d * 524288 + a * 4096 + b * 32) 19 7 = d := field3 (cl := 11) (ch := 1) rfl hb0 hb1 hb2 (by decide)
  have f3 : bits (67108875 + d * 524288 + a * 4096 + b * 32) 5 7 = b := field4 (cl := 11) (ch := 16384) rfl hb0 hb1 hb2 (by decide)
  refine decode_of_one (w := 67108875 + d * 524288 + a * 4096 + b * 32) rfl m (by decide) (fun x => ?_) hwf
  rw [decodeMajor_01 _ m, decodeM01]
  simp only [f0, f1, f2, f3, use, if_true, Nat.reduceAdd, Nat.zero_ne_one, Nat.one_ne_zero, if_false]

theorem maxn (d : Nat) (a : Nat) (b : Nat) : Statement (.maxn d a b) := by
  intro hwf _
  have hb : (d < 128 && a < 128 && b < 128) = true := hwf
  simp only [Bool.and_eq_true, decide_eq_true_eq] at hb
  obtain ⟨⟨hb0, hb1⟩, hb2⟩ := hb
  have m : bits (67108876 + d * 524288 + a * 4096 + b * 32) 26 6 = 1 := field0 (cl := 12) (cm := 1) (ch := 0) rfl hb0 hb1 hb2 (by decide) (by decide)
  have f0 : bits (67108876 + d * 524288 + a * 4096 + b * 32) 0 5 = 12 := field1 (cl := 0) (cm := 12) (ch := 2097152) rfl hb0 hb1 hb2 (by decide) (by decide)
  have f1 : bits (67108876 + d * 524288 + a * 4096 + b * 32) 12 7 = a := field2 (cl := 12) (ch := 128) rfl hb0 hb1 hb2 (by decide)
  have f2 : bits (67108876 + d * 524288 + a * 4096 + b * 32) 19 7 = d := field3 (cl := 12) (ch := 1) rfl hb0 hb1 hb2 (by decide)
  have f3 : bits (67108876 + d * 524288 + a * 4096 + b * 32) 5 7 = b := field4 (cl := 12) (ch := 16384) rfl hb0 hb1 hb2 (by decide)
  refine decode_of_one (w := 67108876 + d * 524288 + a * 4096 + b * 32) rfl m (by decide) (fun x => ?_) hwf
  rw [decodeMajor_01 _ m, decodeM01]
  simp only [f0, f1, f2, f3, use, if_true, Nat.reduceAdd, Nat.zero_ne_one, Nat.one_ne_zero, if_false]

theorem abs (d : Nat) (a : Nat) : Statement (.abs d a) := by
  intro hwf _
  have hb : (d < 128 && a < 128) = true := hwf
  simp only [Bool.and_eq_true, decide_eq_true_eq] at hb
  obtain ⟨hb0, hb1⟩ := hb
  have m : bits (67108877 + d * 524288 + a * 4096) 26 6 = 1 := field5 (cl := 13) (cm := 1) (ch := 0) rfl hb0 hb1 (by decide) (by decide)
  have f0 : bits (67108877 + d * 524288 + a * 4096) 0 5 = 13 := field6 (cl := 0) (cm := 13) (ch := 2097152) rfl hb0 hb1 (by decide) (by decide)
  have f1 : bits (67108877 + d * 524288 + a * 4096) 12 7 = a := field7 (cl := 13) (ch := 128) rfl hb0 hb1 (by decide)
  have f2 : bits (67108877 + d * 524288 + a * 4096) 19 7 = d := field8 (cl := 13) (ch := 1) rfl hb0 hb1 (by decide)
  have f3 : bits (67108877 + d * 524288 + a * 4096) 5 7 = 0 := field9 (cl := 13) (cm := 0) (ch := 16384) rfl hb0 hb1 (by decide) (by decide)
  refine decode_of_one (w := 67108877 + d * 524288 + a * 4096) rfl m (by decide) (fun x => ?_) hwf
  rw [decodeMajor_01 _ m, decodeM01]
  simp only [f0, f1, f2, f3, use, if_true, Nat.reduceAdd, Nat.zero_ne_one, Nat.one_ne_zero, if_false]

theorem and (d : Nat) (a : Nat) (b : Nat) : Statement (.and d a b) := by
  intro hwf _
  have hb : (d < 128 && a < 128 && b < 128) = true := hwf
  simp only [Bool.and_eq_true, decide_eq_true_eq] at hb
  obtain ⟨⟨hb0, hb1⟩, hb2⟩ := hb
  have m : bits (67108878 + d * 524288 + a * 4096 + b * 32) 26 6 = 1 := field0 (cl := 14) (cm := 1) (ch := 0) rfl hb0 hb1 hb2 (by decide) (by decide)
  have f0 : bits (67108878 + d * 524288 + a * 4096 + b * 32) 0 5 = 14 := field1 (cl := 0) (cm := 14) (ch := 2097152) rfl hb0 hb1 hb2 (by decide) (by decide)
  have f1 : bits (67108878 + d * 524288 + a * 4096 + b * 32) 12 7 = a := field2 (cl := 14) (ch := 128) rfl hb0 hb1 hb2 (by decide)
  have f2 : bits (67108878 + d * 524288 + a * 4096 + b * 32) 19 7 = d := field3 (cl := 14) (ch := 1) rfl hb0 hb1 hb2 (by decide)
  have f3 : bits (67108878 + d * 524288 + a * 4096 + b * 32) 5 7 = b := field4 (cl := 14) (ch := 16384) rfl hb0 hb1 hb2 (by decide)
  refine decode_of_one (w := 67108878 + d * 524288 + a * 4096 + b * 32) rfl m (by decide) (fun x => ?_) hwf
  rw [decodeMajor_01 _ m, decodeM01]
  simp only [f0, f1, f2, f3, use, if_true, Nat.reduceAdd, Nat.zero_ne_one, Nat.one_ne_zero, if_false]

theorem or (d : Nat) (a : Nat) (b : Nat) : Statement (.or d a b) := by
  intro hwf _
  have hb : (d < 128 && a < 128 && b < 128) = true := hwf
  simp only [Bool.and_eq_true, decide_eq_true_eq] at hb
  obtain ⟨⟨hb0, hb1⟩, hb2⟩ := hb
  have m : bits (67108879 + d * 524288 + a * 4096 + b * 32) 26 6 = 1 := field0 (cl := 15) (cm := 1) (ch := 0) rfl hb0 hb1 hb2 (by decide) (by decide)
  have f0 : bits (67108879 + d * 524288 + a * 4096 + b * 32) 0 5 = 15 := field1 (cl := 0) (cm := 15) (ch := 2097152) rfl hb0 hb1 hb2 (by decide) (by decide)
  have f1 : bits (67108879 + d * 524288 + a * 4096 + b * 32) 12 7 = a := field2 (cl := 15) (ch := 128) rfl hb0 hb1 hb2 (by decide)
  have f2 : bits (67108879 + d * 524288 + a * 4096 + b * 32) 19 7 = d := field3 (cl := 15) (ch := 1) rfl hb0 hb1 hb2 (by decide)
  have f3 : bits (67108879 + d * 524288 + a * 4096 + b * 32) 5 7 = b := field4 (cl := 15) (ch := 16384) rfl hb0 hb1 hb2 (by decide)
  refine decode_of_one (w := 67108879 + d * 524288 + a * 4096 + b * 32) rfl m (by decide) (fun x => ?_) hwf
  rw [decodeMajor_01 _ m, decodeM01]
  simp only [f0, f1, f2, f3, use, if_true, Nat.reduceAdd, Nat.zero_ne_one, Nat.one_ne_zero, if_false]

theorem xor (d : Nat) (a : Nat) (b : Nat) : Statement (.xor d a b) := by
  intro hwf _
  have hb : (d < 128 && a < 128 && b < 128) = true := hwf
  simp only [Bool.and_eq_true, decide_eq_true_eq] at hb
  obtain ⟨⟨hb0, hb1⟩, hb2⟩ := hb
  have m : bits (67108880 + d * 524288 + a * 4096 + b * 32) 26 6 = 1 := field0 (cl := 16) (cm := 1) (ch := 0) rfl hb0 hb1 hb2 (by decide) (by decide)
  have f0 : bits (67108880 + d * 524288 + a * 4096 + b * 32) 0 5 = 16 := field1 (cl := 0) (cm := 16) (ch := 2097152) rfl hb0 hb1 hb2 (by decide) (by decide)
  have f1 : bits (67108880 + d * 524288 + a * 4096 + b * 32) 12 7 = a := field2 (cl := 16) (ch := 128) rfl hb0 hb1 hb2 (by decide)
  have f2 : bits (67108880 + d * 524288 + a * 4096 + b * 32) 19 7 = d := field3 (cl := 16) (ch := 1) rfl hb0 hb1 hb2 (by decide)
  have f3 : bits (67108880 + d * 524288 + a * 4096 + b * 32) 5 7 = b := field4 (cl := 16) (ch := 16384) rfl hb0 hb1 hb2 (by decide)
  refine decode_of_one (w := 67108880 + d * 524288 + a * 4096 + b * 32) rfl m (by decide) (fun x => ?_) hwf
  rw [decodeMajor_01 _ m, decodeM01]
  simp only [f0, f1, f2, f3, use, if_true, Nat.reduceAdd, Nat.zero_ne_one, Nat.one_ne_zero, if_false]

theorem andn (d : Nat) (a : Nat) (b : Nat) : Statement (.andn d a b) := by
  intro hwf _
  have hb : (d < 128 && a < 128 && b < 128) = true := hwf
  simp only [Bool.and_eq_true, decide_eq_true_eq] at hb
  obtain ⟨⟨hb0, hb1⟩, hb2⟩ := hb
  have m : bits (67108881 + d * 524288 + a * 4096 + b * 32) 26 6 = 1 := field0 (cl := 17) (cm := 1) (ch := 0) rfl hb0 hb1 hb2 (by decide) (by decide)
  have f0 : bits (67108881 + d * 524288 + a * 4096 + b * 32) 0 5 = 17 := field1 (cl := 0) (cm := 17) (ch := 2097152) rfl hb0 hb1 hb2 (by decide) (by decide)
  have f1 : bits (67108881 + d * 524288 + a * 4096 + b * 32) 12 7 = a := field2 (cl := 17) (ch := 128) rfl hb0 hb1 hb2 (by decide)
  have f2 : bits (67108881 + d * 524288 + a * 4096 + b * 32) 19 7 = d := field3 (cl := 17) (ch := 1) rfl hb0 hb1 hb2 (by decide)
  have f3 : bits (67108881 + d * 524288 + a * 4096 + b * 32) 5 7 = b := field4 (cl := 17) (ch := 16384) rfl hb0 hb1 hb2 (by decide)
  refine decode_of_one (w := 67108881 + d * 524288 + a * 4096 + b * 32) rfl m (by decide) (fun x => ?_) hwf
  rw [decodeMajor_01 _ m, decodeM01]
  simp only [f0, f1, f2, f3, use, if_true, Nat.reduceAdd, Nat.zero_ne_one, Nat.one_ne_zero, if_false]

theorem orn (d : Nat) (a : Nat) (b : Nat) : Statement (.orn d a b) := by
  intro hwf _
  have hb : (d < 128 && a < 128 && b < 128) = true := hwf
  simp only [Bool.and_eq_true, decide_eq_true_eq] at hb
  obtain ⟨⟨hb0, hb1⟩, hb2⟩ := hb
  have m : bits (67108882 + d * 524288 + a * 4096 + b * 32) 26 6 = 1 := field0 (cl := 18) (cm := 1) (ch := 0) rfl hb0 hb1 hb2 (by decide) (by decide)
  have f0 : bits (67108882 + d * 524288 + a * 4096 + b * 32) 0 5 = 18 := field1 (cl := 0) (cm := 18) (ch := 2097152) rfl hb0 hb1 hb2 (by decide) (by decide)
  have f1 : bits (67108882 + d * 524288 + a * 4096 + b * 32) 12 7 = a := field2 (cl := 18) (ch := 128) rfl hb0 hb1 hb2 (by decide)
  have f2 : bits (67108882 + d * 524288 + a * 4096 + b * 32) 19 7 = d := field3 (cl := 18) (ch := 1) rfl hb0 hb1 hb2 (by decide)
  have f3 : bits (67108882 + d * 524288 + a * 4096 + b * 32) 5 7 = b := field4 (cl := 18) (ch := 16384) rfl hb0 hb1 hb2 (by decide)
  refine decode_of_one (w := 67108882 + d * 524288 + a * 4096 + b * 32) rfl m (by decide) (fun x => ?_) hwf
  rw [decodeMajor_01 _ m, decodeM01]
  simp only [f0, f1, f2, f3, use, if_true, Nat.reduceAdd, Nat.zero_ne_one, Nat.one_ne_zero, if_false]

theorem xnor (d : Nat) (a : Nat) (b : Nat) : Statement (.xnor d a b) := by
  intro hwf _
  have hb : (d < 128 && a < 128 && b < 128) = true := hwf
  simp only [Bool.and_eq_true, decide_eq_true_eq] at hb
  obtain ⟨⟨hb0, hb1⟩, hb2⟩ := hb
  have m : bits (67108883 + d * 524288 + a * 4096 + b * 32) 26 6 = 1 := field0 (cl := 19) (cm := 1) (ch := 0) rfl hb0 hb1 hb2 (by decide) (by decide)
  have f0 : bits (67108883 + d * 524288 + a * 4096 + b * 32) 0 5 = 19 := field1 (cl := 0) (cm := 19) (ch := 2097152) rfl hb0 hb1 hb2 (by decide) (by decide)
  have f1 : bits (67108883 + d * 524288 + a * 4096 + b * 32) 12 7 = a := field2 (cl := 19) (ch := 128) rfl hb0 hb1 hb2 (by decide)
  have f2 : bits (67108883 + d * 524288 + a * 4096 + b * 32) 19 7 = d := field3 (cl := 19) (ch := 1) rfl hb0 hb1 hb2 (by decide)
  have f3 : bits (67108883 + d * 524288 + a * 4096 + b * 32) 5 7 = b := field4 (cl := 19) (ch := 16384) rfl hb0 hb1 hb2 (by decide)
  refine decode_of_one (w := 67108883 + d * 524288 + a * 4096 + b * 32) rfl m (by decide) (fun x => ?_) hwf
  rw [decodeMajor_01 _ m, decodeM01]
  simp only [f0, f1, f2, f3, use, if_true, Nat.reduceAdd, Nat.zero_ne_one, Nat.one_ne_zero, if_false]

theorem shl (d : Nat) (a : Nat) (b : Nat) : Statement (.shl d a b) := by
  intro hwf _
  have hb : (d < 128 && a < 128 && b < 128) = true := hwf
  simp only [Bool.and_eq_true, decide_eq_true_eq] at hb
  obtain ⟨⟨hb0, hb1⟩, hb2⟩ := hb
  have m : bits (67108884 + d * 524288 + a * 4096 + b * 32) 26 6 = 1 := field0 (cl := 20) (cm := 1) (ch := 0) rfl hb0 hb1 hb2 (by decide) (by decide)
  have f0 : bits (67108884 + d * 524288 + a * 4096 + b * 32) 0 5 = 20 := field1 (cl := 0) (cm := 20) (ch := 2097152) rfl hb0 hb1 hb2 (by decide) (by decide)
  have f1 : bits (67108884 + d * 524288 + a * 4096 + b * 32) 12 7 = a := field2 (cl := 20) (ch := 128) rfl hb0 hb1 hb2 (by decide)
  have f2 : bits (67108884 + d * 524288 + a * 4096 + b * 32) 19 7 = d := field3 (cl := 20) (ch := 1) rfl hb0 hb1 hb2 (by decide)
  have f3 : bits (67108884 + d * 524288 + a * 4096 + b * 32) 5 7 = b := field4 (cl := 20) (ch := 16384) rfl hb0 hb1 hb2 (by decide)
  refine decode_of_one (w := 67108884 + d * 524288 + a * 4096 + b * 32) rfl m (by decide) (fun x => ?_) hwf
  rw [decodeMajor_01 _ m, decodeM01]
  simp only [f0, f1, f2, f3, use, if_true, Nat.reduceAdd, Nat.zero_ne_one, Nat.one_ne_zero, if_false]

theorem shr (d : Nat) (a : Nat) (b : Nat) : Statement (.shr d a b) := by
  intro hwf _
  have hb : (d < 128 && a < 128 && b < 128) = true := hwf
  simp only [Bool.and_eq_true, decide_eq_true_eq] at hb
  obtain ⟨⟨hb0, hb1⟩, hb2⟩ := hb
  have m : bits (67108885 + d * 524288 + a * 4096 + b * 32) 26 6 = 1 := field0 (cl := 21) (cm := 1) (ch := 0) rfl hb0 hb1 hb2 (by decide) (by decide)
  have f0 : bits (67108885 + d * 524288 + a * 4096 + b * 32) 0 5 = 21 := field1 (cl := 0) (cm := 21) (ch := 2097152) rfl hb0 hb1 hb2 (by decide) (by decide)
  have f1 : bits (67108885 + d * 524288 + a * 4096 + b * 32) 12 7 = a := field2 (cl := 21) (ch := 128) rfl hb0 hb1 hb2 (by decide)
  have f2 : bits (67108885 + d * 524288 + a * 4096 + b * 32) 19 7 = d := field3 (cl := 21) (ch := 1) rfl hb0 hb1 hb2 (by decide)
  have f3 : bits (67108885 + d * 524288 + a * 4096 + b * 32) 5 7 = b := field4 (cl := 21) (ch := 16384) rfl hb0 hb1 hb2 (by decide)
  refine decode_of_one (w := 67108885 + d * 524288 + a * 4096 + b * 32) rfl m (by decide) (fun x => ?_) hwf
  rw [decodeMajor_01 _ m, decodeM01]
  simp only [f0, f1, f2, f3, use, if_true, Nat.reduceAdd, Nat.zero_ne_one, Nat.one_ne_zero, if_false]

theorem sar (d : Nat) (a : Nat) (b : Nat) : Statement (.sar d a b) := by
  intro hwf _
  have hb : (d < 128 && a < 128 && b < 128) = true := hwf
  simp only [Bool.and_eq_true, decide_eq_true_eq] at hb
  obtain ⟨⟨hb0, hb1⟩, hb2⟩ := hb
  have m : bits (67108886 + d * 524288 + a * 4096 + b * 32) 26 6 = 1 := field0 (cl := 22) (cm := 1) (ch := 0) rfl hb0 hb1 hb2 (by decide) (by decide)
  have f0 : bits (67108886 + d * 524288 + a * 4096 + b * 32) 0 5 = 22 := field1 (cl := 0) (cm := 22) (ch := 2097152) rfl hb0 hb1 hb2 (by decide) (by decide)
  have f1 : bits (67108886 + d * 524288 + a * 4096 + b * 32) 12 7 = a := field2 (cl := 22) (ch := 128) rfl hb0 hb1 hb2 (by decide)
  have f2 : bits (67108886 + d * 524288 + a * 4096 + b * 32) 19 7 = d := field3 (cl := 22) (ch := 1) rfl hb0 hb1 hb2 (by decide)
  have f3 : bits (67108886 + d * 524288 + a * 4096 + b * 32) 5 7 = b := field4 (cl := 22) (ch := 16384) rfl hb0 hb1 hb2 (by decide)
  refine decode_of_one (w := 67108886 + d * 524288 + a * 4096 + b * 32) rfl m (by decide) (fun x => ?_) hwf
  rw [decodeMajor_01 _ m, decodeM01]
  simp only [f0, f1, f2, f3, use, if_true, Nat.reduceAdd, Nat.zero_ne_one, Nat.one_ne_zero, if_false]

theorem rol (d : Nat) (a : Nat) (b : Nat) : Statement (.rol d a b) := by
  intro hwf _
  have hb : (d < 128 && a < 128 && b < 128) = true := hwf
  simp only [Bool.and_eq_true, decide_eq_true_eq] at hb
  obtain ⟨⟨hb0, hb1⟩, hb2⟩ := hb
  have m : bits (67108887 + d * 524288 + a * 4096 + b * 32) 26 6 = 1 := field0 (cl := 23) (cm := 1) (ch := 0) rfl hb0 hb1 hb2 (by decide) (by decide)
  have f0 : bits (67108887 + d * 524288 + a * 4096 + b * 32) 0 5 = 23 := field1 (cl := 0) (cm := 23) (ch := 2097152) rfl hb0 hb1 hb2 (by decide) (by decide)
  have f1 : bits (67108887 + d * 524288 + a * 4096 + b * 32) 12 7 = a := field2 (cl := 23) (ch := 128) rfl hb0 hb1 hb2 (by decide)
  have f2 : bits (67108887 + d * 524288 + a * 4096 + b * 32) 19 7 = d := field3 (cl := 23) (ch := 1) rfl hb0 hb1 hb2 (by decide)
  have f3 : bits (67108887 + d * 524288 + a * 4096 + b * 32) 5 7 = b := field4 (cl := 23) (ch := 16384) rfl hb0 hb1 hb2 (by decide)
  refine decode_of_one (w := 67108887 + d * 524288 + a * 4096 + b * 32) rfl m (by decide) (fun x => ?_) hwf
  rw [decodeMajor_01 _ m, decodeM01]
  simp only [f0, f1, f2, f3, use, if_true, Nat.reduceAdd, Nat.zero_ne_one, Nat.one_ne_zero, if_false]

theorem ror (d : Nat) (a : Nat) (b : Nat) : Statement (.ror d a b) := by
  intro hwf _
  have hb : (d < 128 && a < 128 && b < 128) = true := hwf
  simp only [Bool.and_eq_true, decide_eq_true_eq] at hb
  obtain ⟨⟨hb0, hb1⟩, hb2⟩ := hb
  have m : bits (67108888 + d * 524288 + a * 4096 + b * 32) 26 6 = 1 := field0 (cl := 24) (cm := 1) (ch := 0) rfl hb0 hb1 hb2 (by decide) (by decide)
  have f0 : bits (67108888 + d * 524288 + a * 4096 + b * 32) 0 5 = 24 := field1 (cl := 0) (cm := 24) (ch := 2097152) rfl hb0 hb1 hb2 (by decide) (by decide)
  have f1 : bits (67108888 + d * 524288 + a * 4096 + b * 32) 12 7 = a := field2 (cl := 24) (ch := 128) rfl hb0 hb1 hb2 (by decide)
  have f2 : bits (67108888 + d * 524288 + a * 4096 + b * 32) 19 7 = d := field3 (cl := 24) (ch := 1) rfl hb0 hb1 hb2 (by decide)
  have f3 : bits (67108888 + d * 524288 + a * 4096 + b * 32) 5 7 = b := field4 (cl := 24) (ch := 16384) rfl hb0 hb1 hb2 (by decide)
  refine decode_of_one (w := 67108888 + d * 524288 + a * 4096 + b * 32) rfl m (by decide) (fun x => ?_) hwf
  rw [decodeMajor_01 _ m, decodeM01]
  simp only [f0, f1, f2, f3, use, if_true, Nat.reduceAdd, Nat.zero_ne_one, Nat.one_ne_zero, if_false]

theorem popc (d : Nat) (a : Nat) : Statement (.popc d a) := by
  intro hwf _
  have hb : (d < 128 && a < 128) = true := hwf
  simp only [Bool.and_eq_true, decide_eq_true_eq] at hb
  obtain ⟨hb0, hb1⟩ := hb
  have m : bits (134217728 + d * 524288 + a * 4096) 26 6 = 2 := field5 (cl := 0) (cm := 2) (ch := 0) rfl hb0 hb1 (by decide) (by decide)
  have f0 : bits (134217728 + d * 524288 + a * 4096) 0 5 = 0 := field6 (cl := 0) (cm := 0) (ch := 4194304) rfl hb0 hb1 (by decide) (by decide)
  have f1 : bits (134217728 + d * 524288 + a * 4096) 12 7 = a := field7 (cl := 0) (ch := 256) rfl hb0 hb1 (by decide)
  have f2 : bits (134217728 + d * 524288 + a * 4096) 19 7 = d := field8 (cl := 0) (ch := 2) rfl hb0 hb1 (by decide)
  have f3 : bits (134217728 + d * 524288 + a * 4096) 5 7 = 0 := field9 (cl := 0) (cm := 0) (ch := 32768) rfl hb0 hb1 (by decide) (by decide)
  refine decode_of_one (w := 134217728 + d * 524288 + a * 4096) rfl m (by decide) (fun x => ?_) hwf
  rw [decodeMajor_02 _ m, decodeM02]
  simp only [f0, f1, f2, f3, use, if_true, Nat.reduceAdd, Nat.zero_ne_one, Nat.one_ne_zero, if_false]

theorem clz (d : Nat) (a : Nat) : Statement (.clz d a) := by
  intro hwf _
  have hb : (d < 128 && a < 128) = true := hwf
  simp only [Bool.and_eq_true, decide_eq_true_eq] at hb
  obtain ⟨hb0, hb1⟩ := hb
  have m : bits (134217729 + d * 524288 + a * 4096) 26 6 = 2 := field5 (cl := 1) (cm := 2) (ch := 0) rfl hb0 hb1 (by decide) (by decide)
  have f0 : bits (134217729 + d * 524288 + a * 4096) 0 5 = 1 := field6 (cl := 0) (cm := 1) (ch := 4194304) rfl hb0 hb1 (by decide) (by decide)
  have f1 : bits (134217729 + d * 524288 + a * 4096) 12 7 = a := field7 (cl := 1) (ch := 256) rfl hb0 hb1 (by decide)
  have f2 : bits (134217729 + d * 524288 + a * 4096) 19 7 = d := field8 (cl := 1) (ch := 2) rfl hb0 hb1 (by decide)
  have f3 : bits (134217729 + d * 524288 + a * 4096) 5 7 = 0 := field9 (cl := 1) (cm := 0) (ch := 32768) rfl hb0 hb1 (by decide) (by decide)
  refine decode_of_one (w := 134217729 + d * 524288 + a * 4096) rfl m (by decide) (fun x => ?_) hwf
  rw [decodeMajor_02 _ m, decodeM02]
  simp only [f0, f1, f2, f3, use, if_true, Nat.reduceAdd, Nat.zero_ne_one, Nat.one_ne_zero, if_false]

theorem ctz (d : Nat) (a : Nat) : Statement (.ctz d a) := by
  intro hwf _
  have hb : (d < 128 && a < 128) = true := hwf
  simp only [Bool.and_eq_true, decide_eq_true_eq] at hb
  obtain ⟨hb0, hb1⟩ := hb
  have m : bits (134217730 + d * 524288 + a * 4096) 26 6 = 2 := field5 (cl := 2) (cm := 2) (ch := 0) rfl hb0 hb1 (by decide) (by decide)
  have f0 : bits (134217730 + d * 524288 + a * 4096) 0 5 = 2 := field6 (cl := 0) (cm := 2) (ch := 4194304) rfl hb0 hb1 (by decide) (by decide)
  have f1 : bits (134217730 + d * 524288 + a * 4096) 12 7 = a := field7 (cl := 2) (ch := 256) rfl hb0 hb1 (by decide)
  have f2 : bits (134217730 + d * 524288 + a * 4096) 19 7 = d := field8 (cl := 2) (ch := 2) rfl hb0 hb1 (by decide)
  have f3 : bits (134217730 + d * 524288 + a * 4096) 5 7 = 0 := field9 (cl := 2) (cm := 0) (ch := 32768) rfl hb0 hb1 (by decide) (by decide)
  refine decode_of_one (w := 134217730 + d * 524288 + a * 4096) rfl m (by decide) (fun x => ?_) hwf
  rw [decodeMajor_02 _ m, decodeM02]
  simp only [f0, f1, f2, f3, use, if_true, Nat.reduceAdd, Nat.zero_ne_one, Nat.one_ne_zero, if_false]

theorem brev (d : Nat) (a : Nat) : Statement (.brev d a) := by
  intro hwf _
  have hb : (d < 128 && a < 128) = true := hwf
  simp only [Bool.and_eq_true, decide_eq_true_eq] at hb
  obtain ⟨hb0, hb1⟩ := hb
  have m : bits (134217731 + d * 524288 + a * 4096) 26 6 = 2 := field5 (cl := 3) (cm := 2) (ch := 0) rfl hb0 hb1 (by decide) (by decide)
  have f0 : bits (134217731 + d * 524288 + a * 4096) 0 5 = 3 := field6 (cl := 0) (cm := 3) (ch := 4194304) rfl hb0 hb1 (by decide) (by decide)
  have f1 : bits (134217731 + d * 524288 + a * 4096) 12 7 = a := field7 (cl := 3) (ch := 256) rfl hb0 hb1 (by decide)
  have f2 : bits (134217731 + d * 524288 + a * 4096) 19 7 = d := field8 (cl := 3) (ch := 2) rfl hb0 hb1 (by decide)
  have f3 : bits (134217731 + d * 524288 + a * 4096) 5 7 = 0 := field9 (cl := 3) (cm := 0) (ch := 32768) rfl hb0 hb1 (by decide) (by decide)
  refine decode_of_one (w := 134217731 + d * 524288 + a * 4096) rfl m (by decide) (fun x => ?_) hwf
  rw [decodeMajor_02 _ m, decodeM02]
  simp only [f0, f1, f2, f3, use, if_true, Nat.reduceAdd, Nat.zero_ne_one, Nat.one_ne_zero, if_false]

theorem bswap (d : Nat) (a : Nat) : Statement (.bswap d a) := by
  intro hwf _
  have hb : (d < 128 && a < 128) = true := hwf
  simp only [Bool.and_eq_true, decide_eq_true_eq] at hb
  obtain ⟨hb0, hb1⟩ := hb
  have m : bits (134217732 + d * 524288 + a * 4096) 26 6 = 2 := field5 (cl := 4) (cm := 2) (ch := 0) rfl hb0 hb1 (by decide) (by decide)
  have f0 : bits (134217732 + d * 524288 + a * 4096) 0 5 = 4 := field6 (cl := 0) (cm := 4) (ch := 4194304) rfl hb0 hb1 (by decide) (by decide)
  have f1 : bits (134217732 + d * 524288 + a * 4096) 12 7 = a := field7 (cl := 4) (ch := 256) rfl hb0 hb1 (by decide)
  have f2 : bits (134217732 + d * 524288 + a * 4096) 19 7 = d := field8 (cl := 4) (ch := 2) rfl hb0 hb1 (by decide)
  have f3 : bits (134217732 + d * 524288 + a * 4096) 5 7 = 0 := field9 (cl := 4) (cm := 0) (ch := 32768) rfl hb0 hb1 (by decide) (by decide)
  refine decode_of_one (w := 134217732 + d * 524288 + a * 4096) rfl m (by decide) (fun x => ?_) hwf
  rw [decodeMajor_02 _ m, decodeM02]
  simp only [f0, f1, f2, f3, use, if_true, Nat.reduceAdd, Nat.zero_ne_one, Nat.one_ne_zero, if_false]

theorem bext (d : Nat) (a : Nat) (b : Nat) : Statement (.bext d a b) := by
  intro hwf _
  have hb : (d < 128 && a < 128 && b < 128) = true := hwf
  simp only [Bool.and_eq_true, decide_eq_true_eq] at hb
  obtain ⟨⟨hb0, hb1⟩, hb2⟩ := hb
  have m : bits (134217733 + d * 524288 + a * 4096 + b * 32) 26 6 = 2 := field0 (cl := 5) (cm := 2) (ch := 0) rfl hb0 hb1 hb2 (by decide) (by decide)
  have f0 : bits (134217733 + d * 524288 + a * 4096 + b * 32) 0 5 = 5 := field1 (cl := 0) (cm := 5) (ch := 4194304) rfl hb0 hb1 hb2 (by decide) (by decide)
  have f1 : bits (134217733 + d * 524288 + a * 4096 + b * 32) 12 7 = a := field2 (cl := 5) (ch := 256) rfl hb0 hb1 hb2 (by decide)
  have f2 : bits (134217733 + d * 524288 + a * 4096 + b * 32) 19 7 = d := field3 (cl := 5) (ch := 2) rfl hb0 hb1 hb2 (by decide)
  have f3 : bits (134217733 + d * 524288 + a * 4096 + b * 32) 5 7 = b := field4 (cl := 5) (ch := 32768) rfl hb0 hb1 hb2 (by decide)
  refine decode_of_one (w := 134217733 + d * 524288 + a * 4096 + b * 32) rfl m (by decide) (fun x => ?_) hwf
  rw [decodeMajor_02 _ m, decodeM02]
  simp only [f0, f1, f2, f3, use, if_true, Nat.reduceAdd, Nat.zero_ne_one, Nat.one_ne_zero, if_false]

theorem bdep (d : Nat) (a : Nat) (b : Nat) : Statement (.bdep d a b) := by
  intro hwf _
  have hb : (d < 128 && a < 128 && b < 128) = true := hwf
  simp only [Bool.and_eq_true, decide_eq_true_eq] at hb
  obtain ⟨⟨hb0, hb1⟩, hb2⟩ := hb
  have m : bits (134217734 + d * 524288 + a * 4096 + b * 32) 26 6 = 2 := field0 (cl := 6) (cm := 2) (ch := 0) rfl hb0 hb1 hb2 (by decide) (by decide)
  have f0 : bits (134217734 + d * 524288 + a * 4096 + b * 32) 0 5 = 6 := field1 (cl := 0) (cm := 6) (ch := 4194304) rfl hb0 hb1 hb2 (by decide) (by decide)
  have f1 : bits (134217734 + d * 524288 + a * 4096 + b * 32) 12 7 = a := field2 (cl := 6) (ch := 256) rfl hb0 hb1 hb2 (by decide)
  have f2 : bits (134217734 + d * 524288 + a * 4096 + b * 32) 19 7 = d := field3 (cl := 6) (ch := 2) rfl hb0 hb1 hb2 (by decide)
  have f3 : bits (134217734 + d * 524288 + a * 4096 + b * 32) 5 7 = b := field4 (cl := 6) (ch := 32768) rfl hb0 hb1 hb2 (by decide)
  refine decode_of_one (w := 134217734 + d * 524288 + a * 4096 + b * 32) rfl m (by decide) (fun x => ?_) hwf
  rw [decodeMajor_02 _ m, decodeM02]
  simp only [f0, f1, f2, f3, use, if_true, Nat.reduceAdd, Nat.zero_ne_one, Nat.one_ne_zero, if_false]

theorem sextS8 (d : Nat) (a : Nat) : Statement (.sextS8 d a) := by
  intro hwf _
  have hb : (d < 128 && a < 128) = true := hwf
  simp only [Bool.and_eq_true, decide_eq_true_eq] at hb
  obtain ⟨hb0, hb1⟩ := hb
  have m : bits (134217735 + d * 524288 + a * 4096) 26 6 = 2 := field5 (cl := 7) (cm := 2) (ch := 0) rfl hb0 hb1 (by decide) (by decide)
  have f0 : bits (134217735 + d * 524288 + a * 4096) 0 5 = 7 := field6 (cl := 0) (cm := 7) (ch := 4194304) rfl hb0 hb1 (by decide) (by decide)
  have f1 : bits (134217735 + d * 524288 + a * 4096) 12 7 = a := field7 (cl := 7) (ch := 256) rfl hb0 hb1 (by decide)
  have f2 : bits (134217735 + d * 524288 + a * 4096) 19 7 = d := field8 (cl := 7) (ch := 2) rfl hb0 hb1 (by decide)
  have f3 : bits (134217735 + d * 524288 + a * 4096) 5 7 = 0 := field9 (cl := 7) (cm := 0) (ch := 32768) rfl hb0 hb1 (by decide) (by decide)
  refine decode_of_one (w := 134217735 + d * 524288 + a * 4096) rfl m (by decide) (fun x => ?_) hwf
  rw [decodeMajor_02 _ m, decodeM02]
  simp only [f0, f1, f2, f3, use, if_true, Nat.reduceAdd, Nat.zero_ne_one, Nat.one_ne_zero, if_false]

theorem sextS16 (d : Nat) (a : Nat) : Statement (.sextS16 d a) := by
  intro hwf _
  have hb : (d < 128 && a < 128) = true := hwf
  simp only [Bool.and_eq_true, decide_eq_true_eq] at hb
  obtain ⟨hb0, hb1⟩ := hb
  have m : bits (134217736 + d * 524288 + a * 4096) 26 6 = 2 := field5 (cl := 8) (cm := 2) (ch := 0) rfl hb0 hb1 (by decide) (by decide)
  have f0 : bits (134217736 + d * 524288 + a * 4096) 0 5 = 8 := field6 (cl := 0) (cm := 8) (ch := 4194304) rfl hb0 hb1 (by decide) (by decide)
  have f1 : bits (134217736 + d * 524288 + a * 4096) 12 7 = a := field7 (cl := 8) (ch := 256) rfl hb0 hb1 (by decide)
  have f2 : bits (134217736 + d * 524288 + a * 4096) 19 7 = d := field8 (cl := 8) (ch := 2) rfl hb0 hb1 (by decide)
  have f3 : bits (134217736 + d * 524288 + a * 4096) 5 7 = 0 := field9 (cl := 8) (cm := 0) (ch := 32768) rfl hb0 hb1 (by decide) (by decide)
  refine decode_of_one (w := 134217736 + d * 524288 + a * 4096) rfl m (by decide) (fun x => ?_) hwf
  rw [decodeMajor_02 _ m, decodeM02]
  simp only [f0, f1, f2, f3, use, if_true, Nat.reduceAdd, Nat.zero_ne_one, Nat.one_ne_zero, if_false]

theorem sextS32 (d : Nat) (a : Nat) : Statement (.sextS32 d a) := by
  intro hwf _
  have hb : (d < 128 && a < 128) = true := hwf
  simp only [Bool.and_eq_true, decide_eq_true_eq] at hb
  obtain ⟨hb0, hb1⟩ := hb
  have m : bits (134217737 + d * 524288 + a * 4096) 26 6 = 2 := field5 (cl := 9) (cm := 2) (ch := 0) rfl hb0 hb1 (by decide) (by decide)
  have f0 : bits (134217737 + d * 524288 + a * 4096) 0 5 = 9 := field6 (cl := 0) (cm := 9) (ch := 4194304) rfl hb0 hb1 (by decide) (by decide)
  have f1 : bits (134217737 + d * 524288 + a * 4096) 12 7 = a := field7 (cl := 9) (ch := 256) rfl hb0 hb1 (by decide)
  have f2 : bits (134217737 + d * 524288 + a * 4096) 19 7 = d := field8 (cl := 9) (ch := 2) rfl hb0 hb1 (by decide)
  have f3 : bits (134217737 + d * 524288 + a * 4096) 5 7 = 0 := field9 (cl := 9) (cm := 0) (ch := 32768) rfl hb0 hb1 (by decide) (by decide)
  refine decode_of_one (w := 134217737 + d * 524288 + a * 4096) rfl m (by decide) (fun x => ?_) hwf
  rw [decodeMajor_02 _ m, decodeM02]
  simp only [f0, f1, f2, f3, use, if_true, Nat.reduceAdd, Nat.zero_ne_one, Nat.one_ne_zero, if_false]

theorem zextN8 (d : Nat) (a : Nat) : Statement (.zextN8 d a) := by
  intro hwf _
  have hb : (d < 128 && a < 128) = true := hwf
  simp only [Bool.and_eq_true, decide_eq_true_eq] at hb
  obtain ⟨hb0, hb1⟩ := hb
  have m : bits (134217738 + d * 524288 + a * 4096) 26 6 = 2 := field5 (cl := 10) (cm := 2) (ch := 0) rfl hb0 hb1 (by decide) (by decide)
  have f0 : bits (134217738 + d * 524288 + a * 4096) 0 5 = 10 := field6 (cl := 0) (cm := 10) (ch := 4194304) rfl hb0 hb1 (by decide) (by decide)
  have f1 : bits (134217738 + d * 524288 + a * 4096) 12 7 = a := field7 (cl := 10) (ch := 256) rfl hb0 hb1 (by decide)
  have f2 : bits (134217738 + d * 524288 + a * 4096) 19 7 = d := field8 (cl := 10) (ch := 2) rfl hb0 hb1 (by decide)
  have f3 : bits (134217738 + d * 524288 + a * 4096) 5 7 = 0 := field9 (cl := 10) (cm := 0) (ch := 32768) rfl hb0 hb1 (by decide) (by decide)
  refine decode_of_one (w := 134217738 + d * 524288 + a * 4096) rfl m (by decide) (fun x => ?_) hwf
  rw [decodeMajor_02 _ m, decodeM02]
  simp only [f0, f1, f2, f3, use, if_true, Nat.reduceAdd, Nat.zero_ne_one, Nat.one_ne_zero, if_false]

theorem zextN16 (d : Nat) (a : Nat) : Statement (.zextN16 d a) := by
  intro hwf _
  have hb : (d < 128 && a < 128) = true := hwf
  simp only [Bool.and_eq_true, decide_eq_true_eq] at hb
  obtain ⟨hb0, hb1⟩ := hb
  have m : bits (134217739 + d * 524288 + a * 4096) 26 6 = 2 := field5 (cl := 11) (cm := 2) (ch := 0) rfl hb0 hb1 (by decide) (by decide)
  have f0 : bits (134217739 + d * 524288 + a * 4096) 0 5 = 11 := field6 (cl := 0) (cm := 11) (ch := 4194304) rfl hb0 hb1 (by decide) (by decide)
  have f1 : bits (134217739 + d * 524288 + a * 4096) 12 7 = a := field7 (cl := 11) (ch := 256) rfl hb0 hb1 (by decide)
  have f2 : bits (134217739 + d * 524288 + a * 4096) 19 7 = d := field8 (cl := 11) (ch := 2) rfl hb0 hb1 (by decide)
  have f3 : bits (134217739 + d * 524288 + a * 4096) 5 7 = 0 := field9 (cl := 11) (cm := 0) (ch := 32768) rfl hb0 hb1 (by decide) (by decide)
  refine decode_of_one (w := 134217739 + d * 524288 + a * 4096) rfl m (by decide) (fun x => ?_) hwf
  rw [decodeMajor_02 _ m, decodeM02]
  simp only [f0, f1, f2, f3, use, if_true, Nat.reduceAdd, Nat.zero_ne_one, Nat.one_ne_zero, if_false]

theorem zextN32 (d : Nat) (a : Nat) : Statement (.zextN32 d a) := by
  intro hwf _
  have hb : (d < 128 && a < 128) = true := hwf
  simp only [Bool.and_eq_true, decide_eq_true_eq] at hb
  obtain ⟨hb0, hb1⟩ := hb
  have m : bits (134217740 + d * 524288 + a * 4096) 26 6 = 2 := field5 (cl := 12) (cm := 2) (ch := 0) rfl hb0 hb1 (by decide) (by decide)
  have f0 : bits (134217740 + d * 524288 + a * 4096) 0 5 = 12 := field6 (cl := 0) (cm := 12) (ch := 4194304) rfl hb0 hb1 (by decide) (by decide)
  have f1 : bits (134217740 + d * 524288 + a * 4096) 12 7 = a := field7 (cl := 12) (ch := 256) rfl hb0 hb1 (by decide)
  have f2 : bits (134217740 + d * 524288 + a * 4096) 19 7 = d := field8 (cl := 12) (ch := 2) rfl hb0 hb1 (by decide)
  have f3 : bits (134217740 + d * 524288 + a * 4096) 5 7 = 0 := field9 (cl := 12) (cm := 0) (ch := 32768) rfl hb0 hb1 (by decide) (by decide)
  refine decode_of_one (w := 134217740 + d * 524288 + a * 4096) rfl m (by decide) (fun x => ?_) hwf
  rw [decodeMajor_02 _ m, decodeM02]
  simp only [f0, f1, f2, f3, use, if_true, Nat.reduceAdd, Nat.zero_ne_one, Nat.one_ne_zero, if_false]

theorem padd (d : Nat) (a : Nat) (b : Nat) (w : Nat) : Statement (.padd d a b w) := by
  intro hwf _
  have hb : (d < 128 && a < 128 && b < 128 && w < 2) = true := hwf
  simp only [Bool.and_eq_true, decide_eq_true_eq] at hb
  obtain ⟨⟨⟨hb0, hb1⟩, hb2⟩, hb3⟩ := hb
  have m : bits (201326592 + d * 524288 + a * 4096 + b * 32 + w) 26 6 = 3 := field10 (cl := 0) (cm := 3) (ch := 0) rfl hb0 hb1 hb2 hb3 (by decide) (by decide)
  have f0 : bits (201326592 + d * 524288 + a * 4096 + b * 32 + w) 0 1 = w := field11 (cl := 0) (ch := 100663296) rfl hb0 hb1 hb2 hb3 (by decide)
  have f1 : bits (201326592 + d * 524288 + a * 4096 + b * 32 + w) 1 4 = 0 := field12 (cl := 0) (cm := 0) (ch := 6291456) rfl hb0 hb1 hb2 hb3 (by decide) (by decide)
  have f2 : bits (201326592 + d * 524288 + a * 4096 + b * 32 + w) 12 7 = a := field13 (cl := 0) (ch := 384) rfl hb0 hb1 hb2 hb3 (by decide)
  have f3 : bits (201326592 + d * 524288 + a * 4096 + b * 32 + w) 19 7 = d := field14 (cl := 0) (ch := 3) rfl hb0 hb1 hb2 hb3 (by decide)
  have f4 : bits (201326592 + d * 524288 + a * 4096 + b * 32 + w) 5 7 = b := field15 (cl := 0) (ch := 49152) rfl hb0 hb1 hb2 hb3 (by decide)
  refine decode_of_one (w := 201326592 + d * 524288 + a * 4096 + b * 32 + w) rfl m (by decide) (fun x => ?_) hwf
  rw [decodeMajor_03 _ m, decodeM03]
  simp only [f0, f1, f2, f3, f4, use, if_true, Nat.reduceAdd, Nat.zero_ne_one, Nat.one_ne_zero, if_false]

theorem psub (d : Nat) (a : Nat) (b : Nat) (w : Nat) : Statement (.psub d a b w) := by
  intro hwf _
  have hb : (d < 128 && a < 128 && b < 128 && w < 2) = true := hwf
  simp only [Bool.and_eq_true, decide_eq_true_eq] at hb
  obtain ⟨⟨⟨hb0, hb1⟩, hb2⟩, hb3⟩ := hb
  have m : bits (201326594 + d * 524288 + a * 4096 + b * 32 + w) 26 6 = 3 := field10 (cl := 2) (cm := 3) (ch := 0) rfl hb0 hb1 hb2 hb3 (by decide) (by decide)
  have f0 : bits (201326594 + d * 524288 + a * 4096 + b * 32 + w) 0 1 = w := field11 (cl := 0) (ch := 100663297) rfl hb0 hb1 hb2 hb3 (by decide)
  have f1 : bits (201326594 + d * 524288 + a * 4096 + b * 32 + w) 1 4 = 1 := field12 (cl := 0) (cm := 1) (ch := 6291456) rfl hb0 hb1 hb2 hb3 (by decide) (by decide)
  have f2 : bits (201326594 + d * 524288 + a * 4096 + b * 32 + w) 12 7 = a := field13 (cl := 2) (ch := 384) rfl hb0 hb1 hb2 hb3 (by decide)
  have f3 : bits (201326594 + d * 524288 + a * 4096 + b * 32 + w) 19 7 = d := field14 (cl := 2) (ch := 3) rfl hb0 hb1 hb2 hb3 (by decide)
  have f4 : bits (201326594 + d * 524288 + a * 4096 + b * 32 + w) 5 7 = b := field15 (cl := 2) (ch := 49152) rfl hb0 hb1 hb2 hb3 (by decide)
  refine decode_of_one (w := 201326594 + d * 524288 + a * 4096 + b * 32 + w) rfl m (by decide) (fun x => ?_) hwf
  rw [decodeMajor_03 _ m, decodeM03]
  simp only [f0, f1, f2, f3, f4, use, if_true, Nat.reduceAdd, Nat.zero_ne_one, Nat.one_ne_zero, if_false]

theorem paddsS (d : Nat) (a : Nat) (b : Nat) (w : Nat) : Statement (.paddsS d a b w) := by
  intro hwf _
  have hb : (d < 128 && a < 128 && b < 128 && w < 2) = true := hwf
  simp only [Bool.and_eq_true, decide_eq_true_eq] at hb
  obtain ⟨⟨⟨hb0, hb1⟩, hb2⟩, hb3⟩ := hb
  have m : bits (201326596 + d * 524288 + a * 4096 + b * 32 + w) 26 6 = 3 := field10 (cl := 4) (cm := 3) (ch := 0) rfl hb0 hb1 hb2 hb3 (by decide) (by decide)
  have f0 : bits (201326596 + d * 524288 + a * 4096 + b * 32 + w) 0 1 = w := field11 (cl := 0) (ch := 100663298) rfl hb0 hb1 hb2 hb3 (by decide)
  have f1 : bits (201326596 + d * 524288 + a * 4096 + b * 32 + w) 1 4 = 2 := field12 (cl := 0) (cm := 2) (ch := 6291456) rfl hb0 hb1 hb2 hb3 (by decide) (by decide)
  have f2 : bits (201326596 + d * 524288 + a * 4096 + b * 32 + w) 12 7 = a := field13 (cl := 4) (ch := 384) rfl hb0 hb1 hb2 hb3 (by decide)
  have f3 : bits (201326596 + d * 524288 + a * 4096 + b * 32 + w) 19 7 = d := field14 (cl := 4) (ch := 3) rfl hb0 hb1 hb2 hb3 (by decide)
  have f4 : bits (201326596 + d * 524288 + a * 4096 + b * 32 + w) 5 7 = b := field15 (cl := 4) (ch := 49152) rfl hb0 hb1 hb2 hb3 (by decide)
  refine decode_of_one (w := 201326596 + d * 524288 + a * 4096 + b * 32 + w) rfl m (by decide) (fun x => ?_) hwf
  rw [decodeMajor_03 _ m, decodeM03]
  simp only [f0, f1, f2, f3, f4, use, if_true, Nat.reduceAdd, Nat.zero_ne_one, Nat.one_ne_zero, if_false]

theorem paddsN (d : Nat) (a : Nat) (b : Nat) (w : Nat) : Statement (.paddsN d a b w) := by
  intro hwf _
  have hb : (d < 128 && a < 128 && b < 128 && w < 2) = true := hwf
  simp only [Bool.and_eq_true, decide_eq_true_eq] at hb
  obtain ⟨⟨⟨hb0, hb1⟩, hb2⟩, hb3⟩ := hb
  have m : bits (201326598 + d * 524288 + a * 4096 + b * 32 + w) 26 6 = 3 := field10 (cl := 6) (cm := 3) (ch := 0) rfl hb0 hb1 hb2 hb3 (by decide) (by decide)
  have f0 : bits (201326598 + d * 524288 + a * 4096 + b * 32 + w) 0 1 = w := field11 (cl := 0) (ch := 100663299) rfl hb0 hb1 hb2 hb3 (by decide)
  have f1 : bits (201326598 + d * 524288 + a * 4096 + b * 32 + w) 1 4 = 3 := field12 (cl := 0) (cm := 3) (ch := 6291456) rfl hb0 hb1 hb2 hb3 (by decide) (by decide)
  have f2 : bits (201326598 + d * 524288 + a * 4096 + b * 32 + w) 12 7 = a := field13 (cl := 6) (ch := 384) rfl hb0 hb1 hb2 hb3 (by decide)
  have f3 : bits (201326598 + d * 524288 + a * 4096 + b * 32 + w) 19 7 = d := field14 (cl := 6) (ch := 3) rfl hb0 hb1 hb2 hb3 (by decide)
  have f4 : bits (201326598 + d * 524288 + a * 4096 + b * 32 + w) 5 7 = b := field15 (cl := 6) (ch := 49152) rfl hb0 hb1 hb2 hb3 (by decide)
  refine decode_of_one (w := 201326598 + d * 524288 + a * 4096 + b * 32 + w) rfl m (by decide) (fun x => ?_) hwf
  rw [decodeMajor_03 _ m, decodeM03]
  simp only [f0, f1, f2, f3, f4, use, if_true, Nat.reduceAdd, Nat.zero_ne_one, Nat.one_ne_zero, if_false]

theorem psubsS (d : Nat) (a : Nat) (b : Nat) (w : Nat) : Statement (.psubsS d a b w) := by
  intro hwf _
  have hb : (d < 128 && a < 128 && b < 128 && w < 2) = true := hwf
  simp only [Bool.and_eq_true, decide_eq_true_eq] at hb
  obtain ⟨⟨⟨hb0, hb1⟩, hb2⟩, hb3⟩ := hb
  have m : bits (201326600 + d * 524288 + a * 4096 + b * 32 + w) 26 6 = 3 := field10 (cl := 8) (cm := 3) (ch := 0) rfl hb0 hb1 hb2 hb3 (by decide) (by decide)
  have f0 : bits (201326600 + d * 524288 + a * 4096 + b * 32 + w) 0 1 = w := field11 (cl := 0) (ch := 100663300) rfl hb0 hb1 hb2 hb3 (by decide)
  have f1 : bits (201326600 + d * 524288 + a * 4096 + b * 32 + w) 1 4 = 4 := field12 (cl := 0) (cm := 4) (ch := 6291456) rfl hb0 hb1 hb2 hb3 (by decide) (by decide)
  have f2 : bits (201326600 + d * 524288 + a * 4096 + b * 32 + w) 12 7 = a := field13 (cl := 8) (ch := 384) rfl hb0 hb1 hb2 hb3 (by decide)
  have f3 : bits (201326600 + d * 524288 + a * 4096 + b * 32 + w) 19 7 = d := field14 (cl := 8) (ch := 3) rfl hb0 hb1 hb2 hb3 (by decide)
  have f4 : bits (201326600 + d * 524288 + a * 4096 + b * 32 + w) 5 7 = b := field15 (cl := 8) (ch := 49152) rfl hb0 hb1 hb2 hb3 (by decide)
  refine decode_of_one (w := 201326600 + d * 524288 + a * 4096 + b * 32 + w) rfl m (by decide) (fun x => ?_) hwf
  rw [decodeMajor_03 _ m, decodeM03]
  simp only [f0, f1, f2, f3, f4, use, if_true, Nat.reduceAdd, Nat.zero_ne_one, Nat.one_ne_zero, if_false]

theorem psubsN (d : Nat) (a : Nat) (b : Nat) (w : Nat) : Statement (.psubsN d a b w) := by
  intro hwf _
  have hb : (d < 128 && a < 128 && b < 128 && w < 2) = true := hwf
  simp only [Bool.and_eq_true, decide_eq_true_eq] at hb
  obtain ⟨⟨⟨hb0, hb1⟩, hb2⟩, hb3⟩ := hb
  have m : bits (201326602 + d * 524288 + a * 4096 + b * 32 + w) 26 6 = 3 := field10 (cl := 10) (cm := 3) (ch := 0) rfl hb0 hb1 hb2 hb3 (by decide) (by decide)
  have f0 : bits (201326602 + d * 524288 + a * 4096 + b * 32 + w) 0 1 = w := field11 (cl := 0) (ch := 100663301) rfl hb0 hb1 hb2 hb3 (by decide)
  have f1 : bits (201326602 + d * 524288 + a * 4096 + b * 32 + w) 1 4 = 5 := field12 (cl := 0) (cm := 5) (ch := 6291456) rfl hb0 hb1 hb2 hb3 (by decide) (by decide)
  have f2 : bits (201326602 + d * 524288 + a * 4096 + b * 32 + w) 12 7 = a := field13 (cl := 10) (ch := 384) rfl hb0 hb1 hb2 hb3 (by decide)
  have f3 : bits (201326602 + d * 524288 + a * 4096 + b * 32 + w) 19 7 = d := field14 (cl := 10) (ch := 3) rfl hb0 hb1 hb2 hb3 (by decide)
  have f4 : bits (201326602 + d * 524288 + a * 4096 + b * 32 + w) 5 7 = b := field15 (cl := 10) (ch := 49152) rfl hb0 hb1 hb2 hb3 (by decide)
  refine decode_of_one (w := 201326602 + d * 524288 + a * 4096 + b * 32 + w) rfl m (by decide) (fun x => ?_) hwf
  rw [decodeMajor_03 _ m, decodeM03]
  simp only [f0, f1, f2, f3, f4, use, if_true, Nat.reduceAdd, Nat.zero_ne_one, Nat.one_ne_zero, if_false]

theorem pmin (d : Nat) (a : Nat) (b : Nat) (w : Nat) : Statement (.pmin d a b w) := by
  intro hwf _
  have hb : (d < 128 && a < 128 && b < 128 && w < 2) = true := hwf
  simp only [Bool.and_eq_true, decide_eq_true_eq] at hb
  obtain ⟨⟨⟨hb0, hb1⟩, hb2⟩, hb3⟩ := hb
  have m : bits (201326604 + d * 524288 + a * 4096 + b * 32 + w) 26 6 = 3 := field10 (cl := 12) (cm := 3) (ch := 0) rfl hb0 hb1 hb2 hb3 (by decide) (by decide)
  have f0 : bits (201326604 + d * 524288 + a * 4096 + b * 32 + w) 0 1 = w := field11 (cl := 0) (ch := 100663302) rfl hb0 hb1 hb2 hb3 (by decide)
  have f1 : bits (201326604 + d * 524288 + a * 4096 + b * 32 + w) 1 4 = 6 := field12 (cl := 0) (cm := 6) (ch := 6291456) rfl hb0 hb1 hb2 hb3 (by decide) (by decide)
  have f2 : bits (201326604 + d * 524288 + a * 4096 + b * 32 + w) 12 7 = a := field13 (cl := 12) (ch := 384) rfl hb0 hb1 hb2 hb3 (by decide)
  have f3 : bits (201326604 + d * 524288 + a * 4096 + b * 32 + w) 19 7 = d := field14 (cl := 12) (ch := 3) rfl hb0 hb1 hb2 hb3 (by decide)
  have f4 : bits (201326604 + d * 524288 + a * 4096 + b * 32 + w) 5 7 = b := field15 (cl := 12) (ch := 49152) rfl hb0 hb1 hb2 hb3 (by decide)
  refine decode_of_one (w := 201326604 + d * 524288 + a * 4096 + b * 32 + w) rfl m (by decide) (fun x => ?_) hwf
  rw [decodeMajor_03 _ m, decodeM03]
  simp only [f0, f1, f2, f3, f4, use, if_true, Nat.reduceAdd, Nat.zero_ne_one, Nat.one_ne_zero, if_false]

theorem pmax (d : Nat) (a : Nat) (b : Nat) (w : Nat) : Statement (.pmax d a b w) := by
  intro hwf _
  have hb : (d < 128 && a < 128 && b < 128 && w < 2) = true := hwf
  simp only [Bool.and_eq_true, decide_eq_true_eq] at hb
  obtain ⟨⟨⟨hb0, hb1⟩, hb2⟩, hb3⟩ := hb
  have m : bits (201326606 + d * 524288 + a * 4096 + b * 32 + w) 26 6 = 3 := field10 (cl := 14) (cm := 3) (ch := 0) rfl hb0 hb1 hb2 hb3 (by decide) (by decide)
  have f0 : bits (201326606 + d * 524288 + a * 4096 + b * 32 + w) 0 1 = w := field11 (cl := 0) (ch := 100663303) rfl hb0 hb1 hb2 hb3 (by decide)
  have f1 : bits (201326606 + d * 524288 + a * 4096 + b * 32 + w) 1 4 = 7 := field12 (cl := 0) (cm := 7) (ch := 6291456) rfl hb0 hb1 hb2 hb3 (by decide) (by decide)
  have f2 : bits (201326606 + d * 524288 + a * 4096 + b * 32 + w) 12 7 = a := field13 (cl := 14) (ch := 384) rfl hb0 hb1 hb2 hb3 (by decide)
  have f3 : bits (201326606 + d * 524288 + a * 4096 + b * 32 + w) 19 7 = d := field14 (cl := 14) (ch := 3) rfl hb0 hb1 hb2 hb3 (by decide)
  have f4 : bits (201326606 + d * 524288 + a * 4096 + b * 32 + w) 5 7 = b := field15 (cl := 14) (ch := 49152) rfl hb0 hb1 hb2 hb3 (by decide)
  refine decode_of_one (w := 201326606 + d * 524288 + a * 4096 + b * 32 + w) rfl m (by decide) (fun x => ?_) hwf
  rw [decodeMajor_03 _ m, decodeM03]
  simp only [f0, f1, f2, f3, f4, use, if_true, Nat.reduceAdd, Nat.zero_ne_one, Nat.one_ne_zero, if_false]

theorem pminn (d : Nat) (a : Nat) (b : Nat) (w : Nat) : Statement (.pminn d a b w) := by
  intro hwf _
  have hb : (d < 128 && a < 128 && b < 128 && w < 2) = true := hwf
  simp only [Bool.and_eq_true, decide_eq_true_eq] at hb
  obtain ⟨⟨⟨hb0, hb1⟩, hb2⟩, hb3⟩ := hb
  have m : bits (201326608 + d * 524288 + a * 4096 + b * 32 + w) 26 6 = 3 := field10 (cl := 16) (cm := 3) (ch := 0) rfl hb0 hb1 hb2 hb3 (by decide) (by decide)
  have f0 : bits (201326608 + d * 524288 + a * 4096 + b * 32 + w) 0 1 = w := field11 (cl := 0) (ch := 100663304) rfl hb0 hb1 hb2 hb3 (by decide)
  have f1 : bits (201326608 + d * 524288 + a * 4096 + b * 32 + w) 1 4 = 8 := field12 (cl := 0) (cm := 8) (ch := 6291456) rfl hb0 hb1 hb2 hb3 (by decide) (by decide)
  have f2 : bits (201326608 + d * 524288 + a * 4096 + b * 32 + w) 12 7 = a := field13 (cl := 16) (ch := 384) rfl hb0 hb1 hb2 hb3 (by decide)
  have f3 : bits (201326608 + d * 524288 + a * 4096 + b * 32 + w) 19 7 = d := field14 (cl := 16) (ch := 3) rfl hb0 hb1 hb2 hb3 (by decide)
  have f4 : bits (201326608 + d * 524288 + a * 4096 + b * 32 + w) 5 7 = b := field15 (cl := 16) (ch := 49152) rfl hb0 hb1 hb2 hb3 (by decide)
  refine decode_of_one (w := 201326608 + d * 524288 + a * 4096 + b * 32 + w) rfl m (by decide) (fun x => ?_) hwf
  rw [decodeMajor_03 _ m, decodeM03]
  simp only [f0, f1, f2, f3, f4, use, if_true, Nat.reduceAdd, Nat.zero_ne_one, Nat.one_ne_zero, if_false]

theorem pmaxn (d : Nat) (a : Nat) (b : Nat) (w : Nat) : Statement (.pmaxn d a b w) := by
  intro hwf _
  have hb : (d < 128 && a < 128 && b < 128 && w < 2) = true := hwf
  simp only [Bool.and_eq_true, decide_eq_true_eq] at hb
  obtain ⟨⟨⟨hb0, hb1⟩, hb2⟩, hb3⟩ := hb
  have m : bits (201326610 + d * 524288 + a * 4096 + b * 32 + w) 26 6 = 3 := field10 (cl := 18) (cm := 3) (ch := 0) rfl hb0 hb1 hb2 hb3 (by decide) (by decide)
  have f0 : bits (201326610 + d * 524288 + a * 4096 + b * 32 + w) 0 1 = w := field11 (cl := 0) (ch := 100663305) rfl hb0 hb1 hb2 hb3 (by decide)
  have f1 : bits (201326610 + d * 524288 + a * 4096 + b * 32 + w) 1 4 = 9 := field12 (cl := 0) (cm := 9) (ch := 6291456) rfl hb0 hb1 hb2 hb3 (by decide) (by decide)
  have f2 : bits (201326610 + d * 524288 + a * 4096 + b * 32 + w) 12 7 = a := field13 (cl := 18) (ch := 384) rfl hb0 hb1 hb2 hb3 (by decide)
  have f3 : bits (201326610 + d * 524288 + a * 4096 + b * 32 + w) 19 7 = d := field14 (cl := 18) (ch := 3) rfl hb0 hb1 hb2 hb3 (by decide)
  have f4 : bits (201326610 + d * 524288 + a * 4096 + b * 32 + w) 5 7 = b := field15 (cl := 18) (ch := 49152) rfl hb0 hb1 hb2 hb3 (by decide)
  refine decode_of_one (w := 201326610 + d * 524288 + a * 4096 + b * 32 + w) rfl m (by decide) (fun x => ?_) hwf
  rw [decodeMajor_03 _ m, decodeM03]
  simp only [f0, f1, f2, f3, f4, use, if_true, Nat.reduceAdd, Nat.zero_ne_one, Nat.one_ne_zero, if_false]

theorem pshl (d : Nat) (a : Nat) (b : Nat) (w : Nat) : Statement (.pshl d a b w) := by
  intro hwf _
  have hb : (d < 128 && a < 128 && b < 128 && w < 2) = true := hwf
  simp only [Bool.and_eq_true, decide_eq_true_eq] at hb
  obtain ⟨⟨⟨hb0, hb1⟩, hb2⟩, hb3⟩ := hb
  have m : bits (201326612 + d * 524288 + a * 4096 + b * 32 + w) 26 6 = 3 := field10 (cl := 20) (cm := 3) (ch := 0) rfl hb0 hb1 hb2 hb3 (by decide) (by decide)
  have f0 : bits (201326612 + d * 524288 + a * 4096 + b * 32 + w) 0 1 = w := field11 (cl := 0) (ch := 100663306) rfl hb0 hb1 hb2 hb3 (by decide)
  have f1 : bits (201326612 + d * 524288 + a * 4096 + b * 32 + w) 1 4 = 10 := field12 (cl := 0) (cm := 10) (ch := 6291456) rfl hb0 hb1 hb2 hb3 (by decide) (by decide)
  have f2 : bits (201326612 + d * 524288 + a * 4096 + b * 32 + w) 12 7 = a := field13 (cl := 20) (ch := 384) rfl hb0 hb1 hb2 hb3 (by decide)
  have f3 : bits (201326612 + d * 524288 + a * 4096 + b * 32 + w) 19 7 = d := field14 (cl := 20) (ch := 3) rfl hb0 hb1 hb2 hb3 (by decide)
  have f4 : bits (201326612 + d * 524288 + a * 4096 + b * 32 + w) 5 7 = b := field15 (cl := 20) (ch := 49152) rfl hb0 hb1 hb2 hb3 (by decide)
  refine decode_of_one (w := 201326612 + d * 524288 + a * 4096 + b * 32 + w) rfl m (by decide) (fun x => ?_) hwf
  rw [decodeMajor_03 _ m, decodeM03]
  simp only [f0, f1, f2, f3, f4, use, if_true, Nat.reduceAdd, Nat.zero_ne_one, Nat.one_ne_zero, if_false]

theorem pshr (d : Nat) (a : Nat) (b : Nat) (w : Nat) : Statement (.pshr d a b w) := by
  intro hwf _
  have hb : (d < 128 && a < 128 && b < 128 && w < 2) = true := hwf
  simp only [Bool.and_eq_true, decide_eq_true_eq] at hb
  obtain ⟨⟨⟨hb0, hb1⟩, hb2⟩, hb3⟩ := hb
  have m : bits (201326614 + d * 524288 + a * 4096 + b * 32 + w) 26 6 = 3 := field10 (cl := 22) (cm := 3) (ch := 0) rfl hb0 hb1 hb2 hb3 (by decide) (by decide)
  have f0 : bits (201326614 + d * 524288 + a * 4096 + b * 32 + w) 0 1 = w := field11 (cl := 0) (ch := 100663307) rfl hb0 hb1 hb2 hb3 (by decide)
  have f1 : bits (201326614 + d * 524288 + a * 4096 + b * 32 + w) 1 4 = 11 := field12 (cl := 0) (cm := 11) (ch := 6291456) rfl hb0 hb1 hb2 hb3 (by decide) (by decide)
  have f2 : bits (201326614 + d * 524288 + a * 4096 + b * 32 + w) 12 7 = a := field13 (cl := 22) (ch := 384) rfl hb0 hb1 hb2 hb3 (by decide)
  have f3 : bits (201326614 + d * 524288 + a * 4096 + b * 32 + w) 19 7 = d := field14 (cl := 22) (ch := 3) rfl hb0 hb1 hb2 hb3 (by decide)
  have f4 : bits (201326614 + d * 524288 + a * 4096 + b * 32 + w) 5 7 = b := field15 (cl := 22) (ch := 49152) rfl hb0 hb1 hb2 hb3 (by decide)
  refine decode_of_one (w := 201326614 + d * 524288 + a * 4096 + b * 32 + w) rfl m (by decide) (fun x => ?_) hwf
  rw [decodeMajor_03 _ m, decodeM03]
  simp only [f0, f1, f2, f3, f4, use, if_true, Nat.reduceAdd, Nat.zero_ne_one, Nat.one_ne_zero, if_false]

theorem psar (d : Nat) (a : Nat) (b : Nat) (w : Nat) : Statement (.psar d a b w) := by
  intro hwf _
  have hb : (d < 128 && a < 128 && b < 128 && w < 2) = true := hwf
  simp only [Bool.and_eq_true, decide_eq_true_eq] at hb
  obtain ⟨⟨⟨hb0, hb1⟩, hb2⟩, hb3⟩ := hb
  have m : bits (201326616 + d * 524288 + a * 4096 + b * 32 + w) 26 6 = 3 := field10 (cl := 24) (cm := 3) (ch := 0) rfl hb0 hb1 hb2 hb3 (by decide) (by decide)
  have f0 : bits (201326616 + d * 524288 + a * 4096 + b * 32 + w) 0 1 = w := field11 (cl := 0) (ch := 100663308) rfl hb0 hb1 hb2 hb3 (by decide)
  have f1 : bits (201326616 + d * 524288 + a * 4096 + b * 32 + w) 1 4 = 12 := field12 (cl := 0) (cm := 12) (ch := 6291456) rfl hb0 hb1 hb2 hb3 (by decide) (by decide)
  have f2 : bits (201326616 + d * 524288 + a * 4096 + b * 32 + w) 12 7 = a := field13 (cl := 24) (ch := 384) rfl hb0 hb1 hb2 hb3 (by decide)
  have f3 : bits (201326616 + d * 524288 + a * 4096 + b * 32 + w) 19 7 = d := field14 (cl := 24) (ch := 3) rfl hb0 hb1 hb2 hb3 (by decide)
  have f4 : bits (201326616 + d * 524288 + a * 4096 + b * 32 + w) 5 7 = b := field15 (cl := 24) (ch := 49152) rfl hb0 hb1 hb2 hb3 (by decide)
  refine decode_of_one (w := 201326616 + d * 524288 + a * 4096 + b * 32 + w) rfl m (by decide) (fun x => ?_) hwf
  rw [decodeMajor_03 _ m, decodeM03]
  simp only [f0, f1, f2, f3, f4, use, if_true, Nat.reduceAdd, Nat.zero_ne_one, Nat.one_ne_zero, if_false]

theorem pshlV (d : Nat) (a : Nat) (b : Nat) (w : Nat) : Statement (.pshlV d a b w) := by
  intro hwf _
  have hb : (d < 128 && a < 128 && b < 128 && w < 2) = true := hwf
  simp only [Bool.and_eq_true, decide_eq_true_eq] at hb
  obtain ⟨⟨⟨hb0, hb1⟩, hb2⟩, hb3⟩ := hb
  have m : bits (201326618 + d * 524288 + a * 4096 + b * 32 + w) 26 6 = 3 := field10 (cl := 26) (cm := 3) (ch := 0) rfl hb0 hb1 hb2 hb3 (by decide) (by decide)
  have f0 : bits (201326618 + d * 524288 + a * 4096 + b * 32 + w) 0 1 = w := field11 (cl := 0) (ch := 100663309) rfl hb0 hb1 hb2 hb3 (by decide)
  have f1 : bits (201326618 + d * 524288 + a * 4096 + b * 32 + w) 1 4 = 13 := field12 (cl := 0) (cm := 13) (ch := 6291456) rfl hb0 hb1 hb2 hb3 (by decide) (by decide)
  have f2 : bits (201326618 + d * 524288 + a * 4096 + b * 32 + w) 12 7 = a := field13 (cl := 26) (ch := 384) rfl hb0 hb1 hb2 hb3 (by decide)
  have f3 : bits (201326618 + d * 524288 + a * 4096 + b * 32 + w) 19 7 = d := field14 (cl := 26) (ch := 3) rfl hb0 hb1 hb2 hb3 (by decide)
  have f4 : bits (201326618 + d * 524288 + a * 4096 + b * 32 + w) 5 7 = b := field15 (cl := 26) (ch := 49152) rfl hb0 hb1 hb2 hb3 (by decide)
  refine decode_of_one (w := 201326618 + d * 524288 + a * 4096 + b * 32 + w) rfl m (by decide) (fun x => ?_) hwf
  rw [decodeMajor_03 _ m, decodeM03]
  simp only [f0, f1, f2, f3, f4, use, if_true, Nat.reduceAdd, Nat.zero_ne_one, Nat.one_ne_zero, if_false]

theorem pshrV (d : Nat) (a : Nat) (b : Nat) (w : Nat) : Statement (.pshrV d a b w) := by
  intro hwf _
  have hb : (d < 128 && a < 128 && b < 128 && w < 2) = true := hwf
  simp only [Bool.and_eq_true, decide_eq_true_eq] at hb
  obtain ⟨⟨⟨hb0, hb1⟩, hb2⟩, hb3⟩ := hb
  have m : bits (201326620 + d * 524288 + a * 4096 + b * 32 + w) 26 6 = 3 := field10 (cl := 28) (cm := 3) (ch := 0) rfl hb0 hb1 hb2 hb3 (by decide) (by decide)
  have f0 : bits (201326620 + d * 524288 + a * 4096 + b * 32 + w) 0 1 = w := field11 (cl := 0) (ch := 100663310) rfl hb0 hb1 hb2 hb3 (by decide)
  have f1 : bits (201326620 + d * 524288 + a * 4096 + b * 32 + w) 1 4 = 14 := field12 (cl := 0) (cm := 14) (ch := 6291456) rfl hb0 hb1 hb2 hb3 (by decide) (by decide)
  have f2 : bits (201326620 + d * 524288 + a * 4096 + b * 32 + w) 12 7 = a := field13 (cl := 28) (ch := 384) rfl hb0 hb1 hb2 hb3 (by decide)
  have f3 : bits (201326620 + d * 524288 + a * 4096 + b * 32 + w) 19 7 = d := field14 (cl := 28) (ch := 3) rfl hb0 hb1 hb2 hb3 (by decide)
  have f4 : bits (201326620 + d * 524288 + a * 4096 + b * 32 + w) 5 7 = b := field15 (cl := 28) (ch := 49152) rfl hb0 hb1 hb2 hb3 (by decide)
  refine decode_of_one (w := 201326620 + d * 524288 + a * 4096 + b * 32 + w) rfl m (by decide) (fun x => ?_) hwf
  rw [decodeMajor_03 _ m, decodeM03]
  simp only [f0, f1, f2, f3, f4, use, if_true, Nat.reduceAdd, Nat.zero_ne_one, Nat.one_ne_zero, if_false]

theorem psarV (d : Nat) (a : Nat) (b : Nat) (w : Nat) : Statement (.psarV d a b w) := by
  intro hwf _
  have hb : (d < 128 && a < 128 && b < 128 && w < 2) = true := hwf
  simp only [Bool.and_eq_true, decide_eq_true_eq] at hb
  obtain ⟨⟨⟨hb0, hb1⟩, hb2⟩, hb3⟩ := hb
  have m : bits (201326622 + d * 524288 + a * 4096 + b * 32 + w) 26 6 = 3 := field10 (cl := 30) (cm := 3) (ch := 0) rfl hb0 hb1 hb2 hb3 (by decide) (by decide)
  have f0 : bits (201326622 + d * 524288 + a * 4096 + b * 32 + w) 0 1 = w := field11 (cl := 0) (ch := 100663311) rfl hb0 hb1 hb2 hb3 (by decide)
  have f1 : bits (201326622 + d * 524288 + a * 4096 + b * 32 + w) 1 4 = 15 := field12 (cl := 0) (cm := 15) (ch := 6291456) rfl hb0 hb1 hb2 hb3 (by decide) (by decide)
  have f2 : bits (201326622 + d * 524288 + a * 4096 + b * 32 + w) 12 7 = a := field13 (cl := 30) (ch := 384) rfl hb0 hb1 hb2 hb3 (by decide)
  have f3 : bits (201326622 + d * 524288 + a * 4096 + b * 32 + w) 19 7 = d := field14 (cl := 30) (ch := 3) rfl hb0 hb1 hb2 hb3 (by decide)
  have f4 : bits (201326622 + d * 524288 + a * 4096 + b * 32 + w) 5 7 = b := field15 (cl := 30) (ch := 49152) rfl hb0 hb1 hb2 hb3 (by decide)
  refine decode_of_one (w := 201326622 + d * 524288 + a * 4096 + b * 32 + w) rfl m (by decide) (fun x => ?_) hwf
  rw [decodeMajor_03 _ m, decodeM03]
  simp only [f0, f1, f2, f3, f4, use, if_true, Nat.reduceAdd, Nat.zero_ne_one, Nat.one_ne_zero, if_false]

theorem pcmp (d : Nat) (a : Nat) (b : Nat) (c : Nat) (w : Nat) : Statement (.pcmp d a b c w) := by
  intro hwf _
  have hb : (d < 128 && a < 128 && b < 128 && c < 16 && w < 2 && c < 6) = true := hwf
  simp only [Bool.and_eq_true, decide_eq_true_eq] at hb
  obtain ⟨⟨⟨⟨⟨hb0, hb1⟩, hb2⟩, hb3⟩, hb4⟩, hb5⟩ := hb
  have m : bits (268435456 + d * 524288 + a * 4096 + b * 32 + c * 2 + w) 26 6 = 4 := field16 (cl := 0) (cm := 4) (ch := 0) rfl hb0 hb1 hb2 (by omega) hb4 (by decide) (by decide)
  have f0 : bits (268435456 + d * 524288 + a * 4096 + b * 32 + c * 2 + w) 0 1 = w := field17 (cl := 0) (ch := 134217728) rfl hb0 hb1 hb2 (by omega) hb4 (by decide)
  have f1 : bits (268435456 + d * 524288 + a * 4096 + b * 32 + c * 2 + w) 0 5 = 2 * c + w := by unfold bits; omega
  have f2 : bits (268435456 + d * 524288 + a * 4096 + b * 32 + c * 2 + w) 1 4 = c := field18 (cl := 0) (ch := 8388608) rfl hb0 hb1 hb2 (by omega) hb4 (by decide)
  have f3 : bits (268435456 + d * 524288 + a * 4096 + b * 32 + c * 2 + w) 12 7 = a := field19 (cl := 0) (ch := 512) rfl hb0 hb1 hb2 (by omega) hb4 (by decide)
  have f4 : bits (268435456 + d * 524288 + a * 4096 + b * 32 + c * 2 + w) 19 7 = d := field20 (cl := 0) (ch := 4) rfl hb0 hb1 hb2 (by omega) hb4 (by decide)
  have f5 : bits (268435456 + d * 524288 + a * 4096 + b * 32 + c * 2 + w) 5 7 = b := field21 (cl := 0) (ch := 65536) rfl hb0 hb1 hb2 (by omega) hb4 (by decide)
  refine decode_of_one (w := 268435456 + d * 524288 + a * 4096 + b * 32 + c * 2 + w) rfl m (by decide) (fun x => ?_) hwf
  rw [decodeMajor_04 _ m, decodeM04]
  simp only [f0, f1, f2, f3, f4, f5]
  split <;> first | omega | skip
  rw [if_pos (by omega)]
  rfl

theorem mov (d : Nat) (a : Nat) : Statement (.mov d a) := by
  intro hwf _
  have hb : (d < 128 && a < 128) = true := hwf
  simp only [Bool.and_eq_true, decide_eq_true_eq] at hb
  obtain ⟨hb0, hb1⟩ := hb
  have m : bits (268435468 + d * 524288 + a * 4096) 26 6 = 4 := field5 (cl := 12) (cm := 4) (ch := 0) rfl hb0 hb1 (by decide) (by decide)
  have f0 : bits (268435468 + d * 524288 + a * 4096) 0 5 = 12 := field6 (cl := 0) (cm := 12) (ch := 8388608) rfl hb0 hb1 (by decide) (by decide)
  have f1 : bits (268435468 + d * 524288 + a * 4096) 12 7 = a := field7 (cl := 12) (ch := 512) rfl hb0 hb1 (by decide)
  have f2 : bits (268435468 + d * 524288 + a * 4096) 19 7 = d := field8 (cl := 12) (ch := 4) rfl hb0 hb1 (by decide)
  have f3 : bits (268435468 + d * 524288 + a * 4096) 5 7 = 0 := field9 (cl := 12) (cm := 0) (ch := 65536) rfl hb0 hb1 (by decide) (by decide)
  refine decode_of_one (w := 268435468 + d * 524288 + a * 4096) rfl m (by decide) (fun x => ?_) hwf
  rw [decodeMajor_04 _ m, decodeM04]
  simp only [f0, f1, f2, f3, use, if_true, Nat.reduceAdd, Nat.zero_ne_one, Nat.one_ne_zero, if_false]

theorem pmovToG (d : Nat) : Statement (.pmovToG d) := by
  intro hwf _
  have hb : decide (d < 128) = true := hwf
  simp only [Bool.and_eq_true, decide_eq_true_eq] at hb
  have hb0 := hb
  have m : bits (268435469 + d * 524288) 26 6 = 4 := field22 (cl := 13) (cm := 4) (ch := 0) rfl hb0 (by decide) (by decide)
  have f0 : bits (268435469 + d * 524288) 0 5 = 13 := field23 (cl := 0) (cm := 13) (ch := 8388608) rfl hb0 (by decide) (by decide)
  have f1 : bits (268435469 + d * 524288) 19 7 = d := field24 (cl := 13) (ch := 4) rfl hb0 (by decide)
  have f2 : bits (268435469 + d * 524288) 5 14 = 0 := field25 (cl := 13) (cm := 0) (ch := 512) rfl hb0 (by decide) (by decide)
  refine decode_of_one (w := 268435469 + d * 524288) rfl m (by decide) (fun x => ?_) hwf
  rw [decodeMajor_04 _ m, decodeM04]
  simp only [f0, f1, f2, use, if_true, Nat.reduceAdd, Nat.zero_ne_one, Nat.one_ne_zero, if_false]

theorem pmovToPw (a : Nat) : Statement (.pmovToPw a) := by
  intro hwf _
  have hb : decide (a < 128) = true := hwf
  simp only [Bool.and_eq_true, decide_eq_true_eq] at hb
  have hb0 := hb
  have m : bits (268435470 + a * 4096) 26 6 = 4 := field26 (cl := 14) (cm := 4) (ch := 0) rfl hb0 (by decide) (by decide)
  have f0 : bits (268435470 + a * 4096) 0 5 = 14 := field27 (cl := 0) (cm := 14) (ch := 8388608) rfl hb0 (by decide) (by decide)
  have f1 : bits (268435470 + a * 4096) 12 7 = a := field28 (cl := 14) (ch := 512) rfl hb0 (by decide)
  have f2 : bits (268435470 + a * 4096) 19 7 = 0 := field29 (cl := 14) (cm := 0) (ch := 4) rfl hb0 (by decide) (by decide)
  have f3 : bits (268435470 + a * 4096) 5 7 = 0 := field30 (cl := 14) (cm := 0) (ch := 65536) rfl hb0 (by decide) (by decide)
  refine decode_of_one (w := 268435470 + a * 4096) rfl m (by decide) (fun x => ?_) hwf
  rw [decodeMajor_04 _ m, decodeM04]
  simp only [f0, f1, f2, f3, use, if_true, Nat.reduceAdd, Nat.zero_ne_one, Nat.one_ne_zero, if_false]

theorem sel (d : Nat) (a : Nat) (b : Nat) (n : Nat) (k : Nat) : Statement (.sel d a b n k) := by
  intro hwf _
  have hb : (d < 128 && a < 128 && b < 128 && n < 2 && k < 16) = true := hwf
  simp only [Bool.and_eq_true, decide_eq_true_eq] at hb
  obtain ⟨⟨⟨⟨hb0, hb1⟩, hb2⟩, hb3⟩, hb4⟩ := hb
  have m : bits (335544320 + d * 524288 + a * 4096 + b * 32 + n * 16 + k) 26 6 = 5 := field31 (cl := 0) (cm := 5) (ch := 0) rfl hb0 hb1 hb2 hb3 hb4 (by decide) (by decide)
  have f0 : bits (335544320 + d * 524288 + a * 4096 + b * 32 + n * 16 + k) 0 4 = k := field32 (cl := 0) (ch := 20971520) rfl hb0 hb1 hb2 hb3 hb4 (by decide)
  have f1 : bits (335544320 + d * 524288 + a * 4096 + b * 32 + n * 16 + k) 12 7 = a := field33 (cl := 0) (ch := 640) rfl hb0 hb1 hb2 hb3 hb4 (by decide)
  have f2 : bits (335544320 + d * 524288 + a * 4096 + b * 32 + n * 16 + k) 19 7 = d := field34 (cl := 0) (ch := 5) rfl hb0 hb1 hb2 hb3 hb4 (by decide)
  have f3 : bits (335544320 + d * 524288 + a * 4096 + b * 32 + n * 16 + k) 4 1 = n := field35 (cl := 0) (ch := 10485760) rfl hb0 hb1 hb2 hb3 hb4 (by decide)
  have f4 : bits (335544320 + d * 524288 + a * 4096 + b * 32 + n * 16 + k) 5 7 = b := field36 (cl := 0) (ch := 81920) rfl hb0 hb1 hb2 hb3 hb4 (by decide)
  refine decode_of_one (w := 335544320 + d * 524288 + a * 4096 + b * 32 + n * 16 + k) rfl m (by decide) (fun x => ?_) hwf
  rw [decodeMajor_05 _ m, decodeM05]
  simp only [f0, f1, f2, f3, f4, use, if_true, Nat.reduceAdd, Nat.zero_ne_one, Nat.one_ne_zero, if_false]

theorem addi (d : Nat) (a : Nat) (i : Nat) : Statement (.addi d a i) := by
  intro hwf _
  have hb : (d < 128 && a < 128 && i < 4096) = true := hwf
  simp only [Bool.and_eq_true, decide_eq_true_eq] at hb
  obtain ⟨⟨hb0, hb1⟩, hb2⟩ := hb
  have m : bits (402653184 + d * 524288 + a * 4096 + i) 26 6 = 6 := field37 (cl := 0) (cm := 6) (ch := 0) rfl hb0 hb1 hb2 (by decide) (by decide)
  have f0 : bits (402653184 + d * 524288 + a * 4096 + i) 0 12 = i := field38 (cl := 0) (ch := 98304) rfl hb0 hb1 hb2 (by decide)
  have f1 : bits (402653184 + d * 524288 + a * 4096 + i) 12 7 = a := field39 (cl := 0) (ch := 768) rfl hb0 hb1 hb2 (by decide)
  have f2 : bits (402653184 + d * 524288 + a * 4096 + i) 19 7 = d := field40 (cl := 0) (ch := 6) rfl hb0 hb1 hb2 (by decide)
  refine decode_of_one (w := 402653184 + d * 524288 + a * 4096 + i) rfl m (by decide) (fun x => ?_) hwf
  rw [decodeMajor_06 _ m, decodeM06]
  simp only [f0, f1, f2, use, if_true, Nat.reduceAdd, Nat.zero_ne_one, Nat.one_ne_zero, if_false]

theorem andi (d : Nat) (a : Nat) (i : Nat) : Statement (.andi d a i) := by
  intro hwf _
  have hb : (d < 128 && a < 128 && i < 4096) = true := hwf
  simp only [Bool.and_eq_true, decide_eq_true_eq] at hb
  obtain ⟨⟨hb0, hb1⟩, hb2⟩ := hb
  have m : bits (469762048 + d * 524288 + a * 4096 + i) 26 6 = 7 := field37 (cl := 0) (cm := 7) (ch := 0) rfl hb0 hb1 hb2 (by decide) (by decide)
  have f0 : bits (469762048 + d * 524288 + a * 4096 + i) 0 12 = i := field38 (cl := 0) (ch := 114688) rfl hb0 hb1 hb2 (by decide)
  have f1 : bits (469762048 + d * 524288 + a * 4096 + i) 12 7 = a := field39 (cl := 0) (ch := 896) rfl hb0 hb1 hb2 (by decide)
  have f2 : bits (469762048 + d * 524288 + a * 4096 + i) 19 7 = d := field40 (cl := 0) (ch := 7) rfl hb0 hb1 hb2 (by decide)
  refine decode_of_one (w := 469762048 + d * 524288 + a * 4096 + i) rfl m (by decide) (fun x => ?_) hwf
  rw [decodeMajor_07 _ m, decodeM07]
  simp only [f0, f1, f2, use, if_true, Nat.reduceAdd, Nat.zero_ne_one, Nat.one_ne_zero, if_false]

theorem ori (d : Nat) (a : Nat) (i : Nat) : Statement (.ori d a i) := by
  intro hwf _
  have hb : (d < 128 && a < 128 && i < 4096) = true := hwf
  simp only [Bool.and_eq_true, decide_eq_true_eq] at hb
  obtain ⟨⟨hb0, hb1⟩, hb2⟩ := hb
  have m : bits (536870912 + d * 524288 + a * 4096 + i) 26 6 = 8 := field37 (cl := 0) (cm := 8) (ch := 0) rfl hb0 hb1 hb2 (by decide) (by decide)
  have f0 : bits (536870912 + d * 524288 + a * 4096 + i) 0 12 = i := field38 (cl := 0) (ch := 131072) rfl hb0 hb1 hb2 (by decide)
  have f1 : bits (536870912 + d * 524288 + a * 4096 + i) 12 7 = a := field39 (cl := 0) (ch := 1024) rfl hb0 hb1 hb2 (by decide)
  have f2 : bits (536870912 + d * 524288 + a * 4096 + i) 19 7 = d := field40 (cl := 0) (ch := 8) rfl hb0 hb1 hb2 (by decide)
  refine decode_of_one (w := 536870912 + d * 524288 + a * 4096 + i) rfl m (by decide) (fun x => ?_) hwf
  rw [decodeMajor_08 _ m, decodeM08]
  simp only [f0, f1, f2, use, if_true, Nat.reduceAdd, Nat.zero_ne_one, Nat.one_ne_zero, if_false]

theorem xori (d : Nat) (a : Nat) (i : Nat) : Statement (.xori d a i) := by
  intro hwf _
  have hb : (d < 128 && a < 128 && i < 4096) = true := hwf
  simp only [Bool.and_eq_true, decide_eq_true_eq] at hb
  obtain ⟨⟨hb0, hb1⟩, hb2⟩ := hb
  have m : bits (603979776 + d * 524288 + a * 4096 + i) 26 6 = 9 := field37 (cl := 0) (cm := 9) (ch := 0) rfl hb0 hb1 hb2 (by decide) (by decide)
  have f0 : bits (603979776 + d * 524288 + a * 4096 + i) 0 12 = i := field38 (cl := 0) (ch := 147456) rfl hb0 hb1 hb2 (by decide)
  have f1 : bits (603979776 + d * 524288 + a * 4096 + i) 12 7 = a := field39 (cl := 0) (ch := 1152) rfl hb0 hb1 hb2 (by decide)
  have f2 : bits (603979776 + d * 524288 + a * 4096 + i) 19 7 = d := field40 (cl := 0) (ch := 9) rfl hb0 hb1 hb2 (by decide)
  refine decode_of_one (w := 603979776 + d * 524288 + a * 4096 + i) rfl m (by decide) (fun x => ?_) hwf
  rw [decodeMajor_09 _ m, decodeM09]
  simp only [f0, f1, f2, use, if_true, Nat.reduceAdd, Nat.zero_ne_one, Nat.one_ne_zero, if_false]

theorem shli (d : Nat) (a : Nat) (n : Nat) : Statement (.shli d a n) := by
  intro hwf _
  have hb : (d < 128 && a < 128 && n < 256) = true := hwf
  simp only [Bool.and_eq_true, decide_eq_true_eq] at hb
  obtain ⟨⟨hb0, hb1⟩, hb2⟩ := hb
  have m : bits (671088640 + d * 524288 + a * 4096 + n) 26 6 = 10 := field41 (cl := 0) (cm := 10) (ch := 0) rfl hb0 hb1 hb2 (by decide) (by decide)
  have f0 : bits (671088640 + d * 524288 + a * 4096 + n) 0 8 = n := field42 (cl := 0) (ch := 2621440) rfl hb0 hb1 hb2 (by decide)
  have f1 : bits (671088640 + d * 524288 + a * 4096 + n) 12 7 = a := field43 (cl := 0) (ch := 1280) rfl hb0 hb1 hb2 (by decide)
  have f2 : bits (671088640 + d * 524288 + a * 4096 + n) 19 7 = d := field44 (cl := 0) (ch := 10) rfl hb0 hb1 hb2 (by decide)
  have f3 : bits (671088640 + d * 524288 + a * 4096 + n) 8 4 = 0 := field45 (cl := 0) (cm := 0) (ch := 163840) rfl hb0 hb1 hb2 (by decide) (by decide)
  refine decode_of_one (w := 671088640 + d * 524288 + a * 4096 + n) rfl m (by decide) (fun x => ?_) hwf
  rw [decodeMajor_0A _ m, decodeM0A]
  simp only [f0, f1, f2, f3, use, if_true, Nat.reduceAdd, Nat.zero_ne_one, Nat.one_ne_zero, if_false]

theorem shri (d : Nat) (a : Nat) (n : Nat) : Statement (.shri d a n) := by
  intro hwf _
  have hb : (d < 128 && a < 128 && n < 256) = true := hwf
  simp only [Bool.and_eq_true, decide_eq_true_eq] at hb
  obtain ⟨⟨hb0, hb1⟩, hb2⟩ := hb
  have m : bits (671088896 + d * 524288 + a * 4096 + n) 26 6 = 10 := field41 (cl := 256) (cm := 10) (ch := 0) rfl hb0 hb1 hb2 (by decide) (by decide)
  have f0 : bits (671088896 + d * 524288 + a * 4096 + n) 0 8 = n := field42 (cl := 0) (ch := 2621441) rfl hb0 hb1 hb2 (by decide)
  have f1 : bits (671088896 + d * 524288 + a * 4096 + n) 12 7 = a := field43 (cl := 256) (ch := 1280) rfl hb0 hb1 hb2 (by decide)
  have f2 : bits (671088896 + d * 524288 + a * 4096 + n) 19 7 = d := field44 (cl := 256) (ch := 10) rfl hb0 hb1 hb2 (by decide)
  have f3 : bits (671088896 + d * 524288 + a * 4096 + n) 8 4 = 1 := field45 (cl := 0) (cm := 1) (ch := 163840) rfl hb0 hb1 hb2 (by decide) (by decide)
  refine decode_of_one (w := 671088896 + d * 524288 + a * 4096 + n) rfl m (by decide) (fun x => ?_) hwf
  rw [decodeMajor_0A _ m, decodeM0A]
  simp only [f0, f1, f2, f3, use, if_true, Nat.reduceAdd, Nat.zero_ne_one, Nat.one_ne_zero, if_false]

theorem sari (d : Nat) (a : Nat) (n : Nat) : Statement (.sari d a n) := by
  intro hwf _
  have hb : (d < 128 && a < 128 && n < 256) = true := hwf
  simp only [Bool.and_eq_true, decide_eq_true_eq] at hb
  obtain ⟨⟨hb0, hb1⟩, hb2⟩ := hb
  have m : bits (671089152 + d * 524288 + a * 4096 + n) 26 6 = 10 := field41 (cl := 512) (cm := 10) (ch := 0) rfl hb0 hb1 hb2 (by decide) (by decide)
  have f0 : bits (671089152 + d * 524288 + a * 4096 + n) 0 8 = n := field42 (cl := 0) (ch := 2621442) rfl hb0 hb1 hb2 (by decide)
  have f1 : bits (671089152 + d * 524288 + a * 4096 + n) 12 7 = a := field43 (cl := 512) (ch := 1280) rfl hb0 hb1 hb2 (by decide)
  have f2 : bits (671089152 + d * 524288 + a * 4096 + n) 19 7 = d := field44 (cl := 512) (ch := 10) rfl hb0 hb1 hb2 (by decide)
  have f3 : bits (671089152 + d * 524288 + a * 4096 + n) 8 4 = 2 := field45 (cl := 0) (cm := 2) (ch := 163840) rfl hb0 hb1 hb2 (by decide) (by decide)
  refine decode_of_one (w := 671089152 + d * 524288 + a * 4096 + n) rfl m (by decide) (fun x => ?_) hwf
  rw [decodeMajor_0A _ m, decodeM0A]
  simp only [f0, f1, f2, f3, use, if_true, Nat.reduceAdd, Nat.zero_ne_one, Nat.one_ne_zero, if_false]

theorem rori (d : Nat) (a : Nat) (n : Nat) : Statement (.rori d a n) := by
  intro hwf _
  have hb : (d < 128 && a < 128 && n < 256) = true := hwf
  simp only [Bool.and_eq_true, decide_eq_true_eq] at hb
  obtain ⟨⟨hb0, hb1⟩, hb2⟩ := hb
  have m : bits (671089408 + d * 524288 + a * 4096 + n) 26 6 = 10 := field41 (cl := 768) (cm := 10) (ch := 0) rfl hb0 hb1 hb2 (by decide) (by decide)
  have f0 : bits (671089408 + d * 524288 + a * 4096 + n) 0 8 = n := field42 (cl := 0) (ch := 2621443) rfl hb0 hb1 hb2 (by decide)
  have f1 : bits (671089408 + d * 524288 + a * 4096 + n) 12 7 = a := field43 (cl := 768) (ch := 1280) rfl hb0 hb1 hb2 (by decide)
  have f2 : bits (671089408 + d * 524288 + a * 4096 + n) 19 7 = d := field44 (cl := 768) (ch := 10) rfl hb0 hb1 hb2 (by decide)
  have f3 : bits (671089408 + d * 524288 + a * 4096 + n) 8 4 = 3 := field45 (cl := 0) (cm := 3) (ch := 163840) rfl hb0 hb1 hb2 (by decide) (by decide)
  refine decode_of_one (w := 671089408 + d * 524288 + a * 4096 + n) rfl m (by decide) (fun x => ?_) hwf
  rw [decodeMajor_0A _ m, decodeM0A]
  simp only [f0, f1, f2, f3, use, if_true, Nat.reduceAdd, Nat.zero_ne_one, Nat.one_ne_zero, if_false]

theorem bfx (d : Nat) (a : Nat) (p : Nat) (l : Nat) : Statement (.bfx d a p l) := by
  intro hwf _
  have hb : (d < 128 && a < 128 && p < 64 && l < 64 && p + l < 64) = true := hwf
  simp only [Bool.and_eq_true, decide_eq_true_eq] at hb
  obtain ⟨⟨⟨⟨hb0, hb1⟩, hb2⟩, hb3⟩, hb4⟩ := hb
  have m : bits (738197504 + d * 524288 + a * 4096 + p * 64 + l) 26 6 = 11 := field46 (cl := 0) (cm := 11) (ch := 0) rfl hb0 hb1 hb2 hb3 (by decide) (by decide)
  have f0 : bits (738197504 + d * 524288 + a * 4096 + p * 64 + l) 0 6 = l := field47 (cl := 0) (ch := 11534336) rfl hb0 hb1 hb2 hb3 (by decide)
  have f1 : bits (738197504 + d * 524288 + a * 4096 + p * 64 + l) 12 7 = a := field48 (cl := 0) (ch := 1408) rfl hb0 hb1 hb2 hb3 (by decide)
  have f2 : bits (738197504 + d * 524288 + a * 4096 + p * 64 + l) 19 7 = d := field49 (cl := 0) (ch := 11) rfl hb0 hb1 hb2 hb3 (by decide)
  have f3 : bits (738197504 + d * 524288 + a * 4096 + p * 64 + l) 6 6 = p := field50 (cl := 0) (ch := 180224) rfl hb0 hb1 hb2 hb3 (by decide)
  refine decode_of_one (w := 738197504 + d * 524288 + a * 4096 + p * 64 + l) rfl m (by decide) (fun x => ?_) hwf
  rw [decodeMajor_0B _ m, decodeM0B]
  simp only [f0, f1, f2, f3, use, if_true, Nat.reduceAdd, Nat.zero_ne_one, Nat.one_ne_zero, if_false]

theorem bfi (d : Nat) (a : Nat) (p : Nat) (l : Nat) : Statement (.bfi d a p l) := by
  intro hwf _
  have hb : (d < 128 && a < 128 && p < 64 && l < 64 && p + l < 64) = true := hwf
  simp only [Bool.and_eq_true, decide_eq_true_eq] at hb
  obtain ⟨⟨⟨⟨hb0, hb1⟩, hb2⟩, hb3⟩, hb4⟩ := hb
  have m : bits (805306368 + d * 524288 + a * 4096 + p * 64 + l) 26 6 = 12 := field46 (cl := 0) (cm := 12) (ch := 0) rfl hb0 hb1 hb2 hb3 (by decide) (by decide)
  have f0 : bits (805306368 + d * 524288 + a * 4096 + p * 64 + l) 0 6 = l := field47 (cl := 0) (ch := 12582912) rfl hb0 hb1 hb2 hb3 (by decide)
  have f1 : bits (805306368 + d * 524288 + a * 4096 + p * 64 + l) 12 7 = a := field48 (cl := 0) (ch := 1536) rfl hb0 hb1 hb2 hb3 (by decide)
  have f2 : bits (805306368 + d * 524288 + a * 4096 + p * 64 + l) 19 7 = d := field49 (cl := 0) (ch := 12) rfl hb0 hb1 hb2 hb3 (by decide)
  have f3 : bits (805306368 + d * 524288 + a * 4096 + p * 64 + l) 6 6 = p := field50 (cl := 0) (ch := 196608) rfl hb0 hb1 hb2 hb3 (by decide)
  refine decode_of_one (w := 805306368 + d * 524288 + a * 4096 + p * 64 + l) rfl m (by decide) (fun x => ?_) hwf
  rw [decodeMajor_0C _ m, decodeM0C]
  simp only [f0, f1, f2, f3, use, if_true, Nat.reduceAdd, Nat.zero_ne_one, Nat.one_ne_zero, if_false]

theorem lim (d : Nat) (i : Nat) : Statement (.lim d i) := by
  intro hwf _
  have hb : (d < 128 && i < 524288) = true := hwf
  simp only [Bool.and_eq_true, decide_eq_true_eq] at hb
  obtain ⟨hb0, hb1⟩ := hb
  have m : bits (872415232 + d * 524288 + i) 26 6 = 13 := field51 (cl := 0) (cm := 13) (ch := 0) rfl hb0 hb1 (by decide) (by decide)
  have f0 : bits (872415232 + d * 524288 + i) 0 19 = i := field52 (cl := 0) (ch := 1664) rfl hb0 hb1 (by decide)
  have f1 : bits (872415232 + d * 524288 + i) 19 7 = d := field53 (cl := 0) (ch := 13) rfl hb0 hb1 (by decide)
  refine decode_of_one (w := 872415232 + d * 524288 + i) rfl m (by decide) (fun x => ?_) hwf
  rw [decodeMajor_0D _ m, decodeM0D]
  simp only [f0, f1, use, if_true, Nat.reduceAdd, Nat.zero_ne_one, Nat.one_ne_zero, if_false]

theorem limH (d : Nat) (k : Nat) (h : Nat) : Statement (.limH d k h) := by
  intro hwf _
  have hb : (d < 128 && k < 4 && h < 65536) = true := hwf
  simp only [Bool.and_eq_true, decide_eq_true_eq] at hb
  obtain ⟨⟨hb0, hb1⟩, hb2⟩ := hb
  have m : bits (939524096 + d * 524288 + k * 65536 + h) 26 6 = 14 := field54 (cl := 0) (cm := 14) (ch := 0) rfl hb0 hb1 hb2 (by decide) (by decide)
  have f0 : bits (939524096 + d * 524288 + k * 65536 + h) 0 16 = h := field55 (cl := 0) (ch := 14336) rfl hb0 hb1 hb2 (by decide)
  have f1 : bits (939524096 + d * 524288 + k * 65536 + h) 16 2 = k := field56 (cl := 0) (ch := 3584) rfl hb0 hb1 hb2 (by decide)
  have f2 : bits (939524096 + d * 524288 + k * 65536 + h) 18 1 = 0 := field57 (cl := 0) (cm := 0) (ch := 1792) rfl hb0 hb1 hb2 (by decide) (by decide)
  have f3 : bits (939524096 + d * 524288 + k * 65536 + h) 19 7 = d := field58 (cl := 0) (ch := 14) rfl hb0 hb1 hb2 (by decide)
  refine decode_of_one (w := 939524096 + d * 524288 + k * 65536 + h) rfl m (by decide) (fun x => ?_) hwf
  rw [decodeMajor_0E _ m, decodeM0E]
  simp only [f0, f1, f2, f3, use, if_true, Nat.reduceAdd, Nat.zero_ne_one, Nat.one_ne_zero, if_false]

theorem addpc (d : Nat) (i : Nat) : Statement (.addpc d i) := by
  intro hwf _
  have hb : (d < 128 && i < 524288) = true := hwf
  simp only [Bool.and_eq_true, decide_eq_true_eq] at hb
  obtain ⟨hb0, hb1⟩ := hb
  have m : bits (1006632960 + d * 524288 + i) 26 6 = 15 := field51 (cl := 0) (cm := 15) (ch := 0) rfl hb0 hb1 (by decide) (by decide)
  have f0 : bits (1006632960 + d * 524288 + i) 0 19 = i := field52 (cl := 0) (ch := 1920) rfl hb0 hb1 (by decide)
  have f1 : bits (1006632960 + d * 524288 + i) 19 7 = d := field53 (cl := 0) (ch := 15) rfl hb0 hb1 (by decide)
  refine decode_of_one (w := 1006632960 + d * 524288 + i) rfl m (by decide) (fun x => ?_) hwf
  rw [decodeMajor_0F _ m, decodeM0F]
  simp only [f0, f1, use, if_true, Nat.reduceAdd, Nat.zero_ne_one, Nat.one_ne_zero, if_false]

theorem cmp (p : Nat) (c : Nat) (a : Nat) (b : Nat) (s : Nat) : Statement (.cmp p c a b s) := by
  intro hwf _
  have hb : (p < 16 && c < 16 && a < 128 && b < 128 && s < 4 && c < 12) = true := hwf
  simp only [Bool.and_eq_true, decide_eq_true_eq] at hb
  obtain ⟨⟨⟨⟨⟨hb0, hb1⟩, hb2⟩, hb3⟩, hb4⟩, hb5⟩ := hb
  have m : bits (1073741824 + p * 4194304 + c * 262144 + a * 2048 + b * 16 + s) 26 6 = 16 := field59 (cl := 0) (cm := 16) (ch := 0) rfl hb0 hb1 hb2 hb3 hb4 (by decide) (by decide)
  have f0 : bits (1073741824 + p * 4194304 + c * 262144 + a * 2048 + b * 16 + s) 0 2 = s := field60 (cl := 0) (ch := 268435456) rfl hb0 hb1 hb2 hb3 hb4 (by decide)
  have f1 : bits (1073741824 + p * 4194304 + c * 262144 + a * 2048 + b * 16 + s) 11 7 = a := field61 (cl := 0) (ch := 4096) rfl hb0 hb1 hb2 hb3 hb4 (by decide)
  have f2 : bits (1073741824 + p * 4194304 + c * 262144 + a * 2048 + b * 16 + s) 18 4 = c := field62 (cl := 0) (ch := 256) rfl hb0 hb1 hb2 hb3 hb4 (by decide)
  have f3 : bits (1073741824 + p * 4194304 + c * 262144 + a * 2048 + b * 16 + s) 2 2 = 0 := field63 (cl := 0) (cm := 0) (ch := 67108864) rfl hb0 hb1 hb2 hb3 hb4 (by decide) (by decide)
  have f4 : bits (1073741824 + p * 4194304 + c * 262144 + a * 2048 + b * 16 + s) 22 4 = p := field64 (cl := 0) (ch := 16) rfl hb0 hb1 hb2 hb3 hb4 (by decide)
  have f5 : bits (1073741824 + p * 4194304 + c * 262144 + a * 2048 + b * 16 + s) 4 7 = b := field65 (cl := 0) (ch := 524288) rfl hb0 hb1 hb2 hb3 hb4 (by decide)
  refine decode_of_one (w := 1073741824 + p * 4194304 + c * 262144 + a * 2048 + b * 16 + s) rfl m (by decide) (fun x => ?_) hwf
  rw [decodeMajor_10 _ m, decodeM10]
  simp only [f0, f1, f2, f3, f4, f5, use, if_true, Nat.reduceAdd, Nat.zero_ne_one, Nat.one_ne_zero, if_false]

theorem cmpi (p : Nat) (c : Nat) (a : Nat) (i : Nat) : Statement (.cmpi p c a i) := by
  intro hwf _
  have hb : (p < 16 && c < 16 && a < 128 && i < 2048 && c < 12) = true := hwf
  simp only [Bool.and_eq_true, decide_eq_true_eq] at hb
  obtain ⟨⟨⟨⟨hb0, hb1⟩, hb2⟩, hb3⟩, hb4⟩ := hb
  have m : bits (1140850688 + p * 4194304 + c * 262144 + a * 2048 + i) 26 6 = 17 := field66 (cl := 0) (cm := 17) (ch := 0) rfl hb0 hb1 hb2 hb3 (by decide) (by decide)
  have f0 : bits (1140850688 + p * 4194304 + c * 262144 + a * 2048 + i) 0 11 = i := field67 (cl := 0) (ch := 557056) rfl hb0 hb1 hb2 hb3 (by decide)
  have f1 : bits (1140850688 + p * 4194304 + c * 262144 + a * 2048 + i) 11 7 = a := field68 (cl := 0) (ch := 4352) rfl hb0 hb1 hb2 hb3 (by decide)
  have f2 : bits (1140850688 + p * 4194304 + c * 262144 + a * 2048 + i) 18 4 = c := field69 (cl := 0) (ch := 272) rfl hb0 hb1 hb2 hb3 (by decide)
  have f3 : bits (1140850688 + p * 4194304 + c * 262144 + a * 2048 + i) 22 4 = p := field70 (cl := 0) (ch := 17) rfl hb0 hb1 hb2 hb3 (by decide)
  refine decode_of_one (w := 1140850688 + p * 4194304 + c * 262144 + a * 2048 + i) rfl m (by decide) (fun x => ?_) hwf
  rw [decodeMajor_11 _ m, decodeM11]
  simp only [f0, f1, f2, f3, use, if_true, Nat.reduceAdd, Nat.zero_ne_one, Nat.one_ne_zero, if_false]

theorem plog (p : Nat) (c : Nat) (x : Nat) (y : Nat) : Statement (.plog p c x y) := by
  intro hwf _
  have hb : (p < 16 && c < 8 && x < 16 && y < 16) = true := hwf
  simp only [Bool.and_eq_true, decide_eq_true_eq] at hb
  obtain ⟨⟨⟨hb0, hb1⟩, hb2⟩, hb3⟩ := hb
  have m : bits (1207959552 + p * 4194304 + c * 262144 + x * 2048 + y * 16) 26 6 = 18 := field71 (cl := 0) (cm := 18) (ch := 0) rfl hb0 hb1 hb2 hb3 (by decide) (by decide)
  have f0 : bits (1207959552 + p * 4194304 + c * 262144 + x * 2048 + y * 16) 0 4 = 0 := field72 (cl := 0) (cm := 0) (ch := 75497472) rfl hb0 hb1 hb2 hb3 (by decide) (by decide)
  have f1 : bits (1207959552 + p * 4194304 + c * 262144 + x * 2048 + y * 16) 11 4 = x := field73 (cl := 0) (ch := 36864) rfl hb0 hb1 hb2 hb3 (by decide)
  have f2 : bits (1207959552 + p * 4194304 + c * 262144 + x * 2048 + y * 16) 15 3 = 0 := field74 (cl := 0) (cm := 0) (ch := 4608) rfl hb0 hb1 hb2 hb3 (by decide) (by decide)
  have f3 : bits (1207959552 + p * 4194304 + c * 262144 + x * 2048 + y * 16) 18 3 = c := field75 (cl := 0) (ch := 576) rfl hb0 hb1 hb2 hb3 (by decide)
  have f4 : bits (1207959552 + p * 4194304 + c * 262144 + x * 2048 + y * 16) 21 1 = 0 := field76 (cl := 0) (cm := 0) (ch := 288) rfl hb0 hb1 hb2 hb3 (by decide) (by decide)
  have f5 : bits (1207959552 + p * 4194304 + c * 262144 + x * 2048 + y * 16) 22 4 = p := field77 (cl := 0) (ch := 18) rfl hb0 hb1 hb2 hb3 (by decide)
  have f6 : bits (1207959552 + p * 4194304 + c * 262144 + x * 2048 + y * 16) 4 4 = y := field78 (cl := 0) (ch := 4718592) rfl hb0 hb1 hb2 hb3 (by decide)
  have f7 : bits (1207959552 + p * 4194304 + c * 262144 + x * 2048 + y * 16) 8 3 = 0 := field79 (cl := 0) (cm := 0) (ch := 589824) rfl hb0 hb1 hb2 hb3 (by decide) (by decide)
  refine decode_of_one (w := 1207959552 + p * 4194304 + c * 262144 + x * 2048 + y * 16) rfl m (by decide) (fun x => ?_) hwf
  rw [decodeMajor_12 _ m, decodeM12]
  simp only [f0, f1, f2, f3, f4, f5, f6, f7, use, if_true, Nat.reduceAdd, Nat.zero_ne_one, Nat.one_ne_zero, if_false]

theorem b (n : Nat) (p : Nat) (o : Nat) : Statement (.b n p o) := by
  intro hwf _
  have hb : (n < 2 && p < 16 && o < 2097152 && !(n == 1 && p == 15)) = true := hwf
  simp only [Bool.and_eq_true, decide_eq_true_eq] at hb
  obtain ⟨⟨⟨hb0, hb1⟩, hb2⟩, hb3⟩ := hb
  have m : bits (1275068416 + n * 33554432 + p * 2097152 + o) 26 6 = 19 := field80 (cl := 0) (cm := 19) (ch := 0) rfl hb0 hb1 hb2 (by decide) (by decide)
  have f0 : bits (1275068416 + n * 33554432 + p * 2097152 + o) 0 21 = o := field81 (cl := 0) (ch := 608) rfl hb0 hb1 hb2 (by decide)
  have f1 : bits (1275068416 + n * 33554432 + p * 2097152 + o) 21 4 = p := field82 (cl := 0) (ch := 38) rfl hb0 hb1 hb2 (by decide)
  have f2 : bits (1275068416 + n * 33554432 + p * 2097152 + o) 25 1 = n := field83 (cl := 0) (ch := 19) rfl hb0 hb1 hb2 (by decide)
  refine decode_of_one (w := 1275068416 + n * 33554432 + p * 2097152 + o) rfl m (by decide) (fun x => ?_) hwf
  rw [decodeMajor_13 _ m, decodeM13]
  simp only [f0, f1, f2, use, if_true, Nat.reduceAdd, Nat.zero_ne_one, Nat.one_ne_zero, if_false]

theorem j (o : Nat) : Statement (.j o) := by
  intro hwf _
  have hb : decide (o < 67108864) = true := hwf
  simp only [Bool.and_eq_true, decide_eq_true_eq] at hb
  have hb0 := hb
  have m : bits (1342177280 + o) 26 6 = 20 := field84 (cl := 0) (cm := 20) (ch := 0) rfl hb0 (by decide) (by decide)
  have f0 : bits (1342177280 + o) 0 26 = o := field85 (cl := 0) (ch := 20) rfl hb0 (by decide)
  refine decode_of_one (w := 1342177280 + o) rfl m (by decide) (fun x => ?_) hwf
  rw [decodeMajor_14 _ m, decodeM14]
  simp only [f0, use, if_true, Nat.reduceAdd, Nat.zero_ne_one, Nat.one_ne_zero, if_false]

theorem call (o : Nat) : Statement (.call o) := by
  intro hwf _
  have hb : decide (o < 67108864) = true := hwf
  simp only [Bool.and_eq_true, decide_eq_true_eq] at hb
  have hb0 := hb
  have m : bits (1409286144 + o) 26 6 = 21 := field84 (cl := 0) (cm := 21) (ch := 0) rfl hb0 (by decide) (by decide)
  have f0 : bits (1409286144 + o) 0 26 = o := field85 (cl := 0) (ch := 21) rfl hb0 (by decide)
  refine decode_of_one (w := 1409286144 + o) rfl m (by decide) (fun x => ?_) hwf
  rw [decodeMajor_15 _ m, decodeM15]
  simp only [f0, use, if_true, Nat.reduceAdd, Nat.zero_ne_one, Nat.one_ne_zero, if_false]

theorem callr (a : Nat) : Statement (.callr a) := by
  intro hwf _
  have hb : decide (a < 128) = true := hwf
  simp only [Bool.and_eq_true, decide_eq_true_eq] at hb
  have hb0 := hb
  have m : bits (1476395008 + a * 4096) 26 6 = 22 := field26 (cl := 0) (cm := 22) (ch := 0) rfl hb0 (by decide) (by decide)
  have f0 : bits (1476395008 + a * 4096) 0 5 = 0 := field27 (cl := 0) (cm := 0) (ch := 46137344) rfl hb0 (by decide) (by decide)
  have f1 : bits (1476395008 + a * 4096) 12 7 = a := field28 (cl := 0) (ch := 2816) rfl hb0 (by decide)
  have f2 : bits (1476395008 + a * 4096) 19 7 = 0 := field29 (cl := 0) (cm := 0) (ch := 22) rfl hb0 (by decide) (by decide)
  have f3 : bits (1476395008 + a * 4096) 5 7 = 0 := field30 (cl := 0) (cm := 0) (ch := 360448) rfl hb0 (by decide) (by decide)
  refine decode_of_one (w := 1476395008 + a * 4096) rfl m (by decide) (fun x => ?_) hwf
  rw [decodeMajor_16 _ m, decodeM16]
  simp only [f0, f1, f2, f3, use, if_true, Nat.reduceAdd, Nat.zero_ne_one, Nat.one_ne_zero, if_false]

theorem jr (a : Nat) : Statement (.jr a) := by
  intro hwf _
  have hb : decide (a < 128) = true := hwf
  simp only [Bool.and_eq_true, decide_eq_true_eq] at hb
  have hb0 := hb
  have m : bits (1476395009 + a * 4096) 26 6 = 22 := field26 (cl := 1) (cm := 22) (ch := 0) rfl hb0 (by decide) (by decide)
  have f0 : bits (1476395009 + a * 4096) 0 5 = 1 := field27 (cl := 0) (cm := 1) (ch := 46137344) rfl hb0 (by decide) (by decide)
  have f1 : bits (1476395009 + a * 4096) 12 7 = a := field28 (cl := 1) (ch := 2816) rfl hb0 (by decide)
  have f2 : bits (1476395009 + a * 4096) 19 7 = 0 := field29 (cl := 1) (cm := 0) (ch := 22) rfl hb0 (by decide) (by decide)
  have f3 : bits (1476395009 + a * 4096) 5 7 = 0 := field30 (cl := 1) (cm := 0) (ch := 360448) rfl hb0 (by decide) (by decide)
  refine decode_of_one (w := 1476395009 + a * 4096) rfl m (by decide) (fun x => ?_) hwf
  rw [decodeMajor_16 _ m, decodeM16]
  simp only [f0, f1, f2, f3, use, if_true, Nat.reduceAdd, Nat.zero_ne_one, Nat.one_ne_zero, if_false]

theorem ret : Statement (.ret) := by
  intro hwf _
  have m : bits (1476395010) 26 6 = 22 := field86 (cl := 2) (cm := 22) (ch := 0) rfl (by decide) (by decide)
  have f0 : bits (1476395010) 0 5 = 2 := field87 (cl := 0) (cm := 2) (ch := 46137344) rfl (by decide) (by decide)
  have f1 : bits (1476395010) 5 21 = 0 := field88 (cl := 2) (cm := 0) (ch := 22) rfl (by decide) (by decide)
  refine decode_of_one (w := 1476395010) rfl m (by decide) (fun x => ?_) hwf
  rw [decodeMajor_16 _ m, decodeM16]
  simp only [f0, f1, use, if_true, Nat.reduceAdd, Nat.zero_ne_one, Nat.one_ne_zero, if_false]

theorem objset (a : Nat) (b : Nat) : Statement (.objset a b) := by
  intro hwf _
  have hb : (a < 128 && b < 128) = true := hwf
  simp only [Bool.and_eq_true, decide_eq_true_eq] at hb
  obtain ⟨hb0, hb1⟩ := hb
  have m : bits (1476395011 + a * 4096 + b * 32) 26 6 = 22 := field89 (cl := 3) (cm := 22) (ch := 0) rfl hb0 hb1 (by decide) (by decide)
  have f0 : bits (1476395011 + a * 4096 + b * 32) 0 5 = 3 := field90 (cl := 0) (cm := 3) (ch := 46137344) rfl hb0 hb1 (by decide) (by decide)
  have f1 : bits (1476395011 + a * 4096 + b * 32) 12 7 = a := field91 (cl := 3) (ch := 2816) rfl hb0 hb1 (by decide)
  have f2 : bits (1476395011 + a * 4096 + b * 32) 19 7 = 0 := field92 (cl := 3) (cm := 0) (ch := 22) rfl hb0 hb1 (by decide) (by decide)
  have f3 : bits (1476395011 + a * 4096 + b * 32) 5 7 = b := field93 (cl := 3) (ch := 360448) rfl hb0 hb1 (by decide)
  refine decode_of_one (w := 1476395011 + a * 4096 + b * 32) rfl m (by decide) (fun x => ?_) hwf
  rw [decodeMajor_16 _ m, decodeM16]
  simp only [f0, f1, f2, f3, use, if_true, Nat.reduceAdd, Nat.zero_ne_one, Nat.one_ne_zero, if_false]

theorem mfs (d : Nat) (s : Nat) : Statement (.mfs d s) := by
  intro hwf _
  have hb : (d < 128 && s < 4096 && assignedSys s) = true := hwf
  simp only [Bool.and_eq_true, decide_eq_true_eq] at hb
  obtain ⟨⟨hb0, hb1⟩, hb2⟩ := hb
  have m : bits (1543503872 + d * 524288 + s * 128) 26 6 = 23 := field94 (cl := 0) (cm := 23) (ch := 0) rfl hb0 hb1 (by decide) (by decide)
  have f0 : bits (1543503872 + d * 524288 + s * 128) 0 7 = 0 := field95 (cl := 0) (cm := 0) (ch := 12058624) rfl hb0 hb1 (by decide) (by decide)
  have f1 : bits (1543503872 + d * 524288 + s * 128) 19 7 = d := field96 (cl := 0) (ch := 23) rfl hb0 hb1 (by decide)
  have f2 : bits (1543503872 + d * 524288 + s * 128) 7 12 = s := field97 (cl := 0) (ch := 2944) rfl hb0 hb1 (by decide)
  refine decode_of_one (w := 1543503872 + d * 524288 + s * 128) rfl m (by decide) (fun x => ?_) hwf
  rw [decodeMajor_17 _ m, decodeM17]
  simp only [f0, f1, f2, use, if_true, Nat.reduceAdd, Nat.zero_ne_one, Nat.one_ne_zero, if_false]

theorem mts (d : Nat) (s : Nat) : Statement (.mts d s) := by
  intro hwf _
  have hb : (d < 128 && s < 4096 && assignedSys s && !ownSys s) = true := hwf
  simp only [Bool.and_eq_true, decide_eq_true_eq] at hb
  obtain ⟨⟨⟨hb0, hb1⟩, hb2⟩, hb3⟩ := hb
  simp only [ownSys, Bool.not_eq_true', Bool.or_eq_false_iff, beq_eq_false_iff_ne] at hb3
  have m : bits (1543503873 + d * 524288 + s * 128) 26 6 = 23 := field94 (cl := 1) (cm := 23) (ch := 0) rfl hb0 hb1 (by decide) (by decide)
  have f0 : bits (1543503873 + d * 524288 + s * 128) 0 7 = 1 := field95 (cl := 0) (cm := 1) (ch := 12058624) rfl hb0 hb1 (by decide) (by decide)
  have f1 : bits (1543503873 + d * 524288 + s * 128) 19 7 = d := field96 (cl := 1) (ch := 23) rfl hb0 hb1 (by decide)
  have f2 : bits (1543503873 + d * 524288 + s * 128) 7 12 = s := field97 (cl := 1) (ch := 2944) rfl hb0 hb1 (by decide)
  refine decode_of_one (w := 1543503873 + d * 524288 + s * 128) rfl m (by decide) (fun x => ?_) hwf
  rw [decodeMajor_17 _ m, decodeM17]
  simp only [f0, f1, f2]
  split <;> first | omega | rfl

theorem mtsPortmap (d : Nat) : Statement (.mtsPortmap d) := by
  intro hwf _
  have hb : decide (d < 128) = true := hwf
  simp only [Bool.and_eq_true, decide_eq_true_eq] at hb
  have hb0 := hb
  have m : bits (1543504257 + d * 524288) 26 6 = 23 := field22 (cl := 385) (cm := 23) (ch := 0) rfl hb0 (by decide) (by decide)
  have f0 : bits (1543504257 + d * 524288) 0 7 = 1 := field98 (cl := 0) (cm := 1) (ch := 12058627) rfl hb0 (by decide) (by decide)
  have f1 : bits (1543504257 + d * 524288) 19 7 = d := field24 (cl := 385) (ch := 23) rfl hb0 (by decide)
  have f2 : bits (1543504257 + d * 524288) 7 12 = 3 := field99 (cl := 1) (cm := 3) (ch := 2944) rfl hb0 (by decide) (by decide)
  refine decode_of_one (w := 1543504257 + d * 524288) rfl m (by decide) (fun x => ?_) hwf
  rw [decodeMajor_17 _ m, decodeM17]
  simp only [f0, f1, f2, use, if_true, Nat.reduceAdd, Nat.zero_ne_one, Nat.one_ne_zero, if_false]

theorem mtsVl (d : Nat) : Statement (.mtsVl d) := by
  intro hwf _
  have hb : decide (d < 128) = true := hwf
  simp only [Bool.and_eq_true, decide_eq_true_eq] at hb
  have hb0 := hb
  have m : bits (1543504897 + d * 524288) 26 6 = 23 := field22 (cl := 1025) (cm := 23) (ch := 0) rfl hb0 (by decide) (by decide)
  have f0 : bits (1543504897 + d * 524288) 0 7 = 1 := field98 (cl := 0) (cm := 1) (ch := 12058632) rfl hb0 (by decide) (by decide)
  have f1 : bits (1543504897 + d * 524288) 19 7 = d := field24 (cl := 1025) (ch := 23) rfl hb0 (by decide)
  have f2 : bits (1543504897 + d * 524288) 7 12 = 8 := field99 (cl := 1) (cm := 8) (ch := 2944) rfl hb0 (by decide) (by decide)
  refine decode_of_one (w := 1543504897 + d * 524288) rfl m (by decide) (fun x => ?_) hwf
  rw [decodeMajor_17 _ m, decodeM17]
  simp only [f0, f1, f2, use, if_true, Nat.reduceAdd, Nat.zero_ne_one, Nat.one_ne_zero, if_false]

theorem mtsFpstat (d : Nat) : Statement (.mtsFpstat d) := by
  intro hwf _
  have hb : decide (d < 128) = true := hwf
  simp only [Bool.and_eq_true, decide_eq_true_eq] at hb
  have hb0 := hb
  have m : bits (1543504641 + d * 524288) 26 6 = 23 := field22 (cl := 769) (cm := 23) (ch := 0) rfl hb0 (by decide) (by decide)
  have f0 : bits (1543504641 + d * 524288) 0 7 = 1 := field98 (cl := 0) (cm := 1) (ch := 12058630) rfl hb0 (by decide) (by decide)
  have f1 : bits (1543504641 + d * 524288) 19 7 = d := field24 (cl := 769) (ch := 23) rfl hb0 (by decide)
  have f2 : bits (1543504641 + d * 524288) 7 12 = 6 := field99 (cl := 1) (cm := 6) (ch := 2944) rfl hb0 (by decide) (by decide)
  refine decode_of_one (w := 1543504641 + d * 524288) rfl m (by decide) (fun x => ?_) hwf
  rw [decodeMajor_17 _ m, decodeM17]
  simp only [f0, f1, f2, use, if_true, Nat.reduceAdd, Nat.zero_ne_one, Nat.one_ne_zero, if_false]

theorem mtsRndseed (d : Nat) : Statement (.mtsRndseed d) := by
  intro hwf _
  have hb : decide (d < 128) = true := hwf
  simp only [Bool.and_eq_true, decide_eq_true_eq] at hb
  have hb0 := hb
  have m : bits (1543504769 + d * 524288) 26 6 = 23 := field22 (cl := 897) (cm := 23) (ch := 0) rfl hb0 (by decide) (by decide)
  have f0 : bits (1543504769 + d * 524288) 0 7 = 1 := field98 (cl := 0) (cm := 1) (ch := 12058631) rfl hb0 (by decide) (by decide)
  have f1 : bits (1543504769 + d * 524288) 19 7 = d := field24 (cl := 897) (ch := 23) rfl hb0 (by decide)
  have f2 : bits (1543504769 + d * 524288) 7 12 = 7 := field99 (cl := 1) (cm := 7) (ch := 2944) rfl hb0 (by decide) (by decide)
  refine decode_of_one (w := 1543504769 + d * 524288) rfl m (by decide) (fun x => ?_) hwf
  rw [decodeMajor_17 _ m, decodeM17]
  simp only [f0, f1, f2, use, if_true, Nat.reduceAdd, Nat.zero_ne_one, Nat.one_ne_zero, if_false]

theorem mtsCarve (d : Nat) : Statement (.mtsCarve d) := by
  intro hwf _
  have hb : decide (d < 128) = true := hwf
  simp only [Bool.and_eq_true, decide_eq_true_eq] at hb
  have hb0 := hb
  have m : bits (1543507969 + d * 524288) 26 6 = 23 := field22 (cl := 4097) (cm := 23) (ch := 0) rfl hb0 (by decide) (by decide)
  have f0 : bits (1543507969 + d * 524288) 0 7 = 1 := field98 (cl := 0) (cm := 1) (ch := 12058656) rfl hb0 (by decide) (by decide)
  have f1 : bits (1543507969 + d * 524288) 19 7 = d := field24 (cl := 4097) (ch := 23) rfl hb0 (by decide)
  have f2 : bits (1543507969 + d * 524288) 7 12 = 32 := field99 (cl := 1) (cm := 32) (ch := 2944) rfl hb0 (by decide) (by decide)
  refine decode_of_one (w := 1543507969 + d * 524288) rfl m (by decide) (fun x => ?_) hwf
  rw [decodeMajor_17 _ m, decodeM17]
  simp only [f0, f1, f2, use, if_true, Nat.reduceAdd, Nat.zero_ne_one, Nat.one_ne_zero, if_false]

theorem mtsLandn (d : Nat) : Statement (.mtsLandn d) := by
  intro hwf _
  have hb : decide (d < 128) = true := hwf
  simp only [Bool.and_eq_true, decide_eq_true_eq] at hb
  have hb0 := hb
  have m : bits (1543508225 + d * 524288) 26 6 = 23 := field22 (cl := 4353) (cm := 23) (ch := 0) rfl hb0 (by decide) (by decide)
  have f0 : bits (1543508225 + d * 524288) 0 7 = 1 := field98 (cl := 0) (cm := 1) (ch := 12058658) rfl hb0 (by decide) (by decide)
  have f1 : bits (1543508225 + d * 524288) 19 7 = d := field24 (cl := 4353) (ch := 23) rfl hb0 (by decide)
  have f2 : bits (1543508225 + d * 524288) 7 12 = 34 := field99 (cl := 1) (cm := 34) (ch := 2944) rfl hb0 (by decide) (by decide)
  refine decode_of_one (w := 1543508225 + d * 524288) rfl m (by decide) (fun x => ?_) hwf
  rw [decodeMajor_17 _ m, decodeM17]
  simp only [f0, f1, f2, use, if_true, Nat.reduceAdd, Nat.zero_ne_one, Nat.one_ne_zero, if_false]

theorem trap (c : Nat) : Statement (.trap c) := by
  intro hwf _
  have hb : decide (c < 4096) = true := hwf
  simp only [Bool.and_eq_true, decide_eq_true_eq] at hb
  have hb0 := hb
  have m : bits (1543503874 + c * 128) 26 6 = 23 := field100 (cl := 2) (cm := 23) (ch := 0) rfl hb0 (by decide) (by decide)
  have f0 : bits (1543503874 + c * 128) 0 7 = 2 := field101 (cl := 0) (cm := 2) (ch := 12058624) rfl hb0 (by decide) (by decide)
  have f1 : bits (1543503874 + c * 128) 19 7 = 0 := field102 (cl := 2) (cm := 0) (ch := 23) rfl hb0 (by decide) (by decide)
  have f2 : bits (1543503874 + c * 128) 7 12 = c := field103 (cl := 2) (ch := 2944) rfl hb0 (by decide)
  refine decode_of_one (w := 1543503874 + c * 128) rfl m (by decide) (fun x => ?_) hwf
  rw [decodeMajor_17 _ m, decodeM17]
  simp only [f0, f1, f2, use, if_true, Nat.reduceAdd, Nat.zero_ne_one, Nat.one_ne_zero, if_false]

theorem svc (c : Nat) : Statement (.svc c) := by
  intro hwf _
  have hb : (c < 4096 && !ownSvc c) = true := hwf
  simp only [Bool.and_eq_true, decide_eq_true_eq] at hb
  obtain ⟨hb0, hb1⟩ := hb
  simp only [ownSvc, Bool.not_eq_true', Bool.or_eq_false_iff, beq_eq_false_iff_ne] at hb1
  have m : bits (1543503875 + c * 128) 26 6 = 23 := field100 (cl := 3) (cm := 23) (ch := 0) rfl hb0 (by decide) (by decide)
  have f0 : bits (1543503875 + c * 128) 0 7 = 3 := field101 (cl := 0) (cm := 3) (ch := 12058624) rfl hb0 (by decide) (by decide)
  have f1 : bits (1543503875 + c * 128) 19 7 = 0 := field102 (cl := 3) (cm := 0) (ch := 23) rfl hb0 (by decide) (by decide)
  have f2 : bits (1543503875 + c * 128) 7 12 = c := field103 (cl := 3) (ch := 2944) rfl hb0 (by decide)
  refine decode_of_one (w := 1543503875 + c * 128) rfl m (by decide) (fun x => ?_) hwf
  rw [decodeMajor_17 _ m, decodeM17]
  simp only [f0, f1, f2]
  split <;> first | omega | rfl

theorem svcSetCarve : Statement (.svcSetCarve) := by
  intro hwf _
  have m : bits (1543504003) 26 6 = 23 := field86 (cl := 131) (cm := 23) (ch := 0) rfl (by decide) (by decide)
  have f0 : bits (1543504003) 0 7 = 3 := field104 (cl := 0) (cm := 3) (ch := 12058625) rfl (by decide) (by decide)
  have f1 : bits (1543504003) 19 7 = 0 := field105 (cl := 131) (cm := 0) (ch := 23) rfl (by decide) (by decide)
  have f2 : bits (1543504003) 7 12 = 1 := field106 (cl := 3) (cm := 1) (ch := 2944) rfl (by decide) (by decide)
  refine decode_of_one (w := 1543504003) rfl m (by decide) (fun x => ?_) hwf
  rw [decodeMajor_17 _ m, decodeM17]
  simp only [f0, f1, f2, use, if_true, Nat.reduceAdd, Nat.zero_ne_one, Nat.one_ne_zero, if_false]

theorem svcSetVgroup : Statement (.svcSetVgroup) := by
  intro hwf _
  have m : bits (1543504131) 26 6 = 23 := field86 (cl := 259) (cm := 23) (ch := 0) rfl (by decide) (by decide)
  have f0 : bits (1543504131) 0 7 = 3 := field104 (cl := 0) (cm := 3) (ch := 12058626) rfl (by decide) (by decide)
  have f1 : bits (1543504131) 19 7 = 0 := field105 (cl := 259) (cm := 0) (ch := 23) rfl (by decide) (by decide)
  have f2 : bits (1543504131) 7 12 = 2 := field106 (cl := 3) (cm := 2) (ch := 2944) rfl (by decide) (by decide)
  refine decode_of_one (w := 1543504131) rfl m (by decide) (fun x => ?_) hwf
  rw [decodeMajor_17 _ m, decodeM17]
  simp only [f0, f1, f2, use, if_true, Nat.reduceAdd, Nat.zero_ne_one, Nat.one_ne_zero, if_false]

theorem svcSetLandn : Statement (.svcSetLandn) := by
  intro hwf _
  have m : bits (1543504259) 26 6 = 23 := field86 (cl := 387) (cm := 23) (ch := 0) rfl (by decide) (by decide)
  have f0 : bits (1543504259) 0 7 = 3 := field104 (cl := 0) (cm := 3) (ch := 12058627) rfl (by decide) (by decide)
  have f1 : bits (1543504259) 19 7 = 0 := field105 (cl := 387) (cm := 0) (ch := 23) rfl (by decide) (by decide)
  have f2 : bits (1543504259) 7 12 = 3 := field106 (cl := 3) (cm := 3) (ch := 2944) rfl (by decide) (by decide)
  refine decode_of_one (w := 1543504259) rfl m (by decide) (fun x => ?_) hwf
  rw [decodeMajor_17 _ m, decodeM17]
  simp only [f0, f1, f2, use, if_true, Nat.reduceAdd, Nat.zero_ne_one, Nat.one_ne_zero, if_false]

theorem svcSetAccmap : Statement (.svcSetAccmap) := by
  intro hwf _
  have m : bits (1543504387) 26 6 = 23 := field86 (cl := 515) (cm := 23) (ch := 0) rfl (by decide) (by decide)
  have f0 : bits (1543504387) 0 7 = 3 := field104 (cl := 0) (cm := 3) (ch := 12058628) rfl (by decide) (by decide)
  have f1 : bits (1543504387) 19 7 = 0 := field105 (cl := 515) (cm := 0) (ch := 23) rfl (by decide) (by decide)
  have f2 : bits (1543504387) 7 12 = 4 := field106 (cl := 3) (cm := 4) (ch := 2944) rfl (by decide) (by decide)
  refine decode_of_one (w := 1543504387) rfl m (by decide) (fun x => ?_) hwf
  rw [decodeMajor_17 _ m, decodeM17]
  simp only [f0, f1, f2, use, if_true, Nat.reduceAdd, Nat.zero_ne_one, Nat.one_ne_zero, if_false]

theorem svcLaunch : Statement (.svcLaunch) := by
  intro hwf _
  have m : bits (1543536643) 26 6 = 23 := field86 (cl := 32771) (cm := 23) (ch := 0) rfl (by decide) (by decide)
  have f0 : bits (1543536643) 0 7 = 3 := field104 (cl := 0) (cm := 3) (ch := 12058880) rfl (by decide) (by decide)
  have f1 : bits (1543536643) 19 7 = 0 := field105 (cl := 32771) (cm := 0) (ch := 23) rfl (by decide) (by decide)
  have f2 : bits (1543536643) 7 12 = 256 := field106 (cl := 3) (cm := 256) (ch := 2944) rfl (by decide) (by decide)
  refine decode_of_one (w := 1543536643) rfl m (by decide) (fun x => ?_) hwf
  rw [decodeMajor_17 _ m, decodeM17]
  simp only [f0, f1, f2, use, if_true, Nat.reduceAdd, Nat.zero_ne_one, Nat.one_ne_zero, if_false]

theorem eret (d : Nat) : Statement (.eret d) := by
  intro hwf _
  have hb : decide (d < 128) = true := hwf
  simp only [Bool.and_eq_true, decide_eq_true_eq] at hb
  have hb0 := hb
  have m : bits (1543503876 + d * 524288) 26 6 = 23 := field22 (cl := 4) (cm := 23) (ch := 0) rfl hb0 (by decide) (by decide)
  have f0 : bits (1543503876 + d * 524288) 0 7 = 4 := field98 (cl := 0) (cm := 4) (ch := 12058624) rfl hb0 (by decide) (by decide)
  have f1 : bits (1543503876 + d * 524288) 19 7 = d := field24 (cl := 4) (ch := 23) rfl hb0 (by decide)
  have f2 : bits (1543503876 + d * 524288) 7 12 = 0 := field99 (cl := 4) (cm := 0) (ch := 2944) rfl hb0 (by decide) (by decide)
  refine decode_of_one (w := 1543503876 + d * 524288) rfl m (by decide) (fun x => ?_) hwf
  rw [decodeMajor_17 _ m, decodeM17]
  simp only [f0, f1, f2, use, if_true, Nat.reduceAdd, Nat.zero_ne_one, Nat.one_ne_zero, if_false]

theorem yield : Statement (.yield) := by
  intro hwf _
  have m : bits (1543503877) 26 6 = 23 := field86 (cl := 5) (cm := 23) (ch := 0) rfl (by decide) (by decide)
  have f0 : bits (1543503877) 0 7 = 5 := field104 (cl := 0) (cm := 5) (ch := 12058624) rfl (by decide) (by decide)
  have f1 : bits (1543503877) 7 19 = 0 := field107 (cl := 5) (cm := 0) (ch := 23) rfl (by decide) (by decide)
  refine decode_of_one (w := 1543503877) rfl m (by decide) (fun x => ?_) hwf
  rw [decodeMajor_17 _ m, decodeM17]
  simp only [f0, f1, use, if_true, Nat.reduceAdd, Nat.zero_ne_one, Nat.one_ne_zero, if_false]

theorem park : Statement (.park) := by
  intro hwf _
  have m : bits (1543503878) 26 6 = 23 := field86 (cl := 6) (cm := 23) (ch := 0) rfl (by decide) (by decide)
  have f0 : bits (1543503878) 0 7 = 6 := field104 (cl := 0) (cm := 6) (ch := 12058624) rfl (by decide) (by decide)
  have f1 : bits (1543503878) 7 19 = 0 := field107 (cl := 6) (cm := 0) (ch := 23) rfl (by decide) (by decide)
  refine decode_of_one (w := 1543503878) rfl m (by decide) (fun x => ?_) hwf
  rw [decodeMajor_17 _ m, decodeM17]
  simp only [f0, f1, use, if_true, Nat.reduceAdd, Nat.zero_ne_one, Nat.one_ne_zero, if_false]

theorem hint (h : Nat) (i : Nat) (n : Nat) : Statement (.hint h i n) := by
  intro hwf _
  have hb : (h < 128 && i < 4096 && n < 64) = true := hwf
  simp only [Bool.and_eq_true, decide_eq_true_eq] at hb
  obtain ⟨⟨hb0, hb1⟩, hb2⟩ := hb
  have m : bits (1543503936 + h * 524288 + i * 128 + n) 26 6 = 23 := field108 (cl := 64) (cm := 23) (ch := 0) rfl hb0 hb1 hb2 (by decide) (by decide)
  have f0 : bits (1543503936 + h * 524288 + i * 128 + n) 0 6 = n := field109 (cl := 0) (ch := 24117249) rfl hb0 hb1 hb2 (by decide)
  have f1 : bits (1543503936 + h * 524288 + i * 128 + n) 0 7 = 64 + n := by unfold bits; omega
  have f2 : bits (1543503936 + h * 524288 + i * 128 + n) 19 7 = h := field110 (cl := 64) (ch := 23) rfl hb0 hb1 hb2 (by decide)
  have f3 : bits (1543503936 + h * 524288 + i * 128 + n) 6 1 = 1 := field111 (cl := 0) (cm := 1) (ch := 12058624) rfl hb0 hb1 hb2 (by decide) (by decide)
  have f4 : bits (1543503936 + h * 524288 + i * 128 + n) 7 12 = i := field112 (cl := 64) (ch := 2944) rfl hb0 hb1 hb2 (by decide)
  refine decode_of_one (w := 1543503936 + h * 524288 + i * 128 + n) rfl m (by decide) (fun x => ?_) hwf
  rw [decodeMajor_17 _ m, decodeM17]
  simp only [f0, f1, f2, f3, f4]
  split <;> first | omega | (rw [if_pos trivial]; rfl)

theorem ldD (t : Nat) (b : Nat) (g : Nat) (o : Nat) : Statement (.ldD t b g o) := by
  intro hwf _
  have hb : (t < 128 && b < 128 && g < 2 && o < 512) = true := hwf
  simp only [Bool.and_eq_true, decide_eq_true_eq] at hb
  obtain ⟨⟨⟨hb0, hb1⟩, hb2⟩, hb3⟩ := hb
  have m : bits (1610612736 + t * 524288 + b * 4096 + g * 512 + o) 26 6 = 24 := field113 (cl := 0) (cm := 24) (ch := 0) rfl hb0 hb1 hb2 hb3 (by decide) (by decide)
  have f0 : bits (1610612736 + t * 524288 + b * 4096 + g * 512 + o) 0 9 = o := field114 (cl := 0) (ch := 3145728) rfl hb0 hb1 hb2 hb3 (by decide)
  have f1 : bits (1610612736 + t * 524288 + b * 4096 + g * 512 + o) 10 2 = 0 := field115 (cl := 0) (cm := 0) (ch := 393216) rfl hb0 hb1 hb2 hb3 (by decide) (by decide)
  have f2 : bits (1610612736 + t * 524288 + b * 4096 + g * 512 + o) 12 7 = b := field116 (cl := 0) (ch := 3072) rfl hb0 hb1 hb2 hb3 (by decide)
  have f3 : bits (1610612736 + t * 524288 + b * 4096 + g * 512 + o) 19 7 = t := field117 (cl := 0) (ch := 24) rfl hb0 hb1 hb2 hb3 (by decide)
  have f4 : bits (1610612736 + t * 524288 + b * 4096 + g * 512 + o) 9 1 = g := field118 (cl := 0) (ch := 1572864) rfl hb0 hb1 hb2 hb3 (by decide)
  refine decode_of_one (w := 1610612736 + t * 524288 + b * 4096 + g * 512 + o) rfl m (by decide) (fun x => ?_) hwf
  rw [decodeMajor_18 _ m, decodeM18]
  simp only [f0, f1, f2, f3, f4, use, if_true, Nat.reduceAdd, Nat.zero_ne_one, Nat.one_ne_zero, if_false]

theorem stD (t : Nat) (b : Nat) (g : Nat) (o : Nat) : Statement (.stD t b g o) := by
  intro hwf _
  have hb : (t < 128 && b < 128 && g < 2 && o < 512) = true := hwf
  simp only [Bool.and_eq_true, decide_eq_true_eq] at hb
  obtain ⟨⟨⟨hb0, hb1⟩, hb2⟩, hb3⟩ := hb
  have m : bits (1677721600 + t * 524288 + b * 4096 + g * 512 + o) 26 6 = 25 := field113 (cl := 0) (cm := 25) (ch := 0) rfl hb0 hb1 hb2 hb3 (by decide) (by decide)
  have f0 : bits (1677721600 + t * 524288 + b * 4096 + g * 512 + o) 0 9 = o := field114 (cl := 0) (ch := 3276800) rfl hb0 hb1 hb2 hb3 (by decide)
  have f1 : bits (1677721600 + t * 524288 + b * 4096 + g * 512 + o) 10 2 = 0 := field115 (cl := 0) (cm := 0) (ch := 409600) rfl hb0 hb1 hb2 hb3 (by decide) (by decide)
  have f2 : bits (1677721600 + t * 524288 + b * 4096 + g * 512 + o) 12 7 = b := field116 (cl := 0) (ch := 3200) rfl hb0 hb1 hb2 hb3 (by decide)
  have f3 : bits (1677721600 + t * 524288 + b * 4096 + g * 512 + o) 19 7 = t := field117 (cl := 0) (ch := 25) rfl hb0 hb1 hb2 hb3 (by decide)
  have f4 : bits (1677721600 + t * 524288 + b * 4096 + g * 512 + o) 9 1 = g := field118 (cl := 0) (ch := 1638400) rfl hb0 hb1 hb2 hb3 (by decide)
  refine decode_of_one (w := 1677721600 + t * 524288 + b * 4096 + g * 512 + o) rfl m (by decide) (fun x => ?_) hwf
  rw [decodeMajor_19 _ m, decodeM19]
  simp only [f0, f1, f2, f3, f4, use, if_true, Nat.reduceAdd, Nat.zero_ne_one, Nat.one_ne_zero, if_false]

theorem ld (t : Nat) (b : Nat) (i : Nat) (y : Nat) : Statement (.ld t b i y) := by
  intro hwf _
  have hb : (t < 128 && b < 128 && i < 128 && y < 8 && y < 7) = true := hwf
  simp only [Bool.and_eq_true, decide_eq_true_eq] at hb
  obtain ⟨⟨⟨⟨hb0, hb1⟩, hb2⟩, hb3⟩, hb4⟩ := hb
  have m : bits (1744830472 + t * 524288 + b * 4096 + i * 32 + y) 26 6 = 26 := field119 (cl := 8) (cm := 26) (ch := 0) rfl hb0 hb1 hb2 hb3 (by decide) (by decide)
  have f0 : bits (1744830472 + t * 524288 + b * 4096 + i * 32 + y) 0 3 = y := field120 (cl := 0) (ch := 218103809) rfl hb0 hb1 hb2 hb3 (by decide)
  have f1 : bits (1744830472 + t * 524288 + b * 4096 + i * 32 + y) 12 7 = b := field121 (cl := 8) (ch := 3328) rfl hb0 hb1 hb2 hb3 (by decide)
  have f2 : bits (1744830472 + t * 524288 + b * 4096 + i * 32 + y) 19 7 = t := field122 (cl := 8) (ch := 26) rfl hb0 hb1 hb2 hb3 (by decide)
  have f3 : bits (1744830472 + t * 524288 + b * 4096 + i * 32 + y) 3 2 = 1 := field123 (cl := 0) (cm := 1) (ch := 54525952) rfl hb0 hb1 hb2 hb3 (by decide) (by decide)
  have f4 : bits (1744830472 + t * 524288 + b * 4096 + i * 32 + y) 5 7 = i := field124 (cl := 8) (ch := 425984) rfl hb0 hb1 hb2 hb3 (by decide)
  refine decode_of_one (w := 1744830472 + t * 524288 + b * 4096 + i * 32 + y) rfl m (by decide) (fun x => ?_) hwf
  rw [decodeMajor_1A _ m, decodeM1A]
  simp only [f0, f1, f2, f3, f4, use, if_true, Nat.reduceAdd, Nat.zero_ne_one, Nat.one_ne_zero, if_false]

theorem ldx (t : Nat) (b : Nat) (x : Nat) (y : Nat) : Statement (.ldx t b x y) := by
  intro hwf _
  have hb : (t < 128 && b < 128 && x < 128 && y < 8 && y < 7) = true := hwf
  simp only [Bool.and_eq_true, decide_eq_true_eq] at hb
  obtain ⟨⟨⟨⟨hb0, hb1⟩, hb2⟩, hb3⟩, hb4⟩ := hb
  have m : bits (1744830464 + t * 524288 + b * 4096 + x * 32 + y) 26 6 = 26 := field119 (cl := 0) (cm := 26) (ch := 0) rfl hb0 hb1 hb2 hb3 (by decide) (by decide)
  have f0 : bits (1744830464 + t * 524288 + b * 4096 + x * 32 + y) 0 3 = y := field120 (cl := 0) (ch := 218103808) rfl hb0 hb1 hb2 hb3 (by decide)
  have f1 : bits (1744830464 + t * 524288 + b * 4096 + x * 32 + y) 12 7 = b := field121 (cl := 0) (ch := 3328) rfl hb0 hb1 hb2 hb3 (by decide)
  have f2 : bits (1744830464 + t * 524288 + b * 4096 + x * 32 + y) 19 7 = t := field122 (cl := 0) (ch := 26) rfl hb0 hb1 hb2 hb3 (by decide)
  have f3 : bits (1744830464 + t * 524288 + b * 4096 + x * 32 + y) 3 2 = 0 := field123 (cl := 0) (cm := 0) (ch := 54525952) rfl hb0 hb1 hb2 hb3 (by decide) (by decide)
  have f4 : bits (1744830464 + t * 524288 + b * 4096 + x * 32 + y) 5 7 = x := field124 (cl := 0) (ch := 425984) rfl hb0 hb1 hb2 hb3 (by decide)
  refine decode_of_one (w := 1744830464 + t * 524288 + b * 4096 + x * 32 + y) rfl m (by decide) (fun x => ?_) hwf
  rw [decodeMajor_1A _ m, decodeM1A]
  simp only [f0, f1, f2, f3, f4, use, if_true, Nat.reduceAdd, Nat.zero_ne_one, Nat.one_ne_zero, if_false]

theorem st (t : Nat) (b : Nat) (i : Nat) (y : Nat) : Statement (.st t b i y) := by
  intro hwf _
  have hb : (t < 128 && b < 128 && i < 128 && y < 8 && storeType y) = true := hwf
  simp only [Bool.and_eq_true, decide_eq_true_eq] at hb
  obtain ⟨⟨⟨⟨hb0, hb1⟩, hb2⟩, hb3⟩, hb4⟩ := hb
  have m : bits (1744830488 + t * 524288 + b * 4096 + i * 32 + y) 26 6 = 26 := field119 (cl := 24) (cm := 26) (ch := 0) rfl hb0 hb1 hb2 hb3 (by decide) (by decide)
  have f0 : bits (1744830488 + t * 524288 + b * 4096 + i * 32 + y) 0 3 = y := field120 (cl := 0) (ch := 218103811) rfl hb0 hb1 hb2 hb3 (by decide)
  have f1 : bits (1744830488 + t * 524288 + b * 4096 + i * 32 + y) 12 7 = b := field121 (cl := 24) (ch := 3328) rfl hb0 hb1 hb2 hb3 (by decide)
  have f2 : bits (1744830488 + t * 524288 + b * 4096 + i * 32 + y) 19 7 = t := field122 (cl := 24) (ch := 26) rfl hb0 hb1 hb2 hb3 (by decide)
  have f3 : bits (1744830488 + t * 524288 + b * 4096 + i * 32 + y) 3 2 = 3 := field123 (cl := 0) (cm := 3) (ch := 54525952) rfl hb0 hb1 hb2 hb3 (by decide) (by decide)
  have f4 : bits (1744830488 + t * 524288 + b * 4096 + i * 32 + y) 5 7 = i := field124 (cl := 24) (ch := 425984) rfl hb0 hb1 hb2 hb3 (by decide)
  refine decode_of_one (w := 1744830488 + t * 524288 + b * 4096 + i * 32 + y) rfl m (by decide) (fun x => ?_) hwf
  rw [decodeMajor_1A _ m, decodeM1A]
  simp only [f0, f1, f2, f3, f4, use, if_true, Nat.reduceAdd, Nat.zero_ne_one, Nat.one_ne_zero, if_false]

theorem stx (t : Nat) (b : Nat) (x : Nat) (y : Nat) : Statement (.stx t b x y) := by
  intro hwf _
  have hb : (t < 128 && b < 128 && x < 128 && y < 8 && storeType y) = true := hwf
  simp only [Bool.and_eq_true, decide_eq_true_eq] at hb
  obtain ⟨⟨⟨⟨hb0, hb1⟩, hb2⟩, hb3⟩, hb4⟩ := hb
  have m : bits (1744830480 + t * 524288 + b * 4096 + x * 32 + y) 26 6 = 26 := field119 (cl := 16) (cm := 26) (ch := 0) rfl hb0 hb1 hb2 hb3 (by decide) (by decide)
  have f0 : bits (1744830480 + t * 524288 + b * 4096 + x * 32 + y) 0 3 = y := field120 (cl := 0) (ch := 218103810) rfl hb0 hb1 hb2 hb3 (by decide)
  have f1 : bits (1744830480 + t * 524288 + b * 4096 + x * 32 + y) 12 7 = b := field121 (cl := 16) (ch := 3328) rfl hb0 hb1 hb2 hb3 (by decide)
  have f2 : bits (1744830480 + t * 524288 + b * 4096 + x * 32 + y) 19 7 = t := field122 (cl := 16) (ch := 26) rfl hb0 hb1 hb2 hb3 (by decide)
  have f3 : bits (1744830480 + t * 524288 + b * 4096 + x * 32 + y) 3 2 = 2 := field123 (cl := 0) (cm := 2) (ch := 54525952) rfl hb0 hb1 hb2 hb3 (by decide) (by decide)
  have f4 : bits (1744830480 + t * 524288 + b * 4096 + x * 32 + y) 5 7 = x := field124 (cl := 16) (ch := 425984) rfl hb0 hb1 hb2 hb3 (by decide)
  refine decode_of_one (w := 1744830480 + t * 524288 + b * 4096 + x * 32 + y) rfl m (by decide) (fun x => ?_) hwf
  rw [decodeMajor_1A _ m, decodeM1A]
  simp only [f0, f1, f2, f3, f4, use, if_true, Nat.reduceAdd, Nat.zero_ne_one, Nat.one_ne_zero, if_false]

theorem ldm (d : Nat) (a : Nat) (n : Nat) : Statement (.ldm d a n) := by
  intro hwf _
  have hb : (d < 128 && a < 128 && n < 128 && d + n < 128 && !(d ≤ a && a ≤ d + n)) = true := hwf
  simp only [Bool.and_eq_true, decide_eq_true_eq] at hb
  obtain ⟨⟨⟨⟨hb0, hb1⟩, hb2⟩, hb3⟩, hb4⟩ := hb
  have m : bits (1811939328 + d * 524288 + a * 4096 + n * 32) 26 6 = 27 := field0 (cl := 0) (cm := 27) (ch := 0) rfl hb0 hb1 hb2 (by decide) (by decide)
  have f0 : bits (1811939328 + d * 524288 + a * 4096 + n * 32) 0 5 = 0 := field1 (cl := 0) (cm := 0) (ch := 56623104) rfl hb0 hb1 hb2 (by decide) (by decide)
  have f1 : bits (1811939328 + d * 524288 + a * 4096 + n * 32) 12 7 = a := field2 (cl := 0) (ch := 3456) rfl hb0 hb1 hb2 (by decide)
  have f2 : bits (1811939328 + d * 524288 + a * 4096 + n * 32) 19 7 = d := field3 (cl := 0) (ch := 27) rfl hb0 hb1 hb2 (by decide)
  have f3 : bits (1811939328 + d * 524288 + a * 4096 + n * 32) 5 7 = n := field4 (cl := 0) (ch := 442368) rfl hb0 hb1 hb2 (by decide)
  refine decode_of_one (w := 1811939328 + d * 524288 + a * 4096 + n * 32) rfl m (by decide) (fun x => ?_) hwf
  rw [decodeMajor_1B _ m, decodeM1B]
  simp only [f0, f1, f2, f3, use, if_true, Nat.reduceAdd, Nat.zero_ne_one, Nat.one_ne_zero, if_false]

theorem stm (d : Nat) (a : Nat) (n : Nat) : Statement (.stm d a n) := by
  intro hwf _
  have hb : (d < 128 && a < 128 && n < 128 && d + n < 128) = true := hwf
  simp only [Bool.and_eq_true, decide_eq_true_eq] at hb
  obtain ⟨⟨⟨hb0, hb1⟩, hb2⟩, hb3⟩ := hb
  have m : bits (1811939329 + d * 524288 + a * 4096 + n * 32) 26 6 = 27 := field0 (cl := 1) (cm := 27) (ch := 0) rfl hb0 hb1 hb2 (by decide) (by decide)
  have f0 : bits (1811939329 + d * 524288 + a * 4096 + n * 32) 0 5 = 1 := field1 (cl := 0) (cm := 1) (ch := 56623104) rfl hb0 hb1 hb2 (by decide) (by decide)
  have f1 : bits (1811939329 + d * 524288 + a * 4096 + n * 32) 12 7 = a := field2 (cl := 1) (ch := 3456) rfl hb0 hb1 hb2 (by decide)
  have f2 : bits (1811939329 + d * 524288 + a * 4096 + n * 32) 19 7 = d := field3 (cl := 1) (ch := 27) rfl hb0 hb1 hb2 (by decide)
  have f3 : bits (1811939329 + d * 524288 + a * 4096 + n * 32) 5 7 = n := field4 (cl := 1) (ch := 442368) rfl hb0 hb1 hb2 (by decide)
  refine decode_of_one (w := 1811939329 + d * 524288 + a * 4096 + n * 32) rfl m (by decide) (fun x => ?_) hwf
  rw [decodeMajor_1B _ m, decodeM1B]
  simp only [f0, f1, f2, f3, use, if_true, Nat.reduceAdd, Nat.zero_ne_one, Nat.one_ne_zero, if_false]

theorem ldfe (t : Nat) (b : Nat) (s : Nat) (o : Nat) : Statement (.ldfe t b s o) := by
  intro hwf _
  have hb : (t < 128 && b < 128 && s < 8 && o < 64 && 0 < s) = true := hwf
  simp only [Bool.and_eq_true, decide_eq_true_eq] at hb
  obtain ⟨⟨⟨⟨hb0, hb1⟩, hb2⟩, hb3⟩, hb4⟩ := hb
  have m : bits (1879048192 + t * 524288 + b * 4096 + s * 512 + o) 26 6 = 28 := field125 (cl := 0) (cm := 28) (ch := 0) rfl hb0 hb1 hb2 hb3 (by decide) (by decide)
  have f0 : bits (1879048192 + t * 524288 + b * 4096 + s * 512 + o) 0 6 = o := field126 (cl := 0) (ch := 29360128) rfl hb0 hb1 hb2 hb3 (by decide)
  have f1 : bits (1879048192 + t * 524288 + b * 4096 + s * 512 + o) 12 7 = b := field127 (cl := 0) (ch := 3584) rfl hb0 hb1 hb2 hb3 (by decide)
  have f2 : bits (1879048192 + t * 524288 + b * 4096 + s * 512 + o) 19 7 = t := field128 (cl := 0) (ch := 28) rfl hb0 hb1 hb2 hb3 (by decide)
  have f3 : bits (1879048192 + t * 524288 + b * 4096 + s * 512 + o) 6 3 = 0 := field129 (cl := 0) (cm := 0) (ch := 3670016) rfl hb0 hb1 hb2 hb3 (by decide) (by decide)
  have f4 : bits (1879048192 + t * 524288 + b * 4096 + s * 512 + o) 9 3 = s := field130 (cl := 0) (ch := 458752) rfl hb0 hb1 hb2 hb3 (by decide)
  refine decode_of_one (w := 1879048192 + t * 524288 + b * 4096 + s * 512 + o) rfl m (by decide) (fun x => ?_) hwf
  rw [decodeMajor_1C _ m, decodeM1C]
  simp only [f0, f1, f2, f3, f4]
  rw [if_neg (by omega)]
  rfl

theorem ldff (t : Nat) (b : Nat) (s : Nat) (o : Nat) : Statement (.ldff t b s o) := by
  intro hwf _
  have hb : (t < 128 && b < 128 && s < 8 && o < 64 && 0 < s) = true := hwf
  simp only [Bool.and_eq_true, decide_eq_true_eq] at hb
  obtain ⟨⟨⟨⟨hb0, hb1⟩, hb2⟩, hb3⟩, hb4⟩ := hb
  have m : bits (1879048256 + t * 524288 + b * 4096 + s * 512 + o) 26 6 = 28 := field125 (cl := 64) (cm := 28) (ch := 0) rfl hb0 hb1 hb2 hb3 (by decide) (by decide)
  have f0 : bits (1879048256 + t * 524288 + b * 4096 + s * 512 + o) 0 6 = o := field126 (cl := 0) (ch := 29360129) rfl hb0 hb1 hb2 hb3 (by decide)
  have f1 : bits (1879048256 + t * 524288 + b * 4096 + s * 512 + o) 12 7 = b := field127 (cl := 64) (ch := 3584) rfl hb0 hb1 hb2 hb3 (by decide)
  have f2 : bits (1879048256 + t * 524288 + b * 4096 + s * 512 + o) 19 7 = t := field128 (cl := 64) (ch := 28) rfl hb0 hb1 hb2 hb3 (by decide)
  have f3 : bits (1879048256 + t * 524288 + b * 4096 + s * 512 + o) 6 3 = 1 := field129 (cl := 0) (cm := 1) (ch := 3670016) rfl hb0 hb1 hb2 hb3 (by decide) (by decide)
  have f4 : bits (1879048256 + t * 524288 + b * 4096 + s * 512 + o) 9 3 = s := field130 (cl := 64) (ch := 458752) rfl hb0 hb1 hb2 hb3 (by decide)
  refine decode_of_one (w := 1879048256 + t * 524288 + b * 4096 + s * 512 + o) rfl m (by decide) (fun x => ?_) hwf
  rw [decodeMajor_1C _ m, decodeM1C]
  simp only [f0, f1, f2, f3, f4]
  rw [if_neg (by omega)]
  rfl

theorem stfe (t : Nat) (b : Nat) (s : Nat) (o : Nat) : Statement (.stfe t b s o) := by
  intro hwf _
  have hb : (t < 128 && b < 128 && s < 8 && o < 64 && 0 < s) = true := hwf
  simp only [Bool.and_eq_true, decide_eq_true_eq] at hb
  obtain ⟨⟨⟨⟨hb0, hb1⟩, hb2⟩, hb3⟩, hb4⟩ := hb
  have m : bits (1879048320 + t * 524288 + b * 4096 + s * 512 + o) 26 6 = 28 := field125 (cl := 128) (cm := 28) (ch := 0) rfl hb0 hb1 hb2 hb3 (by decide) (by decide)
  have f0 : bits (1879048320 + t * 524288 + b * 4096 + s * 512 + o) 0 6 = o := field126 (cl := 0) (ch := 29360130) rfl hb0 hb1 hb2 hb3 (by decide)
  have f1 : bits (1879048320 + t * 524288 + b * 4096 + s * 512 + o) 12 7 = b := field127 (cl := 128) (ch := 3584) rfl hb0 hb1 hb2 hb3 (by decide)
  have f2 : bits (1879048320 + t * 524288 + b * 4096 + s * 512 + o) 19 7 = t := field128 (cl := 128) (ch := 28) rfl hb0 hb1 hb2 hb3 (by decide)
  have f3 : bits (1879048320 + t * 524288 + b * 4096 + s * 512 + o) 6 3 = 2 := field129 (cl := 0) (cm := 2) (ch := 3670016) rfl hb0 hb1 hb2 hb3 (by decide) (by decide)
  have f4 : bits (1879048320 + t * 524288 + b * 4096 + s * 512 + o) 9 3 = s := field130 (cl := 128) (ch := 458752) rfl hb0 hb1 hb2 hb3 (by decide)
  refine decode_of_one (w := 1879048320 + t * 524288 + b * 4096 + s * 512 + o) rfl m (by decide) (fun x => ?_) hwf
  rw [decodeMajor_1C _ m, decodeM1C]
  simp only [f0, f1, f2, f3, f4, use, if_true, Nat.reduceAdd, Nat.zero_ne_one, Nat.one_ne_zero, if_false]

theorem stf (t : Nat) (b : Nat) (s : Nat) (o : Nat) : Statement (.stf t b s o) := by
  intro hwf _
  have hb : (t < 128 && b < 128 && s < 8 && o < 64 && 0 < s) = true := hwf
  simp only [Bool.and_eq_true, decide_eq_true_eq] at hb
  obtain ⟨⟨⟨⟨hb0, hb1⟩, hb2⟩, hb3⟩, hb4⟩ := hb
  have m : bits (1879048384 + t * 524288 + b * 4096 + s * 512 + o) 26 6 = 28 := field125 (cl := 192) (cm := 28) (ch := 0) rfl hb0 hb1 hb2 hb3 (by decide) (by decide)
  have f0 : bits (1879048384 + t * 524288 + b * 4096 + s * 512 + o) 0 6 = o := field126 (cl := 0) (ch := 29360131) rfl hb0 hb1 hb2 hb3 (by decide)
  have f1 : bits (1879048384 + t * 524288 + b * 4096 + s * 512 + o) 12 7 = b := field127 (cl := 192) (ch := 3584) rfl hb0 hb1 hb2 hb3 (by decide)
  have f2 : bits (1879048384 + t * 524288 + b * 4096 + s * 512 + o) 19 7 = t := field128 (cl := 192) (ch := 28) rfl hb0 hb1 hb2 hb3 (by decide)
  have f3 : bits (1879048384 + t * 524288 + b * 4096 + s * 512 + o) 6 3 = 3 := field129 (cl := 0) (cm := 3) (ch := 3670016) rfl hb0 hb1 hb2 hb3 (by decide) (by decide)
  have f4 : bits (1879048384 + t * 524288 + b * 4096 + s * 512 + o) 9 3 = s := field130 (cl := 192) (ch := 458752) rfl hb0 hb1 hb2 hb3 (by decide)
  refine decode_of_one (w := 1879048384 + t * 524288 + b * 4096 + s * 512 + o) rfl m (by decide) (fun x => ?_) hwf
  rw [decodeMajor_1C _ m, decodeM1C]
  simp only [f0, f1, f2, f3, f4, use, if_true, Nat.reduceAdd, Nat.zero_ne_one, Nat.one_ne_zero, if_false]

theorem sete (b : Nat) (s : Nat) (o : Nat) : Statement (.sete b s o) := by
  intro hwf _
  have hb : (b < 128 && s < 8 && o < 64 && 0 < s) = true := hwf
  simp only [Bool.and_eq_true, decide_eq_true_eq] at hb
  obtain ⟨⟨⟨hb0, hb1⟩, hb2⟩, hb3⟩ := hb
  have m : bits (1879048448 + b * 4096 + s * 512 + o) 26 6 = 28 := field131 (cl := 256) (cm := 28) (ch := 0) rfl hb0 hb1 hb2 (by decide) (by decide)
  have f0 : bits (1879048448 + b * 4096 + s * 512 + o) 0 6 = o := field132 (cl := 0) (ch := 29360132) rfl hb0 hb1 hb2 (by decide)
  have f1 : bits (1879048448 + b * 4096 + s * 512 + o) 12 7 = b := field133 (cl := 256) (ch := 3584) rfl hb0 hb1 hb2 (by decide)
  have f2 : bits (1879048448 + b * 4096 + s * 512 + o) 19 7 = 0 := field134 (cl := 256) (cm := 0) (ch := 28) rfl hb0 hb1 hb2 (by decide) (by decide)
  have f3 : bits (1879048448 + b * 4096 + s * 512 + o) 6 3 = 4 := field135 (cl := 0) (cm := 4) (ch := 3670016) rfl hb0 hb1 hb2 (by decide) (by decide)
  have f4 : bits (1879048448 + b * 4096 + s * 512 + o) 9 3 = s := field136 (cl := 256) (ch := 458752) rfl hb0 hb1 hb2 (by decide)
  refine decode_of_one (w := 1879048448 + b * 4096 + s * 512 + o) rfl m (by decide) (fun x => ?_) hwf
  rw [decodeMajor_1C _ m, decodeM1C]
  simp only [f0, f1, f2, f3, f4]
  rw [if_neg (by omega)]
  rfl

theorem feq (t : Nat) (b : Nat) (s : Nat) (o : Nat) : Statement (.feq t b s o) := by
  intro hwf _
  have hb : (t < 128 && b < 128 && s < 8 && o < 64 && 0 < s) = true := hwf
  simp only [Bool.and_eq_true, decide_eq_true_eq] at hb
  obtain ⟨⟨⟨⟨hb0, hb1⟩, hb2⟩, hb3⟩, hb4⟩ := hb
  have m : bits (1879048512 + t * 524288 + b * 4096 + s * 512 + o) 26 6 = 28 := field125 (cl := 320) (cm := 28) (ch := 0) rfl hb0 hb1 hb2 hb3 (by decide) (by decide)
  have f0 : bits (1879048512 + t * 524288 + b * 4096 + s * 512 + o) 0 6 = o := field126 (cl := 0) (ch := 29360133) rfl hb0 hb1 hb2 hb3 (by decide)
  have f1 : bits (1879048512 + t * 524288 + b * 4096 + s * 512 + o) 12 7 = b := field127 (cl := 320) (ch := 3584) rfl hb0 hb1 hb2 hb3 (by decide)
  have f2 : bits (1879048512 + t * 524288 + b * 4096 + s * 512 + o) 19 7 = t := field128 (cl := 320) (ch := 28) rfl hb0 hb1 hb2 hb3 (by decide)
  have f3 : bits (1879048512 + t * 524288 + b * 4096 + s * 512 + o) 6 3 = 5 := field129 (cl := 0) (cm := 5) (ch := 3670016) rfl hb0 hb1 hb2 hb3 (by decide) (by decide)
  have f4 : bits (1879048512 + t * 524288 + b * 4096 + s * 512 + o) 9 3 = s := field130 (cl := 320) (ch := 458752) rfl hb0 hb1 hb2 hb3 (by decide)
  refine decode_of_one (w := 1879048512 + t * 524288 + b * 4096 + s * 512 + o) rfl m (by decide) (fun x => ?_) hwf
  rw [decodeMajor_1C _ m, decodeM1C]
  simp only [f0, f1, f2, f3, f4]
  rw [if_neg (by omega)]
  rfl

theorem ldfeStrand (t : Nat) (b : Nat) : Statement (.ldfeStrand t b) := by
  intro hwf _
  have hb : (t < 128 && b < 128) = true := hwf
  simp only [Bool.and_eq_true, decide_eq_true_eq] at hb
  obtain ⟨hb0, hb1⟩ := hb
  have m : bits (1879048192 + t * 524288 + b * 4096) 26 6 = 28 := field5 (cl := 0) (cm := 28) (ch := 0) rfl hb0 hb1 (by decide) (by decide)
  have f0 : bits (1879048192 + t * 524288 + b * 4096) 0 6 = 0 := field137 (cl := 0) (cm := 0) (ch := 29360128) rfl hb0 hb1 (by decide) (by decide)
  have f1 : bits (1879048192 + t * 524288 + b * 4096) 12 7 = b := field7 (cl := 0) (ch := 3584) rfl hb0 hb1 (by decide)
  have f2 : bits (1879048192 + t * 524288 + b * 4096) 19 7 = t := field8 (cl := 0) (ch := 28) rfl hb0 hb1 (by decide)
  have f3 : bits (1879048192 + t * 524288 + b * 4096) 6 3 = 0 := field138 (cl := 0) (cm := 0) (ch := 3670016) rfl hb0 hb1 (by decide) (by decide)
  have f4 : bits (1879048192 + t * 524288 + b * 4096) 9 3 = 0 := field139 (cl := 0) (cm := 0) (ch := 458752) rfl hb0 hb1 (by decide) (by decide)
  refine decode_of_one (w := 1879048192 + t * 524288 + b * 4096) rfl m (by decide) (fun x => ?_) hwf
  rw [decodeMajor_1C _ m, decodeM1C]
  simp only [f0, f1, f2, f3, f4, use, if_true, Nat.reduceAdd, Nat.zero_ne_one, Nat.one_ne_zero, if_false]

theorem ldffStrand (t : Nat) (b : Nat) : Statement (.ldffStrand t b) := by
  intro hwf _
  have hb : (t < 128 && b < 128) = true := hwf
  simp only [Bool.and_eq_true, decide_eq_true_eq] at hb
  obtain ⟨hb0, hb1⟩ := hb
  have m : bits (1879048256 + t * 524288 + b * 4096) 26 6 = 28 := field5 (cl := 64) (cm := 28) (ch := 0) rfl hb0 hb1 (by decide) (by decide)
  have f0 : bits (1879048256 + t * 524288 + b * 4096) 0 6 = 0 := field137 (cl := 0) (cm := 0) (ch := 29360129) rfl hb0 hb1 (by decide) (by decide)
  have f1 : bits (1879048256 + t * 524288 + b * 4096) 12 7 = b := field7 (cl := 64) (ch := 3584) rfl hb0 hb1 (by decide)
  have f2 : bits (1879048256 + t * 524288 + b * 4096) 19 7 = t := field8 (cl := 64) (ch := 28) rfl hb0 hb1 (by decide)
  have f3 : bits (1879048256 + t * 524288 + b * 4096) 6 3 = 1 := field138 (cl := 0) (cm := 1) (ch := 3670016) rfl hb0 hb1 (by decide) (by decide)
  have f4 : bits (1879048256 + t * 524288 + b * 4096) 9 3 = 0 := field139 (cl := 64) (cm := 0) (ch := 458752) rfl hb0 hb1 (by decide) (by decide)
  refine decode_of_one (w := 1879048256 + t * 524288 + b * 4096) rfl m (by decide) (fun x => ?_) hwf
  rw [decodeMajor_1C _ m, decodeM1C]
  simp only [f0, f1, f2, f3, f4, use, if_true, Nat.reduceAdd, Nat.zero_ne_one, Nat.one_ne_zero, if_false]

theorem seteStrand (t : Nat) : Statement (.seteStrand t) := by
  intro hwf _
  have hb : decide (t < 128) = true := hwf
  simp only [Bool.and_eq_true, decide_eq_true_eq] at hb
  have hb0 := hb
  have m : bits (1879048448 + t * 524288) 26 6 = 28 := field22 (cl := 256) (cm := 28) (ch := 0) rfl hb0 (by decide) (by decide)
  have f0 : bits (1879048448 + t * 524288) 0 6 = 0 := field140 (cl := 0) (cm := 0) (ch := 29360132) rfl hb0 (by decide) (by decide)
  have f1 : bits (1879048448 + t * 524288) 12 7 = 0 := field141 (cl := 256) (cm := 0) (ch := 3584) rfl hb0 (by decide) (by decide)
  have f2 : bits (1879048448 + t * 524288) 19 7 = t := field24 (cl := 256) (ch := 28) rfl hb0 (by decide)
  have f3 : bits (1879048448 + t * 524288) 6 3 = 4 := field142 (cl := 0) (cm := 4) (ch := 3670016) rfl hb0 (by decide) (by decide)
  have f4 : bits (1879048448 + t * 524288) 9 10 = 0 := field143 (cl := 256) (cm := 0) (ch := 3584) rfl hb0 (by decide) (by decide)
  have f5 : bits (1879048448 + t * 524288) 9 3 = 0 := field144 (cl := 256) (cm := 0) (ch := 458752) rfl hb0 (by decide) (by decide)
  refine decode_of_one (w := 1879048448 + t * 524288) rfl m (by decide) (fun x => ?_) hwf
  rw [decodeMajor_1C _ m, decodeM1C]
  simp only [f0, f1, f2, f3, f4, f5, use, if_true, Nat.reduceAdd, Nat.zero_ne_one, Nat.one_ne_zero, if_false]

theorem feqStrand (t : Nat) (b : Nat) : Statement (.feqStrand t b) := by
  intro hwf _
  have hb : (t < 128 && b < 128) = true := hwf
  simp only [Bool.and_eq_true, decide_eq_true_eq] at hb
  obtain ⟨hb0, hb1⟩ := hb
  have m : bits (1879048512 + t * 524288 + b * 4096) 26 6 = 28 := field5 (cl := 320) (cm := 28) (ch := 0) rfl hb0 hb1 (by decide) (by decide)
  have f0 : bits (1879048512 + t * 524288 + b * 4096) 0 6 = 0 := field137 (cl := 0) (cm := 0) (ch := 29360133) rfl hb0 hb1 (by decide) (by decide)
  have f1 : bits (1879048512 + t * 524288 + b * 4096) 12 7 = b := field7 (cl := 320) (ch := 3584) rfl hb0 hb1 (by decide)
  have f2 : bits (1879048512 + t * 524288 + b * 4096) 19 7 = t := field8 (cl := 320) (ch := 28) rfl hb0 hb1 (by decide)
  have f3 : bits (1879048512 + t * 524288 + b * 4096) 6 3 = 5 := field138 (cl := 0) (cm := 5) (ch := 3670016) rfl hb0 hb1 (by decide) (by decide)
  have f4 : bits (1879048512 + t * 524288 + b * 4096) 9 3 = 0 := field139 (cl := 320) (cm := 0) (ch := 458752) rfl hb0 hb1 (by decide) (by decide)
  refine decode_of_one (w := 1879048512 + t * 524288 + b * 4096) rfl m (by decide) (fun x => ?_) hwf
  rw [decodeMajor_1C _ m, decodeM1C]
  simp only [f0, f1, f2, f3, f4, use, if_true, Nat.reduceAdd, Nat.zero_ne_one, Nat.one_ne_zero, if_false]

theorem fence (s : Nat) : Statement (.fence s) := by
  intro hwf _
  have hb : (s < 8 && 0 < s) = true := hwf
  simp only [Bool.and_eq_true, decide_eq_true_eq] at hb
  obtain ⟨hb0, hb1⟩ := hb
  have m : bits (1946157056 + s * 512) 26 6 = 29 := field145 (cl := 0) (cm := 29) (ch := 0) rfl hb0 (by decide) (by decide)
  have f0 : bits (1946157056 + s * 512) 0 9 = 0 := field146 (cl := 0) (cm := 0) (ch := 3801088) rfl hb0 (by decide) (by decide)
  have f1 : bits (1946157056 + s * 512) 12 7 = 0 := field147 (cl := 0) (cm := 0) (ch := 3712) rfl hb0 (by decide) (by decide)
  have f2 : bits (1946157056 + s * 512) 19 7 = 0 := field148 (cl := 0) (cm := 0) (ch := 29) rfl hb0 (by decide) (by decide)
  have f3 : bits (1946157056 + s * 512) 9 3 = s := field149 (cl := 0) (ch := 475136) rfl hb0 (by decide)
  refine decode_of_one (w := 1946157056 + s * 512) rfl m (by decide) (fun x => ?_) hwf
  rw [decodeMajor_1D _ m, decodeM1D]
  simp only [f0, f1, f2, f3, use, if_true, Nat.reduceAdd, Nat.zero_ne_one, Nat.one_ne_zero, if_false]

theorem discard (b : Nat) (s : Nat) (o : Nat) : Statement (.discard b s o) := by
  intro hwf _
  have hb : (b < 128 && s < 8 && o < 512 && cacheScope s) = true := hwf
  simp only [Bool.and_eq_true, decide_eq_true_eq] at hb
  obtain ⟨⟨⟨hb0, hb1⟩, hb2⟩, hb3⟩ := hb
  have m : bits (1946681344 + b * 4096 + s * 512 + o) 26 6 = 29 := field150 (cl := 524288) (cm := 29) (ch := 0) rfl hb0 hb1 hb2 (by decide) (by decide)
  have f0 : bits (1946681344 + b * 4096 + s * 512 + o) 0 9 = o := field151 (cl := 0) (ch := 3802112) rfl hb0 hb1 hb2 (by decide)
  have f1 : bits (1946681344 + b * 4096 + s * 512 + o) 12 7 = b := field152 (cl := 0) (ch := 3713) rfl hb0 hb1 hb2 (by decide)
  have f2 : bits (1946681344 + b * 4096 + s * 512 + o) 19 7 = 1 := field153 (cl := 0) (cm := 1) (ch := 29) rfl hb0 hb1 hb2 (by decide) (by decide)
  have f3 : bits (1946681344 + b * 4096 + s * 512 + o) 9 3 = s := field154 (cl := 0) (ch := 475264) rfl hb0 hb1 hb2 (by decide)
  refine decode_of_one (w := 1946681344 + b * 4096 + s * 512 + o) rfl m (by decide) (fun x => ?_) hwf
  rw [decodeMajor_1D _ m, decodeM1D]
  simp only [f0, f1, f2, f3, use, if_true, Nat.reduceAdd, Nat.zero_ne_one, Nat.one_ne_zero, if_false]

theorem flush (b : Nat) (s : Nat) (o : Nat) : Statement (.flush b s o) := by
  intro hwf _
  have hb : (b < 128 && s < 8 && o < 512 && cacheScope s) = true := hwf
  simp only [Bool.and_eq_true, decide_eq_true_eq] at hb
  obtain ⟨⟨⟨hb0, hb1⟩, hb2⟩, hb3⟩ := hb
  have m : bits (1947205632 + b * 4096 + s * 512 + o) 26 6 = 29 := field150 (cl := 1048576) (cm := 29) (ch := 0) rfl hb0 hb1 hb2 (by decide) (by decide)
  have f0 : bits (1947205632 + b * 4096 + s * 512 + o) 0 9 = o := field151 (cl := 0) (ch := 3803136) rfl hb0 hb1 hb2 (by decide)
  have f1 : bits (1947205632 + b * 4096 + s * 512 + o) 12 7 = b := field152 (cl := 0) (ch := 3714) rfl hb0 hb1 hb2 (by decide)
  have f2 : bits (1947205632 + b * 4096 + s * 512 + o) 19 7 = 2 := field153 (cl := 0) (cm := 2) (ch := 29) rfl hb0 hb1 hb2 (by decide) (by decide)
  have f3 : bits (1947205632 + b * 4096 + s * 512 + o) 9 3 = s := field154 (cl := 0) (ch := 475392) rfl hb0 hb1 hb2 (by decide)
  refine decode_of_one (w := 1947205632 + b * 4096 + s * 512 + o) rfl m (by decide) (fun x => ?_) hwf
  rw [decodeMajor_1D _ m, decodeM1D]
  simp only [f0, f1, f2, f3, use, if_true, Nat.reduceAdd, Nat.zero_ne_one, Nat.one_ne_zero, if_false]

theorem inval (b : Nat) (s : Nat) (o : Nat) : Statement (.inval b s o) := by
  intro hwf _
  have hb : (b < 128 && s < 8 && o < 512 && cacheScope s) = true := hwf
  simp only [Bool.and_eq_true, decide_eq_true_eq] at hb
  obtain ⟨⟨⟨hb0, hb1⟩, hb2⟩, hb3⟩ := hb
  have m : bits (1947729920 + b * 4096 + s * 512 + o) 26 6 = 29 := field150 (cl := 1572864) (cm := 29) (ch := 0) rfl hb0 hb1 hb2 (by decide) (by decide)
  have f0 : bits (1947729920 + b * 4096 + s * 512 + o) 0 9 = o := field151 (cl := 0) (ch := 3804160) rfl hb0 hb1 hb2 (by decide)
  have f1 : bits (1947729920 + b * 4096 + s * 512 + o) 12 7 = b := field152 (cl := 0) (ch := 3715) rfl hb0 hb1 hb2 (by decide)
  have f2 : bits (1947729920 + b * 4096 + s * 512 + o) 19 7 = 3 := field153 (cl := 0) (cm := 3) (ch := 29) rfl hb0 hb1 hb2 (by decide) (by decide)
  have f3 : bits (1947729920 + b * 4096 + s * 512 + o) 9 3 = s := field154 (cl := 0) (ch := 475520) rfl hb0 hb1 hb2 (by decide)
  refine decode_of_one (w := 1947729920 + b * 4096 + s * 512 + o) rfl m (by decide) (fun x => ?_) hwf
  rw [decodeMajor_1D _ m, decodeM1D]
  simp only [f0, f1, f2, f3, use, if_true, Nat.reduceAdd, Nat.zero_ne_one, Nat.one_ne_zero, if_false]

theorem pref (b : Nat) (s : Nat) (o : Nat) : Statement (.pref b s o) := by
  intro hwf _
  have hb : (b < 128 && s < 8 && o < 512 && cacheScope s) = true := hwf
  simp only [Bool.and_eq_true, decide_eq_true_eq] at hb
  obtain ⟨⟨⟨hb0, hb1⟩, hb2⟩, hb3⟩ := hb
  have m : bits (1948254208 + b * 4096 + s * 512 + o) 26 6 = 29 := field150 (cl := 2097152) (cm := 29) (ch := 0) rfl hb0 hb1 hb2 (by decide) (by decide)
  have f0 : bits (1948254208 + b * 4096 + s * 512 + o) 0 9 = o := field151 (cl := 0) (ch := 3805184) rfl hb0 hb1 hb2 (by decide)
  have f1 : bits (1948254208 + b * 4096 + s * 512 + o) 12 7 = b := field152 (cl := 0) (ch := 3716) rfl hb0 hb1 hb2 (by decide)
  have f2 : bits (1948254208 + b * 4096 + s * 512 + o) 19 7 = 4 := field153 (cl := 0) (cm := 4) (ch := 29) rfl hb0 hb1 hb2 (by decide) (by decide)
  have f3 : bits (1948254208 + b * 4096 + s * 512 + o) 9 3 = s := field154 (cl := 0) (ch := 475648) rfl hb0 hb1 hb2 (by decide)
  refine decode_of_one (w := 1948254208 + b * 4096 + s * 512 + o) rfl m (by decide) (fun x => ?_) hwf
  rw [decodeMajor_1D _ m, decodeM1D]
  simp only [f0, f1, f2, f3, use, if_true, Nat.reduceAdd, Nat.zero_ne_one, Nat.one_ne_zero, if_false]

theorem tlbinvPage (b : Nat) (s : Nat) : Statement (.tlbinvPage b s) := by
  intro hwf _
  have hb : (b < 128 && s < 8 && tlbScope s) = true := hwf
  simp only [Bool.and_eq_true, decide_eq_true_eq] at hb
  obtain ⟨⟨hb0, hb1⟩, hb2⟩ := hb
  have m : bits (1948778496 + b * 4096 + s * 512) 26 6 = 29 := field155 (cl := 2621440) (cm := 29) (ch := 0) rfl hb0 hb1 (by decide) (by decide)
  have f0 : bits (1948778496 + b * 4096 + s * 512) 0 1 = 0 := field156 (cl := 0) (cm := 0) (ch := 974389248) rfl hb0 hb1 (by decide) (by decide)
  have f1 : bits (1948778496 + b * 4096 + s * 512) 1 8 = 0 := field157 (cl := 0) (cm := 0) (ch := 3806208) rfl hb0 hb1 (by decide) (by decide)
  have f2 : bits (1948778496 + b * 4096 + s * 512) 12 7 = b := field158 (cl := 0) (ch := 3717) rfl hb0 hb1 (by decide)
  have f3 : bits (1948778496 + b * 4096 + s * 512) 19 7 = 5 := field159 (cl := 0) (cm := 5) (ch := 29) rfl hb0 hb1 (by decide) (by decide)
  have f4 : bits (1948778496 + b * 4096 + s * 512) 9 3 = s := field160 (cl := 0) (ch := 475776) rfl hb0 hb1 (by decide)
  refine decode_of_one (w := 1948778496 + b * 4096 + s * 512) rfl m (by decide) (fun x => ?_) hwf
  rw [decodeMajor_1D _ m, decodeM1D]
  simp only [f0, f1, f2, f3, f4, use, if_true, Nat.reduceAdd, Nat.zero_ne_one, Nat.one_ne_zero, if_false]

theorem tlbinvRegion (s : Nat) : Statement (.tlbinvRegion s) := by
  intro hwf _
  have hb : (s < 8 && tlbScope s) = true := hwf
  simp only [Bool.and_eq_true, decide_eq_true_eq] at hb
  obtain ⟨hb0, hb1⟩ := hb
  have m : bits (1948778497 + s * 512) 26 6 = 29 := field145 (cl := 2621441) (cm := 29) (ch := 0) rfl hb0 (by decide) (by decide)
  have f0 : bits (1948778497 + s * 512) 0 1 = 1 := field161 (cl := 0) (cm := 1) (ch := 974389248) rfl hb0 (by decide) (by decide)
  have f1 : bits (1948778497 + s * 512) 1 8 = 0 := field162 (cl := 1) (cm := 0) (ch := 3806208) rfl hb0 (by decide) (by decide)
  have f2 : bits (1948778497 + s * 512) 12 7 = 0 := field147 (cl := 1) (cm := 0) (ch := 3717) rfl hb0 (by decide) (by decide)
  have f3 : bits (1948778497 + s * 512) 19 7 = 5 := field148 (cl := 1) (cm := 5) (ch := 29) rfl hb0 (by decide) (by decide)
  have f4 : bits (1948778497 + s * 512) 9 3 = s := field149 (cl := 1) (ch := 475776) rfl hb0 (by decide)
  refine decode_of_one (w := 1948778497 + s * 512) rfl m (by decide) (fun x => ?_) hwf
  rw [decodeMajor_1D _ m, decodeM1D]
  simp only [f0, f1, f2, f3, f4, use, if_true, Nat.reduceAdd, Nat.zero_ne_one, Nat.one_ne_zero, if_false]

theorem hop (b : Nat) (o : Nat) : Statement (.hop b o) := by
  intro hwf _
  have hb : (b < 128 && o < 512) = true := hwf
  simp only [Bool.and_eq_true, decide_eq_true_eq] at hb
  obtain ⟨hb0, hb1⟩ := hb
  have m : bits (1949302784 + b * 4096 + o) 26 6 = 29 := field163 (cl := 3145728) (cm := 29) (ch := 0) rfl hb0 hb1 (by decide) (by decide)
  have f0 : bits (1949302784 + b * 4096 + o) 0 9 = o := field164 (cl := 0) (ch := 3807232) rfl hb0 hb1 (by decide)
  have f1 : bits (1949302784 + b * 4096 + o) 12 7 = b := field165 (cl := 0) (ch := 3718) rfl hb0 hb1 (by decide)
  have f2 : bits (1949302784 + b * 4096 + o) 19 7 = 6 := field166 (cl := 0) (cm := 6) (ch := 29) rfl hb0 hb1 (by decide) (by decide)
  have f3 : bits (1949302784 + b * 4096 + o) 9 3 = 0 := field167 (cl := 0) (cm := 0) (ch := 475904) rfl hb0 hb1 (by decide) (by decide)
  refine decode_of_one (w := 1949302784 + b * 4096 + o) rfl m (by decide) (fun x => ?_) hwf
  rw [decodeMajor_1D _ m, decodeM1D]
  simp only [f0, f1, f2, f3, use, if_true, Nat.reduceAdd, Nat.zero_ne_one, Nat.one_ne_zero, if_false]

theorem sendr (t : Nat) (b : Nat) (s : Nat) (r : Nat) : Statement (.sendr t b s r) := by
  intro hwf _
  have hb : (t < 128 && b < 128 && s < 8 && r < 128 && 0 < s) = true := hwf
  simp only [Bool.and_eq_true, decide_eq_true_eq] at hb
  obtain ⟨⟨⟨⟨hb0, hb1⟩, hb2⟩, hb3⟩, hb4⟩ := hb
  have m : bits (2013265920 + t * 524288 + b * 4096 + s * 512 + r) 26 6 = 30 := field168 (cl := 0) (cm := 30) (ch := 0) rfl hb0 hb1 hb2 hb3 (by decide) (by decide)
  have f0 : bits (2013265920 + t * 524288 + b * 4096 + s * 512 + r) 0 7 = r := field169 (cl := 0) (ch := 15728640) rfl hb0 hb1 hb2 hb3 (by decide)
  have f1 : bits (2013265920 + t * 524288 + b * 4096 + s * 512 + r) 12 7 = b := field170 (cl := 0) (ch := 3840) rfl hb0 hb1 hb2 hb3 (by decide)
  have f2 : bits (2013265920 + t * 524288 + b * 4096 + s * 512 + r) 19 7 = t := field171 (cl := 0) (ch := 30) rfl hb0 hb1 hb2 hb3 (by decide)
  have f3 : bits (2013265920 + t * 524288 + b * 4096 + s * 512 + r) 7 2 = 0 := field172 (cl := 0) (cm := 0) (ch := 3932160) rfl hb0 hb1 hb2 hb3 (by decide) (by decide)
  have f4 : bits (2013265920 + t * 524288 + b * 4096 + s * 512 + r) 9 3 = s := field173 (cl := 0) (ch := 491520) rfl hb0 hb1 hb2 hb3 (by decide)
  refine decode_of_one (w := 2013265920 + t * 524288 + b * 4096 + s * 512 + r) rfl m (by decide) (fun x => ?_) hwf
  rw [decodeMajor_1E _ m, decodeM1E]
  simp only [f0, f1, f2, f3, f4, use, if_true, Nat.reduceAdd, Nat.zero_ne_one, Nat.one_ne_zero, if_false]

theorem arrive (t : Nat) (b : Nat) (s : Nat) (o : Nat) : Statement (.arrive t b s o) := by
  intro hwf _
  have hb : (t < 128 && b < 128 && s < 8 && o < 64 && 0 < s) = true := hwf
  simp only [Bool.and_eq_true, decide_eq_true_eq] at hb
  obtain ⟨⟨⟨⟨hb0, hb1⟩, hb2⟩, hb3⟩, hb4⟩ := hb
  have m : bits (2080374784 + t * 524288 + b * 4096 + s * 512 + o) 26 6 = 31 := field125 (cl := 0) (cm := 31) (ch := 0) rfl hb0 hb1 hb2 hb3 (by decide) (by decide)
  have f0 : bits (2080374784 + t * 524288 + b * 4096 + s * 512 + o) 0 6 = o := field126 (cl := 0) (ch := 32505856) rfl hb0 hb1 hb2 hb3 (by decide)
  have f1 : bits (2080374784 + t * 524288 + b * 4096 + s * 512 + o) 12 7 = b := field127 (cl := 0) (ch := 3968) rfl hb0 hb1 hb2 hb3 (by decide)
  have f2 : bits (2080374784 + t * 524288 + b * 4096 + s * 512 + o) 19 7 = t := field128 (cl := 0) (ch := 31) rfl hb0 hb1 hb2 hb3 (by decide)
  have f3 : bits (2080374784 + t * 524288 + b * 4096 + s * 512 + o) 6 3 = 0 := field129 (cl := 0) (cm := 0) (ch := 4063232) rfl hb0 hb1 hb2 hb3 (by decide) (by decide)
  have f4 : bits (2080374784 + t * 524288 + b * 4096 + s * 512 + o) 9 3 = s := field130 (cl := 0) (ch := 507904) rfl hb0 hb1 hb2 hb3 (by decide)
  refine decode_of_one (w := 2080374784 + t * 524288 + b * 4096 + s * 512 + o) rfl m (by decide) (fun x => ?_) hwf
  rw [decodeMajor_1F _ m, decodeM1F]
  simp only [f0, f1, f2, f3, f4, use, if_true, Nat.reduceAdd, Nat.zero_ne_one, Nat.one_ne_zero, if_false]

theorem arriveRelaxed (t : Nat) (b : Nat) (s : Nat) (o : Nat) : Statement (.arriveRelaxed t b s o) := by
  intro hwf _
  have hb : (t < 128 && b < 128 && s < 8 && o < 64 && 0 < s) = true := hwf
  simp only [Bool.and_eq_true, decide_eq_true_eq] at hb
  obtain ⟨⟨⟨⟨hb0, hb1⟩, hb2⟩, hb3⟩, hb4⟩ := hb
  have m : bits (2080374848 + t * 524288 + b * 4096 + s * 512 + o) 26 6 = 31 := field125 (cl := 64) (cm := 31) (ch := 0) rfl hb0 hb1 hb2 hb3 (by decide) (by decide)
  have f0 : bits (2080374848 + t * 524288 + b * 4096 + s * 512 + o) 0 6 = o := field126 (cl := 0) (ch := 32505857) rfl hb0 hb1 hb2 hb3 (by decide)
  have f1 : bits (2080374848 + t * 524288 + b * 4096 + s * 512 + o) 12 7 = b := field127 (cl := 64) (ch := 3968) rfl hb0 hb1 hb2 hb3 (by decide)
  have f2 : bits (2080374848 + t * 524288 + b * 4096 + s * 512 + o) 19 7 = t := field128 (cl := 64) (ch := 31) rfl hb0 hb1 hb2 hb3 (by decide)
  have f3 : bits (2080374848 + t * 524288 + b * 4096 + s * 512 + o) 6 3 = 1 := field129 (cl := 0) (cm := 1) (ch := 4063232) rfl hb0 hb1 hb2 hb3 (by decide) (by decide)
  have f4 : bits (2080374848 + t * 524288 + b * 4096 + s * 512 + o) 9 3 = s := field130 (cl := 64) (ch := 507904) rfl hb0 hb1 hb2 hb3 (by decide)
  refine decode_of_one (w := 2080374848 + t * 524288 + b * 4096 + s * 512 + o) rfl m (by decide) (fun x => ?_) hwf
  rw [decodeMajor_1F _ m, decodeM1F]
  simp only [f0, f1, f2, f3, f4, use, if_true, Nat.reduceAdd, Nat.zero_ne_one, Nat.one_ne_zero, if_false]

theorem hwait (t : Nat) (b : Nat) (s : Nat) (o : Nat) : Statement (.hwait t b s o) := by
  intro hwf _
  have hb : (t < 128 && b < 128 && s < 8 && o < 64 && 0 < s) = true := hwf
  simp only [Bool.and_eq_true, decide_eq_true_eq] at hb
  obtain ⟨⟨⟨⟨hb0, hb1⟩, hb2⟩, hb3⟩, hb4⟩ := hb
  have m : bits (2080374912 + t * 524288 + b * 4096 + s * 512 + o) 26 6 = 31 := field125 (cl := 128) (cm := 31) (ch := 0) rfl hb0 hb1 hb2 hb3 (by decide) (by decide)
  have f0 : bits (2080374912 + t * 524288 + b * 4096 + s * 512 + o) 0 6 = o := field126 (cl := 0) (ch := 32505858) rfl hb0 hb1 hb2 hb3 (by decide)
  have f1 : bits (2080374912 + t * 524288 + b * 4096 + s * 512 + o) 12 7 = b := field127 (cl := 128) (ch := 3968) rfl hb0 hb1 hb2 hb3 (by decide)
  have f2 : bits (2080374912 + t * 524288 + b * 4096 + s * 512 + o) 19 7 = t := field128 (cl := 128) (ch := 31) rfl hb0 hb1 hb2 hb3 (by decide)
  have f3 : bits (2080374912 + t * 524288 + b * 4096 + s * 512 + o) 6 3 = 2 := field129 (cl := 0) (cm := 2) (ch := 4063232) rfl hb0 hb1 hb2 hb3 (by decide) (by decide)
  have f4 : bits (2080374912 + t * 524288 + b * 4096 + s * 512 + o) 9 3 = s := field130 (cl := 128) (ch := 507904) rfl hb0 hb1 hb2 hb3 (by decide)
  refine decode_of_one (w := 2080374912 + t * 524288 + b * 4096 + s * 512 + o) rfl m (by decide) (fun x => ?_) hwf
  rw [decodeMajor_1F _ m, decodeM1F]
  simp only [f0, f1, f2, f3, f4, use, if_true, Nat.reduceAdd, Nat.zero_ne_one, Nat.one_ne_zero, if_false]

theorem htest (t : Nat) (b : Nat) (s : Nat) (o : Nat) : Statement (.htest t b s o) := by
  intro hwf _
  have hb : (t < 128 && b < 128 && s < 8 && o < 64 && 0 < s) = true := hwf
  simp only [Bool.and_eq_true, decide_eq_true_eq] at hb
  obtain ⟨⟨⟨⟨hb0, hb1⟩, hb2⟩, hb3⟩, hb4⟩ := hb
  have m : bits (2080374976 + t * 524288 + b * 4096 + s * 512 + o) 26 6 = 31 := field125 (cl := 192) (cm := 31) (ch := 0) rfl hb0 hb1 hb2 hb3 (by decide) (by decide)
  have f0 : bits (2080374976 + t * 524288 + b * 4096 + s * 512 + o) 0 6 = o := field126 (cl := 0) (ch := 32505859) rfl hb0 hb1 hb2 hb3 (by decide)
  have f1 : bits (2080374976 + t * 524288 + b * 4096 + s * 512 + o) 12 7 = b := field127 (cl := 192) (ch := 3968) rfl hb0 hb1 hb2 hb3 (by decide)
  have f2 : bits (2080374976 + t * 524288 + b * 4096 + s * 512 + o) 19 7 = t := field128 (cl := 192) (ch := 31) rfl hb0 hb1 hb2 hb3 (by decide)
  have f3 : bits (2080374976 + t * 524288 + b * 4096 + s * 512 + o) 6 3 = 3 := field129 (cl := 0) (cm := 3) (ch := 4063232) rfl hb0 hb1 hb2 hb3 (by decide) (by decide)
  have f4 : bits (2080374976 + t * 524288 + b * 4096 + s * 512 + o) 9 3 = s := field130 (cl := 192) (ch := 507904) rfl hb0 hb1 hb2 hb3 (by decide)
  refine decode_of_one (w := 2080374976 + t * 524288 + b * 4096 + s * 512 + o) rfl m (by decide) (fun x => ?_) hwf
  rw [decodeMajor_1F _ m, decodeM1F]
  simp only [f0, f1, f2, f3, f4, use, if_true, Nat.reduceAdd, Nat.zero_ne_one, Nat.one_ne_zero, if_false]

theorem pubf (a : Nat) : Statement (.pubf a) := by
  intro hwf _
  have hb : decide (a < 128) = true := hwf
  simp only [Bool.and_eq_true, decide_eq_true_eq] at hb
  have hb0 := hb
  have m : bits (2147483648 + a * 4096) 26 6 = 32 := field26 (cl := 0) (cm := 32) (ch := 0) rfl hb0 (by decide) (by decide)
  have f0 : bits (2147483648 + a * 4096) 0 5 = 0 := field27 (cl := 0) (cm := 0) (ch := 67108864) rfl hb0 (by decide) (by decide)
  have f1 : bits (2147483648 + a * 4096) 12 7 = a := field28 (cl := 0) (ch := 4096) rfl hb0 (by decide)
  have f2 : bits (2147483648 + a * 4096) 19 7 = 0 := field29 (cl := 0) (cm := 0) (ch := 32) rfl hb0 (by decide) (by decide)
  have f3 : bits (2147483648 + a * 4096) 5 7 = 0 := field30 (cl := 0) (cm := 0) (ch := 524288) rfl hb0 (by decide) (by decide)
  refine decode_of_one (w := 2147483648 + a * 4096) rfl m (by decide) (fun x => ?_) hwf
  rw [decodeMajor_20 _ m, decodeM20]
  simp only [f0, f1, f2, f3, use, if_true, Nat.reduceAdd, Nat.zero_ne_one, Nat.one_ne_zero, if_false]

theorem sync (a : Nat) : Statement (.sync a) := by
  intro hwf _
  have hb : decide (a < 128) = true := hwf
  simp only [Bool.and_eq_true, decide_eq_true_eq] at hb
  have hb0 := hb
  have m : bits (2147483649 + a * 4096) 26 6 = 32 := field26 (cl := 1) (cm := 32) (ch := 0) rfl hb0 (by decide) (by decide)
  have f0 : bits (2147483649 + a * 4096) 0 5 = 1 := field27 (cl := 0) (cm := 1) (ch := 67108864) rfl hb0 (by decide) (by decide)
  have f1 : bits (2147483649 + a * 4096) 12 7 = a := field28 (cl := 1) (ch := 4096) rfl hb0 (by decide)
  have f2 : bits (2147483649 + a * 4096) 19 7 = 0 := field29 (cl := 1) (cm := 0) (ch := 32) rfl hb0 (by decide) (by decide)
  have f3 : bits (2147483649 + a * 4096) 5 7 = 0 := field30 (cl := 1) (cm := 0) (ch := 524288) rfl hb0 (by decide) (by decide)
  refine decode_of_one (w := 2147483649 + a * 4096) rfl m (by decide) (fun x => ?_) hwf
  rw [decodeMajor_20 _ m, decodeM20]
  simp only [f0, f1, f2, f3, use, if_true, Nat.reduceAdd, Nat.zero_ne_one, Nat.one_ne_zero, if_false]

theorem done : Statement (.done) := by
  intro hwf _
  have m : bits (2147483650) 26 6 = 32 := field86 (cl := 2) (cm := 32) (ch := 0) rfl (by decide) (by decide)
  have f0 : bits (2147483650) 0 5 = 2 := field87 (cl := 0) (cm := 2) (ch := 67108864) rfl (by decide) (by decide)
  have f1 : bits (2147483650) 5 21 = 0 := field88 (cl := 2) (cm := 0) (ch := 32) rfl (by decide) (by decide)
  refine decode_of_one (w := 2147483650) rfl m (by decide) (fun x => ?_) hwf
  rw [decodeMajor_20 _ m, decodeM20]
  simp only [f0, f1, use, if_true, Nat.reduceAdd, Nat.zero_ne_one, Nat.one_ne_zero, if_false]

theorem tcbnew (d : Nat) (a : Nat) : Statement (.tcbnew d a) := by
  intro hwf _
  have hb : (d < 128 && a < 128) = true := hwf
  simp only [Bool.and_eq_true, decide_eq_true_eq] at hb
  obtain ⟨hb0, hb1⟩ := hb
  have m : bits (2147483651 + d * 524288 + a * 4096) 26 6 = 32 := field5 (cl := 3) (cm := 32) (ch := 0) rfl hb0 hb1 (by decide) (by decide)
  have f0 : bits (2147483651 + d * 524288 + a * 4096) 0 5 = 3 := field6 (cl := 0) (cm := 3) (ch := 67108864) rfl hb0 hb1 (by decide) (by decide)
  have f1 : bits (2147483651 + d * 524288 + a * 4096) 12 7 = a := field7 (cl := 3) (ch := 4096) rfl hb0 hb1 (by decide)
  have f2 : bits (2147483651 + d * 524288 + a * 4096) 19 7 = d := field8 (cl := 3) (ch := 32) rfl hb0 hb1 (by decide)
  have f3 : bits (2147483651 + d * 524288 + a * 4096) 5 7 = 0 := field9 (cl := 3) (cm := 0) (ch := 524288) rfl hb0 hb1 (by decide) (by decide)
  refine decode_of_one (w := 2147483651 + d * 524288 + a * 4096) rfl m (by decide) (fun x => ?_) hwf
  rw [decodeMajor_20 _ m, decodeM20]
  simp only [f0, f1, f2, f3, use, if_true, Nat.reduceAdd, Nat.zero_ne_one, Nat.one_ne_zero, if_false]

theorem tcbsucc (a : Nat) (b : Nat) : Statement (.tcbsucc a b) := by
  intro hwf _
  have hb : (a < 128 && b < 128) = true := hwf
  simp only [Bool.and_eq_true, decide_eq_true_eq] at hb
  obtain ⟨hb0, hb1⟩ := hb
  have m : bits (2147483652 + a * 4096 + b * 32) 26 6 = 32 := field89 (cl := 4) (cm := 32) (ch := 0) rfl hb0 hb1 (by decide) (by decide)
  have f0 : bits (2147483652 + a * 4096 + b * 32) 0 5 = 4 := field90 (cl := 0) (cm := 4) (ch := 67108864) rfl hb0 hb1 (by decide) (by decide)
  have f1 : bits (2147483652 + a * 4096 + b * 32) 12 7 = a := field91 (cl := 4) (ch := 4096) rfl hb0 hb1 (by decide)
  have f2 : bits (2147483652 + a * 4096 + b * 32) 19 7 = 0 := field92 (cl := 4) (cm := 0) (ch := 32) rfl hb0 hb1 (by decide) (by decide)
  have f3 : bits (2147483652 + a * 4096 + b * 32) 5 7 = b := field93 (cl := 4) (ch := 524288) rfl hb0 hb1 (by decide)
  refine decode_of_one (w := 2147483652 + a * 4096 + b * 32) rfl m (by decide) (fun x => ?_) hwf
  rw [decodeMajor_20 _ m, decodeM20]
  simp only [f0, f1, f2, f3, use, if_true, Nat.reduceAdd, Nat.zero_ne_one, Nat.one_ne_zero, if_false]

theorem tcbpred (a : Nat) (b : Nat) : Statement (.tcbpred a b) := by
  intro hwf _
  have hb : (a < 128 && b < 128) = true := hwf
  simp only [Bool.and_eq_true, decide_eq_true_eq] at hb
  obtain ⟨hb0, hb1⟩ := hb
  have m : bits (2147483653 + a * 4096 + b * 32) 26 6 = 32 := field89 (cl := 5) (cm := 32) (ch := 0) rfl hb0 hb1 (by decide) (by decide)
  have f0 : bits (2147483653 + a * 4096 + b * 32) 0 5 = 5 := field90 (cl := 0) (cm := 5) (ch := 67108864) rfl hb0 hb1 (by decide) (by decide)
  have f1 : bits (2147483653 + a * 4096 + b * 32) 12 7 = a := field91 (cl := 5) (ch := 4096) rfl hb0 hb1 (by decide)
  have f2 : bits (2147483653 + a * 4096 + b * 32) 19 7 = 0 := field92 (cl := 5) (cm := 0) (ch := 32) rfl hb0 hb1 (by decide) (by decide)
  have f3 : bits (2147483653 + a * 4096 + b * 32) 5 7 = b := field93 (cl := 5) (ch := 524288) rfl hb0 hb1 (by decide)
  refine decode_of_one (w := 2147483653 + a * 4096 + b * 32) rfl m (by decide) (fun x => ?_) hwf
  rw [decodeMajor_20 _ m, decodeM20]
  simp only [f0, f1, f2, f3, use, if_true, Nat.reduceAdd, Nat.zero_ne_one, Nat.one_ne_zero, if_false]

theorem spawn (d : Nat) (i : Nat) : Statement (.spawn d i) := by
  intro hwf _
  have hb : (d < 128 && i < 524288) = true := hwf
  simp only [Bool.and_eq_true, decide_eq_true_eq] at hb
  obtain ⟨hb0, hb1⟩ := hb
  have m : bits (2214592512 + d * 524288 + i) 26 6 = 33 := field51 (cl := 0) (cm := 33) (ch := 0) rfl hb0 hb1 (by decide) (by decide)
  have f0 : bits (2214592512 + d * 524288 + i) 0 19 = i := field52 (cl := 0) (ch := 4224) rfl hb0 hb1 (by decide)
  have f1 : bits (2214592512 + d * 524288 + i) 19 7 = d := field53 (cl := 0) (ch := 33) rfl hb0 hb1 (by decide)
  refine decode_of_one (w := 2214592512 + d * 524288 + i) rfl m (by decide) (fun x => ?_) hwf
  rw [decodeMajor_21 _ m, decodeM21]
  simp only [f0, f1, use, if_true, Nat.reduceAdd, Nat.zero_ne_one, Nat.one_ne_zero, if_false]

theorem waitt (a : Nat) : Statement (.waitt a) := by
  intro hwf _
  have hb : decide (a < 128) = true := hwf
  simp only [Bool.and_eq_true, decide_eq_true_eq] at hb
  have hb0 := hb
  have m : bits (2281701376 + a * 4096) 26 6 = 34 := field26 (cl := 0) (cm := 34) (ch := 0) rfl hb0 (by decide) (by decide)
  have f0 : bits (2281701376 + a * 4096) 0 5 = 0 := field27 (cl := 0) (cm := 0) (ch := 71303168) rfl hb0 (by decide) (by decide)
  have f1 : bits (2281701376 + a * 4096) 12 7 = a := field28 (cl := 0) (ch := 4352) rfl hb0 (by decide)
  have f2 : bits (2281701376 + a * 4096) 19 7 = 0 := field29 (cl := 0) (cm := 0) (ch := 34) rfl hb0 (by decide) (by decide)
  have f3 : bits (2281701376 + a * 4096) 5 7 = 0 := field30 (cl := 0) (cm := 0) (ch := 557056) rfl hb0 (by decide) (by decide)
  refine decode_of_one (w := 2281701376 + a * 4096) rfl m (by decide) (fun x => ?_) hwf
  rw [decodeMajor_22 _ m, decodeM22]
  simp only [f0, f1, f2, f3, use, if_true, Nat.reduceAdd, Nat.zero_ne_one, Nat.one_ne_zero, if_false]

theorem waita (a : Nat) : Statement (.waita a) := by
  intro hwf _
  have hb : decide (a < 128) = true := hwf
  simp only [Bool.and_eq_true, decide_eq_true_eq] at hb
  have hb0 := hb
  have m : bits (2281701377 + a * 4096) 26 6 = 34 := field26 (cl := 1) (cm := 34) (ch := 0) rfl hb0 (by decide) (by decide)
  have f0 : bits (2281701377 + a * 4096) 0 5 = 1 := field27 (cl := 0) (cm := 1) (ch := 71303168) rfl hb0 (by decide) (by decide)
  have f1 : bits (2281701377 + a * 4096) 12 7 = a := field28 (cl := 1) (ch := 4352) rfl hb0 (by decide)
  have f2 : bits (2281701377 + a * 4096) 19 7 = 0 := field29 (cl := 1) (cm := 0) (ch := 34) rfl hb0 (by decide) (by decide)
  have f3 : bits (2281701377 + a * 4096) 5 7 = 0 := field30 (cl := 1) (cm := 0) (ch := 557056) rfl hb0 (by decide) (by decide)
  refine decode_of_one (w := 2281701377 + a * 4096) rfl m (by decide) (fun x => ?_) hwf
  rw [decodeMajor_22 _ m, decodeM22]
  simp only [f0, f1, f2, f3, use, if_true, Nat.reduceAdd, Nat.zero_ne_one, Nat.one_ne_zero, if_false]

theorem tfirst (d : Nat) : Statement (.tfirst d) := by
  intro hwf _
  have hb : decide (d < 128) = true := hwf
  simp only [Bool.and_eq_true, decide_eq_true_eq] at hb
  have hb0 := hb
  have m : bits (2281701378 + d * 524288) 26 6 = 34 := field22 (cl := 2) (cm := 34) (ch := 0) rfl hb0 (by decide) (by decide)
  have f0 : bits (2281701378 + d * 524288) 0 5 = 2 := field23 (cl := 0) (cm := 2) (ch := 71303168) rfl hb0 (by decide) (by decide)
  have f1 : bits (2281701378 + d * 524288) 19 7 = d := field24 (cl := 2) (ch := 34) rfl hb0 (by decide)
  have f2 : bits (2281701378 + d * 524288) 5 14 = 0 := field25 (cl := 2) (cm := 0) (ch := 4352) rfl hb0 (by decide) (by decide)
  refine decode_of_one (w := 2281701378 + d * 524288) rfl m (by decide) (fun x => ?_) hwf
  rw [decodeMajor_22 _ m, decodeM22]
  simp only [f0, f1, f2, use, if_true, Nat.reduceAdd, Nat.zero_ne_one, Nat.one_ne_zero, if_false]

theorem tclr (a : Nat) : Statement (.tclr a) := by
  intro hwf _
  have hb : decide (a < 128) = true := hwf
  simp only [Bool.and_eq_true, decide_eq_true_eq] at hb
  have hb0 := hb
  have m : bits (2281701379 + a * 4096) 26 6 = 34 := field26 (cl := 3) (cm := 34) (ch := 0) rfl hb0 (by decide) (by decide)
  have f0 : bits (2281701379 + a * 4096) 0 5 = 3 := field27 (cl := 0) (cm := 3) (ch := 71303168) rfl hb0 (by decide) (by decide)
  have f1 : bits (2281701379 + a * 4096) 12 7 = a := field28 (cl := 3) (ch := 4352) rfl hb0 (by decide)
  have f2 : bits (2281701379 + a * 4096) 19 7 = 0 := field29 (cl := 3) (cm := 0) (ch := 34) rfl hb0 (by decide) (by decide)
  have f3 : bits (2281701379 + a * 4096) 5 7 = 0 := field30 (cl := 3) (cm := 0) (ch := 557056) rfl hb0 (by decide) (by decide)
  refine decode_of_one (w := 2281701379 + a * 4096) rfl m (by decide) (fun x => ?_) hwf
  rw [decodeMajor_22 _ m, decodeM22]
  simp only [f0, f1, f2, f3, use, if_true, Nat.reduceAdd, Nat.zero_ne_one, Nat.one_ne_zero, if_false]

theorem cwait (a : Nat) (b : Nat) : Statement (.cwait a b) := by
  intro hwf _
  have hb : (a < 128 && b < 128) = true := hwf
  simp only [Bool.and_eq_true, decide_eq_true_eq] at hb
  obtain ⟨hb0, hb1⟩ := hb
  have m : bits (2281701380 + a * 4096 + b * 32) 26 6 = 34 := field89 (cl := 4) (cm := 34) (ch := 0) rfl hb0 hb1 (by decide) (by decide)
  have f0 : bits (2281701380 + a * 4096 + b * 32) 0 5 = 4 := field90 (cl := 0) (cm := 4) (ch := 71303168) rfl hb0 hb1 (by decide) (by decide)
  have f1 : bits (2281701380 + a * 4096 + b * 32) 12 7 = a := field91 (cl := 4) (ch := 4352) rfl hb0 hb1 (by decide)
  have f2 : bits (2281701380 + a * 4096 + b * 32) 19 7 = 0 := field92 (cl := 4) (cm := 0) (ch := 34) rfl hb0 hb1 (by decide) (by decide)
  have f3 : bits (2281701380 + a * 4096 + b * 32) 5 7 = b := field93 (cl := 4) (ch := 557056) rfl hb0 hb1 (by decide)
  refine decode_of_one (w := 2281701380 + a * 4096 + b * 32) rfl m (by decide) (fun x => ?_) hwf
  rw [decodeMajor_22 _ m, decodeM22]
  simp only [f0, f1, f2, f3, use, if_true, Nat.reduceAdd, Nat.zero_ne_one, Nat.one_ne_zero, if_false]

theorem cread (d : Nat) (a : Nat) : Statement (.cread d a) := by
  intro hwf _
  have hb : (d < 128 && a < 128) = true := hwf
  simp only [Bool.and_eq_true, decide_eq_true_eq] at hb
  obtain ⟨hb0, hb1⟩ := hb
  have m : bits (2281701381 + d * 524288 + a * 4096) 26 6 = 34 := field5 (cl := 5) (cm := 34) (ch := 0) rfl hb0 hb1 (by decide) (by decide)
  have f0 : bits (2281701381 + d * 524288 + a * 4096) 0 5 = 5 := field6 (cl := 0) (cm := 5) (ch := 71303168) rfl hb0 hb1 (by decide) (by decide)
  have f1 : bits (2281701381 + d * 524288 + a * 4096) 12 7 = a := field7 (cl := 5) (ch := 4352) rfl hb0 hb1 (by decide)
  have f2 : bits (2281701381 + d * 524288 + a * 4096) 19 7 = d := field8 (cl := 5) (ch := 34) rfl hb0 hb1 (by decide)
  have f3 : bits (2281701381 + d * 524288 + a * 4096) 5 7 = 0 := field9 (cl := 5) (cm := 0) (ch := 557056) rfl hb0 hb1 (by decide) (by decide)
  refine decode_of_one (w := 2281701381 + d * 524288 + a * 4096) rfl m (by decide) (fun x => ?_) hwf
  rw [decodeMajor_22 _ m, decodeM22]
  simp only [f0, f1, f2, f3, use, if_true, Nat.reduceAdd, Nat.zero_ne_one, Nat.one_ne_zero, if_false]

theorem rdpace (d : Nat) : Statement (.rdpace d) := by
  intro hwf _
  have hb : decide (d < 128) = true := hwf
  simp only [Bool.and_eq_true, decide_eq_true_eq] at hb
  have hb0 := hb
  have m : bits (2281701382 + d * 524288) 26 6 = 34 := field22 (cl := 6) (cm := 34) (ch := 0) rfl hb0 (by decide) (by decide)
  have f0 : bits (2281701382 + d * 524288) 0 5 = 6 := field23 (cl := 0) (cm := 6) (ch := 71303168) rfl hb0 (by decide) (by decide)
  have f1 : bits (2281701382 + d * 524288) 19 7 = d := field24 (cl := 6) (ch := 34) rfl hb0 (by decide)
  have f2 : bits (2281701382 + d * 524288) 5 14 = 0 := field25 (cl := 6) (cm := 0) (ch := 4352) rfl hb0 (by decide) (by decide)
  refine decode_of_one (w := 2281701382 + d * 524288) rfl m (by decide) (fun x => ?_) hwf
  rw [decodeMajor_22 _ m, decodeM22]
  simp only [f0, f1, f2, use, if_true, Nat.reduceAdd, Nat.zero_ne_one, Nat.one_ne_zero, if_false]

theorem vclaim (q : Nat) (g : Nat) : Statement (.vclaim q g) := by
  intro hwf _
  have hb : (q < 128 && g < 128 && 0 < q && q < 65) = true := hwf
  simp only [Bool.and_eq_true, decide_eq_true_eq] at hb
  obtain ⟨⟨⟨hb0, hb1⟩, hb2⟩, hb3⟩ := hb
  have m : bits (2684354560 + q * 2048 + g * 16) 26 6 = 40 := field174 (cl := 0) (cm := 40) (ch := 0) rfl hb0 hb1 (by decide) (by decide)
  have f0 : bits (2684354560 + q * 2048 + g * 16) 0 4 = 0 := field175 (cl := 0) (cm := 0) (ch := 167772160) rfl hb0 hb1 (by decide) (by decide)
  have f1 : bits (2684354560 + q * 2048 + g * 16) 11 7 = q := field176 (cl := 0) (ch := 10240) rfl hb0 hb1 (by decide)
  have f2 : bits (2684354560 + q * 2048 + g * 16) 18 8 = 0 := field177 (cl := 0) (cm := 0) (ch := 40) rfl hb0 hb1 (by decide) (by decide)
  have f3 : bits (2684354560 + q * 2048 + g * 16) 4 7 = g := field178 (cl := 0) (ch := 1310720) rfl hb0 hb1 (by decide)
  refine decode_of_one (w := 2684354560 + q * 2048 + g * 16) rfl m (by decide) (fun x => ?_) hwf
  rw [decodeMajor_28 _ m, decodeM28]
  simp only [f0, f1, f2, f3, use, if_true, Nat.reduceAdd, Nat.zero_ne_one, Nat.one_ne_zero, if_false]

theorem vfree : Statement (.vfree) := by
  intro hwf _
  have m : bits (2684354561) 26 6 = 40 := field86 (cl := 1) (cm := 40) (ch := 0) rfl (by decide) (by decide)
  have f0 : bits (2684354561) 0 4 = 1 := field179 (cl := 0) (cm := 1) (ch := 167772160) rfl (by decide) (by decide)
  have f1 : bits (2684354561) 4 22 = 0 := field180 (cl := 1) (cm := 0) (ch := 40) rfl (by decide) (by decide)
  refine decode_of_one (w := 2684354561) rfl m (by decide) (fun x => ?_) hwf
  rw [decodeMajor_28 _ m, decodeM28]
  simp only [f0, f1, use, if_true, Nat.reduceAdd, Nat.zero_ne_one, Nat.one_ne_zero, if_false]

theorem repf (s : Nat) (l : Nat) (g : Nat) : Statement (.repf s l g) := by
  intro hwf _
  have hb : (s < 32 && l < 16 && g < 128) = true := hwf
  simp only [Bool.and_eq_true, decide_eq_true_eq] at hb
  obtain ⟨⟨hb0, hb1⟩, hb2⟩ := hb
  have m : bits (2684354562 + s * 32768 + l * 2048 + g * 16) 26 6 = 40 := field181 (cl := 2) (cm := 40) (ch := 0) rfl hb0 hb1 hb2 (by decide) (by decide)
  have f0 : bits (2684354562 + s * 32768 + l * 2048 + g * 16) 0 4 = 2 := field182 (cl := 0) (cm := 2) (ch := 167772160) rfl hb0 hb1 hb2 (by decide) (by decide)
  have f1 : bits (2684354562 + s * 32768 + l * 2048 + g * 16) 11 4 = l := field183 (cl := 2) (ch := 81920) rfl hb0 hb1 hb2 (by decide)
  have f2 : bits (2684354562 + s * 32768 + l * 2048 + g * 16) 15 5 = s := field184 (cl := 2) (ch := 2560) rfl hb0 hb1 hb2 (by decide)
  have f3 : bits (2684354562 + s * 32768 + l * 2048 + g * 16) 20 6 = 0 := field185 (cl := 2) (cm := 0) (ch := 40) rfl hb0 hb1 hb2 (by decide) (by decide)
  have f4 : bits (2684354562 + s * 32768 + l * 2048 + g * 16) 4 7 = g := field186 (cl := 2) (ch := 1310720) rfl hb0 hb1 hb2 (by decide)
  refine decode_of_one (w := 2684354562 + s * 32768 + l * 2048 + g * 16) rfl m (by decide) (fun x => ?_) hwf
  rw [decodeMajor_28 _ m, decodeM28]
  simp only [f0, f1, f2, f3, f4, use, if_true, Nat.reduceAdd, Nat.zero_ne_one, Nat.one_ne_zero, if_false]

theorem vwait : Statement (.vwait) := by
  intro hwf _
  have m : bits (2684354563) 26 6 = 40 := field86 (cl := 3) (cm := 40) (ch := 0) rfl (by decide) (by decide)
  have f0 : bits (2684354563) 0 4 = 3 := field179 (cl := 0) (cm := 3) (ch := 167772160) rfl (by decide) (by decide)
  have f1 : bits (2684354563) 4 22 = 0 := field180 (cl := 3) (cm := 0) (ch := 40) rfl (by decide) (by decide)
  refine decode_of_one (w := 2684354563) rfl m (by decide) (fun x => ?_) hwf
  rw [decodeMajor_28 _ m, decodeM28]
  simp only [f0, f1, use, if_true, Nat.reduceAdd, Nat.zero_ne_one, Nat.one_ne_zero, if_false]

theorem vld (d : Nat) (a : Nat) (g : Nat) (w : Nat) : Statement (.vld d a g w) := by
  intro hwf _
  have hb : (d < 32 && a < 32 && g < 128 && w < 4 && w < 3) = true := hwf
  simp only [Bool.and_eq_true, decide_eq_true_eq] at hb
  obtain ⟨⟨⟨⟨hb0, hb1⟩, hb2⟩, hb3⟩, hb4⟩ := hb
  have m : bits (2751463424 + d * 2097152 + a * 65536 + g * 16 + w) 26 6 = 41 := field187 (cl := 0) (cm := 41) (ch := 0) rfl hb0 hb1 hb2 hb3 (by decide) (by decide)
  have f0 : bits (2751463424 + d * 2097152 + a * 65536 + g * 16 + w) 0 2 = w := field188 (cl := 0) (ch := 687865856) rfl hb0 hb1 hb2 hb3 (by decide)
  have f1 : bits (2751463424 + d * 2097152 + a * 65536 + g * 16 + w) 11 5 = 0 := field189 (cl := 0) (cm := 0) (ch := 41984) rfl hb0 hb1 hb2 hb3 (by decide) (by decide)
  have f2 : bits (2751463424 + d * 2097152 + a * 65536 + g * 16 + w) 16 5 = a := field190 (cl := 0) (ch := 1312) rfl hb0 hb1 hb2 hb3 (by decide)
  have f3 : bits (2751463424 + d * 2097152 + a * 65536 + g * 16 + w) 2 2 = 0 := field191 (cl := 0) (cm := 0) (ch := 171966464) rfl hb0 hb1 hb2 hb3 (by decide) (by decide)
  have f4 : bits (2751463424 + d * 2097152 + a * 65536 + g * 16 + w) 21 5 = d := field192 (cl := 0) (ch := 41) rfl hb0 hb1 hb2 hb3 (by decide)
  have f5 : bits (2751463424 + d * 2097152 + a * 65536 + g * 16 + w) 4 7 = g := field193 (cl := 0) (ch := 1343488) rfl hb0 hb1 hb2 hb3 (by decide)
  refine decode_of_one (w := 2751463424 + d * 2097152 + a * 65536 + g * 16 + w) rfl m (by decide) (fun x => ?_) hwf
  rw [decodeMajor_29 _ m, decodeM29]
  simp only [f0, f1, f2, f3, f4, f5, use, if_true, Nat.reduceAdd, Nat.zero_ne_one, Nat.one_ne_zero, if_false]

theorem vlds (d : Nat) (a : Nat) (b : Nat) (g : Nat) (w : Nat) : Statement (.vlds d a b g w) := by
  intro hwf _
  have hb : (d < 32 && a < 32 && b < 32 && g < 128 && w < 4 && w < 3) = true := hwf
  simp only [Bool.and_eq_true, decide_eq_true_eq] at hb
  obtain ⟨⟨⟨⟨⟨hb0, hb1⟩, hb2⟩, hb3⟩, hb4⟩, hb5⟩ := hb
  have m : bits (2751463428 + d * 2097152 + a * 65536 + b * 2048 + g * 16 + w) 26 6 = 41 := field194 (cl := 4) (cm := 41) (ch := 0) rfl hb0 hb1 hb2 hb3 hb4 (by decide) (by decide)
  have f0 : bits (2751463428 + d * 2097152 + a * 65536 + b * 2048 + g * 16 + w) 0 2 = w := field195 (cl := 0) (ch := 687865857) rfl hb0 hb1 hb2 hb3 hb4 (by decide)
  have f1 : bits (2751463428 + d * 2097152 + a * 65536 + b * 2048 + g * 16 + w) 11 5 = b := field196 (cl := 4) (ch := 41984) rfl hb0 hb1 hb2 hb3 hb4 (by decide)
  have f2 : bits (2751463428 + d * 2097152 + a * 65536 + b * 2048 + g * 16 + w) 16 5 = a := field197 (cl := 4) (ch := 1312) rfl hb0 hb1 hb2 hb3 hb4 (by decide)
  have f3 : bits (2751463428 + d * 2097152 + a * 65536 + b * 2048 + g * 16 + w) 2 2 = 1 := field198 (cl := 0) (cm := 1) (ch := 171966464) rfl hb0 hb1 hb2 hb3 hb4 (by decide) (by decide)
  have f4 : bits (2751463428 + d * 2097152 + a * 65536 + b * 2048 + g * 16 + w) 21 5 = d := field199 (cl := 4) (ch := 41) rfl hb0 hb1 hb2 hb3 hb4 (by decide)
  have f5 : bits (2751463428 + d * 2097152 + a * 65536 + b * 2048 + g * 16 + w) 4 7 = g := field200 (cl := 4) (ch := 1343488) rfl hb0 hb1 hb2 hb3 hb4 (by decide)
  refine decode_of_one (w := 2751463428 + d * 2097152 + a * 65536 + b * 2048 + g * 16 + w) rfl m (by decide) (fun x => ?_) hwf
  rw [decodeMajor_29 _ m, decodeM29]
  simp only [f0, f1, f2, f3, f4, f5, use, if_true, Nat.reduceAdd, Nat.zero_ne_one, Nat.one_ne_zero, if_false]

theorem vldx (d : Nat) (a : Nat) (b : Nat) (g : Nat) (w : Nat) : Statement (.vldx d a b g w) := by
  intro hwf _
  have hb : (d < 32 && a < 32 && b < 32 && g < 128 && w < 4 && w < 3) = true := hwf
  simp only [Bool.and_eq_true, decide_eq_true_eq] at hb
  obtain ⟨⟨⟨⟨⟨hb0, hb1⟩, hb2⟩, hb3⟩, hb4⟩, hb5⟩ := hb
  have m : bits (2751463432 + d * 2097152 + a * 65536 + b * 2048 + g * 16 + w) 26 6 = 41 := field194 (cl := 8) (cm := 41) (ch := 0) rfl hb0 hb1 hb2 hb3 hb4 (by decide) (by decide)
  have f0 : bits (2751463432 + d * 2097152 + a * 65536 + b * 2048 + g * 16 + w) 0 2 = w := field195 (cl := 0) (ch := 687865858) rfl hb0 hb1 hb2 hb3 hb4 (by decide)
  have f1 : bits (2751463432 + d * 2097152 + a * 65536 + b * 2048 + g * 16 + w) 11 5 = b := field196 (cl := 8) (ch := 41984) rfl hb0 hb1 hb2 hb3 hb4 (by decide)
  have f2 : bits (2751463432 + d * 2097152 + a * 65536 + b * 2048 + g * 16 + w) 16 5 = a := field197 (cl := 8) (ch := 1312) rfl hb0 hb1 hb2 hb3 hb4 (by decide)
  have f3 : bits (2751463432 + d * 2097152 + a * 65536 + b * 2048 + g * 16 + w) 2 2 = 2 := field198 (cl := 0) (cm := 2) (ch := 171966464) rfl hb0 hb1 hb2 hb3 hb4 (by decide) (by decide)
  have f4 : bits (2751463432 + d * 2097152 + a * 65536 + b * 2048 + g * 16 + w) 21 5 = d := field199 (cl := 8) (ch := 41) rfl hb0 hb1 hb2 hb3 hb4 (by decide)
  have f5 : bits (2751463432 + d * 2097152 + a * 65536 + b * 2048 + g * 16 + w) 4 7 = g := field200 (cl := 8) (ch := 1343488) rfl hb0 hb1 hb2 hb3 hb4 (by decide)
  refine decode_of_one (w := 2751463432 + d * 2097152 + a * 65536 + b * 2048 + g * 16 + w) rfl m (by decide) (fun x => ?_) hwf
  rw [decodeMajor_29 _ m, decodeM29]
  simp only [f0, f1, f2, f3, f4, f5, use, if_true, Nat.reduceAdd, Nat.zero_ne_one, Nat.one_ne_zero, if_false]

theorem vldPostinc (d : Nat) (a : Nat) (g : Nat) (w : Nat) : Statement (.vldPostinc d a g w) := by
  intro hwf _
  have hb : (d < 32 && a < 32 && g < 128 && w < 4 && w < 3) = true := hwf
  simp only [Bool.and_eq_true, decide_eq_true_eq] at hb
  obtain ⟨⟨⟨⟨hb0, hb1⟩, hb2⟩, hb3⟩, hb4⟩ := hb
  have m : bits (2751463436 + d * 2097152 + a * 65536 + g * 16 + w) 26 6 = 41 := field187 (cl := 12) (cm := 41) (ch := 0) rfl hb0 hb1 hb2 hb3 (by decide) (by decide)
  have f0 : bits (2751463436 + d * 2097152 + a * 65536 + g * 16 + w) 0 2 = w := field188 (cl := 0) (ch := 687865859) rfl hb0 hb1 hb2 hb3 (by decide)
  have f1 : bits (2751463436 + d * 2097152 + a * 65536 + g * 16 + w) 11 5 = 0 := field189 (cl := 12) (cm := 0) (ch := 41984) rfl hb0 hb1 hb2 hb3 (by decide) (by decide)
  have f2 : bits (2751463436 + d * 2097152 + a * 65536 + g * 16 + w) 16 5 = a := field190 (cl := 12) (ch := 1312) rfl hb0 hb1 hb2 hb3 (by decide)
  have f3 : bits (2751463436 + d * 2097152 + a * 65536 + g * 16 + w) 2 2 = 3 := field191 (cl := 0) (cm := 3) (ch := 171966464) rfl hb0 hb1 hb2 hb3 (by decide) (by decide)
  have f4 : bits (2751463436 + d * 2097152 + a * 65536 + g * 16 + w) 21 5 = d := field192 (cl := 12) (ch := 41) rfl hb0 hb1 hb2 hb3 (by decide)
  have f5 : bits (2751463436 + d * 2097152 + a * 65536 + g * 16 + w) 4 7 = g := field193 (cl := 12) (ch := 1343488) rfl hb0 hb1 hb2 hb3 (by decide)
  refine decode_of_one (w := 2751463436 + d * 2097152 + a * 65536 + g * 16 + w) rfl m (by decide) (fun x => ?_) hwf
  rw [decodeMajor_29 _ m, decodeM29]
  simp only [f0, f1, f2, f3, f4, f5, use, if_true, Nat.reduceAdd, Nat.zero_ne_one, Nat.one_ne_zero, if_false]

theorem vst (d : Nat) (a : Nat) (g : Nat) (w : Nat) : Statement (.vst d a g w) := by
  intro hwf _
  have hb : (d < 32 && a < 32 && g < 128 && w < 4 && w < 3) = true := hwf
  simp only [Bool.and_eq_true, decide_eq_true_eq] at hb
  obtain ⟨⟨⟨⟨hb0, hb1⟩, hb2⟩, hb3⟩, hb4⟩ := hb
  have m : bits (2818572288 + d * 2097152 + a * 65536 + g * 16 + w) 26 6 = 42 := field187 (cl := 0) (cm := 42) (ch := 0) rfl hb0 hb1 hb2 hb3 (by decide) (by decide)
  have f0 : bits (2818572288 + d * 2097152 + a * 65536 + g * 16 + w) 0 2 = w := field188 (cl := 0) (ch := 704643072) rfl hb0 hb1 hb2 hb3 (by decide)
  have f1 : bits (2818572288 + d * 2097152 + a * 65536 + g * 16 + w) 11 5 = 0 := field189 (cl := 0) (cm := 0) (ch := 43008) rfl hb0 hb1 hb2 hb3 (by decide) (by decide)
  have f2 : bits (2818572288 + d * 2097152 + a * 65536 + g * 16 + w) 16 5 = a := field190 (cl := 0) (ch := 1344) rfl hb0 hb1 hb2 hb3 (by decide)
  have f3 : bits (2818572288 + d * 2097152 + a * 65536 + g * 16 + w) 2 2 = 0 := field191 (cl := 0) (cm := 0) (ch := 176160768) rfl hb0 hb1 hb2 hb3 (by decide) (by decide)
  have f4 : bits (2818572288 + d * 2097152 + a * 65536 + g * 16 + w) 21 5 = d := field192 (cl := 0) (ch := 42) rfl hb0 hb1 hb2 hb3 (by decide)
  have f5 : bits (2818572288 + d * 2097152 + a * 65536 + g * 16 + w) 4 7 = g := field193 (cl := 0) (ch := 1376256) rfl hb0 hb1 hb2 hb3 (by decide)
  refine decode_of_one (w := 2818572288 + d * 2097152 + a * 65536 + g * 16 + w) rfl m (by decide) (fun x => ?_) hwf
  rw [decodeMajor_2A _ m, decodeM2A]
  simp only [f0, f1, f2, f3, f4, f5, use, if_true, Nat.reduceAdd, Nat.zero_ne_one, Nat.one_ne_zero, if_false]

theorem vsts (d : Nat) (a : Nat) (b : Nat) (g : Nat) (w : Nat) : Statement (.vsts d a b g w) := by
  intro hwf _
  have hb : (d < 32 && a < 32 && b < 32 && g < 128 && w < 4 && w < 3) = true := hwf
  simp only [Bool.and_eq_true, decide_eq_true_eq] at hb
  obtain ⟨⟨⟨⟨⟨hb0, hb1⟩, hb2⟩, hb3⟩, hb4⟩, hb5⟩ := hb
  have m : bits (2818572292 + d * 2097152 + a * 65536 + b * 2048 + g * 16 + w) 26 6 = 42 := field194 (cl := 4) (cm := 42) (ch := 0) rfl hb0 hb1 hb2 hb3 hb4 (by decide) (by decide)
  have f0 : bits (2818572292 + d * 2097152 + a * 65536 + b * 2048 + g * 16 + w) 0 2 = w := field195 (cl := 0) (ch := 704643073) rfl hb0 hb1 hb2 hb3 hb4 (by decide)
  have f1 : bits (2818572292 + d * 2097152 + a * 65536 + b * 2048 + g * 16 + w) 11 5 = b := field196 (cl := 4) (ch := 43008) rfl hb0 hb1 hb2 hb3 hb4 (by decide)
  have f2 : bits (2818572292 + d * 2097152 + a * 65536 + b * 2048 + g * 16 + w) 16 5 = a := field197 (cl := 4) (ch := 1344) rfl hb0 hb1 hb2 hb3 hb4 (by decide)
  have f3 : bits (2818572292 + d * 2097152 + a * 65536 + b * 2048 + g * 16 + w) 2 2 = 1 := field198 (cl := 0) (cm := 1) (ch := 176160768) rfl hb0 hb1 hb2 hb3 hb4 (by decide) (by decide)
  have f4 : bits (2818572292 + d * 2097152 + a * 65536 + b * 2048 + g * 16 + w) 21 5 = d := field199 (cl := 4) (ch := 42) rfl hb0 hb1 hb2 hb3 hb4 (by decide)
  have f5 : bits (2818572292 + d * 2097152 + a * 65536 + b * 2048 + g * 16 + w) 4 7 = g := field200 (cl := 4) (ch := 1376256) rfl hb0 hb1 hb2 hb3 hb4 (by decide)
  refine decode_of_one (w := 2818572292 + d * 2097152 + a * 65536 + b * 2048 + g * 16 + w) rfl m (by decide) (fun x => ?_) hwf
  rw [decodeMajor_2A _ m, decodeM2A]
  simp only [f0, f1, f2, f3, f4, f5, use, if_true, Nat.reduceAdd, Nat.zero_ne_one, Nat.one_ne_zero, if_false]

theorem vstx (d : Nat) (a : Nat) (b : Nat) (g : Nat) (w : Nat) : Statement (.vstx d a b g w) := by
  intro hwf _
  have hb : (d < 32 && a < 32 && b < 32 && g < 128 && w < 4 && w < 3) = true := hwf
  simp only [Bool.and_eq_true, decide_eq_true_eq] at hb
  obtain ⟨⟨⟨⟨⟨hb0, hb1⟩, hb2⟩, hb3⟩, hb4⟩, hb5⟩ := hb
  have m : bits (2818572296 + d * 2097152 + a * 65536 + b * 2048 + g * 16 + w) 26 6 = 42 := field194 (cl := 8) (cm := 42) (ch := 0) rfl hb0 hb1 hb2 hb3 hb4 (by decide) (by decide)
  have f0 : bits (2818572296 + d * 2097152 + a * 65536 + b * 2048 + g * 16 + w) 0 2 = w := field195 (cl := 0) (ch := 704643074) rfl hb0 hb1 hb2 hb3 hb4 (by decide)
  have f1 : bits (2818572296 + d * 2097152 + a * 65536 + b * 2048 + g * 16 + w) 11 5 = b := field196 (cl := 8) (ch := 43008) rfl hb0 hb1 hb2 hb3 hb4 (by decide)
  have f2 : bits (2818572296 + d * 2097152 + a * 65536 + b * 2048 + g * 16 + w) 16 5 = a := field197 (cl := 8) (ch := 1344) rfl hb0 hb1 hb2 hb3 hb4 (by decide)
  have f3 : bits (2818572296 + d * 2097152 + a * 65536 + b * 2048 + g * 16 + w) 2 2 = 2 := field198 (cl := 0) (cm := 2) (ch := 176160768) rfl hb0 hb1 hb2 hb3 hb4 (by decide) (by decide)
  have f4 : bits (2818572296 + d * 2097152 + a * 65536 + b * 2048 + g * 16 + w) 21 5 = d := field199 (cl := 8) (ch := 42) rfl hb0 hb1 hb2 hb3 hb4 (by decide)
  have f5 : bits (2818572296 + d * 2097152 + a * 65536 + b * 2048 + g * 16 + w) 4 7 = g := field200 (cl := 8) (ch := 1376256) rfl hb0 hb1 hb2 hb3 hb4 (by decide)
  refine decode_of_one (w := 2818572296 + d * 2097152 + a * 65536 + b * 2048 + g * 16 + w) rfl m (by decide) (fun x => ?_) hwf
  rw [decodeMajor_2A _ m, decodeM2A]
  simp only [f0, f1, f2, f3, f4, f5, use, if_true, Nat.reduceAdd, Nat.zero_ne_one, Nat.one_ne_zero, if_false]

theorem vstPostinc (d : Nat) (a : Nat) (g : Nat) (w : Nat) : Statement (.vstPostinc d a g w) := by
  intro hwf _
  have hb : (d < 32 && a < 32 && g < 128 && w < 4 && w < 3) = true := hwf
  simp only [Bool.and_eq_true, decide_eq_true_eq] at hb
  obtain ⟨⟨⟨⟨hb0, hb1⟩, hb2⟩, hb3⟩, hb4⟩ := hb
  have m : bits (2818572300 + d * 2097152 + a * 65536 + g * 16 + w) 26 6 = 42 := field187 (cl := 12) (cm := 42) (ch := 0) rfl hb0 hb1 hb2 hb3 (by decide) (by decide)
  have f0 : bits (2818572300 + d * 2097152 + a * 65536 + g * 16 + w) 0 2 = w := field188 (cl := 0) (ch := 704643075) rfl hb0 hb1 hb2 hb3 (by decide)
  have f1 : bits (2818572300 + d * 2097152 + a * 65536 + g * 16 + w) 11 5 = 0 := field189 (cl := 12) (cm := 0) (ch := 43008) rfl hb0 hb1 hb2 hb3 (by decide) (by decide)
  have f2 : bits (2818572300 + d * 2097152 + a * 65536 + g * 16 + w) 16 5 = a := field190 (cl := 12) (ch := 1344) rfl hb0 hb1 hb2 hb3 (by decide)
  have f3 : bits (2818572300 + d * 2097152 + a * 65536 + g * 16 + w) 2 2 = 3 := field191 (cl := 0) (cm := 3) (ch := 176160768) rfl hb0 hb1 hb2 hb3 (by decide) (by decide)
  have f4 : bits (2818572300 + d * 2097152 + a * 65536 + g * 16 + w) 21 5 = d := field192 (cl := 12) (ch := 42) rfl hb0 hb1 hb2 hb3 (by decide)
  have f5 : bits (2818572300 + d * 2097152 + a * 65536 + g * 16 + w) 4 7 = g := field193 (cl := 12) (ch := 1376256) rfl hb0 hb1 hb2 hb3 (by decide)
  refine decode_of_one (w := 2818572300 + d * 2097152 + a * 65536 + g * 16 + w) rfl m (by decide) (fun x => ?_) hwf
  rw [decodeMajor_2A _ m, decodeM2A]
  simp only [f0, f1, f2, f3, f4, f5, use, if_true, Nat.reduceAdd, Nat.zero_ne_one, Nat.one_ne_zero, if_false]

theorem vbcast (d : Nat) (b : Nat) (g : Nat) : Statement (.vbcast d b g) := by
  intro hwf _
  have hb : (d < 32 && b < 32 && g < 128) = true := hwf
  simp only [Bool.and_eq_true, decide_eq_true_eq] at hb
  obtain ⟨⟨hb0, hb1⟩, hb2⟩ := hb
  have m : bits (2885681152 + d * 2097152 + b * 2048 + g * 16) 26 6 = 43 := field201 (cl := 0) (cm := 43) (ch := 0) rfl hb0 hb1 hb2 (by decide) (by decide)
  have f0 : bits (2885681152 + d * 2097152 + b * 2048 + g * 16) 0 4 = 0 := field202 (cl := 0) (cm := 0) (ch := 180355072) rfl hb0 hb1 hb2 (by decide) (by decide)
  have f1 : bits (2885681152 + d * 2097152 + b * 2048 + g * 16) 11 5 = b := field203 (cl := 0) (ch := 44032) rfl hb0 hb1 hb2 (by decide)
  have f2 : bits (2885681152 + d * 2097152 + b * 2048 + g * 16) 16 5 = 0 := field204 (cl := 0) (cm := 0) (ch := 1376) rfl hb0 hb1 hb2 (by decide) (by decide)
  have f3 : bits (2885681152 + d * 2097152 + b * 2048 + g * 16) 21 5 = d := field205 (cl := 0) (ch := 43) rfl hb0 hb1 hb2 (by decide)
  have f4 : bits (2885681152 + d * 2097152 + b * 2048 + g * 16) 4 7 = g := field206 (cl := 0) (ch := 1409024) rfl hb0 hb1 hb2 (by decide)
  refine decode_of_one (w := 2885681152 + d * 2097152 + b * 2048 + g * 16) rfl m (by decide) (fun x => ?_) hwf
  rw [decodeMajor_2B _ m, decodeM2B]
  simp only [f0, f1, f2, f3, f4, use, if_true, Nat.reduceAdd, Nat.zero_ne_one, Nat.one_ne_zero, if_false]

theorem vmovg (d : Nat) (a : Nat) (l : Nat) : Statement (.vmovg d a l) := by
  intro hwf _
  have hb : (d < 32 && a < 32 && l < 64) = true := hwf
  simp only [Bool.and_eq_true, decide_eq_true_eq] at hb
  obtain ⟨⟨hb0, hb1⟩, hb2⟩ := hb
  have m : bits (2885681153 + d * 2097152 + a * 65536 + l * 16) 26 6 = 43 := field207 (cl := 1) (cm := 43) (ch := 0) rfl hb0 hb1 hb2 (by decide) (by decide)
  have f0 : bits (2885681153 + d * 2097152 + a * 65536 + l * 16) 0 4 = 1 := field208 (cl := 0) (cm := 1) (ch := 180355072) rfl hb0 hb1 hb2 (by decide) (by decide)
  have f1 : bits (2885681153 + d * 2097152 + a * 65536 + l * 16) 10 6 = 0 := field209 (cl := 1) (cm := 0) (ch := 44032) rfl hb0 hb1 hb2 (by decide) (by decide)
  have f2 : bits (2885681153 + d * 2097152 + a * 65536 + l * 16) 16 5 = a := field210 (cl := 1) (ch := 1376) rfl hb0 hb1 hb2 (by decide)
  have f3 : bits (2885681153 + d * 2097152 + a * 65536 + l * 16) 21 5 = d := field211 (cl := 1) (ch := 43) rfl hb0 hb1 hb2 (by decide)
  have f4 : bits (2885681153 + d * 2097152 + a * 65536 + l * 16) 4 6 = l := field212 (cl := 1) (ch := 2818048) rfl hb0 hb1 hb2 (by decide)
  refine decode_of_one (w := 2885681153 + d * 2097152 + a * 65536 + l * 16) rfl m (by decide) (fun x => ?_) hwf
  rw [decodeMajor_2B _ m, decodeM2B]
  simp only [f0, f1, f2, f3, f4, use, if_true, Nat.reduceAdd, Nat.zero_ne_one, Nat.one_ne_zero, if_false]

theorem vmovl (d : Nat) (b : Nat) (l : Nat) : Statement (.vmovl d b l) := by
  intro hwf _
  have hb : (d < 32 && b < 32 && l < 64) = true := hwf
  simp only [Bool.and_eq_true, decide_eq_true_eq] at hb
  obtain ⟨⟨hb0, hb1⟩, hb2⟩ := hb
  have m : bits (2885681154 + d * 2097152 + b * 2048 + l * 16) 26 6 = 43 := field213 (cl := 2) (cm := 43) (ch := 0) rfl hb0 hb1 hb2 (by decide) (by decide)
  have f0 : bits (2885681154 + d * 2097152 + b * 2048 + l * 16) 0 4 = 2 := field214 (cl := 0) (cm := 2) (ch := 180355072) rfl hb0 hb1 hb2 (by decide) (by decide)
  have f1 : bits (2885681154 + d * 2097152 + b * 2048 + l * 16) 10 1 = 0 := field215 (cl := 2) (cm := 0) (ch := 1409024) rfl hb0 hb1 hb2 (by decide) (by decide)
  have f2 : bits (2885681154 + d * 2097152 + b * 2048 + l * 16) 11 5 = b := field216 (cl := 2) (ch := 44032) rfl hb0 hb1 hb2 (by decide)
  have f3 : bits (2885681154 + d * 2097152 + b * 2048 + l * 16) 16 5 = 0 := field217 (cl := 2) (cm := 0) (ch := 1376) rfl hb0 hb1 hb2 (by decide) (by decide)
  have f4 : bits (2885681154 + d * 2097152 + b * 2048 + l * 16) 21 5 = d := field218 (cl := 2) (ch := 43) rfl hb0 hb1 hb2 (by decide)
  have f5 : bits (2885681154 + d * 2097152 + b * 2048 + l * 16) 4 6 = l := field219 (cl := 2) (ch := 2818048) rfl hb0 hb1 hb2 (by decide)
  refine decode_of_one (w := 2885681154 + d * 2097152 + b * 2048 + l * 16) rfl m (by decide) (fun x => ?_) hwf
  rw [decodeMajor_2B _ m, decodeM2B]
  simp only [f0, f1, f2, f3, f4, f5, use, if_true, Nat.reduceAdd, Nat.zero_ne_one, Nat.one_ne_zero, if_false]

theorem viota (d : Nat) (g : Nat) : Statement (.viota d g) := by
  intro hwf _
  have hb : (d < 32 && g < 128) = true := hwf
  simp only [Bool.and_eq_true, decide_eq_true_eq] at hb
  obtain ⟨hb0, hb1⟩ := hb
  have m : bits (2885681155 + d * 2097152 + g * 16) 26 6 = 43 := field220 (cl := 3) (cm := 43) (ch := 0) rfl hb0 hb1 (by decide) (by decide)
  have f0 : bits (2885681155 + d * 2097152 + g * 16) 0 4 = 3 := field221 (cl := 0) (cm := 3) (ch := 180355072) rfl hb0 hb1 (by decide) (by decide)
  have f1 : bits (2885681155 + d * 2097152 + g * 16) 11 10 = 0 := field222 (cl := 3) (cm := 0) (ch := 1376) rfl hb0 hb1 (by decide) (by decide)
  have f2 : bits (2885681155 + d * 2097152 + g * 16) 21 5 = d := field223 (cl := 3) (ch := 43) rfl hb0 hb1 (by decide)
  have f3 : bits (2885681155 + d * 2097152 + g * 16) 4 7 = g := field224 (cl := 3) (ch := 1409024) rfl hb0 hb1 (by decide)
  refine decode_of_one (w := 2885681155 + d * 2097152 + g * 16) rfl m (by decide) (fun x => ?_) hwf
  rw [decodeMajor_2B _ m, decodeM2B]
  simp only [f0, f1, f2, f3, use, if_true, Nat.reduceAdd, Nat.zero_ne_one, Nat.one_ne_zero, if_false]

theorem vfadd (d : Nat) (a : Nat) (b : Nat) (g : Nat) : Statement (.vfadd d a b g) := by
  intro hwf _
  have hb : (d < 32 && a < 32 && b < 32 && g < 128) = true := hwf
  simp only [Bool.and_eq_true, decide_eq_true_eq] at hb
  obtain ⟨⟨⟨hb0, hb1⟩, hb2⟩, hb3⟩ := hb
  have m : bits (2952790016 + d * 2097152 + a * 65536 + b * 2048 + g * 16) 26 6 = 44 := field225 (cl := 0) (cm := 44) (ch := 0) rfl hb0 hb1 hb2 hb3 (by decide) (by decide)
  have f0 : bits (2952790016 + d * 2097152 + a * 65536 + b * 2048 + g * 16) 0 4 = 0 := field226 (cl := 0) (cm := 0) (ch := 184549376) rfl hb0 hb1 hb2 hb3 (by decide) (by decide)
  have f1 : bits (2952790016 + d * 2097152 + a * 65536 + b * 2048 + g * 16) 11 5 = b := field227 (cl := 0) (ch := 45056) rfl hb0 hb1 hb2 hb3 (by decide)
  have f2 : bits (2952790016 + d * 2097152 + a * 65536 + b * 2048 + g * 16) 16 5 = a := field228 (cl := 0) (ch := 1408) rfl hb0 hb1 hb2 hb3 (by decide)
  have f3 : bits (2952790016 + d * 2097152 + a * 65536 + b * 2048 + g * 16) 21 5 = d := field229 (cl := 0) (ch := 44) rfl hb0 hb1 hb2 hb3 (by decide)
  have f4 : bits (2952790016 + d * 2097152 + a * 65536 + b * 2048 + g * 16) 4 7 = g := field230 (cl := 0) (ch := 1441792) rfl hb0 hb1 hb2 hb3 (by decide)
  refine decode_of_one (w := 2952790016 + d * 2097152 + a * 65536 + b * 2048 + g * 16) rfl m (by decide) (fun x => ?_) hwf
  rw [decodeMajor_2C _ m, decodeM2C]
  simp only [f0, f1, f2, f3, f4, use, if_true, Nat.reduceAdd, Nat.zero_ne_one, Nat.one_ne_zero, if_false]

theorem vfsub (d : Nat) (a : Nat) (b : Nat) (g : Nat) : Statement (.vfsub d a b g) := by
  intro hwf _
  have hb : (d < 32 && a < 32 && b < 32 && g < 128) = true := hwf
  simp only [Bool.and_eq_true, decide_eq_true_eq] at hb
  obtain ⟨⟨⟨hb0, hb1⟩, hb2⟩, hb3⟩ := hb
  have m : bits (2952790017 + d * 2097152 + a * 65536 + b * 2048 + g * 16) 26 6 = 44 := field225 (cl := 1) (cm := 44) (ch := 0) rfl hb0 hb1 hb2 hb3 (by decide) (by decide)
  have f0 : bits (2952790017 + d * 2097152 + a * 65536 + b * 2048 + g * 16) 0 4 = 1 := field226 (cl := 0) (cm := 1) (ch := 184549376) rfl hb0 hb1 hb2 hb3 (by decide) (by decide)
  have f1 : bits (2952790017 + d * 2097152 + a * 65536 + b * 2048 + g * 16) 11 5 = b := field227 (cl := 1) (ch := 45056) rfl hb0 hb1 hb2 hb3 (by decide)
  have f2 : bits (2952790017 + d * 2097152 + a * 65536 + b * 2048 + g * 16) 16 5 = a := field228 (cl := 1) (ch := 1408) rfl hb0 hb1 hb2 hb3 (by decide)
  have f3 : bits (2952790017 + d * 2097152 + a * 65536 + b * 2048 + g * 16) 21 5 = d := field229 (cl := 1) (ch := 44) rfl hb0 hb1 hb2 hb3 (by decide)
  have f4 : bits (2952790017 + d * 2097152 + a * 65536 + b * 2048 + g * 16) 4 7 = g := field230 (cl := 1) (ch := 1441792) rfl hb0 hb1 hb2 hb3 (by decide)
  refine decode_of_one (w := 2952790017 + d * 2097152 + a * 65536 + b * 2048 + g * 16) rfl m (by decide) (fun x => ?_) hwf
  rw [decodeMajor_2C _ m, decodeM2C]
  simp only [f0, f1, f2, f3, f4, use, if_true, Nat.reduceAdd, Nat.zero_ne_one, Nat.one_ne_zero, if_false]

theorem vfmul (d : Nat) (a : Nat) (b : Nat) (g : Nat) : Statement (.vfmul d a b g) := by
  intro hwf _
  have hb : (d < 32 && a < 32 && b < 32 && g < 128) = true := hwf
  simp only [Bool.and_eq_true, decide_eq_true_eq] at hb
  obtain ⟨⟨⟨hb0, hb1⟩, hb2⟩, hb3⟩ := hb
  have m : bits (2952790018 + d * 2097152 + a * 65536 + b * 2048 + g * 16) 26 6 = 44 := field225 (cl := 2) (cm := 44) (ch := 0) rfl hb0 hb1 hb2 hb3 (by decide) (by decide)
  have f0 : bits (2952790018 + d * 2097152 + a * 65536 + b * 2048 + g * 16) 0 4 = 2 := field226 (cl := 0) (cm := 2) (ch := 184549376) rfl hb0 hb1 hb2 hb3 (by decide) (by decide)
  have f1 : bits (2952790018 + d * 2097152 + a * 65536 + b * 2048 + g * 16) 11 5 = b := field227 (cl := 2) (ch := 45056) rfl hb0 hb1 hb2 hb3 (by decide)
  have f2 : bits (2952790018 + d * 2097152 + a * 65536 + b * 2048 + g * 16) 16 5 = a := field228 (cl := 2) (ch := 1408) rfl hb0 hb1 hb2 hb3 (by decide)
  have f3 : bits (2952790018 + d * 2097152 + a * 65536 + b * 2048 + g * 16) 21 5 = d := field229 (cl := 2) (ch := 44) rfl hb0 hb1 hb2 hb3 (by decide)
  have f4 : bits (2952790018 + d * 2097152 + a * 65536 + b * 2048 + g * 16) 4 7 = g := field230 (cl := 2) (ch := 1441792) rfl hb0 hb1 hb2 hb3 (by decide)
  refine decode_of_one (w := 2952790018 + d * 2097152 + a * 65536 + b * 2048 + g * 16) rfl m (by decide) (fun x => ?_) hwf
  rw [decodeMajor_2C _ m, decodeM2C]
  simp only [f0, f1, f2, f3, f4, use, if_true, Nat.reduceAdd, Nat.zero_ne_one, Nat.one_ne_zero, if_false]

theorem vfma (d : Nat) (a : Nat) (b : Nat) (g : Nat) : Statement (.vfma d a b g) := by
  intro hwf _
  have hb : (d < 32 && a < 32 && b < 32 && g < 128) = true := hwf
  simp only [Bool.and_eq_true, decide_eq_true_eq] at hb
  obtain ⟨⟨⟨hb0, hb1⟩, hb2⟩, hb3⟩ := hb
  have m : bits (2952790019 + d * 2097152 + a * 65536 + b * 2048 + g * 16) 26 6 = 44 := field225 (cl := 3) (cm := 44) (ch := 0) rfl hb0 hb1 hb2 hb3 (by decide) (by decide)
  have f0 : bits (2952790019 + d * 2097152 + a * 65536 + b * 2048 + g * 16) 0 4 = 3 := field226 (cl := 0) (cm := 3) (ch := 184549376) rfl hb0 hb1 hb2 hb3 (by decide) (by decide)
  have f1 : bits (2952790019 + d * 2097152 + a * 65536 + b * 2048 + g * 16) 11 5 = b := field227 (cl := 3) (ch := 45056) rfl hb0 hb1 hb2 hb3 (by decide)
  have f2 : bits (2952790019 + d * 2097152 + a * 65536 + b * 2048 + g * 16) 16 5 = a := field228 (cl := 3) (ch := 1408) rfl hb0 hb1 hb2 hb3 (by decide)
  have f3 : bits (2952790019 + d * 2097152 + a * 65536 + b * 2048 + g * 16) 21 5 = d := field229 (cl := 3) (ch := 44) rfl hb0 hb1 hb2 hb3 (by decide)
  have f4 : bits (2952790019 + d * 2097152 + a * 65536 + b * 2048 + g * 16) 4 7 = g := field230 (cl := 3) (ch := 1441792) rfl hb0 hb1 hb2 hb3 (by decide)
  refine decode_of_one (w := 2952790019 + d * 2097152 + a * 65536 + b * 2048 + g * 16) rfl m (by decide) (fun x => ?_) hwf
  rw [decodeMajor_2C _ m, decodeM2C]
  simp only [f0, f1, f2, f3, f4, use, if_true, Nat.reduceAdd, Nat.zero_ne_one, Nat.one_ne_zero, if_false]

theorem vfnma (d : Nat) (a : Nat) (b : Nat) (g : Nat) : Statement (.vfnma d a b g) := by
  intro hwf _
  have hb : (d < 32 && a < 32 && b < 32 && g < 128) = true := hwf
  simp only [Bool.and_eq_true, decide_eq_true_eq] at hb
  obtain ⟨⟨⟨hb0, hb1⟩, hb2⟩, hb3⟩ := hb
  have m : bits (2952790020 + d * 2097152 + a * 65536 + b * 2048 + g * 16) 26 6 = 44 := field225 (cl := 4) (cm := 44) (ch := 0) rfl hb0 hb1 hb2 hb3 (by decide) (by decide)
  have f0 : bits (2952790020 + d * 2097152 + a * 65536 + b * 2048 + g * 16) 0 4 = 4 := field226 (cl := 0) (cm := 4) (ch := 184549376) rfl hb0 hb1 hb2 hb3 (by decide) (by decide)
  have f1 : bits (2952790020 + d * 2097152 + a * 65536 + b * 2048 + g * 16) 11 5 = b := field227 (cl := 4) (ch := 45056) rfl hb0 hb1 hb2 hb3 (by decide)
  have f2 : bits (2952790020 + d * 2097152 + a * 65536 + b * 2048 + g * 16) 16 5 = a := field228 (cl := 4) (ch := 1408) rfl hb0 hb1 hb2 hb3 (by decide)
  have f3 : bits (2952790020 + d * 2097152 + a * 65536 + b * 2048 + g * 16) 21 5 = d := field229 (cl := 4) (ch := 44) rfl hb0 hb1 hb2 hb3 (by decide)
  have f4 : bits (2952790020 + d * 2097152 + a * 65536 + b * 2048 + g * 16) 4 7 = g := field230 (cl := 4) (ch := 1441792) rfl hb0 hb1 hb2 hb3 (by decide)
  refine decode_of_one (w := 2952790020 + d * 2097152 + a * 65536 + b * 2048 + g * 16) rfl m (by decide) (fun x => ?_) hwf
  rw [decodeMajor_2C _ m, decodeM2C]
  simp only [f0, f1, f2, f3, f4, use, if_true, Nat.reduceAdd, Nat.zero_ne_one, Nat.one_ne_zero, if_false]

theorem vfmin (d : Nat) (a : Nat) (b : Nat) (g : Nat) : Statement (.vfmin d a b g) := by
  intro hwf _
  have hb : (d < 32 && a < 32 && b < 32 && g < 128) = true := hwf
  simp only [Bool.and_eq_true, decide_eq_true_eq] at hb
  obtain ⟨⟨⟨hb0, hb1⟩, hb2⟩, hb3⟩ := hb
  have m : bits (2952790021 + d * 2097152 + a * 65536 + b * 2048 + g * 16) 26 6 = 44 := field225 (cl := 5) (cm := 44) (ch := 0) rfl hb0 hb1 hb2 hb3 (by decide) (by decide)
  have f0 : bits (2952790021 + d * 2097152 + a * 65536 + b * 2048 + g * 16) 0 4 = 5 := field226 (cl := 0) (cm := 5) (ch := 184549376) rfl hb0 hb1 hb2 hb3 (by decide) (by decide)
  have f1 : bits (2952790021 + d * 2097152 + a * 65536 + b * 2048 + g * 16) 11 5 = b := field227 (cl := 5) (ch := 45056) rfl hb0 hb1 hb2 hb3 (by decide)
  have f2 : bits (2952790021 + d * 2097152 + a * 65536 + b * 2048 + g * 16) 16 5 = a := field228 (cl := 5) (ch := 1408) rfl hb0 hb1 hb2 hb3 (by decide)
  have f3 : bits (2952790021 + d * 2097152 + a * 65536 + b * 2048 + g * 16) 21 5 = d := field229 (cl := 5) (ch := 44) rfl hb0 hb1 hb2 hb3 (by decide)
  have f4 : bits (2952790021 + d * 2097152 + a * 65536 + b * 2048 + g * 16) 4 7 = g := field230 (cl := 5) (ch := 1441792) rfl hb0 hb1 hb2 hb3 (by decide)
  refine decode_of_one (w := 2952790021 + d * 2097152 + a * 65536 + b * 2048 + g * 16) rfl m (by decide) (fun x => ?_) hwf
  rw [decodeMajor_2C _ m, decodeM2C]
  simp only [f0, f1, f2, f3, f4, use, if_true, Nat.reduceAdd, Nat.zero_ne_one, Nat.one_ne_zero, if_false]

theorem vfmax (d : Nat) (a : Nat) (b : Nat) (g : Nat) : Statement (.vfmax d a b g) := by
  intro hwf _
  have hb : (d < 32 && a < 32 && b < 32 && g < 128) = true := hwf
  simp only [Bool.and_eq_true, decide_eq_true_eq] at hb
  obtain ⟨⟨⟨hb0, hb1⟩, hb2⟩, hb3⟩ := hb
  have m : bits (2952790022 + d * 2097152 + a * 65536 + b * 2048 + g * 16) 26 6 = 44 := field225 (cl := 6) (cm := 44) (ch := 0) rfl hb0 hb1 hb2 hb3 (by decide) (by decide)
  have f0 : bits (2952790022 + d * 2097152 + a * 65536 + b * 2048 + g * 16) 0 4 = 6 := field226 (cl := 0) (cm := 6) (ch := 184549376) rfl hb0 hb1 hb2 hb3 (by decide) (by decide)
  have f1 : bits (2952790022 + d * 2097152 + a * 65536 + b * 2048 + g * 16) 11 5 = b := field227 (cl := 6) (ch := 45056) rfl hb0 hb1 hb2 hb3 (by decide)
  have f2 : bits (2952790022 + d * 2097152 + a * 65536 + b * 2048 + g * 16) 16 5 = a := field228 (cl := 6) (ch := 1408) rfl hb0 hb1 hb2 hb3 (by decide)
  have f3 : bits (2952790022 + d * 2097152 + a * 65536 + b * 2048 + g * 16) 21 5 = d := field229 (cl := 6) (ch := 44) rfl hb0 hb1 hb2 hb3 (by decide)
  have f4 : bits (2952790022 + d * 2097152 + a * 65536 + b * 2048 + g * 16) 4 7 = g := field230 (cl := 6) (ch := 1441792) rfl hb0 hb1 hb2 hb3 (by decide)
  refine decode_of_one (w := 2952790022 + d * 2097152 + a * 65536 + b * 2048 + g * 16) rfl m (by decide) (fun x => ?_) hwf
  rw [decodeMajor_2C _ m, decodeM2C]
  simp only [f0, f1, f2, f3, f4, use, if_true, Nat.reduceAdd, Nat.zero_ne_one, Nat.one_ne_zero, if_false]

theorem vfabs (d : Nat) (a : Nat) (g : Nat) : Statement (.vfabs d a g) := by
  intro hwf _
  have hb : (d < 32 && a < 32 && g < 128) = true := hwf
  simp only [Bool.and_eq_true, decide_eq_true_eq] at hb
  obtain ⟨⟨hb0, hb1⟩, hb2⟩ := hb
  have m : bits (2952790023 + d * 2097152 + a * 65536 + g * 16) 26 6 = 44 := field231 (cl := 7) (cm := 44) (ch := 0) rfl hb0 hb1 hb2 (by decide) (by decide)
  have f0 : bits (2952790023 + d * 2097152 + a * 65536 + g * 16) 0 4 = 7 := field232 (cl := 0) (cm := 7) (ch := 184549376) rfl hb0 hb1 hb2 (by decide) (by decide)
  have f1 : bits (2952790023 + d * 2097152 + a * 65536 + g * 16) 11 5 = 0 := field233 (cl := 7) (cm := 0) (ch := 45056) rfl hb0 hb1 hb2 (by decide) (by decide)
  have f2 : bits (2952790023 + d * 2097152 + a * 65536 + g * 16) 16 5 = a := field234 (cl := 7) (ch := 1408) rfl hb0 hb1 hb2 (by decide)
  have f3 : bits (2952790023 + d * 2097152 + a * 65536 + g * 16) 21 5 = d := field235 (cl := 7) (ch := 44) rfl hb0 hb1 hb2 (by decide)
  have f4 : bits (2952790023 + d * 2097152 + a * 65536 + g * 16) 4 7 = g := field236 (cl := 7) (ch := 1441792) rfl hb0 hb1 hb2 (by decide)
  refine decode_of_one (w := 2952790023 + d * 2097152 + a * 65536 + g * 16) rfl m (by decide) (fun x => ?_) hwf
  rw [decodeMajor_2C _ m, decodeM2C]
  simp only [f0, f1, f2, f3, f4, use, if_true, Nat.reduceAdd, Nat.zero_ne_one, Nat.one_ne_zero, if_false]

theorem vfneg (d : Nat) (a : Nat) (g : Nat) : Statement (.vfneg d a g) := by
  intro hwf _
  have hb : (d < 32 && a < 32 && g < 128) = true := hwf
  simp only [Bool.and_eq_true, decide_eq_true_eq] at hb
  obtain ⟨⟨hb0, hb1⟩, hb2⟩ := hb
  have m : bits (2952790024 + d * 2097152 + a * 65536 + g * 16) 26 6 = 44 := field231 (cl := 8) (cm := 44) (ch := 0) rfl hb0 hb1 hb2 (by decide) (by decide)
  have f0 : bits (2952790024 + d * 2097152 + a * 65536 + g * 16) 0 4 = 8 := field232 (cl := 0) (cm := 8) (ch := 184549376) rfl hb0 hb1 hb2 (by decide) (by decide)
  have f1 : bits (2952790024 + d * 2097152 + a * 65536 + g * 16) 11 5 = 0 := field233 (cl := 8) (cm := 0) (ch := 45056) rfl hb0 hb1 hb2 (by decide) (by decide)
  have f2 : bits (2952790024 + d * 2097152 + a * 65536 + g * 16) 16 5 = a := field234 (cl := 8) (ch := 1408) rfl hb0 hb1 hb2 (by decide)
  have f3 : bits (2952790024 + d * 2097152 + a * 65536 + g * 16) 21 5 = d := field235 (cl := 8) (ch := 44) rfl hb0 hb1 hb2 (by decide)
  have f4 : bits (2952790024 + d * 2097152 + a * 65536 + g * 16) 4 7 = g := field236 (cl := 8) (ch := 1441792) rfl hb0 hb1 hb2 (by decide)
  refine decode_of_one (w := 2952790024 + d * 2097152 + a * 65536 + g * 16) rfl m (by decide) (fun x => ?_) hwf
  rw [decodeMajor_2C _ m, decodeM2C]
  simp only [f0, f1, f2, f3, f4, use, if_true, Nat.reduceAdd, Nat.zero_ne_one, Nat.one_ne_zero, if_false]

theorem vfcmp (d : Nat) (a : Nat) (b : Nat) (g : Nat) (c : Nat) : Statement (.vfcmp d a b g c) := by
  intro hwf _
  have hb : (d < 32 && a < 32 && b < 32 && g < 128 && c < 8) = true := hwf
  simp only [Bool.and_eq_true, decide_eq_true_eq] at hb
  obtain ⟨⟨⟨⟨hb0, hb1⟩, hb2⟩, hb3⟩, hb4⟩ := hb
  have m : bits (3019898880 + d * 2097152 + a * 65536 + b * 2048 + g * 16 + c) 26 6 = 45 := field237 (cl := 0) (cm := 45) (ch := 0) rfl hb0 hb1 hb2 hb3 hb4 (by decide) (by decide)
  have f0 : bits (3019898880 + d * 2097152 + a * 65536 + b * 2048 + g * 16 + c) 0 3 = c := field238 (cl := 0) (ch := 377487360) rfl hb0 hb1 hb2 hb3 hb4 (by decide)
  have f1 : bits (3019898880 + d * 2097152 + a * 65536 + b * 2048 + g * 16 + c) 11 5 = b := field239 (cl := 0) (ch := 46080) rfl hb0 hb1 hb2 hb3 hb4 (by decide)
  have f2 : bits (3019898880 + d * 2097152 + a * 65536 + b * 2048 + g * 16 + c) 16 5 = a := field240 (cl := 0) (ch := 1440) rfl hb0 hb1 hb2 hb3 hb4 (by decide)
  have f3 : bits (3019898880 + d * 2097152 + a * 65536 + b * 2048 + g * 16 + c) 21 5 = d := field241 (cl := 0) (ch := 45) rfl hb0 hb1 hb2 hb3 hb4 (by decide)
  have f4 : bits (3019898880 + d * 2097152 + a * 65536 + b * 2048 + g * 16 + c) 3 1 = 0 := field242 (cl := 0) (cm := 0) (ch := 188743680) rfl hb0 hb1 hb2 hb3 hb4 (by decide) (by decide)
  have f5 : bits (3019898880 + d * 2097152 + a * 65536 + b * 2048 + g * 16 + c) 4 7 = g := field243 (cl := 0) (ch := 1474560) rfl hb0 hb1 hb2 hb3 hb4 (by decide)
  refine decode_of_one (w := 3019898880 + d * 2097152 + a * 65536 + b * 2048 + g * 16 + c) rfl m (by decide) (fun x => ?_) hwf
  rw [decodeMajor_2D _ m, decodeM2D]
  simp only [f0, f1, f2, f3, f4, f5, use, if_true, Nat.reduceAdd, Nat.zero_ne_one, Nat.one_ne_zero, if_false]

theorem vadd (d : Nat) (a : Nat) (b : Nat) (g : Nat) : Statement (.vadd d a b g) := by
  intro hwf _
  have hb : (d < 32 && a < 32 && b < 32 && g < 128) = true := hwf
  simp only [Bool.and_eq_true, decide_eq_true_eq] at hb
  obtain ⟨⟨⟨hb0, hb1⟩, hb2⟩, hb3⟩ := hb
  have m : bits (3087007744 + d * 2097152 + a * 65536 + b * 2048 + g * 16) 26 6 = 46 := field225 (cl := 0) (cm := 46) (ch := 0) rfl hb0 hb1 hb2 hb3 (by decide) (by decide)
  have f0 : bits (3087007744 + d * 2097152 + a * 65536 + b * 2048 + g * 16) 0 4 = 0 := field226 (cl := 0) (cm := 0) (ch := 192937984) rfl hb0 hb1 hb2 hb3 (by decide) (by decide)
  have f1 : bits (3087007744 + d * 2097152 + a * 65536 + b * 2048 + g * 16) 11 5 = b := field227 (cl := 0) (ch := 47104) rfl hb0 hb1 hb2 hb3 (by decide)
  have f2 : bits (3087007744 + d * 2097152 + a * 65536 + b * 2048 + g * 16) 16 5 = a := field228 (cl := 0) (ch := 1472) rfl hb0 hb1 hb2 hb3 (by decide)
  have f3 : bits (3087007744 + d * 2097152 + a * 65536 + b * 2048 + g * 16) 21 5 = d := field229 (cl := 0) (ch := 46) rfl hb0 hb1 hb2 hb3 (by decide)
  have f4 : bits (3087007744 + d * 2097152 + a * 65536 + b * 2048 + g * 16) 4 7 = g := field230 (cl := 0) (ch := 1507328) rfl hb0 hb1 hb2 hb3 (by decide)
  refine decode_of_one (w := 3087007744 + d * 2097152 + a * 65536 + b * 2048 + g * 16) rfl m (by decide) (fun x => ?_) hwf
  rw [decodeMajor_2E _ m, decodeM2E]
  simp only [f0, f1, f2, f3, f4, use, if_true, Nat.reduceAdd, Nat.zero_ne_one, Nat.one_ne_zero, if_false]

theorem vsub (d : Nat) (a : Nat) (b : Nat) (g : Nat) : Statement (.vsub d a b g) := by
  intro hwf _
  have hb : (d < 32 && a < 32 && b < 32 && g < 128) = true := hwf
  simp only [Bool.and_eq_true, decide_eq_true_eq] at hb
  obtain ⟨⟨⟨hb0, hb1⟩, hb2⟩, hb3⟩ := hb
  have m : bits (3087007745 + d * 2097152 + a * 65536 + b * 2048 + g * 16) 26 6 = 46 := field225 (cl := 1) (cm := 46) (ch := 0) rfl hb0 hb1 hb2 hb3 (by decide) (by decide)
  have f0 : bits (3087007745 + d * 2097152 + a * 65536 + b * 2048 + g * 16) 0 4 = 1 := field226 (cl := 0) (cm := 1) (ch := 192937984) rfl hb0 hb1 hb2 hb3 (by decide) (by decide)
  have f1 : bits (3087007745 + d * 2097152 + a * 65536 + b * 2048 + g * 16) 11 5 = b := field227 (cl := 1) (ch := 47104) rfl hb0 hb1 hb2 hb3 (by decide)
  have f2 : bits (3087007745 + d * 2097152 + a * 65536 + b * 2048 + g * 16) 16 5 = a := field228 (cl := 1) (ch := 1472) rfl hb0 hb1 hb2 hb3 (by decide)
  have f3 : bits (3087007745 + d * 2097152 + a * 65536 + b * 2048 + g * 16) 21 5 = d := field229 (cl := 1) (ch := 46) rfl hb0 hb1 hb2 hb3 (by decide)
  have f4 : bits (3087007745 + d * 2097152 + a * 65536 + b * 2048 + g * 16) 4 7 = g := field230 (cl := 1) (ch := 1507328) rfl hb0 hb1 hb2 hb3 (by decide)
  refine decode_of_one (w := 3087007745 + d * 2097152 + a * 65536 + b * 2048 + g * 16) rfl m (by decide) (fun x => ?_) hwf
  rw [decodeMajor_2E _ m, decodeM2E]
  simp only [f0, f1, f2, f3, f4, use, if_true, Nat.reduceAdd, Nat.zero_ne_one, Nat.one_ne_zero, if_false]

theorem vmul (d : Nat) (a : Nat) (b : Nat) (g : Nat) : Statement (.vmul d a b g) := by
  intro hwf _
  have hb : (d < 32 && a < 32 && b < 32 && g < 128) = true := hwf
  simp only [Bool.and_eq_true, decide_eq_true_eq] at hb
  obtain ⟨⟨⟨hb0, hb1⟩, hb2⟩, hb3⟩ := hb
  have m : bits (3087007746 + d * 2097152 + a * 65536 + b * 2048 + g * 16) 26 6 = 46 := field225 (cl := 2) (cm := 46) (ch := 0) rfl hb0 hb1 hb2 hb3 (by decide) (by decide)
  have f0 : bits (3087007746 + d * 2097152 + a * 65536 + b * 2048 + g * 16) 0 4 = 2 := field226 (cl := 0) (cm := 2) (ch := 192937984) rfl hb0 hb1 hb2 hb3 (by decide) (by decide)
  have f1 : bits (3087007746 + d * 2097152 + a * 65536 + b * 2048 + g * 16) 11 5 = b := field227 (cl := 2) (ch := 47104) rfl hb0 hb1 hb2 hb3 (by decide)
  have f2 : bits (3087007746 + d * 2097152 + a * 65536 + b * 2048 + g * 16) 16 5 = a := field228 (cl := 2) (ch := 1472) rfl hb0 hb1 hb2 hb3 (by decide)
  have f3 : bits (3087007746 + d * 2097152 + a * 65536 + b * 2048 + g * 16) 21 5 = d := field229 (cl := 2) (ch := 46) rfl hb0 hb1 hb2 hb3 (by decide)
  have f4 : bits (3087007746 + d * 2097152 + a * 65536 + b * 2048 + g * 16) 4 7 = g := field230 (cl := 2) (ch := 1507328) rfl hb0 hb1 hb2 hb3 (by decide)
  refine decode_of_one (w := 3087007746 + d * 2097152 + a * 65536 + b * 2048 + g * 16) rfl m (by decide) (fun x => ?_) hwf
  rw [decodeMajor_2E _ m, decodeM2E]
  simp only [f0, f1, f2, f3, f4, use, if_true, Nat.reduceAdd, Nat.zero_ne_one, Nat.one_ne_zero, if_false]

theorem vmulh (d : Nat) (a : Nat) (b : Nat) (g : Nat) : Statement (.vmulh d a b g) := by
  intro hwf _
  have hb : (d < 32 && a < 32 && b < 32 && g < 128) = true := hwf
  simp only [Bool.and_eq_true, decide_eq_true_eq] at hb
  obtain ⟨⟨⟨hb0, hb1⟩, hb2⟩, hb3⟩ := hb
  have m : bits (3087007747 + d * 2097152 + a * 65536 + b * 2048 + g * 16) 26 6 = 46 := field225 (cl := 3) (cm := 46) (ch := 0) rfl hb0 hb1 hb2 hb3 (by decide) (by decide)
  have f0 : bits (3087007747 + d * 2097152 + a * 65536 + b * 2048 + g * 16) 0 4 = 3 := field226 (cl := 0) (cm := 3) (ch := 192937984) rfl hb0 hb1 hb2 hb3 (by decide) (by decide)
  have f1 : bits (3087007747 + d * 2097152 + a * 65536 + b * 2048 + g * 16) 11 5 = b := field227 (cl := 3) (ch := 47104) rfl hb0 hb1 hb2 hb3 (by decide)
  have f2 : bits (3087007747 + d * 2097152 + a * 65536 + b * 2048 + g * 16) 16 5 = a := field228 (cl := 3) (ch := 1472) rfl hb0 hb1 hb2 hb3 (by decide)
  have f3 : bits (3087007747 + d * 2097152 + a * 65536 + b * 2048 + g * 16) 21 5 = d := field229 (cl := 3) (ch := 46) rfl hb0 hb1 hb2 hb3 (by decide)
  have f4 : bits (3087007747 + d * 2097152 + a * 65536 + b * 2048 + g * 16) 4 7 = g := field230 (cl := 3) (ch := 1507328) rfl hb0 hb1 hb2 hb3 (by decide)
  refine decode_of_one (w := 3087007747 + d * 2097152 + a * 65536 + b * 2048 + g * 16) rfl m (by decide) (fun x => ?_) hwf
  rw [decodeMajor_2E _ m, decodeM2E]
  simp only [f0, f1, f2, f3, f4, use, if_true, Nat.reduceAdd, Nat.zero_ne_one, Nat.one_ne_zero, if_false]

theorem vmulhn (d : Nat) (a : Nat) (b : Nat) (g : Nat) : Statement (.vmulhn d a b g) := by
  intro hwf _
  have hb : (d < 32 && a < 32 && b < 32 && g < 128) = true := hwf
  simp only [Bool.and_eq_true, decide_eq_true_eq] at hb
  obtain ⟨⟨⟨hb0, hb1⟩, hb2⟩, hb3⟩ := hb
  have m : bits (3087007748 + d * 2097152 + a * 65536 + b * 2048 + g * 16) 26 6 = 46 := field225 (cl := 4) (cm := 46) (ch := 0) rfl hb0 hb1 hb2 hb3 (by decide) (by decide)
  have f0 : bits (3087007748 + d * 2097152 + a * 65536 + b * 2048 + g * 16) 0 4 = 4 := field226 (cl := 0) (cm := 4) (ch := 192937984) rfl hb0 hb1 hb2 hb3 (by decide) (by decide)
  have f1 : bits (3087007748 + d * 2097152 + a * 65536 + b * 2048 + g * 16) 11 5 = b := field227 (cl := 4) (ch := 47104) rfl hb0 hb1 hb2 hb3 (by decide)
  have f2 : bits (3087007748 + d * 2097152 + a * 65536 + b * 2048 + g * 16) 16 5 = a := field228 (cl := 4) (ch := 1472) rfl hb0 hb1 hb2 hb3 (by decide)
  have f3 : bits (3087007748 + d * 2097152 + a * 65536 + b * 2048 + g * 16) 21 5 = d := field229 (cl := 4) (ch := 46) rfl hb0 hb1 hb2 hb3 (by decide)
  have f4 : bits (3087007748 + d * 2097152 + a * 65536 + b * 2048 + g * 16) 4 7 = g := field230 (cl := 4) (ch := 1507328) rfl hb0 hb1 hb2 hb3 (by decide)
  refine decode_of_one (w := 3087007748 + d * 2097152 + a * 65536 + b * 2048 + g * 16) rfl m (by decide) (fun x => ?_) hwf
  rw [decodeMajor_2E _ m, decodeM2E]
  simp only [f0, f1, f2, f3, f4, use, if_true, Nat.reduceAdd, Nat.zero_ne_one, Nat.one_ne_zero, if_false]

theorem vand (d : Nat) (a : Nat) (b : Nat) (g : Nat) : Statement (.vand d a b g) := by
  intro hwf _
  have hb : (d < 32 && a < 32 && b < 32 && g < 128) = true := hwf
  simp only [Bool.and_eq_true, decide_eq_true_eq] at hb
  obtain ⟨⟨⟨hb0, hb1⟩, hb2⟩, hb3⟩ := hb
  have m : bits (3087007749 + d * 2097152 + a * 65536 + b * 2048 + g * 16) 26 6 = 46 := field225 (cl := 5) (cm := 46) (ch := 0) rfl hb0 hb1 hb2 hb3 (by decide) (by decide)
  have f0 : bits (3087007749 + d * 2097152 + a * 65536 + b * 2048 + g * 16) 0 4 = 5 := field226 (cl := 0) (cm := 5) (ch := 192937984) rfl hb0 hb1 hb2 hb3 (by decide) (by decide)
  have f1 : bits (3087007749 + d * 2097152 + a * 65536 + b * 2048 + g * 16) 11 5 = b := field227 (cl := 5) (ch := 47104) rfl hb0 hb1 hb2 hb3 (by decide)
  have f2 : bits (3087007749 + d * 2097152 + a * 65536 + b * 2048 + g * 16) 16 5 = a := field228 (cl := 5) (ch := 1472) rfl hb0 hb1 hb2 hb3 (by decide)
  have f3 : bits (3087007749 + d * 2097152 + a * 65536 + b * 2048 + g * 16) 21 5 = d := field229 (cl := 5) (ch := 46) rfl hb0 hb1 hb2 hb3 (by decide)
  have f4 : bits (3087007749 + d * 2097152 + a * 65536 + b * 2048 + g * 16) 4 7 = g := field230 (cl := 5) (ch := 1507328) rfl hb0 hb1 hb2 hb3 (by decide)
  refine decode_of_one (w := 3087007749 + d * 2097152 + a * 65536 + b * 2048 + g * 16) rfl m (by decide) (fun x => ?_) hwf
  rw [decodeMajor_2E _ m, decodeM2E]
  simp only [f0, f1, f2, f3, f4, use, if_true, Nat.reduceAdd, Nat.zero_ne_one, Nat.one_ne_zero, if_false]

theorem vor (d : Nat) (a : Nat) (b : Nat) (g : Nat) : Statement (.vor d a b g) := by
  intro hwf _
  have hb : (d < 32 && a < 32 && b < 32 && g < 128) = true := hwf
  simp only [Bool.and_eq_true, decide_eq_true_eq] at hb
  obtain ⟨⟨⟨hb0, hb1⟩, hb2⟩, hb3⟩ := hb
  have m : bits (3087007750 + d * 2097152 + a * 65536 + b * 2048 + g * 16) 26 6 = 46 := field225 (cl := 6) (cm := 46) (ch := 0) rfl hb0 hb1 hb2 hb3 (by decide) (by decide)
  have f0 : bits (3087007750 + d * 2097152 + a * 65536 + b * 2048 + g * 16) 0 4 = 6 := field226 (cl := 0) (cm := 6) (ch := 192937984) rfl hb0 hb1 hb2 hb3 (by decide) (by decide)
  have f1 : bits (3087007750 + d * 2097152 + a * 65536 + b * 2048 + g * 16) 11 5 = b := field227 (cl := 6) (ch := 47104) rfl hb0 hb1 hb2 hb3 (by decide)
  have f2 : bits (3087007750 + d * 2097152 + a * 65536 + b * 2048 + g * 16) 16 5 = a := field228 (cl := 6) (ch := 1472) rfl hb0 hb1 hb2 hb3 (by decide)
  have f3 : bits (3087007750 + d * 2097152 + a * 65536 + b * 2048 + g * 16) 21 5 = d := field229 (cl := 6) (ch := 46) rfl hb0 hb1 hb2 hb3 (by decide)
  have f4 : bits (3087007750 + d * 2097152 + a * 65536 + b * 2048 + g * 16) 4 7 = g := field230 (cl := 6) (ch := 1507328) rfl hb0 hb1 hb2 hb3 (by decide)
  refine decode_of_one (w := 3087007750 + d * 2097152 + a * 65536 + b * 2048 + g * 16) rfl m (by decide) (fun x => ?_) hwf
  rw [decodeMajor_2E _ m, decodeM2E]
  simp only [f0, f1, f2, f3, f4, use, if_true, Nat.reduceAdd, Nat.zero_ne_one, Nat.one_ne_zero, if_false]

theorem vxor (d : Nat) (a : Nat) (b : Nat) (g : Nat) : Statement (.vxor d a b g) := by
  intro hwf _
  have hb : (d < 32 && a < 32 && b < 32 && g < 128) = true := hwf
  simp only [Bool.and_eq_true, decide_eq_true_eq] at hb
  obtain ⟨⟨⟨hb0, hb1⟩, hb2⟩, hb3⟩ := hb
  have m : bits (3087007751 + d * 2097152 + a * 65536 + b * 2048 + g * 16) 26 6 = 46 := field225 (cl := 7) (cm := 46) (ch := 0) rfl hb0 hb1 hb2 hb3 (by decide) (by decide)
  have f0 : bits (3087007751 + d * 2097152 + a * 65536 + b * 2048 + g * 16) 0 4 = 7 := field226 (cl := 0) (cm := 7) (ch := 192937984) rfl hb0 hb1 hb2 hb3 (by decide) (by decide)
  have f1 : bits (3087007751 + d * 2097152 + a * 65536 + b * 2048 + g * 16) 11 5 = b := field227 (cl := 7) (ch := 47104) rfl hb0 hb1 hb2 hb3 (by decide)
  have f2 : bits (3087007751 + d * 2097152 + a * 65536 + b * 2048 + g * 16) 16 5 = a := field228 (cl := 7) (ch := 1472) rfl hb0 hb1 hb2 hb3 (by decide)
  have f3 : bits (3087007751 + d * 2097152 + a * 65536 + b * 2048 + g * 16) 21 5 = d := field229 (cl := 7) (ch := 46) rfl hb0 hb1 hb2 hb3 (by decide)
  have f4 : bits (3087007751 + d * 2097152 + a * 65536 + b * 2048 + g * 16) 4 7 = g := field230 (cl := 7) (ch := 1507328) rfl hb0 hb1 hb2 hb3 (by decide)
  refine decode_of_one (w := 3087007751 + d * 2097152 + a * 65536 + b * 2048 + g * 16) rfl m (by decide) (fun x => ?_) hwf
  rw [decodeMajor_2E _ m, decodeM2E]
  simp only [f0, f1, f2, f3, f4, use, if_true, Nat.reduceAdd, Nat.zero_ne_one, Nat.one_ne_zero, if_false]

theorem vandn (d : Nat) (a : Nat) (b : Nat) (g : Nat) : Statement (.vandn d a b g) := by
  intro hwf _
  have hb : (d < 32 && a < 32 && b < 32 && g < 128) = true := hwf
  simp only [Bool.and_eq_true, decide_eq_true_eq] at hb
  obtain ⟨⟨⟨hb0, hb1⟩, hb2⟩, hb3⟩ := hb
  have m : bits (3087007752 + d * 2097152 + a * 65536 + b * 2048 + g * 16) 26 6 = 46 := field225 (cl := 8) (cm := 46) (ch := 0) rfl hb0 hb1 hb2 hb3 (by decide) (by decide)
  have f0 : bits (3087007752 + d * 2097152 + a * 65536 + b * 2048 + g * 16) 0 4 = 8 := field226 (cl := 0) (cm := 8) (ch := 192937984) rfl hb0 hb1 hb2 hb3 (by decide) (by decide)
  have f1 : bits (3087007752 + d * 2097152 + a * 65536 + b * 2048 + g * 16) 11 5 = b := field227 (cl := 8) (ch := 47104) rfl hb0 hb1 hb2 hb3 (by decide)
  have f2 : bits (3087007752 + d * 2097152 + a * 65536 + b * 2048 + g * 16) 16 5 = a := field228 (cl := 8) (ch := 1472) rfl hb0 hb1 hb2 hb3 (by decide)
  have f3 : bits (3087007752 + d * 2097152 + a * 65536 + b * 2048 + g * 16) 21 5 = d := field229 (cl := 8) (ch := 46) rfl hb0 hb1 hb2 hb3 (by decide)
  have f4 : bits (3087007752 + d * 2097152 + a * 65536 + b * 2048 + g * 16) 4 7 = g := field230 (cl := 8) (ch := 1507328) rfl hb0 hb1 hb2 hb3 (by decide)
  refine decode_of_one (w := 3087007752 + d * 2097152 + a * 65536 + b * 2048 + g * 16) rfl m (by decide) (fun x => ?_) hwf
  rw [decodeMajor_2E _ m, decodeM2E]
  simp only [f0, f1, f2, f3, f4, use, if_true, Nat.reduceAdd, Nat.zero_ne_one, Nat.one_ne_zero, if_false]

theorem vshl (d : Nat) (a : Nat) (b : Nat) (g : Nat) : Statement (.vshl d a b g) := by
  intro hwf _
  have hb : (d < 32 && a < 32 && b < 32 && g < 128) = true := hwf
  simp only [Bool.and_eq_true, decide_eq_true_eq] at hb
  obtain ⟨⟨⟨hb0, hb1⟩, hb2⟩, hb3⟩ := hb
  have m : bits (3087007753 + d * 2097152 + a * 65536 + b * 2048 + g * 16) 26 6 = 46 := field225 (cl := 9) (cm := 46) (ch := 0) rfl hb0 hb1 hb2 hb3 (by decide) (by decide)
  have f0 : bits (3087007753 + d * 2097152 + a * 65536 + b * 2048 + g * 16) 0 4 = 9 := field226 (cl := 0) (cm := 9) (ch := 192937984) rfl hb0 hb1 hb2 hb3 (by decide) (by decide)
  have f1 : bits (3087007753 + d * 2097152 + a * 65536 + b * 2048 + g * 16) 11 5 = b := field227 (cl := 9) (ch := 47104) rfl hb0 hb1 hb2 hb3 (by decide)
  have f2 : bits (3087007753 + d * 2097152 + a * 65536 + b * 2048 + g * 16) 16 5 = a := field228 (cl := 9) (ch := 1472) rfl hb0 hb1 hb2 hb3 (by decide)
  have f3 : bits (3087007753 + d * 2097152 + a * 65536 + b * 2048 + g * 16) 21 5 = d := field229 (cl := 9) (ch := 46) rfl hb0 hb1 hb2 hb3 (by decide)
  have f4 : bits (3087007753 + d * 2097152 + a * 65536 + b * 2048 + g * 16) 4 7 = g := field230 (cl := 9) (ch := 1507328) rfl hb0 hb1 hb2 hb3 (by decide)
  refine decode_of_one (w := 3087007753 + d * 2097152 + a * 65536 + b * 2048 + g * 16) rfl m (by decide) (fun x => ?_) hwf
  rw [decodeMajor_2E _ m, decodeM2E]
  simp only [f0, f1, f2, f3, f4, use, if_true, Nat.reduceAdd, Nat.zero_ne_one, Nat.one_ne_zero, if_false]

theorem vshr (d : Nat) (a : Nat) (b : Nat) (g : Nat) : Statement (.vshr d a b g) := by
  intro hwf _
  have hb : (d < 32 && a < 32 && b < 32 && g < 128) = true := hwf
  simp only [Bool.and_eq_true, decide_eq_true_eq] at hb
  obtain ⟨⟨⟨hb0, hb1⟩, hb2⟩, hb3⟩ := hb
  have m : bits (3087007754 + d * 2097152 + a * 65536 + b * 2048 + g * 16) 26 6 = 46 := field225 (cl := 10) (cm := 46) (ch := 0) rfl hb0 hb1 hb2 hb3 (by decide) (by decide)
  have f0 : bits (3087007754 + d * 2097152 + a * 65536 + b * 2048 + g * 16) 0 4 = 10 := field226 (cl := 0) (cm := 10) (ch := 192937984) rfl hb0 hb1 hb2 hb3 (by decide) (by decide)
  have f1 : bits (3087007754 + d * 2097152 + a * 65536 + b * 2048 + g * 16) 11 5 = b := field227 (cl := 10) (ch := 47104) rfl hb0 hb1 hb2 hb3 (by decide)
  have f2 : bits (3087007754 + d * 2097152 + a * 65536 + b * 2048 + g * 16) 16 5 = a := field228 (cl := 10) (ch := 1472) rfl hb0 hb1 hb2 hb3 (by decide)
  have f3 : bits (3087007754 + d * 2097152 + a * 65536 + b * 2048 + g * 16) 21 5 = d := field229 (cl := 10) (ch := 46) rfl hb0 hb1 hb2 hb3 (by decide)
  have f4 : bits (3087007754 + d * 2097152 + a * 65536 + b * 2048 + g * 16) 4 7 = g := field230 (cl := 10) (ch := 1507328) rfl hb0 hb1 hb2 hb3 (by decide)
  refine decode_of_one (w := 3087007754 + d * 2097152 + a * 65536 + b * 2048 + g * 16) rfl m (by decide) (fun x => ?_) hwf
  rw [decodeMajor_2E _ m, decodeM2E]
  simp only [f0, f1, f2, f3, f4, use, if_true, Nat.reduceAdd, Nat.zero_ne_one, Nat.one_ne_zero, if_false]

theorem vsar (d : Nat) (a : Nat) (b : Nat) (g : Nat) : Statement (.vsar d a b g) := by
  intro hwf _
  have hb : (d < 32 && a < 32 && b < 32 && g < 128) = true := hwf
  simp only [Bool.and_eq_true, decide_eq_true_eq] at hb
  obtain ⟨⟨⟨hb0, hb1⟩, hb2⟩, hb3⟩ := hb
  have m : bits (3087007755 + d * 2097152 + a * 65536 + b * 2048 + g * 16) 26 6 = 46 := field225 (cl := 11) (cm := 46) (ch := 0) rfl hb0 hb1 hb2 hb3 (by decide) (by decide)
  have f0 : bits (3087007755 + d * 2097152 + a * 65536 + b * 2048 + g * 16) 0 4 = 11 := field226 (cl := 0) (cm := 11) (ch := 192937984) rfl hb0 hb1 hb2 hb3 (by decide) (by decide)
  have f1 : bits (3087007755 + d * 2097152 + a * 65536 + b * 2048 + g * 16) 11 5 = b := field227 (cl := 11) (ch := 47104) rfl hb0 hb1 hb2 hb3 (by decide)
  have f2 : bits (3087007755 + d * 2097152 + a * 65536 + b * 2048 + g * 16) 16 5 = a := field228 (cl := 11) (ch := 1472) rfl hb0 hb1 hb2 hb3 (by decide)
  have f3 : bits (3087007755 + d * 2097152 + a * 65536 + b * 2048 + g * 16) 21 5 = d := field229 (cl := 11) (ch := 46) rfl hb0 hb1 hb2 hb3 (by decide)
  have f4 : bits (3087007755 + d * 2097152 + a * 65536 + b * 2048 + g * 16) 4 7 = g := field230 (cl := 11) (ch := 1507328) rfl hb0 hb1 hb2 hb3 (by decide)
  refine decode_of_one (w := 3087007755 + d * 2097152 + a * 65536 + b * 2048 + g * 16) rfl m (by decide) (fun x => ?_) hwf
  rw [decodeMajor_2E _ m, decodeM2E]
  simp only [f0, f1, f2, f3, f4, use, if_true, Nat.reduceAdd, Nat.zero_ne_one, Nat.one_ne_zero, if_false]

theorem vrol (d : Nat) (a : Nat) (b : Nat) (g : Nat) : Statement (.vrol d a b g) := by
  intro hwf _
  have hb : (d < 32 && a < 32 && b < 32 && g < 128) = true := hwf
  simp only [Bool.and_eq_true, decide_eq_true_eq] at hb
  obtain ⟨⟨⟨hb0, hb1⟩, hb2⟩, hb3⟩ := hb
  have m : bits (3087007756 + d * 2097152 + a * 65536 + b * 2048 + g * 16) 26 6 = 46 := field225 (cl := 12) (cm := 46) (ch := 0) rfl hb0 hb1 hb2 hb3 (by decide) (by decide)
  have f0 : bits (3087007756 + d * 2097152 + a * 65536 + b * 2048 + g * 16) 0 4 = 12 := field226 (cl := 0) (cm := 12) (ch := 192937984) rfl hb0 hb1 hb2 hb3 (by decide) (by decide)
  have f1 : bits (3087007756 + d * 2097152 + a * 65536 + b * 2048 + g * 16) 11 5 = b := field227 (cl := 12) (ch := 47104) rfl hb0 hb1 hb2 hb3 (by decide)
  have f2 : bits (3087007756 + d * 2097152 + a * 65536 + b * 2048 + g * 16) 16 5 = a := field228 (cl := 12) (ch := 1472) rfl hb0 hb1 hb2 hb3 (by decide)
  have f3 : bits (3087007756 + d * 2097152 + a * 65536 + b * 2048 + g * 16) 21 5 = d := field229 (cl := 12) (ch := 46) rfl hb0 hb1 hb2 hb3 (by decide)
  have f4 : bits (3087007756 + d * 2097152 + a * 65536 + b * 2048 + g * 16) 4 7 = g := field230 (cl := 12) (ch := 1507328) rfl hb0 hb1 hb2 hb3 (by decide)
  refine decode_of_one (w := 3087007756 + d * 2097152 + a * 65536 + b * 2048 + g * 16) rfl m (by decide) (fun x => ?_) hwf
  rw [decodeMajor_2E _ m, decodeM2E]
  simp only [f0, f1, f2, f3, f4, use, if_true, Nat.reduceAdd, Nat.zero_ne_one, Nat.one_ne_zero, if_false]

theorem vmin (d : Nat) (a : Nat) (b : Nat) (g : Nat) : Statement (.vmin d a b g) := by
  intro hwf _
  have hb : (d < 32 && a < 32 && b < 32 && g < 128) = true := hwf
  simp only [Bool.and_eq_true, decide_eq_true_eq] at hb
  obtain ⟨⟨⟨hb0, hb1⟩, hb2⟩, hb3⟩ := hb
  have m : bits (3087007757 + d * 2097152 + a * 65536 + b * 2048 + g * 16) 26 6 = 46 := field225 (cl := 13) (cm := 46) (ch := 0) rfl hb0 hb1 hb2 hb3 (by decide) (by decide)
  have f0 : bits (3087007757 + d * 2097152 + a * 65536 + b * 2048 + g * 16) 0 4 = 13 := field226 (cl := 0) (cm := 13) (ch := 192937984) rfl hb0 hb1 hb2 hb3 (by decide) (by decide)
  have f1 : bits (3087007757 + d * 2097152 + a * 65536 + b * 2048 + g * 16) 11 5 = b := field227 (cl := 13) (ch := 47104) rfl hb0 hb1 hb2 hb3 (by decide)
  have f2 : bits (3087007757 + d * 2097152 + a * 65536 + b * 2048 + g * 16) 16 5 = a := field228 (cl := 13) (ch := 1472) rfl hb0 hb1 hb2 hb3 (by decide)
  have f3 : bits (3087007757 + d * 2097152 + a * 65536 + b * 2048 + g * 16) 21 5 = d := field229 (cl := 13) (ch := 46) rfl hb0 hb1 hb2 hb3 (by decide)
  have f4 : bits (3087007757 + d * 2097152 + a * 65536 + b * 2048 + g * 16) 4 7 = g := field230 (cl := 13) (ch := 1507328) rfl hb0 hb1 hb2 hb3 (by decide)
  refine decode_of_one (w := 3087007757 + d * 2097152 + a * 65536 + b * 2048 + g * 16) rfl m (by decide) (fun x => ?_) hwf
  rw [decodeMajor_2E _ m, decodeM2E]
  simp only [f0, f1, f2, f3, f4, use, if_true, Nat.reduceAdd, Nat.zero_ne_one, Nat.one_ne_zero, if_false]

theorem vmax (d : Nat) (a : Nat) (b : Nat) (g : Nat) : Statement (.vmax d a b g) := by
  intro hwf _
  have hb : (d < 32 && a < 32 && b < 32 && g < 128) = true := hwf
  simp only [Bool.and_eq_true, decide_eq_true_eq] at hb
  obtain ⟨⟨⟨hb0, hb1⟩, hb2⟩, hb3⟩ := hb
  have m : bits (3087007758 + d * 2097152 + a * 65536 + b * 2048 + g * 16) 26 6 = 46 := field225 (cl := 14) (cm := 46) (ch := 0) rfl hb0 hb1 hb2 hb3 (by decide) (by decide)
  have f0 : bits (3087007758 + d * 2097152 + a * 65536 + b * 2048 + g * 16) 0 4 = 14 := field226 (cl := 0) (cm := 14) (ch := 192937984) rfl hb0 hb1 hb2 hb3 (by decide) (by decide)
  have f1 : bits (3087007758 + d * 2097152 + a * 65536 + b * 2048 + g * 16) 11 5 = b := field227 (cl := 14) (ch := 47104) rfl hb0 hb1 hb2 hb3 (by decide)
  have f2 : bits (3087007758 + d * 2097152 + a * 65536 + b * 2048 + g * 16) 16 5 = a := field228 (cl := 14) (ch := 1472) rfl hb0 hb1 hb2 hb3 (by decide)
  have f3 : bits (3087007758 + d * 2097152 + a * 65536 + b * 2048 + g * 16) 21 5 = d := field229 (cl := 14) (ch := 46) rfl hb0 hb1 hb2 hb3 (by decide)
  have f4 : bits (3087007758 + d * 2097152 + a * 65536 + b * 2048 + g * 16) 4 7 = g := field230 (cl := 14) (ch := 1507328) rfl hb0 hb1 hb2 hb3 (by decide)
  refine decode_of_one (w := 3087007758 + d * 2097152 + a * 65536 + b * 2048 + g * 16) rfl m (by decide) (fun x => ?_) hwf
  rw [decodeMajor_2E _ m, decodeM2E]
  simp only [f0, f1, f2, f3, f4, use, if_true, Nat.reduceAdd, Nat.zero_ne_one, Nat.one_ne_zero, if_false]

theorem vminn (d : Nat) (a : Nat) (b : Nat) (g : Nat) : Statement (.vminn d a b g) := by
  intro hwf _
  have hb : (d < 32 && a < 32 && b < 32 && g < 128) = true := hwf
  simp only [Bool.and_eq_true, decide_eq_true_eq] at hb
  obtain ⟨⟨⟨hb0, hb1⟩, hb2⟩, hb3⟩ := hb
  have m : bits (3087007759 + d * 2097152 + a * 65536 + b * 2048 + g * 16) 26 6 = 46 := field225 (cl := 15) (cm := 46) (ch := 0) rfl hb0 hb1 hb2 hb3 (by decide) (by decide)
  have f0 : bits (3087007759 + d * 2097152 + a * 65536 + b * 2048 + g * 16) 0 4 = 15 := field226 (cl := 0) (cm := 15) (ch := 192937984) rfl hb0 hb1 hb2 hb3 (by decide) (by decide)
  have f1 : bits (3087007759 + d * 2097152 + a * 65536 + b * 2048 + g * 16) 11 5 = b := field227 (cl := 15) (ch := 47104) rfl hb0 hb1 hb2 hb3 (by decide)
  have f2 : bits (3087007759 + d * 2097152 + a * 65536 + b * 2048 + g * 16) 16 5 = a := field228 (cl := 15) (ch := 1472) rfl hb0 hb1 hb2 hb3 (by decide)
  have f3 : bits (3087007759 + d * 2097152 + a * 65536 + b * 2048 + g * 16) 21 5 = d := field229 (cl := 15) (ch := 46) rfl hb0 hb1 hb2 hb3 (by decide)
  have f4 : bits (3087007759 + d * 2097152 + a * 65536 + b * 2048 + g * 16) 4 7 = g := field230 (cl := 15) (ch := 1507328) rfl hb0 hb1 hb2 hb3 (by decide)
  refine decode_of_one (w := 3087007759 + d * 2097152 + a * 65536 + b * 2048 + g * 16) rfl m (by decide) (fun x => ?_) hwf
  rw [decodeMajor_2E _ m, decodeM2E]
  simp only [f0, f1, f2, f3, f4, use, if_true, Nat.reduceAdd, Nat.zero_ne_one, Nat.one_ne_zero, if_false]

theorem vmaxn (d : Nat) (a : Nat) (b : Nat) (g : Nat) : Statement (.vmaxn d a b g) := by
  intro hwf _
  have hb : (d < 32 && a < 32 && b < 32 && g < 128) = true := hwf
  simp only [Bool.and_eq_true, decide_eq_true_eq] at hb
  obtain ⟨⟨⟨hb0, hb1⟩, hb2⟩, hb3⟩ := hb
  have m : bits (3154116608 + d * 2097152 + a * 65536 + b * 2048 + g * 16) 26 6 = 47 := field225 (cl := 0) (cm := 47) (ch := 0) rfl hb0 hb1 hb2 hb3 (by decide) (by decide)
  have f0 : bits (3154116608 + d * 2097152 + a * 65536 + b * 2048 + g * 16) 0 4 = 0 := field226 (cl := 0) (cm := 0) (ch := 197132288) rfl hb0 hb1 hb2 hb3 (by decide) (by decide)
  have f1 : bits (3154116608 + d * 2097152 + a * 65536 + b * 2048 + g * 16) 11 5 = b := field227 (cl := 0) (ch := 48128) rfl hb0 hb1 hb2 hb3 (by decide)
  have f2 : bits (3154116608 + d * 2097152 + a * 65536 + b * 2048 + g * 16) 16 5 = a := field228 (cl := 0) (ch := 1504) rfl hb0 hb1 hb2 hb3 (by decide)
  have f3 : bits (3154116608 + d * 2097152 + a * 65536 + b * 2048 + g * 16) 21 5 = d := field229 (cl := 0) (ch := 47) rfl hb0 hb1 hb2 hb3 (by decide)
  have f4 : bits (3154116608 + d * 2097152 + a * 65536 + b * 2048 + g * 16) 4 7 = g := field230 (cl := 0) (ch := 1540096) rfl hb0 hb1 hb2 hb3 (by decide)
  refine decode_of_one (w := 3154116608 + d * 2097152 + a * 65536 + b * 2048 + g * 16) rfl m (by decide) (fun x => ?_) hwf
  rw [decodeMajor_2F _ m, decodeM2F]
  simp only [f0, f1, f2, f3, f4, use, if_true, Nat.reduceAdd, Nat.zero_ne_one, Nat.one_ne_zero, if_false]

theorem vsel (d : Nat) (a : Nat) (b : Nat) (g : Nat) : Statement (.vsel d a b g) := by
  intro hwf _
  have hb : (d < 32 && a < 32 && b < 32 && g < 128) = true := hwf
  simp only [Bool.and_eq_true, decide_eq_true_eq] at hb
  obtain ⟨⟨⟨hb0, hb1⟩, hb2⟩, hb3⟩ := hb
  have m : bits (3154116609 + d * 2097152 + a * 65536 + b * 2048 + g * 16) 26 6 = 47 := field225 (cl := 1) (cm := 47) (ch := 0) rfl hb0 hb1 hb2 hb3 (by decide) (by decide)
  have f0 : bits (3154116609 + d * 2097152 + a * 65536 + b * 2048 + g * 16) 0 4 = 1 := field226 (cl := 0) (cm := 1) (ch := 197132288) rfl hb0 hb1 hb2 hb3 (by decide) (by decide)
  have f1 : bits (3154116609 + d * 2097152 + a * 65536 + b * 2048 + g * 16) 11 5 = b := field227 (cl := 1) (ch := 48128) rfl hb0 hb1 hb2 hb3 (by decide)
  have f2 : bits (3154116609 + d * 2097152 + a * 65536 + b * 2048 + g * 16) 16 5 = a := field228 (cl := 1) (ch := 1504) rfl hb0 hb1 hb2 hb3 (by decide)
  have f3 : bits (3154116609 + d * 2097152 + a * 65536 + b * 2048 + g * 16) 21 5 = d := field229 (cl := 1) (ch := 47) rfl hb0 hb1 hb2 hb3 (by decide)
  have f4 : bits (3154116609 + d * 2097152 + a * 65536 + b * 2048 + g * 16) 4 7 = g := field230 (cl := 1) (ch := 1540096) rfl hb0 hb1 hb2 hb3 (by decide)
  refine decode_of_one (w := 3154116609 + d * 2097152 + a * 65536 + b * 2048 + g * 16) rfl m (by decide) (fun x => ?_) hwf
  rw [decodeMajor_2F _ m, decodeM2F]
  simp only [f0, f1, f2, f3, f4, use, if_true, Nat.reduceAdd, Nat.zero_ne_one, Nat.one_ne_zero, if_false]

theorem vpadd (d : Nat) (a : Nat) (b : Nat) (g : Nat) (w : Nat) : Statement (.vpadd d a b g w) := by
  intro hwf _
  have hb : (d < 32 && a < 32 && b < 32 && g < 128 && w < 2) = true := hwf
  simp only [Bool.and_eq_true, decide_eq_true_eq] at hb
  obtain ⟨⟨⟨⟨hb0, hb1⟩, hb2⟩, hb3⟩, hb4⟩ := hb
  have m : bits (3154116610 + d * 2097152 + a * 65536 + b * 2048 + g * 16 + w) 26 6 = 47 := field244 (cl := 2) (cm := 47) (ch := 0) rfl hb0 hb1 hb2 hb3 hb4 (by decide) (by decide)
  have f0 : bits (3154116610 + d * 2097152 + a * 65536 + b * 2048 + g * 16 + w) 0 1 = w := field245 (cl := 0) (ch := 1577058305) rfl hb0 hb1 hb2 hb3 hb4 (by decide)
  have f1 : bits (3154116610 + d * 2097152 + a * 65536 + b * 2048 + g * 16 + w) 0 4 = 2 + w := by unfold bits; omega
  have f2 : bits (3154116610 + d * 2097152 + a * 65536 + b * 2048 + g * 16 + w) 11 5 = b := field246 (cl := 2) (ch := 48128) rfl hb0 hb1 hb2 hb3 hb4 (by decide)
  have f3 : bits (3154116610 + d * 2097152 + a * 65536 + b * 2048 + g * 16 + w) 16 5 = a := field247 (cl := 2) (ch := 1504) rfl hb0 hb1 hb2 hb3 hb4 (by decide)
  have f4 : bits (3154116610 + d * 2097152 + a * 65536 + b * 2048 + g * 16 + w) 21 5 = d := field248 (cl := 2) (ch := 47) rfl hb0 hb1 hb2 hb3 hb4 (by decide)
  have f5 : bits (3154116610 + d * 2097152 + a * 65536 + b * 2048 + g * 16 + w) 4 7 = g := field249 (cl := 2) (ch := 1540096) rfl hb0 hb1 hb2 hb3 hb4 (by decide)
  refine decode_of_one (w := 3154116610 + d * 2097152 + a * 65536 + b * 2048 + g * 16 + w) rfl m (by decide) (fun x => ?_) hwf
  rw [decodeMajor_2F _ m, decodeM2F]
  obtain rfl | rfl : w = 0 ∨ w = 1 := by omega
  all_goals simp only [f0, f1, f2, f3, f4, f5, use, if_true]

theorem vpshl (d : Nat) (a : Nat) (b : Nat) (g : Nat) (w : Nat) : Statement (.vpshl d a b g w) := by
  intro hwf _
  have hb : (d < 32 && a < 32 && b < 32 && g < 128 && w < 2) = true := hwf
  simp only [Bool.and_eq_true, decide_eq_true_eq] at hb
  obtain ⟨⟨⟨⟨hb0, hb1⟩, hb2⟩, hb3⟩, hb4⟩ := hb
  have m : bits (3154116612 + d * 2097152 + a * 65536 + b * 2048 + g * 16 + w) 26 6 = 47 := field244 (cl := 4) (cm := 47) (ch := 0) rfl hb0 hb1 hb2 hb3 hb4 (by decide) (by decide)
  have f0 : bits (3154116612 + d * 2097152 + a * 65536 + b * 2048 + g * 16 + w) 0 1 = w := field245 (cl := 0) (ch := 1577058306) rfl hb0 hb1 hb2 hb3 hb4 (by decide)
  have f1 : bits (3154116612 + d * 2097152 + a * 65536 + b * 2048 + g * 16 + w) 0 4 = 4 + w := by unfold bits; omega
  have f2 : bits (3154116612 + d * 2097152 + a * 65536 + b * 2048 + g * 16 + w) 11 5 = b := field246 (cl := 4) (ch := 48128) rfl hb0 hb1 hb2 hb3 hb4 (by decide)
  have f3 : bits (3154116612 + d * 2097152 + a * 65536 + b * 2048 + g * 16 + w) 16 5 = a := field247 (cl := 4) (ch := 1504) rfl hb0 hb1 hb2 hb3 hb4 (by decide)
  have f4 : bits (3154116612 + d * 2097152 + a * 65536 + b * 2048 + g * 16 + w) 21 5 = d := field248 (cl := 4) (ch := 47) rfl hb0 hb1 hb2 hb3 hb4 (by decide)
  have f5 : bits (3154116612 + d * 2097152 + a * 65536 + b * 2048 + g * 16 + w) 4 7 = g := field249 (cl := 4) (ch := 1540096) rfl hb0 hb1 hb2 hb3 hb4 (by decide)
  refine decode_of_one (w := 3154116612 + d * 2097152 + a * 65536 + b * 2048 + g * 16 + w) rfl m (by decide) (fun x => ?_) hwf
  rw [decodeMajor_2F _ m, decodeM2F]
  obtain rfl | rfl : w = 0 ∨ w = 1 := by omega
  all_goals simp only [f0, f1, f2, f3, f4, f5, use, if_true]

theorem vpshr (d : Nat) (a : Nat) (b : Nat) (g : Nat) (w : Nat) : Statement (.vpshr d a b g w) := by
  intro hwf _
  have hb : (d < 32 && a < 32 && b < 32 && g < 128 && w < 2) = true := hwf
  simp only [Bool.and_eq_true, decide_eq_true_eq] at hb
  obtain ⟨⟨⟨⟨hb0, hb1⟩, hb2⟩, hb3⟩, hb4⟩ := hb
  have m : bits (3154116614 + d * 2097152 + a * 65536 + b * 2048 + g * 16 + w) 26 6 = 47 := field244 (cl := 6) (cm := 47) (ch := 0) rfl hb0 hb1 hb2 hb3 hb4 (by decide) (by decide)
  have f0 : bits (3154116614 + d * 2097152 + a * 65536 + b * 2048 + g * 16 + w) 0 1 = w := field245 (cl := 0) (ch := 1577058307) rfl hb0 hb1 hb2 hb3 hb4 (by decide)
  have f1 : bits (3154116614 + d * 2097152 + a * 65536 + b * 2048 + g * 16 + w) 0 4 = 6 + w := by unfold bits; omega
  have f2 : bits (3154116614 + d * 2097152 + a * 65536 + b * 2048 + g * 16 + w) 11 5 = b := field246 (cl := 6) (ch := 48128) rfl hb0 hb1 hb2 hb3 hb4 (by decide)
  have f3 : bits (3154116614 + d * 2097152 + a * 65536 + b * 2048 + g * 16 + w) 16 5 = a := field247 (cl := 6) (ch := 1504) rfl hb0 hb1 hb2 hb3 hb4 (by decide)
  have f4 : bits (3154116614 + d * 2097152 + a * 65536 + b * 2048 + g * 16 + w) 21 5 = d := field248 (cl := 6) (ch := 47) rfl hb0 hb1 hb2 hb3 hb4 (by decide)
  have f5 : bits (3154116614 + d * 2097152 + a * 65536 + b * 2048 + g * 16 + w) 4 7 = g := field249 (cl := 6) (ch := 1540096) rfl hb0 hb1 hb2 hb3 hb4 (by decide)
  refine decode_of_one (w := 3154116614 + d * 2097152 + a * 65536 + b * 2048 + g * 16 + w) rfl m (by decide) (fun x => ?_) hwf
  rw [decodeMajor_2F _ m, decodeM2F]
  obtain rfl | rfl : w = 0 ∨ w = 1 := by omega
  all_goals simp only [f0, f1, f2, f3, f4, f5, use, if_true]

theorem vcmp (d : Nat) (a : Nat) (b : Nat) (g : Nat) (c : Nat) : Statement (.vcmp d a b g c) := by
  intro hwf _
  have hb : (d < 32 && a < 32 && b < 32 && g < 128 && c < 16 && c < 6) = true := hwf
  simp only [Bool.and_eq_true, decide_eq_true_eq] at hb
  obtain ⟨⟨⟨⟨⟨hb0, hb1⟩, hb2⟩, hb3⟩, hb4⟩, hb5⟩ := hb
  have m : bits (3221225472 + d * 2097152 + a * 65536 + b * 2048 + g * 16 + c) 26 6 = 48 := field237 (cl := 0) (cm := 48) (ch := 0) rfl hb0 hb1 hb2 hb3 (by omega) (by decide) (by decide)
  have f0 : bits (3221225472 + d * 2097152 + a * 65536 + b * 2048 + g * 16 + c) 0 4 = c := field250 (cl := 0) (ch := 201326592) rfl hb0 hb1 hb2 hb3 (by omega) (by decide)
  have f1 : bits (3221225472 + d * 2097152 + a * 65536 + b * 2048 + g * 16 + c) 11 5 = b := field239 (cl := 0) (ch := 49152) rfl hb0 hb1 hb2 hb3 (by omega) (by decide)
  have f2 : bits (3221225472 + d * 2097152 + a * 65536 + b * 2048 + g * 16 + c) 16 5 = a := field240 (cl := 0) (ch := 1536) rfl hb0 hb1 hb2 hb3 (by omega) (by decide)
  have f3 : bits (3221225472 + d * 2097152 + a * 65536 + b * 2048 + g * 16 + c) 21 5 = d := field241 (cl := 0) (ch := 48) rfl hb0 hb1 hb2 hb3 (by omega) (by decide)
  have f4 : bits (3221225472 + d * 2097152 + a * 65536 + b * 2048 + g * 16 + c) 4 7 = g := field243 (cl := 0) (ch := 1572864) rfl hb0 hb1 hb2 hb3 (by omega) (by decide)
  refine decode_of_one (w := 3221225472 + d * 2097152 + a * 65536 + b * 2048 + g * 16 + c) rfl m (by decide) (fun x => ?_) hwf
  rw [decodeMajor_30 _ m, decodeM30]
  simp only [f0, f1, f2, f3, f4, use, if_true, Nat.reduceAdd, Nat.zero_ne_one, Nat.one_ne_zero, if_false]

theorem vcvt (d : Nat) (a : Nat) (x : Nat) (t : Nat) (g : Nat) (r : Nat) (s : Nat) : Statement (.vcvt d a x t g r s) := by
  intro hwf _
  have hb : (d < 32 && a < 32 && x < 2 && t < 16 && g < 128 && r < 8 && s < 2 && t < 11 && r < 6) = true := hwf
  simp only [Bool.and_eq_true, decide_eq_true_eq] at hb
  obtain ⟨⟨⟨⟨⟨⟨⟨⟨hb0, hb1⟩, hb2⟩, hb3⟩, hb4⟩, hb5⟩, hb6⟩, hb7⟩, hb8⟩ := hb
  have m : bits (3288334336 + d * 2097152 + a * 65536 + x * 32768 + t * 2048 + g * 16 + r * 2 + s) 26 6 = 49 := field251 (cl := 0) (cm := 49) (ch := 0) rfl hb0 hb1 hb2 hb3 hb4 hb5 hb6 (by decide) (by decide)
  have f0 : bits (3288334336 + d * 2097152 + a * 65536 + x * 32768 + t * 2048 + g * 16 + r * 2 + s) 0 1 = s := field252 (cl := 0) (ch := 1644167168) rfl hb0 hb1 hb2 hb3 hb4 hb5 hb6 (by decide)
  have f1 : bits (3288334336 + d * 2097152 + a * 65536 + x * 32768 + t * 2048 + g * 16 + r * 2 + s) 1 3 = r := field253 (cl := 0) (ch := 205520896) rfl hb0 hb1 hb2 hb3 hb4 hb5 hb6 (by decide)
  have f2 : bits (3288334336 + d * 2097152 + a * 65536 + x * 32768 + t * 2048 + g * 16 + r * 2 + s) 11 4 = t := field254 (cl := 0) (ch := 100352) rfl hb0 hb1 hb2 hb3 hb4 hb5 hb6 (by decide)
  have f3 : bits (3288334336 + d * 2097152 + a * 65536 + x * 32768 + t * 2048 + g * 16 + r * 2 + s) 15 1 = x := field255 (cl := 0) (ch := 50176) rfl hb0 hb1 hb2 hb3 hb4 hb5 hb6 (by decide)
  have f4 : bits (3288334336 + d * 2097152 + a * 65536 + x * 32768 + t * 2048 + g * 16 + r * 2 + s) 16 5 = a := field256 (cl := 0) (ch := 1568) rfl hb0 hb1 hb2 hb3 hb4 hb5 hb6 (by decide)
  have f5 : bits (3288334336 + d * 2097152 + a * 65536 + x * 32768 + t * 2048 + g * 16 + r * 2 + s) 21 5 = d := field257 (cl := 0) (ch := 49) rfl hb0 hb1 hb2 hb3 hb4 hb5 hb6 (by decide)
  have f6 : bits (3288334336 + d * 2097152 + a * 65536 + x * 32768 + t * 2048 + g * 16 + r * 2 + s) 4 7 = g := field258 (cl := 0) (ch := 1605632) rfl hb0 hb1 hb2 hb3 hb4 hb5 hb6 (by decide)
  refine decode_of_one (w := 3288334336 + d * 2097152 + a * 65536 + x * 32768 + t * 2048 + g * 16 + r * 2 + s) rfl m (by decide) (fun x => ?_) hwf
  rw [decodeMajor_31 _ m, decodeM31]
  simp only [f0, f1, f2, f3, f4, f5, f6, use, if_true, Nat.reduceAdd, Nat.zero_ne_one, Nat.one_ne_zero, if_false]

theorem vexp2 (d : Nat) (a : Nat) (g : Nat) : Statement (.vexp2 d a g) := by
  intro hwf _
  have hb : (d < 32 && a < 32 && g < 128) = true := hwf
  simp only [Bool.and_eq_true, decide_eq_true_eq] at hb
  obtain ⟨⟨hb0, hb1⟩, hb2⟩ := hb
  have m : bits (3355443200 + d * 2097152 + a * 65536 + g * 16) 26 6 = 50 := field231 (cl := 0) (cm := 50) (ch := 0) rfl hb0 hb1 hb2 (by decide) (by decide)
  have f0 : bits (3355443200 + d * 2097152 + a * 65536 + g * 16) 0 4 = 0 := field232 (cl := 0) (cm := 0) (ch := 209715200) rfl hb0 hb1 hb2 (by decide) (by decide)
  have f1 : bits (3355443200 + d * 2097152 + a * 65536 + g * 16) 11 5 = 0 := field233 (cl := 0) (cm := 0) (ch := 51200) rfl hb0 hb1 hb2 (by decide) (by decide)
  have f2 : bits (3355443200 + d * 2097152 + a * 65536 + g * 16) 16 5 = a := field234 (cl := 0) (ch := 1600) rfl hb0 hb1 hb2 (by decide)
  have f3 : bits (3355443200 + d * 2097152 + a * 65536 + g * 16) 21 5 = d := field235 (cl := 0) (ch := 50) rfl hb0 hb1 hb2 (by decide)
  have f4 : bits (3355443200 + d * 2097152 + a * 65536 + g * 16) 4 7 = g := field236 (cl := 0) (ch := 1638400) rfl hb0 hb1 hb2 (by decide)
  refine decode_of_one (w := 3355443200 + d * 2097152 + a * 65536 + g * 16) rfl m (by decide) (fun x => ?_) hwf
  rw [decodeMajor_32 _ m, decodeM32]
  simp only [f0, f1, f2, f3, f4, use, if_true, Nat.reduceAdd, Nat.zero_ne_one, Nat.one_ne_zero, if_false]

theorem vlog2 (d : Nat) (a : Nat) (g : Nat) : Statement (.vlog2 d a g) := by
  intro hwf _
  have hb : (d < 32 && a < 32 && g < 128) = true := hwf
  simp only [Bool.and_eq_true, decide_eq_true_eq] at hb
  obtain ⟨⟨hb0, hb1⟩, hb2⟩ := hb
  have m : bits (3355443201 + d * 2097152 + a * 65536 + g * 16) 26 6 = 50 := field231 (cl := 1) (cm := 50) (ch := 0) rfl hb0 hb1 hb2 (by decide) (by decide)
  have f0 : bits (3355443201 + d * 2097152 + a * 65536 + g * 16) 0 4 = 1 := field232 (cl := 0) (cm := 1) (ch := 209715200) rfl hb0 hb1 hb2 (by decide) (by decide)
  have f1 : bits (3355443201 + d * 2097152 + a * 65536 + g * 16) 11 5 = 0 := field233 (cl := 1) (cm := 0) (ch := 51200) rfl hb0 hb1 hb2 (by decide) (by decide)
  have f2 : bits (3355443201 + d * 2097152 + a * 65536 + g * 16) 16 5 = a := field234 (cl := 1) (ch := 1600) rfl hb0 hb1 hb2 (by decide)
  have f3 : bits (3355443201 + d * 2097152 + a * 65536 + g * 16) 21 5 = d := field235 (cl := 1) (ch := 50) rfl hb0 hb1 hb2 (by decide)
  have f4 : bits (3355443201 + d * 2097152 + a * 65536 + g * 16) 4 7 = g := field236 (cl := 1) (ch := 1638400) rfl hb0 hb1 hb2 (by decide)
  refine decode_of_one (w := 3355443201 + d * 2097152 + a * 65536 + g * 16) rfl m (by decide) (fun x => ?_) hwf
  rw [decodeMajor_32 _ m, decodeM32]
  simp only [f0, f1, f2, f3, f4, use, if_true, Nat.reduceAdd, Nat.zero_ne_one, Nat.one_ne_zero, if_false]

theorem vrcp (d : Nat) (a : Nat) (g : Nat) : Statement (.vrcp d a g) := by
  intro hwf _
  have hb : (d < 32 && a < 32 && g < 128) = true := hwf
  simp only [Bool.and_eq_true, decide_eq_true_eq] at hb
  obtain ⟨⟨hb0, hb1⟩, hb2⟩ := hb
  have m : bits (3355443202 + d * 2097152 + a * 65536 + g * 16) 26 6 = 50 := field231 (cl := 2) (cm := 50) (ch := 0) rfl hb0 hb1 hb2 (by decide) (by decide)
  have f0 : bits (3355443202 + d * 2097152 + a * 65536 + g * 16) 0 4 = 2 := field232 (cl := 0) (cm := 2) (ch := 209715200) rfl hb0 hb1 hb2 (by decide) (by decide)
  have f1 : bits (3355443202 + d * 2097152 + a * 65536 + g * 16) 11 5 = 0 := field233 (cl := 2) (cm := 0) (ch := 51200) rfl hb0 hb1 hb2 (by decide) (by decide)
  have f2 : bits (3355443202 + d * 2097152 + a * 65536 + g * 16) 16 5 = a := field234 (cl := 2) (ch := 1600) rfl hb0 hb1 hb2 (by decide)
  have f3 : bits (3355443202 + d * 2097152 + a * 65536 + g * 16) 21 5 = d := field235 (cl := 2) (ch := 50) rfl hb0 hb1 hb2 (by decide)
  have f4 : bits (3355443202 + d * 2097152 + a * 65536 + g * 16) 4 7 = g := field236 (cl := 2) (ch := 1638400) rfl hb0 hb1 hb2 (by decide)
  refine decode_of_one (w := 3355443202 + d * 2097152 + a * 65536 + g * 16) rfl m (by decide) (fun x => ?_) hwf
  rw [decodeMajor_32 _ m, decodeM32]
  simp only [f0, f1, f2, f3, f4, use, if_true, Nat.reduceAdd, Nat.zero_ne_one, Nat.one_ne_zero, if_false]

theorem vrsq (d : Nat) (a : Nat) (g : Nat) : Statement (.vrsq d a g) := by
  intro hwf _
  have hb : (d < 32 && a < 32 && g < 128) = true := hwf
  simp only [Bool.and_eq_true, decide_eq_true_eq] at hb
  obtain ⟨⟨hb0, hb1⟩, hb2⟩ := hb
  have m : bits (3355443203 + d * 2097152 + a * 65536 + g * 16) 26 6 = 50 := field231 (cl := 3) (cm := 50) (ch := 0) rfl hb0 hb1 hb2 (by decide) (by decide)
  have f0 : bits (3355443203 + d * 2097152 + a * 65536 + g * 16) 0 4 = 3 := field232 (cl := 0) (cm := 3) (ch := 209715200) rfl hb0 hb1 hb2 (by decide) (by decide)
  have f1 : bits (3355443203 + d * 2097152 + a * 65536 + g * 16) 11 5 = 0 := field233 (cl := 3) (cm := 0) (ch := 51200) rfl hb0 hb1 hb2 (by decide) (by decide)
  have f2 : bits (3355443203 + d * 2097152 + a * 65536 + g * 16) 16 5 = a := field234 (cl := 3) (ch := 1600) rfl hb0 hb1 hb2 (by decide)
  have f3 : bits (3355443203 + d * 2097152 + a * 65536 + g * 16) 21 5 = d := field235 (cl := 3) (ch := 50) rfl hb0 hb1 hb2 (by decide)
  have f4 : bits (3355443203 + d * 2097152 + a * 65536 + g * 16) 4 7 = g := field236 (cl := 3) (ch := 1638400) rfl hb0 hb1 hb2 (by decide)
  refine decode_of_one (w := 3355443203 + d * 2097152 + a * 65536 + g * 16) rfl m (by decide) (fun x => ?_) hwf
  rw [decodeMajor_32 _ m, decodeM32]
  simp only [f0, f1, f2, f3, f4, use, if_true, Nat.reduceAdd, Nat.zero_ne_one, Nat.one_ne_zero, if_false]

theorem vsqrt (d : Nat) (a : Nat) (g : Nat) : Statement (.vsqrt d a g) := by
  intro hwf _
  have hb : (d < 32 && a < 32 && g < 128) = true := hwf
  simp only [Bool.and_eq_true, decide_eq_true_eq] at hb
  obtain ⟨⟨hb0, hb1⟩, hb2⟩ := hb
  have m : bits (3355443204 + d * 2097152 + a * 65536 + g * 16) 26 6 = 50 := field231 (cl := 4) (cm := 50) (ch := 0) rfl hb0 hb1 hb2 (by decide) (by decide)
  have f0 : bits (3355443204 + d * 2097152 + a * 65536 + g * 16) 0 4 = 4 := field232 (cl := 0) (cm := 4) (ch := 209715200) rfl hb0 hb1 hb2 (by decide) (by decide)
  have f1 : bits (3355443204 + d * 2097152 + a * 65536 + g * 16) 11 5 = 0 := field233 (cl := 4) (cm := 0) (ch := 51200) rfl hb0 hb1 hb2 (by decide) (by decide)
  have f2 : bits (3355443204 + d * 2097152 + a * 65536 + g * 16) 16 5 = a := field234 (cl := 4) (ch := 1600) rfl hb0 hb1 hb2 (by decide)
  have f3 : bits (3355443204 + d * 2097152 + a * 65536 + g * 16) 21 5 = d := field235 (cl := 4) (ch := 50) rfl hb0 hb1 hb2 (by decide)
  have f4 : bits (3355443204 + d * 2097152 + a * 65536 + g * 16) 4 7 = g := field236 (cl := 4) (ch := 1638400) rfl hb0 hb1 hb2 (by decide)
  refine decode_of_one (w := 3355443204 + d * 2097152 + a * 65536 + g * 16) rfl m (by decide) (fun x => ?_) hwf
  rw [decodeMajor_32 _ m, decodeM32]
  simp only [f0, f1, f2, f3, f4, use, if_true, Nat.reduceAdd, Nat.zero_ne_one, Nat.one_ne_zero, if_false]

theorem vtanh (d : Nat) (a : Nat) (g : Nat) : Statement (.vtanh d a g) := by
  intro hwf _
  have hb : (d < 32 && a < 32 && g < 128) = true := hwf
  simp only [Bool.and_eq_true, decide_eq_true_eq] at hb
  obtain ⟨⟨hb0, hb1⟩, hb2⟩ := hb
  have m : bits (3355443205 + d * 2097152 + a * 65536 + g * 16) 26 6 = 50 := field231 (cl := 5) (cm := 50) (ch := 0) rfl hb0 hb1 hb2 (by decide) (by decide)
  have f0 : bits (3355443205 + d * 2097152 + a * 65536 + g * 16) 0 4 = 5 := field232 (cl := 0) (cm := 5) (ch := 209715200) rfl hb0 hb1 hb2 (by decide) (by decide)
  have f1 : bits (3355443205 + d * 2097152 + a * 65536 + g * 16) 11 5 = 0 := field233 (cl := 5) (cm := 0) (ch := 51200) rfl hb0 hb1 hb2 (by decide) (by decide)
  have f2 : bits (3355443205 + d * 2097152 + a * 65536 + g * 16) 16 5 = a := field234 (cl := 5) (ch := 1600) rfl hb0 hb1 hb2 (by decide)
  have f3 : bits (3355443205 + d * 2097152 + a * 65536 + g * 16) 21 5 = d := field235 (cl := 5) (ch := 50) rfl hb0 hb1 hb2 (by decide)
  have f4 : bits (3355443205 + d * 2097152 + a * 65536 + g * 16) 4 7 = g := field236 (cl := 5) (ch := 1638400) rfl hb0 hb1 hb2 (by decide)
  refine decode_of_one (w := 3355443205 + d * 2097152 + a * 65536 + g * 16) rfl m (by decide) (fun x => ?_) hwf
  rw [decodeMajor_32 _ m, decodeM32]
  simp only [f0, f1, f2, f3, f4, use, if_true, Nat.reduceAdd, Nat.zero_ne_one, Nat.one_ne_zero, if_false]

theorem vredaddF32 (d : Nat) (a : Nat) (g : Nat) : Statement (.vredaddF32 d a g) := by
  intro hwf _
  have hb : (d < 32 && a < 32 && g < 128) = true := hwf
  simp only [Bool.and_eq_true, decide_eq_true_eq] at hb
  obtain ⟨⟨hb0, hb1⟩, hb2⟩ := hb
  have m : bits (3422552064 + d * 2097152 + a * 65536 + g * 16) 26 6 = 51 := field231 (cl := 0) (cm := 51) (ch := 0) rfl hb0 hb1 hb2 (by decide) (by decide)
  have f0 : bits (3422552064 + d * 2097152 + a * 65536 + g * 16) 0 4 = 0 := field232 (cl := 0) (cm := 0) (ch := 213909504) rfl hb0 hb1 hb2 (by decide) (by decide)
  have f1 : bits (3422552064 + d * 2097152 + a * 65536 + g * 16) 11 5 = 0 := field233 (cl := 0) (cm := 0) (ch := 52224) rfl hb0 hb1 hb2 (by decide) (by decide)
  have f2 : bits (3422552064 + d * 2097152 + a * 65536 + g * 16) 16 5 = a := field234 (cl := 0) (ch := 1632) rfl hb0 hb1 hb2 (by decide)
  have f3 : bits (3422552064 + d * 2097152 + a * 65536 + g * 16) 21 5 = d := field235 (cl := 0) (ch := 51) rfl hb0 hb1 hb2 (by decide)
  have f4 : bits (3422552064 + d * 2097152 + a * 65536 + g * 16) 4 7 = g := field236 (cl := 0) (ch := 1671168) rfl hb0 hb1 hb2 (by decide)
  refine decode_of_one (w := 3422552064 + d * 2097152 + a * 65536 + g * 16) rfl m (by decide) (fun x => ?_) hwf
  rw [decodeMajor_33 _ m, decodeM33]
  simp only [f0, f1, f2, f3, f4, use, if_true, Nat.reduceAdd, Nat.zero_ne_one, Nat.one_ne_zero, if_false]

theorem vredaddS32 (d : Nat) (a : Nat) (g : Nat) : Statement (.vredaddS32 d a g) := by
  intro hwf _
  have hb : (d < 32 && a < 32 && g < 128) = true := hwf
  simp only [Bool.and_eq_true, decide_eq_true_eq] at hb
  obtain ⟨⟨hb0, hb1⟩, hb2⟩ := hb
  have m : bits (3422552065 + d * 2097152 + a * 65536 + g * 16) 26 6 = 51 := field231 (cl := 1) (cm := 51) (ch := 0) rfl hb0 hb1 hb2 (by decide) (by decide)
  have f0 : bits (3422552065 + d * 2097152 + a * 65536 + g * 16) 0 4 = 1 := field232 (cl := 0) (cm := 1) (ch := 213909504) rfl hb0 hb1 hb2 (by decide) (by decide)
  have f1 : bits (3422552065 + d * 2097152 + a * 65536 + g * 16) 11 5 = 0 := field233 (cl := 1) (cm := 0) (ch := 52224) rfl hb0 hb1 hb2 (by decide) (by decide)
  have f2 : bits (3422552065 + d * 2097152 + a * 65536 + g * 16) 16 5 = a := field234 (cl := 1) (ch := 1632) rfl hb0 hb1 hb2 (by decide)
  have f3 : bits (3422552065 + d * 2097152 + a * 65536 + g * 16) 21 5 = d := field235 (cl := 1) (ch := 51) rfl hb0 hb1 hb2 (by decide)
  have f4 : bits (3422552065 + d * 2097152 + a * 65536 + g * 16) 4 7 = g := field236 (cl := 1) (ch := 1671168) rfl hb0 hb1 hb2 (by decide)
  refine decode_of_one (w := 3422552065 + d * 2097152 + a * 65536 + g * 16) rfl m (by decide) (fun x => ?_) hwf
  rw [decodeMajor_33 _ m, decodeM33]
  simp only [f0, f1, f2, f3, f4, use, if_true, Nat.reduceAdd, Nat.zero_ne_one, Nat.one_ne_zero, if_false]

theorem vredminF32 (d : Nat) (a : Nat) (g : Nat) : Statement (.vredminF32 d a g) := by
  intro hwf _
  have hb : (d < 32 && a < 32 && g < 128) = true := hwf
  simp only [Bool.and_eq_true, decide_eq_true_eq] at hb
  obtain ⟨⟨hb0, hb1⟩, hb2⟩ := hb
  have m : bits (3422552066 + d * 2097152 + a * 65536 + g * 16) 26 6 = 51 := field231 (cl := 2) (cm := 51) (ch := 0) rfl hb0 hb1 hb2 (by decide) (by decide)
  have f0 : bits (3422552066 + d * 2097152 + a * 65536 + g * 16) 0 4 = 2 := field232 (cl := 0) (cm := 2) (ch := 213909504) rfl hb0 hb1 hb2 (by decide) (by decide)
  have f1 : bits (3422552066 + d * 2097152 + a * 65536 + g * 16) 11 5 = 0 := field233 (cl := 2) (cm := 0) (ch := 52224) rfl hb0 hb1 hb2 (by decide) (by decide)
  have f2 : bits (3422552066 + d * 2097152 + a * 65536 + g * 16) 16 5 = a := field234 (cl := 2) (ch := 1632) rfl hb0 hb1 hb2 (by decide)
  have f3 : bits (3422552066 + d * 2097152 + a * 65536 + g * 16) 21 5 = d := field235 (cl := 2) (ch := 51) rfl hb0 hb1 hb2 (by decide)
  have f4 : bits (3422552066 + d * 2097152 + a * 65536 + g * 16) 4 7 = g := field236 (cl := 2) (ch := 1671168) rfl hb0 hb1 hb2 (by decide)
  refine decode_of_one (w := 3422552066 + d * 2097152 + a * 65536 + g * 16) rfl m (by decide) (fun x => ?_) hwf
  rw [decodeMajor_33 _ m, decodeM33]
  simp only [f0, f1, f2, f3, f4, use, if_true, Nat.reduceAdd, Nat.zero_ne_one, Nat.one_ne_zero, if_false]

theorem vredminS32 (d : Nat) (a : Nat) (g : Nat) : Statement (.vredminS32 d a g) := by
  intro hwf _
  have hb : (d < 32 && a < 32 && g < 128) = true := hwf
  simp only [Bool.and_eq_true, decide_eq_true_eq] at hb
  obtain ⟨⟨hb0, hb1⟩, hb2⟩ := hb
  have m : bits (3422552067 + d * 2097152 + a * 65536 + g * 16) 26 6 = 51 := field231 (cl := 3) (cm := 51) (ch := 0) rfl hb0 hb1 hb2 (by decide) (by decide)
  have f0 : bits (3422552067 + d * 2097152 + a * 65536 + g * 16) 0 4 = 3 := field232 (cl := 0) (cm := 3) (ch := 213909504) rfl hb0 hb1 hb2 (by decide) (by decide)
  have f1 : bits (3422552067 + d * 2097152 + a * 65536 + g * 16) 11 5 = 0 := field233 (cl := 3) (cm := 0) (ch := 52224) rfl hb0 hb1 hb2 (by decide) (by decide)
  have f2 : bits (3422552067 + d * 2097152 + a * 65536 + g * 16) 16 5 = a := field234 (cl := 3) (ch := 1632) rfl hb0 hb1 hb2 (by decide)
  have f3 : bits (3422552067 + d * 2097152 + a * 65536 + g * 16) 21 5 = d := field235 (cl := 3) (ch := 51) rfl hb0 hb1 hb2 (by decide)
  have f4 : bits (3422552067 + d * 2097152 + a * 65536 + g * 16) 4 7 = g := field236 (cl := 3) (ch := 1671168) rfl hb0 hb1 hb2 (by decide)
  refine decode_of_one (w := 3422552067 + d * 2097152 + a * 65536 + g * 16) rfl m (by decide) (fun x => ?_) hwf
  rw [decodeMajor_33 _ m, decodeM33]
  simp only [f0, f1, f2, f3, f4, use, if_true, Nat.reduceAdd, Nat.zero_ne_one, Nat.one_ne_zero, if_false]

theorem vredminN32 (d : Nat) (a : Nat) (g : Nat) : Statement (.vredminN32 d a g) := by
  intro hwf _
  have hb : (d < 32 && a < 32 && g < 128) = true := hwf
  simp only [Bool.and_eq_true, decide_eq_true_eq] at hb
  obtain ⟨⟨hb0, hb1⟩, hb2⟩ := hb
  have m : bits (3422552068 + d * 2097152 + a * 65536 + g * 16) 26 6 = 51 := field231 (cl := 4) (cm := 51) (ch := 0) rfl hb0 hb1 hb2 (by decide) (by decide)
  have f0 : bits (3422552068 + d * 2097152 + a * 65536 + g * 16) 0 4 = 4 := field232 (cl := 0) (cm := 4) (ch := 213909504) rfl hb0 hb1 hb2 (by decide) (by decide)
  have f1 : bits (3422552068 + d * 2097152 + a * 65536 + g * 16) 11 5 = 0 := field233 (cl := 4) (cm := 0) (ch := 52224) rfl hb0 hb1 hb2 (by decide) (by decide)
  have f2 : bits (3422552068 + d * 2097152 + a * 65536 + g * 16) 16 5 = a := field234 (cl := 4) (ch := 1632) rfl hb0 hb1 hb2 (by decide)
  have f3 : bits (3422552068 + d * 2097152 + a * 65536 + g * 16) 21 5 = d := field235 (cl := 4) (ch := 51) rfl hb0 hb1 hb2 (by decide)
  have f4 : bits (3422552068 + d * 2097152 + a * 65536 + g * 16) 4 7 = g := field236 (cl := 4) (ch := 1671168) rfl hb0 hb1 hb2 (by decide)
  refine decode_of_one (w := 3422552068 + d * 2097152 + a * 65536 + g * 16) rfl m (by decide) (fun x => ?_) hwf
  rw [decodeMajor_33 _ m, decodeM33]
  simp only [f0, f1, f2, f3, f4, use, if_true, Nat.reduceAdd, Nat.zero_ne_one, Nat.one_ne_zero, if_false]

theorem vredmaxF32 (d : Nat) (a : Nat) (g : Nat) : Statement (.vredmaxF32 d a g) := by
  intro hwf _
  have hb : (d < 32 && a < 32 && g < 128) = true := hwf
  simp only [Bool.and_eq_true, decide_eq_true_eq] at hb
  obtain ⟨⟨hb0, hb1⟩, hb2⟩ := hb
  have m : bits (3422552069 + d * 2097152 + a * 65536 + g * 16) 26 6 = 51 := field231 (cl := 5) (cm := 51) (ch := 0) rfl hb0 hb1 hb2 (by decide) (by decide)
  have f0 : bits (3422552069 + d * 2097152 + a * 65536 + g * 16) 0 4 = 5 := field232 (cl := 0) (cm := 5) (ch := 213909504) rfl hb0 hb1 hb2 (by decide) (by decide)
  have f1 : bits (3422552069 + d * 2097152 + a * 65536 + g * 16) 11 5 = 0 := field233 (cl := 5) (cm := 0) (ch := 52224) rfl hb0 hb1 hb2 (by decide) (by decide)
  have f2 : bits (3422552069 + d * 2097152 + a * 65536 + g * 16) 16 5 = a := field234 (cl := 5) (ch := 1632) rfl hb0 hb1 hb2 (by decide)
  have f3 : bits (3422552069 + d * 2097152 + a * 65536 + g * 16) 21 5 = d := field235 (cl := 5) (ch := 51) rfl hb0 hb1 hb2 (by decide)
  have f4 : bits (3422552069 + d * 2097152 + a * 65536 + g * 16) 4 7 = g := field236 (cl := 5) (ch := 1671168) rfl hb0 hb1 hb2 (by decide)
  refine decode_of_one (w := 3422552069 + d * 2097152 + a * 65536 + g * 16) rfl m (by decide) (fun x => ?_) hwf
  rw [decodeMajor_33 _ m, decodeM33]
  simp only [f0, f1, f2, f3, f4, use, if_true, Nat.reduceAdd, Nat.zero_ne_one, Nat.one_ne_zero, if_false]

theorem vredmaxS32 (d : Nat) (a : Nat) (g : Nat) : Statement (.vredmaxS32 d a g) := by
  intro hwf _
  have hb : (d < 32 && a < 32 && g < 128) = true := hwf
  simp only [Bool.and_eq_true, decide_eq_true_eq] at hb
  obtain ⟨⟨hb0, hb1⟩, hb2⟩ := hb
  have m : bits (3422552070 + d * 2097152 + a * 65536 + g * 16) 26 6 = 51 := field231 (cl := 6) (cm := 51) (ch := 0) rfl hb0 hb1 hb2 (by decide) (by decide)
  have f0 : bits (3422552070 + d * 2097152 + a * 65536 + g * 16) 0 4 = 6 := field232 (cl := 0) (cm := 6) (ch := 213909504) rfl hb0 hb1 hb2 (by decide) (by decide)
  have f1 : bits (3422552070 + d * 2097152 + a * 65536 + g * 16) 11 5 = 0 := field233 (cl := 6) (cm := 0) (ch := 52224) rfl hb0 hb1 hb2 (by decide) (by decide)
  have f2 : bits (3422552070 + d * 2097152 + a * 65536 + g * 16) 16 5 = a := field234 (cl := 6) (ch := 1632) rfl hb0 hb1 hb2 (by decide)
  have f3 : bits (3422552070 + d * 2097152 + a * 65536 + g * 16) 21 5 = d := field235 (cl := 6) (ch := 51) rfl hb0 hb1 hb2 (by decide)
  have f4 : bits (3422552070 + d * 2097152 + a * 65536 + g * 16) 4 7 = g := field236 (cl := 6) (ch := 1671168) rfl hb0 hb1 hb2 (by decide)
  refine decode_of_one (w := 3422552070 + d * 2097152 + a * 65536 + g * 16) rfl m (by decide) (fun x => ?_) hwf
  rw [decodeMajor_33 _ m, decodeM33]
  simp only [f0, f1, f2, f3, f4, use, if_true, Nat.reduceAdd, Nat.zero_ne_one, Nat.one_ne_zero, if_false]

theorem vredmaxN32 (d : Nat) (a : Nat) (g : Nat) : Statement (.vredmaxN32 d a g) := by
  intro hwf _
  have hb : (d < 32 && a < 32 && g < 128) = true := hwf
  simp only [Bool.and_eq_true, decide_eq_true_eq] at hb
  obtain ⟨⟨hb0, hb1⟩, hb2⟩ := hb
  have m : bits (3422552071 + d * 2097152 + a * 65536 + g * 16) 26 6 = 51 := field231 (cl := 7) (cm := 51) (ch := 0) rfl hb0 hb1 hb2 (by decide) (by decide)
  have f0 : bits (3422552071 + d * 2097152 + a * 65536 + g * 16) 0 4 = 7 := field232 (cl := 0) (cm := 7) (ch := 213909504) rfl hb0 hb1 hb2 (by decide) (by decide)
  have f1 : bits (3422552071 + d * 2097152 + a * 65536 + g * 16) 11 5 = 0 := field233 (cl := 7) (cm := 0) (ch := 52224) rfl hb0 hb1 hb2 (by decide) (by decide)
  have f2 : bits (3422552071 + d * 2097152 + a * 65536 + g * 16) 16 5 = a := field234 (cl := 7) (ch := 1632) rfl hb0 hb1 hb2 (by decide)
  have f3 : bits (3422552071 + d * 2097152 + a * 65536 + g * 16) 21 5 = d := field235 (cl := 7) (ch := 51) rfl hb0 hb1 hb2 (by decide)
  have f4 : bits (3422552071 + d * 2097152 + a * 65536 + g * 16) 4 7 = g := field236 (cl := 7) (ch := 1671168) rfl hb0 hb1 hb2 (by decide)
  refine decode_of_one (w := 3422552071 + d * 2097152 + a * 65536 + g * 16) rfl m (by decide) (fun x => ?_) hwf
  rw [decodeMajor_33 _ m, decodeM33]
  simp only [f0, f1, f2, f3, f4, use, if_true, Nat.reduceAdd, Nat.zero_ne_one, Nat.one_ne_zero, if_false]

theorem vperm (d : Nat) (a : Nat) (b : Nat) (g : Nat) : Statement (.vperm d a b g) := by
  intro hwf _
  have hb : (d < 32 && a < 32 && b < 32 && g < 128) = true := hwf
  simp only [Bool.and_eq_true, decide_eq_true_eq] at hb
  obtain ⟨⟨⟨hb0, hb1⟩, hb2⟩, hb3⟩ := hb
  have m : bits (3489660928 + d * 2097152 + a * 65536 + b * 2048 + g * 16) 26 6 = 52 := field225 (cl := 0) (cm := 52) (ch := 0) rfl hb0 hb1 hb2 hb3 (by decide) (by decide)
  have f0 : bits (3489660928 + d * 2097152 + a * 65536 + b * 2048 + g * 16) 0 4 = 0 := field226 (cl := 0) (cm := 0) (ch := 218103808) rfl hb0 hb1 hb2 hb3 (by decide) (by decide)
  have f1 : bits (3489660928 + d * 2097152 + a * 65536 + b * 2048 + g * 16) 11 5 = b := field227 (cl := 0) (ch := 53248) rfl hb0 hb1 hb2 hb3 (by decide)
  have f2 : bits (3489660928 + d * 2097152 + a * 65536 + b * 2048 + g * 16) 16 5 = a := field228 (cl := 0) (ch := 1664) rfl hb0 hb1 hb2 hb3 (by decide)
  have f3 : bits (3489660928 + d * 2097152 + a * 65536 + b * 2048 + g * 16) 21 5 = d := field229 (cl := 0) (ch := 52) rfl hb0 hb1 hb2 hb3 (by decide)
  have f4 : bits (3489660928 + d * 2097152 + a * 65536 + b * 2048 + g * 16) 4 7 = g := field230 (cl := 0) (ch := 1703936) rfl hb0 hb1 hb2 hb3 (by decide)
  refine decode_of_one (w := 3489660928 + d * 2097152 + a * 65536 + b * 2048 + g * 16) rfl m (by decide) (fun x => ?_) hwf
  rw [decodeMajor_34 _ m, decodeM34]
  simp only [f0, f1, f2, f3, f4, use, if_true, Nat.reduceAdd, Nat.zero_ne_one, Nat.one_ne_zero, if_false]

theorem vslide (d : Nat) (a : Nat) (b : Nat) (g : Nat) : Statement (.vslide d a b g) := by
  intro hwf _
  have hb : (d < 32 && a < 32 && b < 32 && g < 128) = true := hwf
  simp only [Bool.and_eq_true, decide_eq_true_eq] at hb
  obtain ⟨⟨⟨hb0, hb1⟩, hb2⟩, hb3⟩ := hb
  have m : bits (3489660929 + d * 2097152 + a * 65536 + b * 2048 + g * 16) 26 6 = 52 := field225 (cl := 1) (cm := 52) (ch := 0) rfl hb0 hb1 hb2 hb3 (by decide) (by decide)
  have f0 : bits (3489660929 + d * 2097152 + a * 65536 + b * 2048 + g * 16) 0 4 = 1 := field226 (cl := 0) (cm := 1) (ch := 218103808) rfl hb0 hb1 hb2 hb3 (by decide) (by decide)
  have f1 : bits (3489660929 + d * 2097152 + a * 65536 + b * 2048 + g * 16) 11 5 = b := field227 (cl := 1) (ch := 53248) rfl hb0 hb1 hb2 hb3 (by decide)
  have f2 : bits (3489660929 + d * 2097152 + a * 65536 + b * 2048 + g * 16) 16 5 = a := field228 (cl := 1) (ch := 1664) rfl hb0 hb1 hb2 hb3 (by decide)
  have f3 : bits (3489660929 + d * 2097152 + a * 65536 + b * 2048 + g * 16) 21 5 = d := field229 (cl := 1) (ch := 52) rfl hb0 hb1 hb2 hb3 (by decide)
  have f4 : bits (3489660929 + d * 2097152 + a * 65536 + b * 2048 + g * 16) 4 7 = g := field230 (cl := 1) (ch := 1703936) rfl hb0 hb1 hb2 hb3 (by decide)
  refine decode_of_one (w := 3489660929 + d * 2097152 + a * 65536 + b * 2048 + g * 16) rfl m (by decide) (fun x => ?_) hwf
  rw [decodeMajor_34 _ m, decodeM34]
  simp only [f0, f1, f2, f3, f4, use, if_true, Nat.reduceAdd, Nat.zero_ne_one, Nat.one_ne_zero, if_false]

theorem vcompress (d : Nat) (a : Nat) (g : Nat) : Statement (.vcompress d a g) := by
  intro hwf _
  have hb : (d < 32 && a < 32 && g < 128) = true := hwf
  simp only [Bool.and_eq_true, decide_eq_true_eq] at hb
  obtain ⟨⟨hb0, hb1⟩, hb2⟩ := hb
  have m : bits (3489660930 + d * 2097152 + a * 65536 + g * 16) 26 6 = 52 := field231 (cl := 2) (cm := 52) (ch := 0) rfl hb0 hb1 hb2 (by decide) (by decide)
  have f0 : bits (3489660930 + d * 2097152 + a * 65536 + g * 16) 0 4 = 2 := field232 (cl := 0) (cm := 2) (ch := 218103808) rfl hb0 hb1 hb2 (by decide) (by decide)
  have f1 : bits (3489660930 + d * 2097152 + a * 65536 + g * 16) 11 5 = 0 := field233 (cl := 2) (cm := 0) (ch := 53248) rfl hb0 hb1 hb2 (by decide) (by decide)
  have f2 : bits (3489660930 + d * 2097152 + a * 65536 + g * 16) 16 5 = a := field234 (cl := 2) (ch := 1664) rfl hb0 hb1 hb2 (by decide)
  have f3 : bits (3489660930 + d * 2097152 + a * 65536 + g * 16) 21 5 = d := field235 (cl := 2) (ch := 52) rfl hb0 hb1 hb2 (by decide)
  have f4 : bits (3489660930 + d * 2097152 + a * 65536 + g * 16) 4 7 = g := field236 (cl := 2) (ch := 1703936) rfl hb0 hb1 hb2 (by decide)
  refine decode_of_one (w := 3489660930 + d * 2097152 + a * 65536 + g * 16) rfl m (by decide) (fun x => ?_) hwf
  rw [decodeMajor_34 _ m, decodeM34]
  simp only [f0, f1, f2, f3, f4, use, if_true, Nat.reduceAdd, Nat.zero_ne_one, Nat.one_ne_zero, if_false]

theorem vexpand (d : Nat) (a : Nat) (g : Nat) : Statement (.vexpand d a g) := by
  intro hwf _
  have hb : (d < 32 && a < 32 && g < 128) = true := hwf
  simp only [Bool.and_eq_true, decide_eq_true_eq] at hb
  obtain ⟨⟨hb0, hb1⟩, hb2⟩ := hb
  have m : bits (3489660931 + d * 2097152 + a * 65536 + g * 16) 26 6 = 52 := field231 (cl := 3) (cm := 52) (ch := 0) rfl hb0 hb1 hb2 (by decide) (by decide)
  have f0 : bits (3489660931 + d * 2097152 + a * 65536 + g * 16) 0 4 = 3 := field232 (cl := 0) (cm := 3) (ch := 218103808) rfl hb0 hb1 hb2 (by decide) (by decide)
  have f1 : bits (3489660931 + d * 2097152 + a * 65536 + g * 16) 11 5 = 0 := field233 (cl := 3) (cm := 0) (ch := 53248) rfl hb0 hb1 hb2 (by decide) (by decide)
  have f2 : bits (3489660931 + d * 2097152 + a * 65536 + g * 16) 16 5 = a := field234 (cl := 3) (ch := 1664) rfl hb0 hb1 hb2 (by decide)
  have f3 : bits (3489660931 + d * 2097152 + a * 65536 + g * 16) 21 5 = d := field235 (cl := 3) (ch := 52) rfl hb0 hb1 hb2 (by decide)
  have f4 : bits (3489660931 + d * 2097152 + a * 65536 + g * 16) 4 7 = g := field236 (cl := 3) (ch := 1703936) rfl hb0 hb1 hb2 (by decide)
  refine decode_of_one (w := 3489660931 + d * 2097152 + a * 65536 + g * 16) rfl m (by decide) (fun x => ?_) hwf
  rw [decodeMajor_34 _ m, decodeM34]
  simp only [f0, f1, f2, f3, f4, use, if_true, Nat.reduceAdd, Nat.zero_ne_one, Nat.one_ne_zero, if_false]

theorem aadd (a : Nat) (b : Nat) (c : Nat) (scope : Nat) (ord : Nat) (w : Nat) : Statement (.aadd a b c scope ord w) := by
  intro hwf _
  have hb : (a < 128 && b < 128 && c < 128 && scope < 8 && ord < 4 && 0 < scope && (w < 3)) = true := hwf
  simp only [Bool.and_eq_true, decide_eq_true_eq] at hb
  obtain ⟨⟨⟨⟨⟨⟨hb0, hb1⟩, hb2⟩, hb3⟩, hb4⟩, hb5⟩, hb6⟩ := hb
  have m : bits (56 * 67108864 + a * 524288 + b * 4096 + c * 32 + 0) 26 6 = 56 := field259 (by decide) hb0 hb1 hb2 (by decide)
  have f0 : bits (56 * 67108864 + a * 524288 + b * 4096 + c * 32 + 0) 0 5 = 0 := field260 (by decide) hb0 hb1 hb2 (by decide)
  have f1 : bits (56 * 67108864 + a * 524288 + b * 4096 + c * 32 + 0) 12 7 = b := field261 (by decide) hb0 hb1 hb2 (by decide)
  have f2 : bits (56 * 67108864 + a * 524288 + b * 4096 + c * 32 + 0) 19 7 = a := field262 (by decide) hb0 hb1 hb2 (by decide)
  have f3 : bits (56 * 67108864 + a * 524288 + b * 4096 + c * 32 + 0) 5 7 = c := field263 (by decide) hb0 hb1 hb2 (by decide)
  have f4 : bits (scope * 128 + w * 4 + ord) 0 2 = ord := field264 hb3 (by omega) hb4
  have f5 : bits (scope * 128 + w * 4 + ord) 10 6 = 0 := field265 hb3 (by omega) hb4
  have f6 : bits (scope * 128 + w * 4 + ord) 16 16 = 0 := field266 hb3 (by omega) hb4
  have f7 : bits (scope * 128 + w * 4 + ord) 2 2 = w := field267 hb3 (by omega) hb4
  have f8 : bits (scope * 128 + w * 4 + ord) 4 3 = 0 := field268 hb3 (by omega) hb4
  have f9 : bits (scope * 128 + w * 4 + ord) 7 3 = scope := field269 hb3 (by omega) hb4
  refine decode_of_two (w := 56 * 67108864 + a * 524288 + b * 4096 + c * 32 + 0) (x := scope * 128 + w * 4 + ord) rfl m (by decide) ?_ hwf
  rw [decodeMajor_38 _ m, decodeM38]
  simp only [f0, f1, f2, f3, f4, f5, f6, f7, f8, f9, use, if_true, Nat.reduceAdd, Nat.zero_ne_one, Nat.one_ne_zero, if_false]

theorem afadd (a : Nat) (b : Nat) (c : Nat) (scope : Nat) (ord : Nat) (w : Nat) : Statement (.afadd a b c scope ord w) := by
  intro hwf _
  have hb : (a < 128 && b < 128 && c < 128 && scope < 8 && ord < 4 && 0 < scope && (w == 3)) = true := hwf
  simp only [Bool.and_eq_true, decide_eq_true_eq] at hb
  obtain ⟨⟨⟨⟨⟨⟨hb0, hb1⟩, hb2⟩, hb3⟩, hb4⟩, hb5⟩, hb6⟩ := hb
  simp only [beq_iff_eq] at hb6
  have m : bits (56 * 67108864 + a * 524288 + b * 4096 + c * 32 + 1) 26 6 = 56 := field259 (by decide) hb0 hb1 hb2 (by decide)
  have f0 : bits (56 * 67108864 + a * 524288 + b * 4096 + c * 32 + 1) 0 5 = 1 := field260 (by decide) hb0 hb1 hb2 (by decide)
  have f1 : bits (56 * 67108864 + a * 524288 + b * 4096 + c * 32 + 1) 12 7 = b := field261 (by decide) hb0 hb1 hb2 (by decide)
  have f2 : bits (56 * 67108864 + a * 524288 + b * 4096 + c * 32 + 1) 19 7 = a := field262 (by decide) hb0 hb1 hb2 (by decide)
  have f3 : bits (56 * 67108864 + a * 524288 + b * 4096 + c * 32 + 1) 5 7 = c := field263 (by decide) hb0 hb1 hb2 (by decide)
  have f4 : bits (scope * 128 + w * 4 + ord) 0 2 = ord := field264 hb3 (by omega) hb4
  have f5 : bits (scope * 128 + w * 4 + ord) 10 6 = 0 := field265 hb3 (by omega) hb4
  have f6 : bits (scope * 128 + w * 4 + ord) 16 16 = 0 := field266 hb3 (by omega) hb4
  have f7 : bits (scope * 128 + w * 4 + ord) 2 2 = w := field267 hb3 (by omega) hb4
  have f8 : bits (scope * 128 + w * 4 + ord) 4 3 = 0 := field268 hb3 (by omega) hb4
  have f9 : bits (scope * 128 + w * 4 + ord) 7 3 = scope := field269 hb3 (by omega) hb4
  refine decode_of_two (w := 56 * 67108864 + a * 524288 + b * 4096 + c * 32 + 1) (x := scope * 128 + w * 4 + ord) rfl m (by decide) ?_ hwf
  rw [decodeMajor_38 _ m, decodeM38]
  simp only [f0, f1, f2, f3, f4, f5, f6, f7, f8, f9, use, if_true, Nat.reduceAdd, Nat.zero_ne_one, Nat.one_ne_zero, if_false]

theorem amin (a : Nat) (b : Nat) (c : Nat) (scope : Nat) (ord : Nat) (w : Nat) : Statement (.amin a b c scope ord w) := by
  intro hwf _
  have hb : (a < 128 && b < 128 && c < 128 && scope < 8 && ord < 4 && 0 < scope && (w < 2)) = true := hwf
  simp only [Bool.and_eq_true, decide_eq_true_eq] at hb
  obtain ⟨⟨⟨⟨⟨⟨hb0, hb1⟩, hb2⟩, hb3⟩, hb4⟩, hb5⟩, hb6⟩ := hb
  have m : bits (56 * 67108864 + a * 524288 + b * 4096 + c * 32 + 2) 26 6 = 56 := field259 (by decide) hb0 hb1 hb2 (by decide)
  have f0 : bits (56 * 67108864 + a * 524288 + b * 4096 + c * 32 + 2) 0 5 = 2 := field260 (by decide) hb0 hb1 hb2 (by decide)
  have f1 : bits (56 * 67108864 + a * 524288 + b * 4096 + c * 32 + 2) 12 7 = b := field261 (by decide) hb0 hb1 hb2 (by decide)
  have f2 : bits (56 * 67108864 + a * 524288 + b * 4096 + c * 32 + 2) 19 7 = a := field262 (by decide) hb0 hb1 hb2 (by decide)
  have f3 : bits (56 * 67108864 + a * 524288 + b * 4096 + c * 32 + 2) 5 7 = c := field263 (by decide) hb0 hb1 hb2 (by decide)
  have f4 : bits (scope * 128 + w * 4 + ord) 0 2 = ord := field270 hb3 (by omega) hb4
  have f5 : bits (scope * 128 + w * 4 + ord) 10 6 = 0 := field271 hb3 (by omega) hb4
  have f6 : bits (scope * 128 + w * 4 + ord) 16 16 = 0 := field272 hb3 (by omega) hb4
  have f7 : bits (scope * 128 + w * 4 + ord) 2 2 = w := field273 hb3 (by omega) hb4
  have f8 : bits (scope * 128 + w * 4 + ord) 4 3 = 0 := field274 hb3 (by omega) hb4
  have f9 : bits (scope * 128 + w * 4 + ord) 7 3 = scope := field275 hb3 (by omega) hb4
  refine decode_of_two (w := 56 * 67108864 + a * 524288 + b * 4096 + c * 32 + 2) (x := scope * 128 + w * 4 + ord) rfl m (by decide) ?_ hwf
  rw [decodeMajor_38 _ m, decodeM38]
  simp only [f0, f1, f2, f3, f4, f5, f6, f7, f8, f9, use, if_true, Nat.reduceAdd, Nat.zero_ne_one, Nat.one_ne_zero, if_false]

theorem amax (a : Nat) (b : Nat) (c : Nat) (scope : Nat) (ord : Nat) (w : Nat) : Statement (.amax a b c scope ord w) := by
  intro hwf _
  have hb : (a < 128 && b < 128 && c < 128 && scope < 8 && ord < 4 && 0 < scope && (w < 2)) = true := hwf
  simp only [Bool.and_eq_true, decide_eq_true_eq] at hb
  obtain ⟨⟨⟨⟨⟨⟨hb0, hb1⟩, hb2⟩, hb3⟩, hb4⟩, hb5⟩, hb6⟩ := hb
  have m : bits (56 * 67108864 + a * 524288 + b * 4096 + c * 32 + 3) 26 6 = 56 := field259 (by decide) hb0 hb1 hb2 (by decide)
  have f0 : bits (56 * 67108864 + a * 524288 + b * 4096 + c * 32 + 3) 0 5 = 3 := field260 (by decide) hb0 hb1 hb2 (by decide)
  have f1 : bits (56 * 67108864 + a * 524288 + b * 4096 + c * 32 + 3) 12 7 = b := field261 (by decide) hb0 hb1 hb2 (by decide)
  have f2 : bits (56 * 67108864 + a * 524288 + b * 4096 + c * 32 + 3) 19 7 = a := field262 (by decide) hb0 hb1 hb2 (by decide)
  have f3 : bits (56 * 67108864 + a * 524288 + b * 4096 + c * 32 + 3) 5 7 = c := field263 (by decide) hb0 hb1 hb2 (by decide)
  have f4 : bits (scope * 128 + w * 4 + ord) 0 2 = ord := field270 hb3 (by omega) hb4
  have f5 : bits (scope * 128 + w * 4 + ord) 10 6 = 0 := field271 hb3 (by omega) hb4
  have f6 : bits (scope * 128 + w * 4 + ord) 16 16 = 0 := field272 hb3 (by omega) hb4
  have f7 : bits (scope * 128 + w * 4 + ord) 2 2 = w := field273 hb3 (by omega) hb4
  have f8 : bits (scope * 128 + w * 4 + ord) 4 3 = 0 := field274 hb3 (by omega) hb4
  have f9 : bits (scope * 128 + w * 4 + ord) 7 3 = scope := field275 hb3 (by omega) hb4
  refine decode_of_two (w := 56 * 67108864 + a * 524288 + b * 4096 + c * 32 + 3) (x := scope * 128 + w * 4 + ord) rfl m (by decide) ?_ hwf
  rw [decodeMajor_38 _ m, decodeM38]
  simp only [f0, f1, f2, f3, f4, f5, f6, f7, f8, f9, use, if_true, Nat.reduceAdd, Nat.zero_ne_one, Nat.one_ne_zero, if_false]

theorem aminn (a : Nat) (b : Nat) (c : Nat) (scope : Nat) (ord : Nat) (w : Nat) : Statement (.aminn a b c scope ord w) := by
  intro hwf _
  have hb : (a < 128 && b < 128 && c < 128 && scope < 8 && ord < 4 && 0 < scope && (w == 0 || w == 2)) = true := hwf
  simp only [Bool.and_eq_true, decide_eq_true_eq] at hb
  obtain ⟨⟨⟨⟨⟨⟨hb0, hb1⟩, hb2⟩, hb3⟩, hb4⟩, hb5⟩, hb6⟩ := hb
  simp only [Bool.or_eq_true, beq_iff_eq] at hb6
  have m : bits (56 * 67108864 + a * 524288 + b * 4096 + c * 32 + 4) 26 6 = 56 := field259 (by decide) hb0 hb1 hb2 (by decide)
  have f0 : bits (56 * 67108864 + a * 524288 + b * 4096 + c * 32 + 4) 0 5 = 4 := field260 (by decide) hb0 hb1 hb2 (by decide)
  have f1 : bits (56 * 67108864 + a * 524288 + b * 4096 + c * 32 + 4) 12 7 = b := field261 (by decide) hb0 hb1 hb2 (by decide)
  have f2 : bits (56 * 67108864 + a * 524288 + b * 4096 + c * 32 + 4) 19 7 = a := field262 (by decide) hb0 hb1 hb2 (by decide)
  have f3 : bits (56 * 67108864 + a * 524288 + b * 4096 + c * 32 + 4) 5 7 = c := field263 (by decide) hb0 hb1 hb2 (by decide)
  have f4 : bits (scope * 128 + w * 4 + ord) 0 2 = ord := field264 hb3 (by omega) hb4
  have f5 : bits (scope * 128 + w * 4 + ord) 10 6 = 0 := field265 hb3 (by omega) hb4
  have f6 : bits (scope * 128 + w * 4 + ord) 16 16 = 0 := field266 hb3 (by omega) hb4
  have f7 : bits (scope * 128 + w * 4 + ord) 2 2 = w := field267 hb3 (by omega) hb4
  have f8 : bits (scope * 128 + w * 4 + ord) 4 3 = 0 := field268 hb3 (by omega) hb4
  have f9 : bits (scope * 128 + w * 4 + ord) 7 3 = scope := field269 hb3 (by omega) hb4
  refine decode_of_two (w := 56 * 67108864 + a * 524288 + b * 4096 + c * 32 + 4) (x := scope * 128 + w * 4 + ord) rfl m (by decide) ?_ hwf
  rw [decodeMajor_38 _ m, decodeM38]
  simp only [f0, f1, f2, f3, f4, f5, f6, f7, f8, f9, use, if_true, Nat.reduceAdd, Nat.zero_ne_one, Nat.one_ne_zero, if_false]

theorem amaxn (a : Nat) (b : Nat) (c : Nat) (scope : Nat) (ord : Nat) (w : Nat) : Statement (.amaxn a b c scope ord w) := by
  intro hwf _
  have hb : (a < 128 && b < 128 && c < 128 && scope < 8 && ord < 4 && 0 < scope && (w == 0 || w == 2)) = true := hwf
  simp only [Bool.and_eq_true, decide_eq_true_eq] at hb
  obtain ⟨⟨⟨⟨⟨⟨hb0, hb1⟩, hb2⟩, hb3⟩, hb4⟩, hb5⟩, hb6⟩ := hb
  simp only [Bool.or_eq_true, beq_iff_eq] at hb6
  have m : bits (56 * 67108864 + a * 524288 + b * 4096 + c * 32 + 5) 26 6 = 56 := field259 (by decide) hb0 hb1 hb2 (by decide)
  have f0 : bits (56 * 67108864 + a * 524288 + b * 4096 + c * 32 + 5) 0 5 = 5 := field260 (by decide) hb0 hb1 hb2 (by decide)
  have f1 : bits (56 * 67108864 + a * 524288 + b * 4096 + c * 32 + 5) 12 7 = b := field261 (by decide) hb0 hb1 hb2 (by decide)
  have f2 : bits (56 * 67108864 + a * 524288 + b * 4096 + c * 32 + 5) 19 7 = a := field262 (by decide) hb0 hb1 hb2 (by decide)
  have f3 : bits (56 * 67108864 + a * 524288 + b * 4096 + c * 32 + 5) 5 7 = c := field263 (by decide) hb0 hb1 hb2 (by decide)
  have f4 : bits (scope * 128 + w * 4 + ord) 0 2 = ord := field264 hb3 (by omega) hb4
  have f5 : bits (scope * 128 + w * 4 + ord) 10 6 = 0 := field265 hb3 (by omega) hb4
  have f6 : bits (scope * 128 + w * 4 + ord) 16 16 = 0 := field266 hb3 (by omega) hb4
  have f7 : bits (scope * 128 + w * 4 + ord) 2 2 = w := field267 hb3 (by omega) hb4
  have f8 : bits (scope * 128 + w * 4 + ord) 4 3 = 0 := field268 hb3 (by omega) hb4
  have f9 : bits (scope * 128 + w * 4 + ord) 7 3 = scope := field269 hb3 (by omega) hb4
  refine decode_of_two (w := 56 * 67108864 + a * 524288 + b * 4096 + c * 32 + 5) (x := scope * 128 + w * 4 + ord) rfl m (by decide) ?_ hwf
  rw [decodeMajor_38 _ m, decodeM38]
  simp only [f0, f1, f2, f3, f4, f5, f6, f7, f8, f9, use, if_true, Nat.reduceAdd, Nat.zero_ne_one, Nat.one_ne_zero, if_false]

theorem aand (a : Nat) (b : Nat) (c : Nat) (scope : Nat) (ord : Nat) (w : Nat) : Statement (.aand a b c scope ord w) := by
  intro hwf _
  have hb : (a < 128 && b < 128 && c < 128 && scope < 8 && ord < 4 && 0 < scope && (w < 3)) = true := hwf
  simp only [Bool.and_eq_true, decide_eq_true_eq] at hb
  obtain ⟨⟨⟨⟨⟨⟨hb0, hb1⟩, hb2⟩, hb3⟩, hb4⟩, hb5⟩, hb6⟩ := hb
  have m : bits (56 * 67108864 + a * 524288 + b * 4096 + c * 32 + 6) 26 6 = 56 := field259 (by decide) hb0 hb1 hb2 (by decide)
  have f0 : bits (56 * 67108864 + a * 524288 + b * 4096 + c * 32 + 6) 0 5 = 6 := field260 (by decide) hb0 hb1 hb2 (by decide)
  have f1 : bits (56 * 67108864 + a * 524288 + b * 4096 + c * 32 + 6) 12 7 = b := field261 (by decide) hb0 hb1 hb2 (by decide)
  have f2 : bits (56 * 67108864 + a * 524288 + b * 4096 + c * 32 + 6) 19 7 = a := field262 (by decide) hb0 hb1 hb2 (by decide)
  have f3 : bits (56 * 67108864 + a * 524288 + b * 4096 + c * 32 + 6) 5 7 = c := field263 (by decide) hb0 hb1 hb2 (by decide)
  have f4 : bits (scope * 128 + w * 4 + ord) 0 2 = ord := field264 hb3 (by omega) hb4
  have f5 : bits (scope * 128 + w * 4 + ord) 10 6 = 0 := field265 hb3 (by omega) hb4
  have f6 : bits (scope * 128 + w * 4 + ord) 16 16 = 0 := field266 hb3 (by omega) hb4
  have f7 : bits (scope * 128 + w * 4 + ord) 2 2 = w := field267 hb3 (by omega) hb4
  have f8 : bits (scope * 128 + w * 4 + ord) 4 3 = 0 := field268 hb3 (by omega) hb4
  have f9 : bits (scope * 128 + w * 4 + ord) 7 3 = scope := field269 hb3 (by omega) hb4
  refine decode_of_two (w := 56 * 67108864 + a * 524288 + b * 4096 + c * 32 + 6) (x := scope * 128 + w * 4 + ord) rfl m (by decide) ?_ hwf
  rw [decodeMajor_38 _ m, decodeM38]
  simp only [f0, f1, f2, f3, f4, f5, f6, f7, f8, f9, use, if_true, Nat.reduceAdd, Nat.zero_ne_one, Nat.one_ne_zero, if_false]

theorem aor (a : Nat) (b : Nat) (c : Nat) (scope : Nat) (ord : Nat) (w : Nat) : Statement (.aor a b c scope ord w) := by
  intro hwf _
  have hb : (a < 128 && b < 128 && c < 128 && scope < 8 && ord < 4 && 0 < scope && (w < 3)) = true := hwf
  simp only [Bool.and_eq_true, decide_eq_true_eq] at hb
  obtain ⟨⟨⟨⟨⟨⟨hb0, hb1⟩, hb2⟩, hb3⟩, hb4⟩, hb5⟩, hb6⟩ := hb
  have m : bits (56 * 67108864 + a * 524288 + b * 4096 + c * 32 + 7) 26 6 = 56 := field259 (by decide) hb0 hb1 hb2 (by decide)
  have f0 : bits (56 * 67108864 + a * 524288 + b * 4096 + c * 32 + 7) 0 5 = 7 := field260 (by decide) hb0 hb1 hb2 (by decide)
  have f1 : bits (56 * 67108864 + a * 524288 + b * 4096 + c * 32 + 7) 12 7 = b := field261 (by decide) hb0 hb1 hb2 (by decide)
  have f2 : bits (56 * 67108864 + a * 524288 + b * 4096 + c * 32 + 7) 19 7 = a := field262 (by decide) hb0 hb1 hb2 (by decide)
  have f3 : bits (56 * 67108864 + a * 524288 + b * 4096 + c * 32 + 7) 5 7 = c := field263 (by decide) hb0 hb1 hb2 (by decide)
  have f4 : bits (scope * 128 + w * 4 + ord) 0 2 = ord := field264 hb3 (by omega) hb4
  have f5 : bits (scope * 128 + w * 4 + ord) 10 6 = 0 := field265 hb3 (by omega) hb4
  have f6 : bits (scope * 128 + w * 4 + ord) 16 16 = 0 := field266 hb3 (by omega) hb4
  have f7 : bits (scope * 128 + w * 4 + ord) 2 2 = w := field267 hb3 (by omega) hb4
  have f8 : bits (scope * 128 + w * 4 + ord) 4 3 = 0 := field268 hb3 (by omega) hb4
  have f9 : bits (scope * 128 + w * 4 + ord) 7 3 = scope := field269 hb3 (by omega) hb4
  refine decode_of_two (w := 56 * 67108864 + a * 524288 + b * 4096 + c * 32 + 7) (x := scope * 128 + w * 4 + ord) rfl m (by decide) ?_ hwf
  rw [decodeMajor_38 _ m, decodeM38]
  simp only [f0, f1, f2, f3, f4, f5, f6, f7, f8, f9, use, if_true, Nat.reduceAdd, Nat.zero_ne_one, Nat.one_ne_zero, if_false]

theorem axor (a : Nat) (b : Nat) (c : Nat) (scope : Nat) (ord : Nat) (w : Nat) : Statement (.axor a b c scope ord w) := by
  intro hwf _
  have hb : (a < 128 && b < 128 && c < 128 && scope < 8 && ord < 4 && 0 < scope && (w < 3)) = true := hwf
  simp only [Bool.and_eq_true, decide_eq_true_eq] at hb
  obtain ⟨⟨⟨⟨⟨⟨hb0, hb1⟩, hb2⟩, hb3⟩, hb4⟩, hb5⟩, hb6⟩ := hb
  have m : bits (56 * 67108864 + a * 524288 + b * 4096 + c * 32 + 8) 26 6 = 56 := field259 (by decide) hb0 hb1 hb2 (by decide)
  have f0 : bits (56 * 67108864 + a * 524288 + b * 4096 + c * 32 + 8) 0 5 = 8 := field260 (by decide) hb0 hb1 hb2 (by decide)
  have f1 : bits (56 * 67108864 + a * 524288 + b * 4096 + c * 32 + 8) 12 7 = b := field261 (by decide) hb0 hb1 hb2 (by decide)
  have f2 : bits (56 * 67108864 + a * 524288 + b * 4096 + c * 32 + 8) 19 7 = a := field262 (by decide) hb0 hb1 hb2 (by decide)
  have f3 : bits (56 * 67108864 + a * 524288 + b * 4096 + c * 32 + 8) 5 7 = c := field263 (by decide) hb0 hb1 hb2 (by decide)
  have f4 : bits (scope * 128 + w * 4 + ord) 0 2 = ord := field264 hb3 (by omega) hb4
  have f5 : bits (scope * 128 + w * 4 + ord) 10 6 = 0 := field265 hb3 (by omega) hb4
  have f6 : bits (scope * 128 + w * 4 + ord) 16 16 = 0 := field266 hb3 (by omega) hb4
  have f7 : bits (scope * 128 + w * 4 + ord) 2 2 = w := field267 hb3 (by omega) hb4
  have f8 : bits (scope * 128 + w * 4 + ord) 4 3 = 0 := field268 hb3 (by omega) hb4
  have f9 : bits (scope * 128 + w * 4 + ord) 7 3 = scope := field269 hb3 (by omega) hb4
  refine decode_of_two (w := 56 * 67108864 + a * 524288 + b * 4096 + c * 32 + 8) (x := scope * 128 + w * 4 + ord) rfl m (by decide) ?_ hwf
  rw [decodeMajor_38 _ m, decodeM38]
  simp only [f0, f1, f2, f3, f4, f5, f6, f7, f8, f9, use, if_true, Nat.reduceAdd, Nat.zero_ne_one, Nat.one_ne_zero, if_false]

theorem aswp (a : Nat) (b : Nat) (c : Nat) (scope : Nat) (ord : Nat) (w : Nat) : Statement (.aswp a b c scope ord w) := by
  intro hwf _
  have hb : (a < 128 && b < 128 && c < 128 && scope < 8 && ord < 4 && 0 < scope && (w < 3)) = true := hwf
  simp only [Bool.and_eq_true, decide_eq_true_eq] at hb
  obtain ⟨⟨⟨⟨⟨⟨hb0, hb1⟩, hb2⟩, hb3⟩, hb4⟩, hb5⟩, hb6⟩ := hb
  have m : bits (56 * 67108864 + a * 524288 + b * 4096 + c * 32 + 9) 26 6 = 56 := field259 (by decide) hb0 hb1 hb2 (by decide)
  have f0 : bits (56 * 67108864 + a * 524288 + b * 4096 + c * 32 + 9) 0 5 = 9 := field260 (by decide) hb0 hb1 hb2 (by decide)
  have f1 : bits (56 * 67108864 + a * 524288 + b * 4096 + c * 32 + 9) 12 7 = b := field261 (by decide) hb0 hb1 hb2 (by decide)
  have f2 : bits (56 * 67108864 + a * 524288 + b * 4096 + c * 32 + 9) 19 7 = a := field262 (by decide) hb0 hb1 hb2 (by decide)
  have f3 : bits (56 * 67108864 + a * 524288 + b * 4096 + c * 32 + 9) 5 7 = c := field263 (by decide) hb0 hb1 hb2 (by decide)
  have f4 : bits (scope * 128 + w * 4 + ord) 0 2 = ord := field264 hb3 (by omega) hb4
  have f5 : bits (scope * 128 + w * 4 + ord) 10 6 = 0 := field265 hb3 (by omega) hb4
  have f6 : bits (scope * 128 + w * 4 + ord) 16 16 = 0 := field266 hb3 (by omega) hb4
  have f7 : bits (scope * 128 + w * 4 + ord) 2 2 = w := field267 hb3 (by omega) hb4
  have f8 : bits (scope * 128 + w * 4 + ord) 4 3 = 0 := field268 hb3 (by omega) hb4
  have f9 : bits (scope * 128 + w * 4 + ord) 7 3 = scope := field269 hb3 (by omega) hb4
  refine decode_of_two (w := 56 * 67108864 + a * 524288 + b * 4096 + c * 32 + 9) (x := scope * 128 + w * 4 + ord) rfl m (by decide) ?_ hwf
  rw [decodeMajor_38 _ m, decodeM38]
  simp only [f0, f1, f2, f3, f4, f5, f6, f7, f8, f9, use, if_true, Nat.reduceAdd, Nat.zero_ne_one, Nat.one_ne_zero, if_false]

theorem acas (a : Nat) (b : Nat) (c : Nat) (scope : Nat) (ord : Nat) (w : Nat) : Statement (.acas a b c scope ord w) := by
  intro hwf _
  have hb : (a < 128 && b < 128 && c < 128 && scope < 8 && ord < 4 && 0 < scope && (w < 3) && c < 127) = true := hwf
  simp only [Bool.and_eq_true, decide_eq_true_eq] at hb
  obtain ⟨⟨⟨⟨⟨⟨⟨hb0, hb1⟩, hb2⟩, hb3⟩, hb4⟩, hb5⟩, hb6⟩, hb7⟩ := hb
  have m : bits (56 * 67108864 + a * 524288 + b * 4096 + c * 32 + 10) 26 6 = 56 := field259 (by decide) hb0 hb1 hb2 (by decide)
  have f0 : bits (56 * 67108864 + a * 524288 + b * 4096 + c * 32 + 10) 0 5 = 10 := field260 (by decide) hb0 hb1 hb2 (by decide)
  have f1 : bits (56 * 67108864 + a * 524288 + b * 4096 + c * 32 + 10) 12 7 = b := field261 (by decide) hb0 hb1 hb2 (by decide)
  have f2 : bits (56 * 67108864 + a * 524288 + b * 4096 + c * 32 + 10) 19 7 = a := field262 (by decide) hb0 hb1 hb2 (by decide)
  have f3 : bits (56 * 67108864 + a * 524288 + b * 4096 + c * 32 + 10) 5 7 = c := field263 (by decide) hb0 hb1 hb2 (by decide)
  have f4 : bits (scope * 128 + w * 4 + ord) 0 2 = ord := field264 hb3 (by omega) hb4
  have f5 : bits (scope * 128 + w * 4 + ord) 10 6 = 0 := field265 hb3 (by omega) hb4
  have f6 : bits (scope * 128 + w * 4 + ord) 16 16 = 0 := field266 hb3 (by omega) hb4
  have f7 : bits (scope * 128 + w * 4 + ord) 2 2 = w := field267 hb3 (by omega) hb4
  have f8 : bits (scope * 128 + w * 4 + ord) 4 3 = 0 := field268 hb3 (by omega) hb4
  have f9 : bits (scope * 128 + w * 4 + ord) 7 3 = scope := field269 hb3 (by omega) hb4
  refine decode_of_two (w := 56 * 67108864 + a * 524288 + b * 4096 + c * 32 + 10) (x := scope * 128 + w * 4 + ord) rfl m (by decide) ?_ hwf
  rw [decodeMajor_38 _ m, decodeM38]
  simp only [f0, f1, f2, f3, f4, f5, f6, f7, f8, f9, use, if_true, Nat.reduceAdd, Nat.zero_ne_one, Nat.one_ne_zero, if_false]

theorem cadd (a : Nat) (b : Nat) (c : Nat) (scope : Nat) (ord : Nat) (w : Nat) : Statement (.cadd a b c scope ord w) := by
  intro hwf _
  have hb : (a < 128 && b < 128 && c < 128 && scope < 8 && ord < 4 && 0 < scope && (w < 3)) = true := hwf
  simp only [Bool.and_eq_true, decide_eq_true_eq] at hb
  obtain ⟨⟨⟨⟨⟨⟨hb0, hb1⟩, hb2⟩, hb3⟩, hb4⟩, hb5⟩, hb6⟩ := hb
  have m : bits (56 * 67108864 + a * 524288 + b * 4096 + c * 32 + 11) 26 6 = 56 := field259 (by decide) hb0 hb1 hb2 (by decide)
  have f0 : bits (56 * 67108864 + a * 524288 + b * 4096 + c * 32 + 11) 0 5 = 11 := field260 (by decide) hb0 hb1 hb2 (by decide)
  have f1 : bits (56 * 67108864 + a * 524288 + b * 4096 + c * 32 + 11) 12 7 = b := field261 (by decide) hb0 hb1 hb2 (by decide)
  have f2 : bits (56 * 67108864 + a * 524288 + b * 4096 + c * 32 + 11) 19 7 = a := field262 (by decide) hb0 hb1 hb2 (by decide)
  have f3 : bits (56 * 67108864 + a * 524288 + b * 4096 + c * 32 + 11) 5 7 = c := field263 (by decide) hb0 hb1 hb2 (by decide)
  have f4 : bits (scope * 128 + w * 4 + ord) 0 2 = ord := field264 hb3 (by omega) hb4
  have f5 : bits (scope * 128 + w * 4 + ord) 10 6 = 0 := field265 hb3 (by omega) hb4
  have f6 : bits (scope * 128 + w * 4 + ord) 16 16 = 0 := field266 hb3 (by omega) hb4
  have f7 : bits (scope * 128 + w * 4 + ord) 2 2 = w := field267 hb3 (by omega) hb4
  have f8 : bits (scope * 128 + w * 4 + ord) 4 3 = 0 := field268 hb3 (by omega) hb4
  have f9 : bits (scope * 128 + w * 4 + ord) 7 3 = scope := field269 hb3 (by omega) hb4
  refine decode_of_two (w := 56 * 67108864 + a * 524288 + b * 4096 + c * 32 + 11) (x := scope * 128 + w * 4 + ord) rfl m (by decide) ?_ hwf
  rw [decodeMajor_38 _ m, decodeM38]
  simp only [f0, f1, f2, f3, f4, f5, f6, f7, f8, f9, use, if_true, Nat.reduceAdd, Nat.zero_ne_one, Nat.one_ne_zero, if_false]

theorem fetch (a : Nat) (b : Nat) (c : Nat) (tag : Nat) (scope : Nat) (cnt : Bool) : Statement (.fetch a b c tag scope cnt) := by
  intro hwf _
  have hb : (a < 128 && b < 128 && c < 128 && tag < 64 && scope < 8 && 0 < scope) = true := hwf
  simp only [Bool.and_eq_true, decide_eq_true_eq] at hb
  obtain ⟨⟨⟨⟨⟨hb0, hb1⟩, hb2⟩, hb3⟩, hb4⟩, hb5⟩ := hb
  have m : bits (57 * 67108864 + a * 524288 + b * 4096 + c * 32 + 0) 26 6 = 57 := field259 (by decide) hb0 hb1 hb2 (by decide)
  have f0 : bit (tag * 1024 + scope * 128 + b2n cnt * 4) 2 = cnt := by cases cnt <;> simp [bit, b2n] <;> omega
  have f1 : bits (57 * 67108864 + a * 524288 + b * 4096 + c * 32 + 0) 0 5 = 0 := field260 (by decide) hb0 hb1 hb2 (by decide)
  have f2 : bits (57 * 67108864 + a * 524288 + b * 4096 + c * 32 + 0) 12 7 = b := field261 (by decide) hb0 hb1 hb2 (by decide)
  have f3 : bits (57 * 67108864 + a * 524288 + b * 4096 + c * 32 + 0) 19 7 = a := field262 (by decide) hb0 hb1 hb2 (by decide)
  have f4 : bits (57 * 67108864 + a * 524288 + b * 4096 + c * 32 + 0) 5 7 = c := field263 (by decide) hb0 hb1 hb2 (by decide)
  have f5 : bits (tag * 1024 + scope * 128 + b2n cnt * 4) 0 2 = 0 := by cases cnt <;> simp only [bits, b2n, if_true, Bool.false_eq_true, if_false] <;> omega
  have f6 : bits (tag * 1024 + scope * 128 + b2n cnt * 4) 10 6 = tag := by cases cnt <;> simp only [bits, b2n, if_true, Bool.false_eq_true, if_false] <;> omega
  have f7 : bits (tag * 1024 + scope * 128 + b2n cnt * 4) 16 16 = 0 := by cases cnt <;> simp only [bits, b2n, if_true, Bool.false_eq_true, if_false] <;> omega
  have f8 : bits (tag * 1024 + scope * 128 + b2n cnt * 4) 3 4 = 0 := by cases cnt <;> simp only [bits, b2n, if_true, Bool.false_eq_true, if_false] <;> omega
  have f9 : bits (tag * 1024 + scope * 128 + b2n cnt * 4) 7 3 = scope := by cases cnt <;> simp only [bits, b2n, if_true, Bool.false_eq_true, if_false] <;> omega
  refine decode_of_two (w := 57 * 67108864 + a * 524288 + b * 4096 + c * 32 + 0) (x := tag * 1024 + scope * 128 + b2n cnt * 4) rfl m (by decide) ?_ hwf
  rw [decodeMajor_39 _ m, decodeM39]
  simp only [f0, f1, f2, f3, f4, f5, f6, f7, f8, f9, use, if_true, Nat.reduceAdd, Nat.zero_ne_one, Nat.one_ne_zero, if_false]

theorem push (a : Nat) (b : Nat) (c : Nat) (tag : Nat) (scope : Nat) (cnt : Bool) : Statement (.push a b c tag scope cnt) := by
  intro hwf _
  have hb : (a < 128 && b < 128 && c < 128 && tag < 64 && scope < 8 && 0 < scope) = true := hwf
  simp only [Bool.and_eq_true, decide_eq_true_eq] at hb
  obtain ⟨⟨⟨⟨⟨hb0, hb1⟩, hb2⟩, hb3⟩, hb4⟩, hb5⟩ := hb
  have m : bits (57 * 67108864 + a * 524288 + b * 4096 + c * 32 + 1) 26 6 = 57 := field259 (by decide) hb0 hb1 hb2 (by decide)
  have f0 : bit (tag * 1024 + scope * 128 + b2n cnt * 4) 2 = cnt := by cases cnt <;> simp [bit, b2n] <;> omega
  have f1 : bits (57 * 67108864 + a * 524288 + b * 4096 + c * 32 + 1) 0 5 = 1 := field260 (by decide) hb0 hb1 hb2 (by decide)
  have f2 : bits (57 * 67108864 + a * 524288 + b * 4096 + c * 32 + 1) 12 7 = b := field261 (by decide) hb0 hb1 hb2 (by decide)
  have f3 : bits (57 * 67108864 + a * 524288 + b * 4096 + c * 32 + 1) 19 7 = a := field262 (by decide) hb0 hb1 hb2 (by decide)
  have f4 : bits (57 * 67108864 + a * 524288 + b * 4096 + c * 32 + 1) 5 7 = c := field263 (by decide) hb0 hb1 hb2 (by decide)
  have f5 : bits (tag * 1024 + scope * 128 + b2n cnt * 4) 0 2 = 0 := by cases cnt <;> simp only [bits, b2n, if_true, Bool.false_eq_true, if_false] <;> omega
  have f6 : bits (tag * 1024 + scope * 128 + b2n cnt * 4) 10 6 = tag := by cases cnt <;> simp only [bits, b2n, if_true, Bool.false_eq_true, if_false] <;> omega
  have f7 : bits (tag * 1024 + scope * 128 + b2n cnt * 4) 16 16 = 0 := by cases cnt <;> simp only [bits, b2n, if_true, Bool.false_eq_true, if_false] <;> omega
  have f8 : bits (tag * 1024 + scope * 128 + b2n cnt * 4) 3 1 = 0 := by cases cnt <;> simp only [bits, b2n, if_true, Bool.false_eq_true, if_false] <;> omega
  have f9 : bits (tag * 1024 + scope * 128 + b2n cnt * 4) 4 3 = 0 := by cases cnt <;> simp only [bits, b2n, if_true, Bool.false_eq_true, if_false] <;> omega
  have f10 : bits (tag * 1024 + scope * 128 + b2n cnt * 4) 7 3 = scope := by cases cnt <;> simp only [bits, b2n, if_true, Bool.false_eq_true, if_false] <;> omega
  refine decode_of_two (w := 57 * 67108864 + a * 524288 + b * 4096 + c * 32 + 1) (x := tag * 1024 + scope * 128 + b2n cnt * 4) rfl m (by decide) ?_ hwf
  rw [decodeMajor_39 _ m, decodeM39]
  simp only [f0, f1, f2, f3, f4, f5, f6, f7, f8, f9, f10, use, if_true, Nat.reduceAdd, Nat.zero_ne_one, Nat.one_ne_zero, if_false]

theorem pushX (obj : Nat) (a : Nat) (b : Nat) (c : Nat) (tag : Nat) (scope : Nat) (cnt : Bool) : Statement (.pushX obj a b c tag scope cnt) := by
  intro hwf _
  have hb : (obj < 65536 && a < 128 && b < 128 && c < 128 && tag < 64 && scope < 8 && 0 < scope) = true := hwf
  simp only [Bool.and_eq_true, decide_eq_true_eq] at hb
  obtain ⟨⟨⟨⟨⟨⟨hb0, hb1⟩, hb2⟩, hb3⟩, hb4⟩, hb5⟩, hb6⟩ := hb
  have m : bits (57 * 67108864 + a * 524288 + b * 4096 + c * 32 + 1) 26 6 = 57 := field259 (by decide) hb1 hb2 hb3 (by decide)
  have f0 : bit (obj * 65536 + tag * 1024 + scope * 128 + 8 + b2n cnt * 4) 2 = cnt := by cases cnt <;> simp [bit, b2n] <;> omega
  have f1 : bits (57 * 67108864 + a * 524288 + b * 4096 + c * 32 + 1) 0 5 = 1 := field260 (by decide) hb1 hb2 hb3 (by decide)
  have f2 : bits (57 * 67108864 + a * 524288 + b * 4096 + c * 32 + 1) 12 7 = b := field261 (by decide) hb1 hb2 hb3 (by decide)
  have f3 : bits (57 * 67108864 + a * 524288 + b * 4096 + c * 32 + 1) 19 7 = a := field262 (by decide) hb1 hb2 hb3 (by decide)
  have f4 : bits (57 * 67108864 + a * 524288 + b * 4096 + c * 32 + 1) 5 7 = c := field263 (by decide) hb1 hb2 hb3 (by decide)
  have f5 : bits (obj * 65536 + tag * 1024 + scope * 128 + 8 + b2n cnt * 4) 0 2 = 0 := by cases cnt <;> simp only [bits, b2n, if_true, Bool.false_eq_true, if_false] <;> omega
  have f6 : bits (obj * 65536 + tag * 1024 + scope * 128 + 8 + b2n cnt * 4) 10 6 = tag := by cases cnt <;> simp only [bits, b2n, if_true, Bool.false_eq_true, if_false] <;> omega
  have f7 : bits (obj * 65536 + tag * 1024 + scope * 128 + 8 + b2n cnt * 4) 16 16 = obj := by cases cnt <;> simp only [bits, b2n, if_true, Bool.false_eq_true, if_false] <;> omega
  have f8 : bits (obj * 65536 + tag * 1024 + scope * 128 + 8 + b2n cnt * 4) 3 1 = 1 := by cases cnt <;> simp only [bits, b2n, if_true, Bool.false_eq_true, if_false] <;> omega
  have f9 : bits (obj * 65536 + tag * 1024 + scope * 128 + 8 + b2n cnt * 4) 4 3 = 0 := by cases cnt <;> simp only [bits, b2n, if_true, Bool.false_eq_true, if_false] <;> omega
  have f10 : bits (obj * 65536 + tag * 1024 + scope * 128 + 8 + b2n cnt * 4) 7 3 = scope := by cases cnt <;> simp only [bits, b2n, if_true, Bool.false_eq_true, if_false] <;> omega
  refine decode_of_two (w := 57 * 67108864 + a * 524288 + b * 4096 + c * 32 + 1) (x := obj * 65536 + tag * 1024 + scope * 128 + 8 + b2n cnt * 4) rfl m (by decide) ?_ hwf
  rw [decodeMajor_39 _ m, decodeM39]
  simp only [f0, f1, f2, f3, f4, f5, f6, f7, f8, f9, f10, use, if_true, Nat.reduceAdd, Nat.zero_ne_one, Nat.one_ne_zero, if_false]

theorem pushm (obj : Nat) (a : Nat) (b : Nat) (c : Nat) (tag : Nat) (scope : Nat) (cnt : Bool) : Statement (.pushm obj a b c tag scope cnt) := by
  intro hwf _
  have hb : (obj < 65536 && a < 128 && b < 128 && c < 128 && tag < 64 && scope < 8 && 0 < scope) = true := hwf
  simp only [Bool.and_eq_true, decide_eq_true_eq] at hb
  obtain ⟨⟨⟨⟨⟨⟨hb0, hb1⟩, hb2⟩, hb3⟩, hb4⟩, hb5⟩, hb6⟩ := hb
  have m : bits (57 * 67108864 + a * 524288 + b * 4096 + c * 32 + 2) 26 6 = 57 := field259 (by decide) hb1 hb2 hb3 (by decide)
  have f0 : bit (obj * 65536 + tag * 1024 + scope * 128 + b2n cnt * 4) 2 = cnt := by cases cnt <;> simp [bit, b2n] <;> omega
  have f1 : bits (57 * 67108864 + a * 524288 + b * 4096 + c * 32 + 2) 0 5 = 2 := field260 (by decide) hb1 hb2 hb3 (by decide)
  have f2 : bits (57 * 67108864 + a * 524288 + b * 4096 + c * 32 + 2) 12 7 = b := field261 (by decide) hb1 hb2 hb3 (by decide)
  have f3 : bits (57 * 67108864 + a * 524288 + b * 4096 + c * 32 + 2) 19 7 = a := field262 (by decide) hb1 hb2 hb3 (by decide)
  have f4 : bits (57 * 67108864 + a * 524288 + b * 4096 + c * 32 + 2) 5 7 = c := field263 (by decide) hb1 hb2 hb3 (by decide)
  have f5 : bits (obj * 65536 + tag * 1024 + scope * 128 + b2n cnt * 4) 0 2 = 0 := by cases cnt <;> simp only [bits, b2n, if_true, Bool.false_eq_true, if_false] <;> omega
  have f6 : bits (obj * 65536 + tag * 1024 + scope * 128 + b2n cnt * 4) 10 6 = tag := by cases cnt <;> simp only [bits, b2n, if_true, Bool.false_eq_true, if_false] <;> omega
  have f7 : bits (obj * 65536 + tag * 1024 + scope * 128 + b2n cnt * 4) 16 16 = obj := by cases cnt <;> simp only [bits, b2n, if_true, Bool.false_eq_true, if_false] <;> omega
  have f8 : bits (obj * 65536 + tag * 1024 + scope * 128 + b2n cnt * 4) 3 4 = 0 := by cases cnt <;> simp only [bits, b2n, if_true, Bool.false_eq_true, if_false] <;> omega
  have f9 : bits (obj * 65536 + tag * 1024 + scope * 128 + b2n cnt * 4) 7 3 = scope := by cases cnt <;> simp only [bits, b2n, if_true, Bool.false_eq_true, if_false] <;> omega
  refine decode_of_two (w := 57 * 67108864 + a * 524288 + b * 4096 + c * 32 + 2) (x := obj * 65536 + tag * 1024 + scope * 128 + b2n cnt * 4) rfl m (by decide) ?_ hwf
  rw [decodeMajor_39 _ m, decodeM39]
  simp only [f0, f1, f2, f3, f4, f5, f6, f7, f8, f9, use, if_true, Nat.reduceAdd, Nat.zero_ne_one, Nat.one_ne_zero, if_false]

theorem storeb (a : Nat) (b : Nat) (c : Nat) (tag : Nat) (scope : Nat) (cnt : Bool) : Statement (.storeb a b c tag scope cnt) := by
  intro hwf _
  have hb : (a < 128 && b < 128 && c < 128 && tag < 64 && scope < 8 && 0 < scope) = true := hwf
  simp only [Bool.and_eq_true, decide_eq_true_eq] at hb
  obtain ⟨⟨⟨⟨⟨hb0, hb1⟩, hb2⟩, hb3⟩, hb4⟩, hb5⟩ := hb
  have m : bits (57 * 67108864 + a * 524288 + b * 4096 + c * 32 + 3) 26 6 = 57 := field259 (by decide) hb0 hb1 hb2 (by decide)
  have f0 : bit (tag * 1024 + scope * 128 + b2n cnt * 4) 2 = cnt := by cases cnt <;> simp [bit, b2n] <;> omega
  have f1 : bits (57 * 67108864 + a * 524288 + b * 4096 + c * 32 + 3) 0 5 = 3 := field260 (by decide) hb0 hb1 hb2 (by decide)
  have f2 : bits (57 * 67108864 + a * 524288 + b * 4096 + c * 32 + 3) 12 7 = b := field261 (by decide) hb0 hb1 hb2 (by decide)
  have f3 : bits (57 * 67108864 + a * 524288 + b * 4096 + c * 32 + 3) 19 7 = a := field262 (by decide) hb0 hb1 hb2 (by decide)
  have f4 : bits (57 * 67108864 + a * 524288 + b * 4096 + c * 32 + 3) 5 7 = c := field263 (by decide) hb0 hb1 hb2 (by decide)
  have f5 : bits (tag * 1024 + scope * 128 + b2n cnt * 4) 0 2 = 0 := by cases cnt <;> simp only [bits, b2n, if_true, Bool.false_eq_true, if_false] <;> omega
  have f6 : bits (tag * 1024 + scope * 128 + b2n cnt * 4) 10 6 = tag := by cases cnt <;> simp only [bits, b2n, if_true, Bool.false_eq_true, if_false] <;> omega
  have f7 : bits (tag * 1024 + scope * 128 + b2n cnt * 4) 16 16 = 0 := by cases cnt <;> simp only [bits, b2n, if_true, Bool.false_eq_true, if_false] <;> omega
  have f8 : bits (tag * 1024 + scope * 128 + b2n cnt * 4) 3 4 = 0 := by cases cnt <;> simp only [bits, b2n, if_true, Bool.false_eq_true, if_false] <;> omega
  have f9 : bits (tag * 1024 + scope * 128 + b2n cnt * 4) 7 3 = scope := by cases cnt <;> simp only [bits, b2n, if_true, Bool.false_eq_true, if_false] <;> omega
  refine decode_of_two (w := 57 * 67108864 + a * 524288 + b * 4096 + c * 32 + 3) (x := tag * 1024 + scope * 128 + b2n cnt * 4) rfl m (by decide) ?_ hwf
  rw [decodeMajor_39 _ m, decodeM39]
  simp only [f0, f1, f2, f3, f4, f5, f6, f7, f8, f9, use, if_true, Nat.reduceAdd, Nat.zero_ne_one, Nat.one_ne_zero, if_false]

theorem gather (obj : Nat) (a : Nat) (b : Nat) (c : Nat) (tag : Nat) (scope : Nat) (t : Bool) (cnt : Bool) : Statement (.gather obj a b c tag scope t cnt) := by
  intro hwf _
  have hb : (obj < 65536 && a < 128 && b < 128 && c < 128 && tag < 64 && scope < 8 && 0 < scope) = true := hwf
  simp only [Bool.and_eq_true, decide_eq_true_eq] at hb
  obtain ⟨⟨⟨⟨⟨⟨hb0, hb1⟩, hb2⟩, hb3⟩, hb4⟩, hb5⟩, hb6⟩ := hb
  have m : bits (57 * 67108864 + a * 524288 + b * 4096 + c * 32 + 4) 26 6 = 57 := field259 (by decide) hb1 hb2 hb3 (by decide)
  have f0 : bit (obj * 65536 + tag * 1024 + scope * 128 + b2n cnt * 4 + b2n t) 0 = t := by cases t <;> cases cnt <;> simp [bit, b2n] <;> omega
  have f1 : bit (obj * 65536 + tag * 1024 + scope * 128 + b2n cnt * 4 + b2n t) 2 = cnt := by cases t <;> cases cnt <;> simp [bit, b2n] <;> omega
  have f2 : bits (57 * 67108864 + a * 524288 + b * 4096 + c * 32 + 4) 0 5 = 4 := field260 (by decide) hb1 hb2 hb3 (by decide)
  have f3 : bits (57 * 67108864 + a * 524288 + b * 4096 + c * 32 + 4) 12 7 = b := field261 (by decide) hb1 hb2 hb3 (by decide)
  have f4 : bits (57 * 67108864 + a * 524288 + b * 4096 + c * 32 + 4) 19 7 = a := field262 (by decide) hb1 hb2 hb3 (by decide)
  have f5 : bits (57 * 67108864 + a * 524288 + b * 4096 + c * 32 + 4) 5 7 = c := field263 (by decide) hb1 hb2 hb3 (by decide)
  have f6 : bits (obj * 65536 + tag * 1024 + scope * 128 + b2n cnt * 4 + b2n t) 1 1 = 0 := by cases t <;> cases cnt <;> simp only [bits, b2n, if_true, Bool.false_eq_true, if_false] <;> omega
  have f7 : bits (obj * 65536 + tag * 1024 + scope * 128 + b2n cnt * 4 + b2n t) 10 6 = tag := by cases t <;> cases cnt <;> simp only [bits, b2n, if_true, Bool.false_eq_true, if_false] <;> omega
  have f8 : bits (obj * 65536 + tag * 1024 + scope * 128 + b2n cnt * 4 + b2n t) 16 16 = obj := by cases t <;> cases cnt <;> simp only [bits, b2n, if_true, Bool.false_eq_true, if_false] <;> omega
  have f9 : bits (obj * 65536 + tag * 1024 + scope * 128 + b2n cnt * 4 + b2n t) 3 4 = 0 := by cases t <;> cases cnt <;> simp only [bits, b2n, if_true, Bool.false_eq_true, if_false] <;> omega
  have f10 : bits (obj * 65536 + tag * 1024 + scope * 128 + b2n cnt * 4 + b2n t) 7 3 = scope := by cases t <;> cases cnt <;> simp only [bits, b2n, if_true, Bool.false_eq_true, if_false] <;> omega
  refine decode_of_two (w := 57 * 67108864 + a * 524288 + b * 4096 + c * 32 + 4) (x := obj * 65536 + tag * 1024 + scope * 128 + b2n cnt * 4 + b2n t) rfl m (by decide) ?_ hwf
  rw [decodeMajor_39 _ m, decodeM39]
  simp only [f0, f1, f2, f3, f4, f5, f6, f7, f8, f9, f10, use, if_true, Nat.reduceAdd, Nat.zero_ne_one, Nat.one_ne_zero, if_false]

theorem scatter (obj : Nat) (a : Nat) (b : Nat) (c : Nat) (tag : Nat) (scope : Nat) (t : Bool) (add : Bool) (cnt : Bool) : Statement (.scatter obj a b c tag scope t add cnt) := by
  intro hwf _
  have hb : (obj < 65536 && a < 128 && b < 128 && c < 128 && tag < 64 && scope < 8 && 0 < scope) = true := hwf
  simp only [Bool.and_eq_true, decide_eq_true_eq] at hb
  obtain ⟨⟨⟨⟨⟨⟨hb0, hb1⟩, hb2⟩, hb3⟩, hb4⟩, hb5⟩, hb6⟩ := hb
  have m : bits (57 * 67108864 + a * 524288 + b * 4096 + c * 32 + 5) 26 6 = 57 := field259 (by decide) hb1 hb2 hb3 (by decide)
  have f0 : bit (obj * 65536 + tag * 1024 + scope * 128 + b2n cnt * 4 + b2n add * 2 + b2n t) 0 = t := by cases t <;> cases add <;> cases cnt <;> simp [bit, b2n] <;> omega
  have f1 : bit (obj * 65536 + tag * 1024 + scope * 128 + b2n cnt * 4 + b2n add * 2 + b2n t) 1 = add := by cases t <;> cases add <;> cases cnt <;> simp [bit, b2n] <;> omega
  have f2 : bit (obj * 65536 + tag * 1024 + scope * 128 + b2n cnt * 4 + b2n add * 2 + b2n t) 2 = cnt := by cases t <;> cases add <;> cases cnt <;> simp [bit, b2n] <;> omega
  have f3 : bits (57 * 67108864 + a * 524288 + b * 4096 + c * 32 + 5) 0 5 = 5 := field260 (by decide) hb1 hb2 hb3 (by decide)
  have f4 : bits (57 * 67108864 + a * 524288 + b * 4096 + c * 32 + 5) 12 7 = b := field261 (by decide) hb1 hb2 hb3 (by decide)
  have f5 : bits (57 * 67108864 + a * 524288 + b * 4096 + c * 32 + 5) 19 7 = a := field262 (by decide) hb1 hb2 hb3 (by decide)
  have f6 : bits (57 * 67108864 + a * 524288 + b * 4096 + c * 32 + 5) 5 7 = c := field263 (by decide) hb1 hb2 hb3 (by decide)
  have f7 : bits (obj * 65536 + tag * 1024 + scope * 128 + b2n cnt * 4 + b2n add * 2 + b2n t) 10 6 = tag := by cases t <;> cases add <;> cases cnt <;> simp only [bits, b2n, if_true, Bool.false_eq_true, if_false] <;> omega
  have f8 : bits (obj * 65536 + tag * 1024 + scope * 128 + b2n cnt * 4 + b2n add * 2 + b2n t) 16 16 = obj := by cases t <;> cases add <;> cases cnt <;> simp only [bits, b2n, if_true, Bool.false_eq_true, if_false] <;> omega
  have f9 : bits (obj * 65536 + tag * 1024 + scope * 128 + b2n cnt * 4 + b2n add * 2 + b2n t) 3 4 = 0 := by cases t <;> cases add <;> cases cnt <;> simp only [bits, b2n, if_true, Bool.false_eq_true, if_false] <;> omega
  have f10 : bits (obj * 65536 + tag * 1024 + scope * 128 + b2n cnt * 4 + b2n add * 2 + b2n t) 7 3 = scope := by cases t <;> cases add <;> cases cnt <;> simp only [bits, b2n, if_true, Bool.false_eq_true, if_false] <;> omega
  refine decode_of_two (w := 57 * 67108864 + a * 524288 + b * 4096 + c * 32 + 5) (x := obj * 65536 + tag * 1024 + scope * 128 + b2n cnt * 4 + b2n add * 2 + b2n t) rfl m (by decide) ?_ hwf
  rw [decodeMajor_39 _ m, decodeM39]
  simp only [f0, f1, f2, f3, f4, f5, f6, f7, f8, f9, f10, use, if_true, Nat.reduceAdd, Nat.zero_ne_one, Nat.one_ne_zero, if_false]

theorem fabred (obj : Nat) (a : Nat) (b : Nat) (c : Nat) (tag : Nat) (scope : Nat) (cnt : Bool) : Statement (.fabred obj a b c tag scope cnt) := by
  intro hwf _
  have hb : (obj < 65536 && a < 128 && b < 128 && c < 128 && tag < 64 && scope < 8 && 0 < scope) = true := hwf
  simp only [Bool.and_eq_true, decide_eq_true_eq] at hb
  obtain ⟨⟨⟨⟨⟨⟨hb0, hb1⟩, hb2⟩, hb3⟩, hb4⟩, hb5⟩, hb6⟩ := hb
  have m : bits (57 * 67108864 + a * 524288 + b * 4096 + c * 32 + 6) 26 6 = 57 := field259 (by decide) hb1 hb2 hb3 (by decide)
  have f0 : bit (obj * 65536 + tag * 1024 + scope * 128 + b2n cnt * 4) 2 = cnt := by cases cnt <;> simp [bit, b2n] <;> omega
  have f1 : bits (57 * 67108864 + a * 524288 + b * 4096 + c * 32 + 6) 0 5 = 6 := field260 (by decide) hb1 hb2 hb3 (by decide)
  have f2 : bits (57 * 67108864 + a * 524288 + b * 4096 + c * 32 + 6) 12 7 = b := field261 (by decide) hb1 hb2 hb3 (by decide)
  have f3 : bits (57 * 67108864 + a * 524288 + b * 4096 + c * 32 + 6) 19 7 = a := field262 (by decide) hb1 hb2 hb3 (by decide)
  have f4 : bits (57 * 67108864 + a * 524288 + b * 4096 + c * 32 + 6) 5 7 = c := field263 (by decide) hb1 hb2 hb3 (by decide)
  have f5 : bits (obj * 65536 + tag * 1024 + scope * 128 + b2n cnt * 4) 0 2 = 0 := by cases cnt <;> simp only [bits, b2n, if_true, Bool.false_eq_true, if_false] <;> omega
  have f6 : bits (obj * 65536 + tag * 1024 + scope * 128 + b2n cnt * 4) 10 6 = tag := by cases cnt <;> simp only [bits, b2n, if_true, Bool.false_eq_true, if_false] <;> omega
  have f7 : bits (obj * 65536 + tag * 1024 + scope * 128 + b2n cnt * 4) 16 16 = obj := by cases cnt <;> simp only [bits, b2n, if_true, Bool.false_eq_true, if_false] <;> omega
  have f8 : bits (obj * 65536 + tag * 1024 + scope * 128 + b2n cnt * 4) 3 4 = 0 := by cases cnt <;> simp only [bits, b2n, if_true, Bool.false_eq_true, if_false] <;> omega
  have f9 : bits (obj * 65536 + tag * 1024 + scope * 128 + b2n cnt * 4) 7 3 = scope := by cases cnt <;> simp only [bits, b2n, if_true, Bool.false_eq_true, if_false] <;> omega
  refine decode_of_two (w := 57 * 67108864 + a * 524288 + b * 4096 + c * 32 + 6) (x := obj * 65536 + tag * 1024 + scope * 128 + b2n cnt * 4) rfl m (by decide) ?_ hwf
  rw [decodeMajor_39 _ m, decodeM39]
  simp only [f0, f1, f2, f3, f4, f5, f6, f7, f8, f9, use, if_true, Nat.reduceAdd, Nat.zero_ne_one, Nat.one_ne_zero, if_false]

theorem donate (obj : Nat) (a : Nat) (b : Nat) (tag : Nat) (scope : Nat) (cnt : Bool) : Statement (.donate obj a b tag scope cnt) := by
  intro hwf _
  have hb : (obj < 65536 && a < 128 && b < 128 && tag < 64 && scope < 8 && 0 < scope) = true := hwf
  simp only [Bool.and_eq_true, decide_eq_true_eq] at hb
  obtain ⟨⟨⟨⟨⟨hb0, hb1⟩, hb2⟩, hb3⟩, hb4⟩, hb5⟩ := hb
  have m : bits (57 * 67108864 + a * 524288 + b * 4096 + 0 * 32 + 7) 26 6 = 57 := field259 (by decide) hb1 hb2 (by decide) (by decide)
  have f0 : bit (obj * 65536 + tag * 1024 + scope * 128 + b2n cnt * 4) 2 = cnt := by cases cnt <;> simp [bit, b2n] <;> omega
  have f1 : bits (57 * 67108864 + a * 524288 + b * 4096 + 0 * 32 + 7) 0 5 = 7 := field260 (by decide) hb1 hb2 (by decide) (by decide)
  have f2 : bits (57 * 67108864 + a * 524288 + b * 4096 + 0 * 32 + 7) 12 7 = b := field261 (by decide) hb1 hb2 (by decide) (by decide)
  have f3 : bits (57 * 67108864 + a * 524288 + b * 4096 + 0 * 32 + 7) 19 7 = a := field262 (by decide) hb1 hb2 (by decide) (by decide)
  have f4 : bits (57 * 67108864 + a * 524288 + b * 4096 + 0 * 32 + 7) 5 7 = 0 := field263 (by decide) hb1 hb2 (by decide) (by decide)
  have f5 : bits (obj * 65536 + tag * 1024 + scope * 128 + b2n cnt * 4) 0 2 = 0 := by cases cnt <;> simp only [bits, b2n, if_true, Bool.false_eq_true, if_false] <;> omega
  have f6 : bits (obj * 65536 + tag * 1024 + scope * 128 + b2n cnt * 4) 10 6 = tag := by cases cnt <;> simp only [bits, b2n, if_true, Bool.false_eq_true, if_false] <;> omega
  have f7 : bits (obj * 65536 + tag * 1024 + scope * 128 + b2n cnt * 4) 16 16 = obj := by cases cnt <;> simp only [bits, b2n, if_true, Bool.false_eq_true, if_false] <;> omega
  have f8 : bits (obj * 65536 + tag * 1024 + scope * 128 + b2n cnt * 4) 3 4 = 0 := by cases cnt <;> simp only [bits, b2n, if_true, Bool.false_eq_true, if_false] <;> omega
  have f9 : bits (obj * 65536 + tag * 1024 + scope * 128 + b2n cnt * 4) 7 3 = scope := by cases cnt <;> simp only [bits, b2n, if_true, Bool.false_eq_true, if_false] <;> omega
  refine decode_of_two (w := 57 * 67108864 + a * 524288 + b * 4096 + 0 * 32 + 7) (x := obj * 65536 + tag * 1024 + scope * 128 + b2n cnt * 4) rfl m (by decide) ?_ hwf
  rw [decodeMajor_39 _ m, decodeM39]
  simp only [f0, f1, f2, f3, f4, f5, f6, f7, f8, f9, use, if_true, Nat.reduceAdd, Nat.zero_ne_one, Nat.one_ne_zero, if_false]

theorem mclaimClaim (a : Nat) : Statement (.mclaimClaim a) := by
  intro hwf _
  have hb : decide (a < 128) = true := hwf
  simp only [Bool.and_eq_true, decide_eq_true_eq] at hb
  have hb0 := hb
  have m : bits (58 * 67108864 + a * 524288 + 1 * 4096 + 0 * 32 + 0) 26 6 = 58 := field259 (by decide) hb0 (by decide) (by decide) (by decide)
  have f0 : bits (58 * 67108864 + a * 524288 + 1 * 4096 + 0 * 32 + 0) 0 5 = 0 := field260 (by decide) hb0 (by decide) (by decide) (by decide)
  have f1 : bits (58 * 67108864 + a * 524288 + 1 * 4096 + 0 * 32 + 0) 12 7 = 1 := field261 (by decide) hb0 (by decide) (by decide) (by decide)
  have f2 : bits (58 * 67108864 + a * 524288 + 1 * 4096 + 0 * 32 + 0) 19 7 = a := field262 (by decide) hb0 (by decide) (by decide) (by decide)
  have f3 : bits (58 * 67108864 + a * 524288 + 1 * 4096 + 0 * 32 + 0) 5 7 = 0 := field263 (by decide) hb0 (by decide) (by decide) (by decide)
  have f4 : bits (0) 0 1 = 0 := rfl
  have f5 : bits (0) 1 3 = 0 := rfl
  have f6 : bits (0) 16 16 = 0 := rfl
  have f7 : bits (0) 4 12 = 0 := rfl
  refine decode_of_two (w := 58 * 67108864 + a * 524288 + 1 * 4096 + 0 * 32 + 0) (x := 0) rfl m (by decide) ?_ hwf
  rw [decodeMajor_3A _ m, decodeM3A]
  simp only [f0, f1, f2, f3, f4, f5, f6, f7, use, if_true, Nat.reduceAdd, Nat.zero_ne_one, Nat.one_ne_zero, if_false]

theorem mclaimRelease (a : Nat) : Statement (.mclaimRelease a) := by
  intro hwf _
  have hb : decide (a < 128) = true := hwf
  simp only [Bool.and_eq_true, decide_eq_true_eq] at hb
  have hb0 := hb
  have m : bits (58 * 67108864 + a * 524288 + 0 * 4096 + 0 * 32 + 0) 26 6 = 58 := field259 (by decide) hb0 (by decide) (by decide) (by decide)
  have f0 : bits (58 * 67108864 + a * 524288 + 0 * 4096 + 0 * 32 + 0) 0 5 = 0 := field260 (by decide) hb0 (by decide) (by decide) (by decide)
  have f1 : bits (58 * 67108864 + a * 524288 + 0 * 4096 + 0 * 32 + 0) 12 7 = 0 := field261 (by decide) hb0 (by decide) (by decide) (by decide)
  have f2 : bits (58 * 67108864 + a * 524288 + 0 * 4096 + 0 * 32 + 0) 19 7 = a := field262 (by decide) hb0 (by decide) (by decide) (by decide)
  have f3 : bits (58 * 67108864 + a * 524288 + 0 * 4096 + 0 * 32 + 0) 5 7 = 0 := field263 (by decide) hb0 (by decide) (by decide) (by decide)
  have f4 : bits (0) 0 1 = 0 := rfl
  have f5 : bits (0) 1 3 = 0 := rfl
  have f6 : bits (0) 16 16 = 0 := rfl
  have f7 : bits (0) 4 12 = 0 := rfl
  refine decode_of_two (w := 58 * 67108864 + a * 524288 + 0 * 4096 + 0 * 32 + 0) (x := 0) rfl m (by decide) ?_ hwf
  rw [decodeMajor_3A _ m, decodeM3A]
  simp only [f0, f1, f2, f3, f4, f5, f6, f7, use, if_true, Nat.reduceAdd, Nat.zero_ne_one, Nat.one_ne_zero, if_false]

theorem ldw (obj : Nat) (a : Nat) (ty : Nat) : Statement (.ldw obj a ty) := by
  intro hwf _
  have hb : (obj < 65536 && a < 128 && ty < 7) = true := hwf
  simp only [Bool.and_eq_true, decide_eq_true_eq] at hb
  obtain ⟨⟨hb0, hb1⟩, hb2⟩ := hb
  have m : bits (58 * 67108864 + a * 524288 + 0 * 4096 + 0 * 32 + 1) 26 6 = 58 := field259 (by decide) hb1 (by decide) (by decide) (by decide)
  have f0 : bits (58 * 67108864 + a * 524288 + 0 * 4096 + 0 * 32 + 1) 0 5 = 1 := field260 (by decide) hb1 (by decide) (by decide) (by decide)
  have f1 : bits (58 * 67108864 + a * 524288 + 0 * 4096 + 0 * 32 + 1) 12 7 = 0 := field261 (by decide) hb1 (by decide) (by decide) (by decide)
  have f2 : bits (58 * 67108864 + a * 524288 + 0 * 4096 + 0 * 32 + 1) 19 7 = a := field262 (by decide) hb1 (by decide) (by decide) (by decide)
  have f3 : bits (58 * 67108864 + a * 524288 + 0 * 4096 + 0 * 32 + 1) 5 7 = 0 := field263 (by decide) hb1 (by decide) (by decide) (by decide)
  have f4 : bits (obj * 65536 + ty * 2) 0 1 = 0 := field276 hb0 (by omega)
  have f5 : bits (obj * 65536 + ty * 2) 1 3 = ty := field277 hb0 (by omega)
  have f6 : bits (obj * 65536 + ty * 2) 16 16 = obj := field278 hb0 (by omega)
  have f7 : bits (obj * 65536 + ty * 2) 4 12 = 0 := field279 hb0 (by omega)
  refine decode_of_two (w := 58 * 67108864 + a * 524288 + 0 * 4096 + 0 * 32 + 1) (x := obj * 65536 + ty * 2) rfl m (by decide) ?_ hwf
  rw [decodeMajor_3A _ m, decodeM3A]
  simp only [f0, f1, f2, f3, f4, f5, f6, f7, use, if_true, Nat.reduceAdd, Nat.zero_ne_one, Nat.one_ne_zero, if_false]

theorem swpw : Statement (.swpw) := by
  intro hwf _
  have m : bits (58 * 67108864 + 0 * 524288 + 0 * 4096 + 0 * 32 + 2) 26 6 = 58 := field259 (by decide) (by decide) (by decide) (by decide) (by decide)
  have f0 : bits (58 * 67108864 + 0 * 524288 + 0 * 4096 + 0 * 32 + 2) 0 5 = 2 := field260 (by decide) (by decide) (by decide) (by decide) (by decide)
  have f1 : bits (58 * 67108864 + 0 * 524288 + 0 * 4096 + 0 * 32 + 2) 12 7 = 0 := field261 (by decide) (by decide) (by decide) (by decide) (by decide)
  have f2 : bits (58 * 67108864 + 0 * 524288 + 0 * 4096 + 0 * 32 + 2) 19 7 = 0 := field262 (by decide) (by decide) (by decide) (by decide) (by decide)
  have f3 : bits (58 * 67108864 + 0 * 524288 + 0 * 4096 + 0 * 32 + 2) 5 7 = 0 := field263 (by decide) (by decide) (by decide) (by decide) (by decide)
  have f4 : bits (0) 0 1 = 0 := rfl
  have f5 : bits (0) 1 3 = 0 := rfl
  have f6 : bits (0) 16 16 = 0 := rfl
  have f7 : bits (0) 4 12 = 0 := rfl
  refine decode_of_two (w := 58 * 67108864 + 0 * 524288 + 0 * 4096 + 0 * 32 + 2) (x := 0) rfl m (by decide) ?_ hwf
  rw [decodeMajor_3A _ m, decodeM3A]
  simp only [f0, f1, f2, f3, f4, f5, f6, f7, use, if_true, Nat.reduceAdd, Nat.zero_ne_one, Nat.one_ne_zero, if_false]

theorem mma (obj : Nat) (a : Nat) (b : Nat) (c : Nat) (ty : Nat) (z : Bool) : Statement (.mma obj a b c ty z) := by
  intro hwf _
  have hb : (obj < 65536 && a < 128 && b < 128 && ty < 7 && c < 8) = true := hwf
  simp only [Bool.and_eq_true, decide_eq_true_eq] at hb
  obtain ⟨⟨⟨⟨hb0, hb1⟩, hb2⟩, hb3⟩, hb4⟩ := hb
  have m : bits (58 * 67108864 + a * 524288 + b * 4096 + c * 32 + 3) 26 6 = 58 := field259 (by decide) hb1 hb2 (by omega) (by decide)
  have f0 : bit (obj * 65536 + ty * 2 + b2n z) 0 = z := by cases z <;> simp [bit, b2n] <;> omega
  have f1 : bits (58 * 67108864 + a * 524288 + b * 4096 + c * 32 + 3) 0 5 = 3 := field260 (by decide) hb1 hb2 (by omega) (by decide)
  have f2 : bits (58 * 67108864 + a * 524288 + b * 4096 + c * 32 + 3) 12 7 = b := field261 (by decide) hb1 hb2 (by omega) (by decide)
  have f3 : bits (58 * 67108864 + a * 524288 + b * 4096 + c * 32 + 3) 19 7 = a := field262 (by decide) hb1 hb2 (by omega) (by decide)
  have f4 : bits (58 * 67108864 + a * 524288 + b * 4096 + c * 32 + 3) 5 7 = c := field263 (by decide) hb1 hb2 (by omega) (by decide)
  have f5 : bits (obj * 65536 + ty * 2 + b2n z) 1 3 = ty := by cases z <;> simp only [bits, b2n, if_true, Bool.false_eq_true, if_false] <;> omega
  have f6 : bits (obj * 65536 + ty * 2 + b2n z) 16 16 = obj := by cases z <;> simp only [bits, b2n, if_true, Bool.false_eq_true, if_false] <;> omega
  have f7 : bits (obj * 65536 + ty * 2 + b2n z) 4 12 = 0 := by cases z <;> simp only [bits, b2n, if_true, Bool.false_eq_true, if_false] <;> omega
  refine decode_of_two (w := 58 * 67108864 + a * 524288 + b * 4096 + c * 32 + 3) (x := obj * 65536 + ty * 2 + b2n z) rfl m (by decide) ?_ hwf
  rw [decodeMajor_3A _ m, decodeM3A]
  simp only [f0, f1, f2, f3, f4, f5, f6, f7, use, if_true, Nat.reduceAdd, Nat.zero_ne_one, Nat.one_ne_zero, if_false]

theorem mchain (b : Nat) (c : Nat) (ty : Nat) (z : Bool) : Statement (.mchain b c ty z) := by
  intro hwf _
  have hb : (b < 128 && ty < 7 && c < 8) = true := hwf
  simp only [Bool.and_eq_true, decide_eq_true_eq] at hb
  obtain ⟨⟨hb0, hb1⟩, hb2⟩ := hb
  have m : bits (58 * 67108864 + 0 * 524288 + b * 4096 + c * 32 + 4) 26 6 = 58 := field259 (by decide) (by decide) hb0 (by omega) (by decide)
  have f0 : bit (ty * 2 + b2n z) 0 = z := by cases z <;> simp [bit, b2n]
  have f1 : bits (58 * 67108864 + 0 * 524288 + b * 4096 + c * 32 + 4) 0 5 = 4 := field260 (by decide) (by decide) hb0 (by omega) (by decide)
  have f2 : bits (58 * 67108864 + 0 * 524288 + b * 4096 + c * 32 + 4) 12 7 = b := field261 (by decide) (by decide) hb0 (by omega) (by decide)
  have f3 : bits (58 * 67108864 + 0 * 524288 + b * 4096 + c * 32 + 4) 19 7 = 0 := field262 (by decide) (by decide) hb0 (by omega) (by decide)
  have f4 : bits (58 * 67108864 + 0 * 524288 + b * 4096 + c * 32 + 4) 5 7 = c := field263 (by decide) (by decide) hb0 (by omega) (by decide)
  have f5 : bits (ty * 2 + b2n z) 1 3 = ty := by cases z <;> simp only [bits, b2n, if_true, Bool.false_eq_true, if_false] <;> omega
  have f6 : bits (ty * 2 + b2n z) 16 16 = 0 := by cases z <;> simp only [bits, b2n, if_true, Bool.false_eq_true, if_false] <;> omega
  have f7 : bits (ty * 2 + b2n z) 4 12 = 0 := by cases z <;> simp only [bits, b2n, if_true, Bool.false_eq_true, if_false] <;> omega
  refine decode_of_two (w := 58 * 67108864 + 0 * 524288 + b * 4096 + c * 32 + 4) (x := ty * 2 + b2n z) rfl m (by decide) ?_ hwf
  rw [decodeMajor_3A _ m, decodeM3A]
  simp only [f0, f1, f2, f3, f4, f5, f6, f7, use, if_true, Nat.reduceAdd, Nat.zero_ne_one, Nat.one_ne_zero, if_false]

theorem munchain (a : Nat) : Statement (.munchain a) := by
  intro hwf _
  have hb : decide (a < 128) = true := hwf
  simp only [Bool.and_eq_true, decide_eq_true_eq] at hb
  have hb0 := hb
  have m : bits (58 * 67108864 + a * 524288 + 0 * 4096 + 0 * 32 + 5) 26 6 = 58 := field259 (by decide) hb0 (by decide) (by decide) (by decide)
  have f0 : bits (58 * 67108864 + a * 524288 + 0 * 4096 + 0 * 32 + 5) 0 5 = 5 := field260 (by decide) hb0 (by decide) (by decide) (by decide)
  have f1 : bits (58 * 67108864 + a * 524288 + 0 * 4096 + 0 * 32 + 5) 12 7 = 0 := field261 (by decide) hb0 (by decide) (by decide) (by decide)
  have f2 : bits (58 * 67108864 + a * 524288 + 0 * 4096 + 0 * 32 + 5) 19 7 = a := field262 (by decide) hb0 (by decide) (by decide) (by decide)
  have f3 : bits (58 * 67108864 + a * 524288 + 0 * 4096 + 0 * 32 + 5) 5 7 = 0 := field263 (by decide) hb0 (by decide) (by decide) (by decide)
  have f4 : bits (0) 0 1 = 0 := rfl
  have f5 : bits (0) 1 3 = 0 := rfl
  have f6 : bits (0) 16 16 = 0 := rfl
  have f7 : bits (0) 4 12 = 0 := rfl
  refine decode_of_two (w := 58 * 67108864 + a * 524288 + 0 * 4096 + 0 * 32 + 5) (x := 0) rfl m (by decide) ?_ hwf
  rw [decodeMajor_3A _ m, decodeM3A]
  simp only [f0, f1, f2, f3, f4, f5, f6, f7, use, if_true, Nat.reduceAdd, Nat.zero_ne_one, Nat.one_ne_zero, if_false]

theorem mova (v : Nat) (b : Nat) (c : Nat) : Statement (.mova v b c) := by
  intro hwf _
  have hb : (v < 32 && b < 128 && c < 8) = true := hwf
  simp only [Bool.and_eq_true, decide_eq_true_eq] at hb
  obtain ⟨⟨hb0, hb1⟩, hb2⟩ := hb
  have m : bits (58 * 67108864 + v * 524288 + b * 4096 + c * 32 + 6) 26 6 = 58 := field259 (by decide) (by omega) hb1 (by omega) (by decide)
  have f0 : bits (58 * 67108864 + v * 524288 + b * 4096 + c * 32 + 6) 0 5 = 6 := field260 (by decide) (by omega) hb1 (by omega) (by decide)
  have f1 : bits (58 * 67108864 + v * 524288 + b * 4096 + c * 32 + 6) 12 7 = b := field261 (by decide) (by omega) hb1 (by omega) (by decide)
  have f2 : bits (58 * 67108864 + v * 524288 + b * 4096 + c * 32 + 6) 19 7 = v := field262 (by decide) (by omega) hb1 (by omega) (by decide)
  have f3 : bits (58 * 67108864 + v * 524288 + b * 4096 + c * 32 + 6) 5 7 = c := field263 (by decide) (by omega) hb1 (by omega) (by decide)
  have f4 : bits (0) 0 1 = 0 := rfl
  have f5 : bits (0) 1 3 = 0 := rfl
  have f6 : bits (0) 16 16 = 0 := rfl
  have f7 : bits (0) 4 12 = 0 := rfl
  refine decode_of_two (w := 58 * 67108864 + v * 524288 + b * 4096 + c * 32 + 6) (x := 0) rfl m (by decide) ?_ hwf
  rw [decodeMajor_3A _ m, decodeM3A]
  simp only [f0, f1, f2, f3, f4, f5, f6, f7, use, if_true, Nat.reduceAdd, Nat.zero_ne_one, Nat.one_ne_zero, if_false]

theorem msta (obj : Nat) (a : Nat) (b : Nat) (c : Nat) : Statement (.msta obj a b c) := by
  intro hwf _
  have hb : (obj < 65536 && a < 128 && b < 128 && c < 8) = true := hwf
  simp only [Bool.and_eq_true, decide_eq_true_eq] at hb
  obtain ⟨⟨⟨hb0, hb1⟩, hb2⟩, hb3⟩ := hb
  have m : bits (58 * 67108864 + a * 524288 + b * 4096 + c * 32 + 7) 26 6 = 58 := field259 (by decide) hb1 hb2 (by omega) (by decide)
  have f0 : bits (58 * 67108864 + a * 524288 + b * 4096 + c * 32 + 7) 0 5 = 7 := field260 (by decide) hb1 hb2 (by omega) (by decide)
  have f1 : bits (58 * 67108864 + a * 524288 + b * 4096 + c * 32 + 7) 12 7 = b := field261 (by decide) hb1 hb2 (by omega) (by decide)
  have f2 : bits (58 * 67108864 + a * 524288 + b * 4096 + c * 32 + 7) 19 7 = a := field262 (by decide) hb1 hb2 (by omega) (by decide)
  have f3 : bits (58 * 67108864 + a * 524288 + b * 4096 + c * 32 + 7) 5 7 = c := field263 (by decide) hb1 hb2 (by omega) (by decide)
  have f4 : bits (obj * 65536) 0 1 = 0 := field280 hb0
  have f5 : bits (obj * 65536) 1 3 = 0 := field281 hb0
  have f6 : bits (obj * 65536) 16 16 = obj := field282 hb0
  have f7 : bits (obj * 65536) 4 12 = 0 := field283 hb0
  refine decode_of_two (w := 58 * 67108864 + a * 524288 + b * 4096 + c * 32 + 7) (x := obj * 65536) rfl m (by decide) ?_ hwf
  rw [decodeMajor_3A _ m, decodeM3A]
  simp only [f0, f1, f2, f3, f4, f5, f6, f7, use, if_true, Nat.reduceAdd, Nat.zero_ne_one, Nat.one_ne_zero, if_false]

theorem mlda (obj : Nat) (a : Nat) (b : Nat) (c : Nat) : Statement (.mlda obj a b c) := by
  intro hwf _
  have hb : (obj < 65536 && a < 128 && b < 128 && c < 8) = true := hwf
  simp only [Bool.and_eq_true, decide_eq_true_eq] at hb
  obtain ⟨⟨⟨hb0, hb1⟩, hb2⟩, hb3⟩ := hb
  have m : bits (58 * 67108864 + a * 524288 + b * 4096 + c * 32 + 8) 26 6 = 58 := field259 (by decide) hb1 hb2 (by omega) (by decide)
  have f0 : bits (58 * 67108864 + a * 524288 + b * 4096 + c * 32 + 8) 0 5 = 8 := field260 (by decide) hb1 hb2 (by omega) (by decide)
  have f1 : bits (58 * 67108864 + a * 524288 + b * 4096 + c * 32 + 8) 12 7 = b := field261 (by decide) hb1 hb2 (by omega) (by decide)
  have f2 : bits (58 * 67108864 + a * 524288 + b * 4096 + c * 32 + 8) 19 7 = a := field262 (by decide) hb1 hb2 (by omega) (by decide)
  have f3 : bits (58 * 67108864 + a * 524288 + b * 4096 + c * 32 + 8) 5 7 = c := field263 (by decide) hb1 hb2 (by omega) (by decide)
  have f4 : bits (obj * 65536) 0 1 = 0 := field280 hb0
  have f5 : bits (obj * 65536) 1 3 = 0 := field281 hb0
  have f6 : bits (obj * 65536) 16 16 = obj := field282 hb0
  have f7 : bits (obj * 65536) 4 12 = 0 := field283 hb0
  refine decode_of_two (w := 58 * 67108864 + a * 524288 + b * 4096 + c * 32 + 8) (x := obj * 65536) rfl m (by decide) ?_ hwf
  rw [decodeMajor_3A _ m, decodeM3A]
  simp only [f0, f1, f2, f3, f4, f5, f6, f7, use, if_true, Nat.reduceAdd, Nat.zero_ne_one, Nat.one_ne_zero, if_false]

theorem mzero (c : Nat) : Statement (.mzero c) := by
  intro hwf _
  have hb : decide (c < 8) = true := hwf
  simp only [Bool.and_eq_true, decide_eq_true_eq] at hb
  have hb0 := hb
  have m : bits (58 * 67108864 + 0 * 524288 + 0 * 4096 + c * 32 + 9) 26 6 = 58 := field259 (by decide) (by decide) (by decide) (by omega) (by decide)
  have f0 : bits (58 * 67108864 + 0 * 524288 + 0 * 4096 + c * 32 + 9) 0 5 = 9 := field260 (by decide) (by decide) (by decide) (by omega) (by decide)
  have f1 : bits (58 * 67108864 + 0 * 524288 + 0 * 4096 + c * 32 + 9) 12 7 = 0 := field261 (by decide) (by decide) (by decide) (by omega) (by decide)
  have f2 : bits (58 * 67108864 + 0 * 524288 + 0 * 4096 + c * 32 + 9) 19 7 = 0 := field262 (by decide) (by decide) (by decide) (by omega) (by decide)
  have f3 : bits (58 * 67108864 + 0 * 524288 + 0 * 4096 + c * 32 + 9) 5 7 = c := field263 (by decide) (by decide) (by decide) (by omega) (by decide)
  have f4 : bits (0) 0 1 = 0 := rfl
  have f5 : bits (0) 1 3 = 0 := rfl
  have f6 : bits (0) 16 16 = 0 := rfl
  have f7 : bits (0) 4 12 = 0 := rfl
  refine decode_of_two (w := 58 * 67108864 + 0 * 524288 + 0 * 4096 + c * 32 + 9) (x := 0) rfl m (by decide) ?_ hwf
  rw [decodeMajor_3A _ m, decodeM3A]
  simp only [f0, f1, f2, f3, f4, f5, f6, f7, use, if_true, Nat.reduceAdd, Nat.zero_ne_one, Nat.one_ne_zero, if_false]

theorem msel (a : Nat) (b : Nat) (c : Nat) : Statement (.msel a b c) := by
  intro hwf _
  have hb : (a < 128 && b < 128 && c < 8) = true := hwf
  simp only [Bool.and_eq_true, decide_eq_true_eq] at hb
  obtain ⟨⟨hb0, hb1⟩, hb2⟩ := hb
  have m : bits (58 * 67108864 + a * 524288 + b * 4096 + c * 32 + 10) 26 6 = 58 := field259 (by decide) hb0 hb1 (by omega) (by decide)
  have f0 : bits (58 * 67108864 + a * 524288 + b * 4096 + c * 32 + 10) 0 5 = 10 := field260 (by decide) hb0 hb1 (by omega) (by decide)
  have f1 : bits (58 * 67108864 + a * 524288 + b * 4096 + c * 32 + 10) 12 7 = b := field261 (by decide) hb0 hb1 (by omega) (by decide)
  have f2 : bits (58 * 67108864 + a * 524288 + b * 4096 + c * 32 + 10) 19 7 = a := field262 (by decide) hb0 hb1 (by omega) (by decide)
  have f3 : bits (58 * 67108864 + a * 524288 + b * 4096 + c * 32 + 10) 5 7 = c := field263 (by decide) hb0 hb1 (by omega) (by decide)
  have f4 : bits (0) 0 1 = 0 := rfl
  have f5 : bits (0) 1 3 = 0 := rfl
  have f6 : bits (0) 16 16 = 0 := rfl
  have f7 : bits (0) 4 12 = 0 := rfl
  refine decode_of_two (w := 58 * 67108864 + a * 524288 + b * 4096 + c * 32 + 10) (x := 0) rfl m (by decide) ?_ hwf
  rw [decodeMajor_3A _ m, decodeM3A]
  simp only [f0, f1, f2, f3, f4, f5, f6, f7, use, if_true, Nat.reduceAdd, Nat.zero_ne_one, Nat.one_ne_zero, if_false]

theorem mscale (a : Nat) (b : Nat) (ty : Nat) : Statement (.mscale a b ty) := by
  intro hwf _
  have hb : (a < 128 && b < 128 && (ty == 2 || ty == 3 || ty == 4)) = true := hwf
  simp only [Bool.and_eq_true, decide_eq_true_eq] at hb
  obtain ⟨⟨hb0, hb1⟩, hb2⟩ := hb
  simp only [Bool.or_eq_true, beq_iff_eq] at hb2
  have m : bits (58 * 67108864 + a * 524288 + b * 4096 + 0 * 32 + 11) 26 6 = 58 := field259 (by decide) hb0 hb1 (by decide) (by decide)
  have f0 : bits (58 * 67108864 + a * 524288 + b * 4096 + 0 * 32 + 11) 0 5 = 11 := field260 (by decide) hb0 hb1 (by decide) (by decide)
  have f1 : bits (58 * 67108864 + a * 524288 + b * 4096 + 0 * 32 + 11) 12 7 = b := field261 (by decide) hb0 hb1 (by decide) (by decide)
  have f2 : bits (58 * 67108864 + a * 524288 + b * 4096 + 0 * 32 + 11) 19 7 = a := field262 (by decide) hb0 hb1 (by decide) (by decide)
  have f3 : bits (58 * 67108864 + a * 524288 + b * 4096 + 0 * 32 + 11) 5 7 = 0 := field263 (by decide) hb0 hb1 (by decide) (by decide)
  have f4 : bits (ty * 2) 0 1 = 0 := by unfold bits; omega
  have f5 : bits (ty * 2) 1 3 = ty := by unfold bits; omega
  have f6 : bits (ty * 2) 16 16 = 0 := by unfold bits; omega
  have f7 : bits (ty * 2) 4 12 = 0 := by unfold bits; omega
  refine decode_of_two (w := 58 * 67108864 + a * 524288 + b * 4096 + 0 * 32 + 11) (x := ty * 2) rfl m (by decide) ?_ hwf
  rw [decodeMajor_3A _ m, decodeM3A]
  simp only [f0, f1, f2, f3, f4, f5, f6, f7, use, if_true, Nat.reduceAdd, Nat.zero_ne_one, Nat.one_ne_zero, if_false]

theorem mstat (a : Nat) (op : Nat) : Statement (.mstat a op) := by
  intro hwf _
  have hb : (a < 128 && op < 2) = true := hwf
  simp only [Bool.and_eq_true, decide_eq_true_eq] at hb
  obtain ⟨hb0, hb1⟩ := hb
  have m : bits (58 * 67108864 + a * 524288 + op * 4096 + 0 * 32 + 12) 26 6 = 58 := field259 (by decide) hb0 (by omega) (by decide) (by decide)
  have f0 : bits (58 * 67108864 + a * 524288 + op * 4096 + 0 * 32 + 12) 0 5 = 12 := field260 (by decide) hb0 (by omega) (by decide) (by decide)
  have f1 : bits (58 * 67108864 + a * 524288 + op * 4096 + 0 * 32 + 12) 12 7 = op := field261 (by decide) hb0 (by omega) (by decide) (by decide)
  have f2 : bits (58 * 67108864 + a * 524288 + op * 4096 + 0 * 32 + 12) 19 7 = a := field262 (by decide) hb0 (by omega) (by decide) (by decide)
  have f3 : bits (58 * 67108864 + a * 524288 + op * 4096 + 0 * 32 + 12) 5 7 = 0 := field263 (by decide) hb0 (by omega) (by decide) (by decide)
  have f4 : bits (0) 0 1 = 0 := rfl
  have f5 : bits (0) 1 3 = 0 := rfl
  have f6 : bits (0) 16 16 = 0 := rfl
  have f7 : bits (0) 4 12 = 0 := rfl
  refine decode_of_two (w := 58 * 67108864 + a * 524288 + op * 4096 + 0 * 32 + 12) (x := 0) rfl m (by decide) ?_ hwf
  rw [decodeMajor_3A _ m, decodeM3A]
  simp only [f0, f1, f2, f3, f4, f5, f6, f7, use, if_true, Nat.reduceAdd, Nat.zero_ne_one, Nat.one_ne_zero, if_false]

theorem divideComplete (k : Nat) : Statement (.divideComplete k) := fun _ h => nomatch h

theorem replyArrival (id : Nat) : Statement (.replyArrival id) := fun _ h => nomatch h

theorem remoteStoreAck (id : Nat) : Statement (.remoteStoreAck id) := fun _ h => nomatch h

theorem homeAccess (id : Nat) : Statement (.homeAccess id) := fun _ h => nomatch h

theorem nackReceived (id : Nat) : Statement (.nackReceived id) := fun _ h => nomatch h

theorem retryParkExpiry (k : Nat) : Statement (.retryParkExpiry k) := fun _ h => nomatch h

theorem parkTimeout (k : Nat) : Statement (.parkTimeout k) := fun _ h => nomatch h

theorem scopeMissReturn (id : Nat) : Statement (.scopeMissReturn id) := fun _ h => nomatch h

theorem omegaCombine (id0 id1 : Nat) : Statement (.omegaCombine id0 id1) := fun _ h => nomatch h

theorem combinedReplySplit (id : Nat) : Statement (.combinedReplySplit id) := fun _ h => nomatch h

theorem bankMissFill (line : Nat) : Statement (.bankMissFill line) := fun _ h => nomatch h

theorem conflictQueueServe (line : Nat) : Statement (.conflictQueueServe line) := fun _ h => nomatch h

theorem hotWindowEnd (bank : Nat) : Statement (.hotWindowEnd bank) := fun _ h => nomatch h

theorem hotReplicaAck (line : Nat) : Statement (.hotReplicaAck line) := fun _ h => nomatch h

theorem redirectInstall (tile line : Nat) : Statement (.redirectInstall tile line) := fun _ h => nomatch h

theorem hotLineRecall (line : Nat) : Statement (.hotLineRecall line) := fun _ h => nomatch h

theorem recallWithdraw (line : Nat) (who : Holder) : Statement (.recallWithdraw line who) := fun _ h => nomatch h

theorem recallComplete (line : Nat) : Statement (.recallComplete line) := fun _ h => nomatch h

theorem helperEvictReport (line slice : Nat) : Statement (.helperEvictReport line slice) := fun _ h => nomatch h

theorem redirectDrain (id : Nat) : Statement (.redirectDrain id) := fun _ h => nomatch h

theorem bridgeFlitReceive (dir : Nat) : Statement (.bridgeFlitReceive dir) := fun _ h => nomatch h

theorem bridgeAckReceive (dir n : Nat) : Statement (.bridgeAckReceive dir n) := fun _ h => nomatch h

theorem bridgeRetrain (dir : Nat) : Statement (.bridgeRetrain dir) := fun _ h => nomatch h

theorem bridgeRetrainDone (dir : Nat) : Statement (.bridgeRetrainDone dir) := fun _ h => nomatch h

theorem bridgeFailTimeout (dir : Nat) : Statement (.bridgeFailTimeout dir) := fun _ h => nomatch h

theorem relayFrameReceive (port : Nat) (frame : Nat) (pkts : List RelayPkt) : Statement (.relayFrameReceive port frame pkts) := fun _ h => nomatch h

theorem relayPortTimeout (port : Nat) : Statement (.relayPortTimeout port) := fun _ h => nomatch h

theorem sendrDelivery (id : Nat) : Statement (.sendrDelivery id) := fun _ h => nomatch h

theorem hubAllocate (core : Nat) : Statement (.hubAllocate core) := fun _ h => nomatch h

theorem stealSweep (core : Nat) : Statement (.stealSweep core) := fun _ h => nomatch h

theorem stealRestExpiry (core : Nat) : Statement (.stealRestExpiry core) := fun _ h => nomatch h

theorem stealHubAck (core : Nat) : Statement (.stealHubAck core) := fun _ h => nomatch h

theorem stealArrival (core : Nat) : Statement (.stealArrival core) := fun _ h => nomatch h

theorem tcbDecrement (key : Nat) (requester : Word) : Statement (.tcbDecrement key requester) := fun _ h => nomatch h

theorem taskRetire (key : Nat) (requester : Word) : Statement (.taskRetire key requester) := fun _ h => nomatch h

theorem dequeRefillArrival (k : Nat) : Statement (.dequeRefillArrival k) := fun _ h => nomatch h

theorem migrationArrival (id : Nat) : Statement (.migrationArrival id) := fun _ h => nomatch h

theorem landingQueueTake (core : Nat) : Statement (.landingQueueTake core) := fun _ h => nomatch h

theorem landingAck (id : Nat) : Statement (.landingAck id) := fun _ h => nomatch h

theorem bounceReturn (id : Nat) : Statement (.bounceReturn id) := fun _ h => nomatch h

theorem landnRaiseComplete (core : Nat) : Statement (.landnRaiseComplete core) := fun _ h => nomatch h

theorem vectorStep (core : Nat) : Statement (.vectorStep core) := fun _ h => nomatch h

theorem vectorPendingWrite (core : Nat) : Statement (.vectorPendingWrite core) := fun _ h => nomatch h

theorem vectorElementReply (id : Nat) : Statement (.vectorElementReply id) := fun _ h => nomatch h

theorem matrixArraySelect (tile : Nat) : Statement (.matrixArraySelect tile) := fun _ h => nomatch h

theorem matrixOpStart (core : Nat) : Statement (.matrixOpStart core) := fun _ h => nomatch h

theorem matrixOpRetire (core : Nat) : Statement (.matrixOpRetire core) := fun _ h => nomatch h

theorem accAccessAttempt (core : Nat) : Statement (.accAccessAttempt core) := fun _ h => nomatch h

theorem engineComplete (id : Nat) : Statement (.engineComplete id) := fun _ h => nomatch h

theorem strideSpillReturn (tile : Nat) : Statement (.strideSpillReturn tile) := fun _ h => nomatch h

theorem pushmMemberAck (id member : Nat) : Statement (.pushmMemberAck id member) := fun _ h => nomatch h

theorem pushXTimeout (id : Nat) : Statement (.pushXTimeout id) := fun _ h => nomatch h

theorem fabredRankTimeout (id rank : Nat) : Statement (.fabredRankTimeout id rank) := fun _ h => nomatch h

theorem donateAnswer (id status : Nat) : Statement (.donateAnswer id status) := fun _ h => nomatch h

theorem donateTimeout (id : Nat) : Statement (.donateTimeout id) := fun _ h => nomatch h

theorem donationReceive (srcChip id tregion tobj : Nat) (image : List Word) : Statement (.donationReceive srcChip id tregion tobj image) := fun _ h => nomatch h

theorem donationDrain (region obj : Nat) : Statement (.donationDrain region obj) := fun _ h => nomatch h

theorem handlerOwedStart (cluster : Nat) : Statement (.handlerOwedStart cluster) := fun _ h => nomatch h

theorem eventDelivery (region code : Nat) (w1 w2 : Word) : Statement (.eventDelivery region code w1 w2) := fun _ h => nomatch h

theorem preemptDecision (cluster : Nat) : Statement (.preemptDecision cluster) := fun _ h => nomatch h

theorem preemptRequestArrival (k : Nat) : Statement (.preemptRequestArrival k) := fun _ h => nomatch h

theorem preemptSaveComplete (k : Nat) : Statement (.preemptSaveComplete k) := fun _ h => nomatch h

theorem threadRestore (image : Nat) : Statement (.threadRestore image) := fun _ h => nomatch h

theorem threadStale (k : Nat) : Statement (.threadStale k) := fun _ h => nomatch h

theorem translationWalk (id : Nat) : Statement (.translationWalk id) := fun _ h => nomatch h

theorem walkComplete (id : Nat) : Statement (.walkComplete id) := fun _ h => nomatch h

theorem levelChange (tile : Nat) : Statement (.levelChange tile) := fun _ h => nomatch h

theorem clockRestart (tile : Nat) : Statement (.clockRestart tile) := fun _ h => nomatch h

theorem shutterUpdate (core count : Nat) : Statement (.shutterUpdate core count) := fun _ h => nomatch h

theorem billingSend : Statement (.billingSend) := fun _ h => nomatch h

theorem billingReceive (region nj : Nat) : Statement (.billingReceive region nj) := fun _ h => nomatch h

theorem pacerEpochReceive (m : EpochMsg) : Statement (.pacerEpochReceive m) := fun _ h => nomatch h

theorem pacerCeilingApply : Statement (.pacerCeilingApply) := fun _ h => nomatch h

theorem pacerAnnounce (level bite : Nat) : Statement (.pacerAnnounce level bite) := fun _ h => nomatch h

theorem leaderAnnounceHandle (chip level bite : Nat) (hard : Bool) : Statement (.leaderAnnounceHandle chip level bite hard) := fun _ h => nomatch h

theorem announceRejected : Statement (.announceRejected) := fun _ h => nomatch h

theorem hardDrop (level : Nat) : Statement (.hardDrop level) := fun _ h => nomatch h

theorem leaderRaise (lead : Nat) : Statement (.leaderRaise lead) := fun _ h => nomatch h

theorem pacerHeartbeat : Statement (.pacerHeartbeat) := fun _ h => nomatch h

theorem proposalChange (level : Nat) : Statement (.proposalChange level) := fun _ h => nomatch h

theorem memberSilence (chip : Nat) : Statement (.memberSilence chip) := fun _ h => nomatch h

theorem leaderSilence : Statement (.leaderSilence) := fun _ h => nomatch h

theorem slackWindowEnd : Statement (.slackWindowEnd) := fun _ h => nomatch h

theorem launch (h : CtlHdr) (desc flags capBase capLen : Nat) : Statement (.launch h desc flags capBase capLen) := fun _ h => nomatch h

theorem memrd (h : CtlHdr) (addr len : Nat) : Statement (.memrd h addr len) := fun _ h => nomatch h

theorem memwr (h : CtlHdr) (addr : Nat) (data : List Byte) : Statement (.memwr h addr data) := fun _ h => nomatch h

theorem exrd (h : CtlHdr) (exno off len : Nat) : Statement (.exrd h exno off len) := fun _ h => nomatch h

theorem exwr (h : CtlHdr) (exno off : Nat) (data : List Byte) : Statement (.exwr h exno off data) := fun _ h => nomatch h

theorem regctlHalt (h : CtlHdr) (region : Nat) : Statement (.regctlHalt h region) := fun _ h => nomatch h

theorem regctlResume (h : CtlHdr) (region : Nat) : Statement (.regctlResume h region) := fun _ h => nomatch h

theorem regctlEnd (h : CtlHdr) (region : Nat) : Statement (.regctlEnd h region) := fun _ h => nomatch h

theorem setobj (h : CtlHdr) (region index : Nat) (image : List Word) : Statement (.setobj h region index image) := fun _ h => nomatch h

theorem logrd (h : CtlHdr) : Statement (.logrd h) := fun _ h => nomatch h

theorem energyrd (h : CtlHdr) (region : Nat) : Statement (.energyrd h region) := fun _ h => nomatch h

theorem hkrd (h : CtlHdr) (off : Nat) : Statement (.hkrd h off) := fun _ h => nomatch h

theorem semtake (h : CtlHdr) : Statement (.semtake h) := fun _ h => nomatch h

theorem semgive (h : CtlHdr) : Statement (.semgive h) := fun _ h => nomatch h

theorem keyloadClear (h : CtlHdr) (slot : Nat) : Statement (.keyloadClear h slot) := fun _ h => nomatch h

theorem keyloadLoad (h : CtlHdr) (slot owner : Nat) (wrapped : List Byte) : Statement (.keyloadLoad h slot owner wrapped) := fun _ h => nomatch h

theorem fwupd (h : CtlHdr) (chunk : List Byte) : Statement (.fwupd h chunk) := fun _ h => nomatch h

theorem reset (h : CtlHdr) : Statement (.reset h) := fun _ h => nomatch h

theorem setchip (h : CtlHdr) (chip : Nat) : Statement (.setchip h chip) := fun _ h => nomatch h

theorem groupJoin (h : CtlHdr) (group : Nat) : Statement (.groupJoin h group) := fun _ h => nomatch h

theorem groupLeave (h : CtlHdr) (group : Nat) : Statement (.groupLeave h group) := fun _ h => nomatch h

theorem route (h : CtlHdr) (chip mask : Nat) : Statement (.route h chip mask) := fun _ h => nomatch h

theorem wqcfg (h : CtlHdr) (queue addr port : Nat) : Statement (.wqcfg h queue addr port) := fun _ h => nomatch h

theorem caprd (h : CtlHdr) (region off len : Nat) : Statement (.caprd h region off len) := fun _ h => nomatch h

theorem attest (h : CtlHdr) (nonce : List Byte) : Statement (.attest h nonce) := fun _ h => nomatch h

theorem controlBadcmd (h : CtlHdr) (code : Nat) : Statement (.controlBadcmd h code) := fun _ h => nomatch h

theorem foreignFrame : Statement (.foreignFrame) := fun _ h => nomatch h

theorem ctlsemTimeout : Statement (.ctlsemTimeout) := fun _ h => nomatch h

theorem wicketEgress (queue : Nat) : Statement (.wicketEgress queue) := fun _ h => nomatch h

theorem replayHeldAccess (id : Nat) : Statement (.replayHeldAccess id) := fun _ h => nomatch h

theorem powerOnReset : Statement (.powerOnReset) := fun _ h => nomatch h

theorem discoveryFloodReceive (core round : Nat) : Statement (.discoveryFloodReceive core round) := fun _ h => nomatch h

theorem discoveryAnswer (core round : Nat) : Statement (.discoveryAnswer core round) := fun _ h => nomatch h

theorem discoveryTimeout : Statement (.discoveryTimeout) := fun _ h => nomatch h

theorem relayLinkRetrain (port : Nat) : Statement (.relayLinkRetrain port) := fun _ h => nomatch h

theorem relayLinkRetrainDone (port : Nat) : Statement (.relayLinkRetrainDone port) := fun _ h => nomatch h

theorem lineEviction (level : CacheLevel) (line : Nat) : Statement (.lineEviction level line) := fun _ h => nomatch h

theorem patrolScrub (place : Nat) : Statement (.patrolScrub place) := fun _ h => nomatch h

theorem replayExternalInput (region : Nat) (input : ExtInput) : Statement (.replayExternalInput region input) := fun _ h => nomatch h

end Sys2Proof.Laws.RoundTrip
end

