-- ==== Sys2Proof/Tests/Slice0.lean ====
section
/-! SUPPORT. The package's own tests: ill-formed terms, the words of the encodings, steps of single instructions, and states that
meet the hypotheses of the statements. -/

set_option maxRecDepth 10000
set_option exponentiation.threshold 1100
set_option Elab.async false

open Sys2Proof Sys2Proof.Machine

namespace Sys2Proof.Tests

/-! ## Well-formedness -/

/-- A header of a command. -/
def hdr : CtlHdr := { ep := 0, seq := 1 }

/-- A message of an epoch. -/
def msg : EpochMsg := { group := 1, epoch := 1, ceiling := 30, pend := none, hard := false, leader := 0, members := [0] }

/-- Well-formed terms, part 1: one of every constructor that has a check. -/
theorem test_wellFormed_accepts1 : ([
      .add 1 1 1, .sub 1 1 1, .mul 1 1 1, .mulh 1 1 1, .mulhn 1 1 1, .div 1 1 1, .divn 1 1 1, .rem 1 1 1, .remn 1 1 1,
      .min 1 1 1, .max 1 1 1, .minn 1 1 1, .maxn 1 1 1, .abs 1 1, .and 1 1 1, .or 1 1 1, .xor 1 1 1, .andn 1 1 1, .orn 1 1 1,
      .xnor 1 1 1, .shl 1 1 1, .shr 1 1 1, .sar 1 1 1, .rol 1 1 1, .ror 1 1 1, .popc 1 1, .clz 1 1, .ctz 1 1, .brev 1 1,
      .bswap 1 1, .bext 1 1 1, .bdep 1 1 1, .sextS8 1 1, .sextS16 1 1, .sextS32 1 1, .zextN8 1 1, .zextN16 1 1, .zextN32 1 1,
      .padd 1 1 1 1, .psub 1 1 1 1, .paddsS 1 1 1 1, .paddsN 1 1 1 1, .psubsS 1 1 1 1, .psubsN 1 1 1 1, .pmin 1 1 1 1,
      .pmax 1 1 1 1, .pminn 1 1 1 1, .pmaxn 1 1 1 1, .pshl 1 1 1 1, .pshr 1 1 1 1, .psar 1 1 1 1, .pshlV 1 1 1 1,
      .pshrV 1 1 1 1, .psarV 1 1 1 1, .pcmp 1 1 1 1 1, .mov 1 1, .pmovToG 1, .pmovToPw 1, .sel 1 1 1 1 1, .addi 1 1 1,
      .andi 1 1 1, .ori 1 1 1, .xori 1 1 1, .shli 1 1 1, .shri 1 1 1, .sari 1 1 1, .rori 1 1 1, .bfx 1 1 1 1, .bfi 1 1 1 1,
      .lim 1 1, .limH 1 1 1, .addpc 1 1, .cmp 1 1 1 1 1, .cmpi 1 1 1 1, .plog 1 1 1 1, .b 1 1 1, .j 1, .call 1, .callr 1,
      .jr 1, .objset 1 1, .mfs 1 1, .mts 1 1, .mtsPortmap 1, .mtsVl 1, .mtsFpstat 1, .mtsRndseed 1, .mtsCarve 1, .mtsLandn 1,
      .trap 1, .svc 0, .eret 1, .hint 1 1 1, .ldD 1 1 1 1, .stD 1 1 1 1, .ld 1 1 1 1, .ldx 1 1 1 1, .st 1 1 1 1, .stx 1 1 1 1,
      .ldm 1 0 1, .stm 1 1 1, .ldfe 1 1 1 1, .ldff 1 1 1 1, .stfe 1 1 1 1, .stf 1 1 1 1, .sete 1 1 1, .feq 1 1 1 1,
      .ldfeStrand 1 1, .ldffStrand 1 1, .seteStrand 1, .feqStrand 1 1, .fence 1, .discard 1 1 1, .flush 1 1 1, .inval 1 1 1,
      .pref 1 1 1, .tlbinvPage 1 2, .tlbinvRegion 2, .hop 1 1, .sendr 1 1 1 1] : List Instr).all wellFormed = true := by decide +kernel

/-- Well-formed terms, part 2: one of every constructor that has a check. -/
theorem test_wellFormed_accepts2 : ([
      .arrive 1 1 1 1, .arriveRelaxed 1 1 1 1, .hwait 1 1 1 1, .htest 1 1 1 1, .pubf 1, .sync 1, .tcbnew 1 1, .tcbsucc 1 1,
      .tcbpred 1 1, .spawn 1 1, .waitt 1, .waita 1, .tfirst 1, .tclr 1, .cwait 1 1, .cread 1 1, .rdpace 1, .vclaim 1 1,
      .repf 1 1 1, .vld 1 1 1 1, .vlds 1 1 1 1 1, .vldx 1 1 1 1 1, .vldPostinc 1 1 1 1, .vst 1 1 1 1, .vsts 1 1 1 1 1,
      .vstx 1 1 1 1 1, .vstPostinc 1 1 1 1, .vbcast 1 1 1, .vmovg 1 1 1, .vmovl 1 1 1, .viota 1 1, .vfadd 1 1 1 1,
      .vfsub 1 1 1 1, .vfmul 1 1 1 1, .vfma 1 1 1 1, .vfnma 1 1 1 1, .vfmin 1 1 1 1, .vfmax 1 1 1 1, .vfabs 1 1 1,
      .vfneg 1 1 1, .vfcmp 1 1 1 1 1, .vadd 1 1 1 1, .vsub 1 1 1 1, .vmul 1 1 1 1, .vmulh 1 1 1 1, .vmulhn 1 1 1 1,
      .vand 1 1 1 1, .vor 1 1 1 1, .vxor 1 1 1 1, .vandn 1 1 1 1, .vshl 1 1 1 1, .vshr 1 1 1 1, .vsar 1 1 1 1, .vrol 1 1 1 1,
      .vmin 1 1 1 1, .vmax 1 1 1 1, .vminn 1 1 1 1, .vmaxn 1 1 1 1, .vsel 1 1 1 1, .vpadd 1 1 1 1 1, .vpshl 1 1 1 1 1,
      .vpshr 1 1 1 1 1, .vcmp 1 1 1 1 1, .vcvt 1 1 1 1 1 1 1, .vexp2 1 1 1, .vlog2 1 1 1, .vrcp 1 1 1, .vrsq 1 1 1,
      .vsqrt 1 1 1, .vtanh 1 1 1, .vredaddF32 1 1 1, .vredaddS32 1 1 1, .vredminF32 1 1 1, .vredminS32 1 1 1,
      .vredminN32 1 1 1, .vredmaxF32 1 1 1, .vredmaxS32 1 1 1, .vredmaxN32 1 1 1, .vperm 1 1 1 1, .vslide 1 1 1 1,
      .vcompress 1 1 1, .vexpand 1 1 1, .aadd 1 1 1 1 1 1, .afadd 1 1 1 1 1 3, .amin 1 1 1 1 1 1, .amax 1 1 1 1 1 1,
      .aminn 1 1 1 1 1 0, .amaxn 1 1 1 1 1 0, .aand 1 1 1 1 1 1, .aor 1 1 1 1 1 1, .axor 1 1 1 1 1 1, .aswp 1 1 1 1 1 1,
      .acas 1 1 1 1 1 1, .cadd 1 1 1 1 1 1, .fetch 1 1 1 1 1 false, .push 1 1 1 1 1 false, .pushX 1 1 1 1 1 1 false,
      .pushm 1 1 1 1 1 1 false, .storeb 1 1 1 1 1 false, .gather 1 1 1 1 1 1 false false,
      .scatter 1 1 1 1 1 1 false false false, .fabred 1 1 1 1 1 1 false, .donate 1 1 1 1 1 false, .mclaimClaim 1,
      .mclaimRelease 1, .ldw 1 1 1, .mma 1 1 1 1 1 false, .mchain 1 1 1 false, .munchain 1, .mova 1 1 1, .msta 1 1 1 1,
      .mlda 1 1 1 1, .mzero 1, .msel 1 1 1, .mscale 1 1 2, .mstat 1 1, .divideComplete 1, .retryParkExpiry 1, .parkTimeout 1,
      .hotWindowEnd 1] : List Instr).all wellFormed = true := by decide +kernel

/-- Well-formed terms, part 3: one of every constructor that has a check. -/
theorem test_wellFormed_accepts3 : ([
      .redirectInstall 1 0, .helperEvictReport 0 1, .bridgeFlitReceive 1, .bridgeAckReceive 1 0, .bridgeRetrain 1,
      .bridgeRetrainDone 1, .bridgeFailTimeout 1, .relayFrameReceive 1 0 [], .relayPortTimeout 1, .hubAllocate 1,
      .stealSweep 1, .stealRestExpiry 1, .stealHubAck 1, .stealArrival 1, .tcbDecrement 1 0, .taskRetire 1 0,
      .dequeRefillArrival 1, .landingQueueTake 1, .landnRaiseComplete 1, .vectorStep 1, .vectorPendingWrite 1,
      .matrixArraySelect 1, .matrixOpStart 1, .matrixOpRetire 1, .accAccessAttempt 1, .strideSpillReturn 1,
      .donationReceive 1 0 1 0 [], .donationDrain 1 0, .handlerOwedStart 1, .eventDelivery 1 0 0 0, .preemptDecision 1,
      .preemptRequestArrival 1, .preemptSaveComplete 1, .threadStale 1, .levelChange 1, .clockRestart 1, .shutterUpdate 1 0,
      .billingReceive 1 0, .pacerAnnounce 1 0, .leaderAnnounceHandle 1 1 0 false, .hardDrop 1, .proposalChange 1,
      .memberSilence 1, .regctlHalt hdr 1, .regctlResume hdr 1, .regctlEnd hdr 1, .setobj hdr 1 0 [], .energyrd hdr 1,
      .groupJoin hdr 1, .groupLeave hdr 1, .wqcfg hdr 0 1 1, .caprd hdr 1 0 0, .discoveryFloodReceive 1 0,
      .discoveryAnswer 1 0, .relayLinkRetrain 1, .relayLinkRetrainDone 1, .replayExternalInput 1 (.pacer msg)] : List Instr).all wellFormed = true := by decide +kernel

/-- Each of these breaks one check of its constructor and no other (R61 to R71), part 1. -/
theorem test_wellFormed_refuses1 : ([
      .add 128 1 1, .add 1 128 1, .add 1 1 128, .sub 128 1 1, .sub 1 128 1, .sub 1 1 128, .mul 128 1 1, .mul 1 128 1,
      .mul 1 1 128, .mulh 128 1 1, .mulh 1 128 1, .mulh 1 1 128, .mulhn 128 1 1, .mulhn 1 128 1, .mulhn 1 1 128, .div 128 1 1,
      .div 1 128 1, .div 1 1 128, .divn 128 1 1, .divn 1 128 1, .divn 1 1 128, .rem 128 1 1, .rem 1 128 1, .rem 1 1 128,
      .remn 128 1 1, .remn 1 128 1, .remn 1 1 128, .min 128 1 1, .min 1 128 1, .min 1 1 128, .max 128 1 1, .max 1 128 1,
      .max 1 1 128, .minn 128 1 1, .minn 1 128 1, .minn 1 1 128, .maxn 128 1 1, .maxn 1 128 1, .maxn 1 1 128, .abs 128 1,
      .abs 1 128, .and 128 1 1, .and 1 128 1, .and 1 1 128, .or 128 1 1, .or 1 128 1, .or 1 1 128, .xor 128 1 1, .xor 1 128 1,
      .xor 1 1 128, .andn 128 1 1, .andn 1 128 1, .andn 1 1 128, .orn 128 1 1, .orn 1 128 1, .orn 1 1 128, .xnor 128 1 1,
      .xnor 1 128 1, .xnor 1 1 128, .shl 128 1 1, .shl 1 128 1, .shl 1 1 128, .shr 128 1 1, .shr 1 128 1, .shr 1 1 128,
      .sar 128 1 1, .sar 1 128 1, .sar 1 1 128, .rol 128 1 1, .rol 1 128 1, .rol 1 1 128, .ror 128 1 1, .ror 1 128 1,
      .ror 1 1 128, .popc 128 1, .popc 1 128, .clz 128 1, .clz 1 128, .ctz 128 1, .ctz 1 128, .brev 128 1, .brev 1 128,
      .bswap 128 1, .bswap 1 128, .bext 128 1 1, .bext 1 128 1, .bext 1 1 128, .bdep 128 1 1, .bdep 1 128 1, .bdep 1 1 128,
      .sextS8 128 1, .sextS8 1 128, .sextS16 128 1, .sextS16 1 128, .sextS32 128 1, .sextS32 1 128, .zextN8 128 1,
      .zextN8 1 128, .zextN16 128 1, .zextN16 1 128, .zextN32 128 1, .zextN32 1 128, .padd 128 1 1 1, .padd 1 128 1 1,
      .padd 1 1 128 1, .padd 1 1 1 2, .psub 128 1 1 1, .psub 1 128 1 1, .psub 1 1 128 1, .psub 1 1 1 2, .paddsS 128 1 1 1,
      .paddsS 1 128 1 1, .paddsS 1 1 128 1, .paddsS 1 1 1 2, .paddsN 128 1 1 1, .paddsN 1 128 1 1, .paddsN 1 1 128 1,
      .paddsN 1 1 1 2, .psubsS 128 1 1 1, .psubsS 1 128 1 1] : List Instr).any wellFormed = false := by decide +kernel

/-- Each of these breaks one check of its constructor and no other (R61 to R71), part 2. -/
theorem test_wellFormed_refuses2 : ([
      .psubsS 1 1 128 1, .psubsS 1 1 1 2, .psubsN 128 1 1 1, .psubsN 1 128 1 1, .psubsN 1 1 128 1, .psubsN 1 1 1 2,
      .pmin 128 1 1 1, .pmin 1 128 1 1, .pmin 1 1 128 1, .pmin 1 1 1 2, .pmax 128 1 1 1, .pmax 1 128 1 1, .pmax 1 1 128 1,
      .pmax 1 1 1 2, .pminn 128 1 1 1, .pminn 1 128 1 1, .pminn 1 1 128 1, .pminn 1 1 1 2, .pmaxn 128 1 1 1, .pmaxn 1 128 1 1,
      .pmaxn 1 1 128 1, .pmaxn 1 1 1 2, .pshl 128 1 1 1, .pshl 1 128 1 1, .pshl 1 1 128 1, .pshl 1 1 1 2, .pshr 128 1 1 1,
      .pshr 1 128 1 1, .pshr 1 1 128 1, .pshr 1 1 1 2, .psar 128 1 1 1, .psar 1 128 1 1, .psar 1 1 128 1, .psar 1 1 1 2,
      .pshlV 128 1 1 1, .pshlV 1 128 1 1, .pshlV 1 1 128 1, .pshlV 1 1 1 2, .pshrV 128 1 1 1, .pshrV 1 128 1 1,
      .pshrV 1 1 128 1, .pshrV 1 1 1 2, .psarV 128 1 1 1, .psarV 1 128 1 1, .psarV 1 1 128 1, .psarV 1 1 1 2,
      .pcmp 128 1 1 1 1, .pcmp 1 128 1 1 1, .pcmp 1 1 128 1 1, .pcmp 1 1 1 16 1, .pcmp 1 1 1 1 2, .pcmp 1 1 1 6 1, .mov 128 1,
      .mov 1 128, .pmovToG 128, .pmovToPw 128, .sel 128 1 1 1 1, .sel 1 128 1 1 1, .sel 1 1 128 1 1, .sel 1 1 1 2 1,
      .sel 1 1 1 1 16, .addi 128 1 1, .addi 1 128 1, .addi 1 1 4096, .andi 128 1 1, .andi 1 128 1, .andi 1 1 4096,
      .ori 128 1 1, .ori 1 128 1, .ori 1 1 4096, .xori 128 1 1, .xori 1 128 1, .xori 1 1 4096, .shli 128 1 1, .shli 1 128 1,
      .shli 1 1 256, .shri 128 1 1, .shri 1 128 1, .shri 1 1 256, .sari 128 1 1, .sari 1 128 1, .sari 1 1 256, .rori 128 1 1,
      .rori 1 128 1, .rori 1 1 256, .bfx 128 1 1 1, .bfx 1 128 1 1, .bfx 1 1 64 1, .bfx 1 1 1 64, .bfx 1 1 1 63,
      .bfi 128 1 1 1, .bfi 1 128 1 1, .bfi 1 1 64 1, .bfi 1 1 1 64, .bfi 1 1 1 63, .lim 128 1, .lim 1 524288, .limH 128 1 1,
      .limH 1 4 1, .limH 1 1 65536, .addpc 128 1, .addpc 1 524288, .cmp 16 1 1 1 1, .cmp 1 16 1 1 1, .cmp 1 1 128 1 1,
      .cmp 1 1 1 128 1, .cmp 1 1 1 1 4, .cmp 1 12 1 1 1, .cmpi 16 1 1 1, .cmpi 1 16 1 1, .cmpi 1 1 128 1, .cmpi 1 1 1 2048,
      .cmpi 1 12 1 1, .plog 16 1 1 1, .plog 1 8 1 1, .plog 1 1 16 1, .plog 1 1 1 16, .b 2 1 1, .b 1 16 1, .b 1 1 2097152] : List Instr).any wellFormed = false := by decide +kernel

/-- Each of these breaks one check of its constructor and no other (R61 to R71), part 3. -/
theorem test_wellFormed_refuses3 : ([
      .b 1 15 1, .j 67108864, .call 67108864, .callr 128, .jr 128, .objset 128 1, .objset 1 128, .mfs 128 1, .mfs 1 4096,
      .mfs 1 0, .mts 128 1, .mts 1 4096, .mts 1 0, .mts 1 3, .mtsPortmap 128, .mtsVl 128, .mtsFpstat 128, .mtsRndseed 128,
      .mtsCarve 128, .mtsLandn 128, .trap 4096, .svc 4096, .svc 1, .eret 128, .hint 128 1 1, .hint 1 4096 1, .hint 1 1 64,
      .ldD 128 1 1 1, .ldD 1 128 1 1, .ldD 1 1 2 1, .ldD 1 1 1 512, .stD 128 1 1 1, .stD 1 128 1 1, .stD 1 1 2 1,
      .stD 1 1 1 512, .ld 128 1 1 1, .ld 1 128 1 1, .ld 1 1 128 1, .ld 1 1 1 8, .ld 1 1 1 7, .ldx 128 1 1 1, .ldx 1 128 1 1,
      .ldx 1 1 128 1, .ldx 1 1 1 8, .ldx 1 1 1 7, .st 128 1 1 1, .st 1 128 1 1, .st 1 1 128 1, .st 1 1 1 8, .st 1 1 1 0,
      .stx 128 1 1 1, .stx 1 128 1 1, .stx 1 1 128 1, .stx 1 1 1 8, .stx 1 1 1 0, .ldm 128 0 1, .ldm 1 128 1, .ldm 1 0 128,
      .ldm 1 0 127, .ldm 0 0 0, .stm 128 1 1, .stm 1 128 1, .stm 1 1 128, .stm 1 1 127, .ldfe 128 1 1 1, .ldfe 1 128 1 1,
      .ldfe 1 1 8 1, .ldfe 1 1 1 64, .ldfe 1 1 0 1, .ldff 128 1 1 1, .ldff 1 128 1 1, .ldff 1 1 8 1, .ldff 1 1 1 64,
      .ldff 1 1 0 1, .stfe 128 1 1 1, .stfe 1 128 1 1, .stfe 1 1 8 1, .stfe 1 1 1 64, .stfe 1 1 0 1, .stf 128 1 1 1,
      .stf 1 128 1 1, .stf 1 1 8 1, .stf 1 1 1 64, .stf 1 1 0 1, .sete 128 1 1, .sete 1 8 1, .sete 1 1 64, .sete 1 0 1,
      .feq 128 1 1 1, .feq 1 128 1 1, .feq 1 1 8 1, .feq 1 1 1 64, .feq 1 1 0 1, .ldfeStrand 128 1, .ldfeStrand 1 128,
      .ldffStrand 128 1, .ldffStrand 1 128, .seteStrand 128, .feqStrand 128 1, .feqStrand 1 128, .fence 8, .fence 0,
      .discard 128 1 1, .discard 1 8 1, .discard 1 1 512, .discard 1 0 1, .flush 128 1 1, .flush 1 8 1, .flush 1 1 512,
      .flush 1 0 1, .inval 128 1 1, .inval 1 8 1, .inval 1 1 512, .inval 1 0 1, .pref 128 1 1, .pref 1 8 1, .pref 1 1 512,
      .pref 1 0 1, .tlbinvPage 128 2, .tlbinvPage 1 8] : List Instr).any wellFormed = false := by decide +kernel

/-- Each of these breaks one check of its constructor and no other (R61 to R71), part 4. -/
theorem test_wellFormed_refuses4 : ([
      .tlbinvPage 1 0, .tlbinvRegion 8, .tlbinvRegion 0, .hop 128 1, .hop 1 512, .sendr 128 1 1 1, .sendr 1 128 1 1,
      .sendr 1 1 8 1, .sendr 1 1 1 128, .sendr 1 1 0 1, .arrive 128 1 1 1, .arrive 1 128 1 1, .arrive 1 1 8 1,
      .arrive 1 1 1 64, .arrive 1 1 0 1, .arriveRelaxed 128 1 1 1, .arriveRelaxed 1 128 1 1, .arriveRelaxed 1 1 8 1,
      .arriveRelaxed 1 1 1 64, .arriveRelaxed 1 1 0 1, .hwait 128 1 1 1, .hwait 1 128 1 1, .hwait 1 1 8 1, .hwait 1 1 1 64,
      .hwait 1 1 0 1, .htest 128 1 1 1, .htest 1 128 1 1, .htest 1 1 8 1, .htest 1 1 1 64, .htest 1 1 0 1, .pubf 128,
      .sync 128, .tcbnew 128 1, .tcbnew 1 128, .tcbsucc 128 1, .tcbsucc 1 128, .tcbpred 128 1, .tcbpred 1 128, .spawn 128 1,
      .spawn 1 524288, .waitt 128, .waita 128, .tfirst 128, .tclr 128, .cwait 128 1, .cwait 1 128, .cread 128 1, .cread 1 128,
      .rdpace 128, .vclaim 128 1, .vclaim 1 128, .vclaim 0 1, .vclaim 65 1, .repf 32 1 1, .repf 1 16 1, .repf 1 1 128,
      .vld 32 1 1 1, .vld 1 32 1 1, .vld 1 1 128 1, .vld 1 1 1 4, .vld 1 1 1 3, .vlds 32 1 1 1 1, .vlds 1 32 1 1 1,
      .vlds 1 1 32 1 1, .vlds 1 1 1 128 1, .vlds 1 1 1 1 4, .vlds 1 1 1 1 3, .vldx 32 1 1 1 1, .vldx 1 32 1 1 1,
      .vldx 1 1 32 1 1, .vldx 1 1 1 128 1, .vldx 1 1 1 1 4, .vldx 1 1 1 1 3, .vldPostinc 32 1 1 1, .vldPostinc 1 32 1 1,
      .vldPostinc 1 1 128 1, .vldPostinc 1 1 1 4, .vldPostinc 1 1 1 3, .vst 32 1 1 1, .vst 1 32 1 1, .vst 1 1 128 1,
      .vst 1 1 1 4, .vst 1 1 1 3, .vsts 32 1 1 1 1, .vsts 1 32 1 1 1, .vsts 1 1 32 1 1, .vsts 1 1 1 128 1, .vsts 1 1 1 1 4,
      .vsts 1 1 1 1 3, .vstx 32 1 1 1 1, .vstx 1 32 1 1 1, .vstx 1 1 32 1 1, .vstx 1 1 1 128 1, .vstx 1 1 1 1 4,
      .vstx 1 1 1 1 3, .vstPostinc 32 1 1 1, .vstPostinc 1 32 1 1, .vstPostinc 1 1 128 1, .vstPostinc 1 1 1 4,
      .vstPostinc 1 1 1 3, .vbcast 32 1 1, .vbcast 1 32 1, .vbcast 1 1 128, .vmovg 32 1 1, .vmovg 1 32 1, .vmovg 1 1 64,
      .vmovl 32 1 1, .vmovl 1 32 1, .vmovl 1 1 64, .viota 32 1, .viota 1 128, .vfadd 32 1 1 1, .vfadd 1 32 1 1,
      .vfadd 1 1 32 1, .vfadd 1 1 1 128, .vfsub 32 1 1 1, .vfsub 1 32 1 1, .vfsub 1 1 32 1, .vfsub 1 1 1 128, .vfmul 32 1 1 1] : List Instr).any wellFormed = false := by decide +kernel

/-- Each of these breaks one check of its constructor and no other (R61 to R71), part 5. -/
theorem test_wellFormed_refuses5 : ([
      .vfmul 1 32 1 1, .vfmul 1 1 32 1, .vfmul 1 1 1 128, .vfma 32 1 1 1, .vfma 1 32 1 1, .vfma 1 1 32 1, .vfma 1 1 1 128,
      .vfnma 32 1 1 1, .vfnma 1 32 1 1, .vfnma 1 1 32 1, .vfnma 1 1 1 128, .vfmin 32 1 1 1, .vfmin 1 32 1 1, .vfmin 1 1 32 1,
      .vfmin 1 1 1 128, .vfmax 32 1 1 1, .vfmax 1 32 1 1, .vfmax 1 1 32 1, .vfmax 1 1 1 128, .vfabs 32 1 1, .vfabs 1 32 1,
      .vfabs 1 1 128, .vfneg 32 1 1, .vfneg 1 32 1, .vfneg 1 1 128, .vfcmp 32 1 1 1 1, .vfcmp 1 32 1 1 1, .vfcmp 1 1 32 1 1,
      .vfcmp 1 1 1 128 1, .vfcmp 1 1 1 1 8, .vadd 32 1 1 1, .vadd 1 32 1 1, .vadd 1 1 32 1, .vadd 1 1 1 128, .vsub 32 1 1 1,
      .vsub 1 32 1 1, .vsub 1 1 32 1, .vsub 1 1 1 128, .vmul 32 1 1 1, .vmul 1 32 1 1, .vmul 1 1 32 1, .vmul 1 1 1 128,
      .vmulh 32 1 1 1, .vmulh 1 32 1 1, .vmulh 1 1 32 1, .vmulh 1 1 1 128, .vmulhn 32 1 1 1, .vmulhn 1 32 1 1,
      .vmulhn 1 1 32 1, .vmulhn 1 1 1 128, .vand 32 1 1 1, .vand 1 32 1 1, .vand 1 1 32 1, .vand 1 1 1 128, .vor 32 1 1 1,
      .vor 1 32 1 1, .vor 1 1 32 1, .vor 1 1 1 128, .vxor 32 1 1 1, .vxor 1 32 1 1, .vxor 1 1 32 1, .vxor 1 1 1 128,
      .vandn 32 1 1 1, .vandn 1 32 1 1, .vandn 1 1 32 1, .vandn 1 1 1 128, .vshl 32 1 1 1, .vshl 1 32 1 1, .vshl 1 1 32 1,
      .vshl 1 1 1 128, .vshr 32 1 1 1, .vshr 1 32 1 1, .vshr 1 1 32 1, .vshr 1 1 1 128, .vsar 32 1 1 1, .vsar 1 32 1 1,
      .vsar 1 1 32 1, .vsar 1 1 1 128, .vrol 32 1 1 1, .vrol 1 32 1 1, .vrol 1 1 32 1, .vrol 1 1 1 128, .vmin 32 1 1 1,
      .vmin 1 32 1 1, .vmin 1 1 32 1, .vmin 1 1 1 128, .vmax 32 1 1 1, .vmax 1 32 1 1, .vmax 1 1 32 1, .vmax 1 1 1 128,
      .vminn 32 1 1 1, .vminn 1 32 1 1, .vminn 1 1 32 1, .vminn 1 1 1 128, .vmaxn 32 1 1 1, .vmaxn 1 32 1 1, .vmaxn 1 1 32 1,
      .vmaxn 1 1 1 128, .vsel 32 1 1 1, .vsel 1 32 1 1, .vsel 1 1 32 1, .vsel 1 1 1 128, .vpadd 32 1 1 1 1, .vpadd 1 32 1 1 1,
      .vpadd 1 1 32 1 1, .vpadd 1 1 1 128 1, .vpadd 1 1 1 1 2, .vpshl 32 1 1 1 1, .vpshl 1 32 1 1 1, .vpshl 1 1 32 1 1,
      .vpshl 1 1 1 128 1, .vpshl 1 1 1 1 2, .vpshr 32 1 1 1 1, .vpshr 1 32 1 1 1, .vpshr 1 1 32 1 1, .vpshr 1 1 1 128 1,
      .vpshr 1 1 1 1 2, .vcmp 32 1 1 1 1, .vcmp 1 32 1 1 1, .vcmp 1 1 32 1 1] : List Instr).any wellFormed = false := by decide +kernel

/-- Each of these breaks one check of its constructor and no other (R61 to R71), part 6. -/
theorem test_wellFormed_refuses6 : ([
      .vcmp 1 1 1 128 1, .vcmp 1 1 1 1 16, .vcmp 1 1 1 1 6, .vcvt 32 1 1 1 1 1 1, .vcvt 1 32 1 1 1 1 1, .vcvt 1 1 2 1 1 1 1,
      .vcvt 1 1 1 16 1 1 1, .vcvt 1 1 1 1 128 1 1, .vcvt 1 1 1 1 1 8 1, .vcvt 1 1 1 1 1 1 2, .vcvt 1 1 1 11 1 1 1,
      .vcvt 1 1 1 1 1 6 1, .vexp2 32 1 1, .vexp2 1 32 1, .vexp2 1 1 128, .vlog2 32 1 1, .vlog2 1 32 1, .vlog2 1 1 128,
      .vrcp 32 1 1, .vrcp 1 32 1, .vrcp 1 1 128, .vrsq 32 1 1, .vrsq 1 32 1, .vrsq 1 1 128, .vsqrt 32 1 1, .vsqrt 1 32 1,
      .vsqrt 1 1 128, .vtanh 32 1 1, .vtanh 1 32 1, .vtanh 1 1 128, .vredaddF32 32 1 1, .vredaddF32 1 32 1,
      .vredaddF32 1 1 128, .vredaddS32 32 1 1, .vredaddS32 1 32 1, .vredaddS32 1 1 128, .vredminF32 32 1 1, .vredminF32 1 32 1,
      .vredminF32 1 1 128, .vredminS32 32 1 1, .vredminS32 1 32 1, .vredminS32 1 1 128, .vredminN32 32 1 1, .vredminN32 1 32 1,
      .vredminN32 1 1 128, .vredmaxF32 32 1 1, .vredmaxF32 1 32 1, .vredmaxF32 1 1 128, .vredmaxS32 32 1 1, .vredmaxS32 1 32 1,
      .vredmaxS32 1 1 128, .vredmaxN32 32 1 1, .vredmaxN32 1 32 1, .vredmaxN32 1 1 128, .vperm 32 1 1 1, .vperm 1 32 1 1,
      .vperm 1 1 32 1, .vperm 1 1 1 128, .vslide 32 1 1 1, .vslide 1 32 1 1, .vslide 1 1 32 1, .vslide 1 1 1 128,
      .vcompress 32 1 1, .vcompress 1 32 1, .vcompress 1 1 128, .vexpand 32 1 1, .vexpand 1 32 1, .vexpand 1 1 128,
      .aadd 128 1 1 1 1 1, .aadd 1 128 1 1 1 1, .aadd 1 1 128 1 1 1, .aadd 1 1 1 8 1 1, .aadd 1 1 1 1 4 1, .aadd 1 1 1 0 1 1,
      .aadd 1 1 1 1 1 3, .afadd 128 1 1 1 1 3, .afadd 1 128 1 1 1 3, .afadd 1 1 128 1 1 3, .afadd 1 1 1 8 1 3,
      .afadd 1 1 1 1 4 3, .afadd 1 1 1 0 1 3, .afadd 1 1 1 1 1 0, .amin 128 1 1 1 1 1, .amin 1 128 1 1 1 1,
      .amin 1 1 128 1 1 1, .amin 1 1 1 8 1 1, .amin 1 1 1 1 4 1, .amin 1 1 1 0 1 1, .amin 1 1 1 1 1 2, .amax 128 1 1 1 1 1,
      .amax 1 128 1 1 1 1, .amax 1 1 128 1 1 1, .amax 1 1 1 8 1 1, .amax 1 1 1 1 4 1, .amax 1 1 1 0 1 1, .amax 1 1 1 1 1 2,
      .aminn 128 1 1 1 1 0, .aminn 1 128 1 1 1 0, .aminn 1 1 128 1 1 0, .aminn 1 1 1 8 1 0, .aminn 1 1 1 1 4 0,
      .aminn 1 1 1 0 1 0, .aminn 1 1 1 1 1 1, .amaxn 128 1 1 1 1 0, .amaxn 1 128 1 1 1 0, .amaxn 1 1 128 1 1 0,
      .amaxn 1 1 1 8 1 0, .amaxn 1 1 1 1 4 0, .amaxn 1 1 1 0 1 0, .amaxn 1 1 1 1 1 1, .aand 128 1 1 1 1 1, .aand 1 128 1 1 1 1,
      .aand 1 1 128 1 1 1, .aand 1 1 1 8 1 1, .aand 1 1 1 1 4 1, .aand 1 1 1 0 1 1, .aand 1 1 1 1 1 3, .aor 128 1 1 1 1 1,
      .aor 1 128 1 1 1 1, .aor 1 1 128 1 1 1] : List Instr).any wellFormed = false := by decide +kernel

/-- Each of these breaks one check of its constructor and no other (R61 to R71), part 7. -/
theorem test_wellFormed_refuses7 : ([
      .aor 1 1 1 8 1 1, .aor 1 1 1 1 4 1, .aor 1 1 1 0 1 1, .aor 1 1 1 1 1 3, .axor 128 1 1 1 1 1, .axor 1 128 1 1 1 1,
      .axor 1 1 128 1 1 1, .axor 1 1 1 8 1 1, .axor 1 1 1 1 4 1, .axor 1 1 1 0 1 1, .axor 1 1 1 1 1 3, .aswp 128 1 1 1 1 1,
      .aswp 1 128 1 1 1 1, .aswp 1 1 128 1 1 1, .aswp 1 1 1 8 1 1, .aswp 1 1 1 1 4 1, .aswp 1 1 1 0 1 1, .aswp 1 1 1 1 1 3,
      .acas 128 1 1 1 1 1, .acas 1 128 1 1 1 1, .acas 1 1 128 1 1 1, .acas 1 1 1 8 1 1, .acas 1 1 1 1 4 1, .acas 1 1 1 0 1 1,
      .acas 1 1 1 1 1 3, .acas 1 1 127 1 1 1, .cadd 128 1 1 1 1 1, .cadd 1 128 1 1 1 1, .cadd 1 1 128 1 1 1, .cadd 1 1 1 8 1 1,
      .cadd 1 1 1 1 4 1, .cadd 1 1 1 0 1 1, .cadd 1 1 1 1 1 3, .fetch 128 1 1 1 1 false, .fetch 1 128 1 1 1 false,
      .fetch 1 1 128 1 1 false, .fetch 1 1 1 64 1 false, .fetch 1 1 1 1 8 false, .fetch 1 1 1 1 0 false,
      .push 128 1 1 1 1 false, .push 1 128 1 1 1 false, .push 1 1 128 1 1 false, .push 1 1 1 64 1 false, .push 1 1 1 1 8 false,
      .push 1 1 1 1 0 false, .pushX 65536 1 1 1 1 1 false, .pushX 1 128 1 1 1 1 false, .pushX 1 1 128 1 1 1 false,
      .pushX 1 1 1 128 1 1 false, .pushX 1 1 1 1 64 1 false, .pushX 1 1 1 1 1 8 false, .pushX 1 1 1 1 1 0 false,
      .pushm 65536 1 1 1 1 1 false, .pushm 1 128 1 1 1 1 false, .pushm 1 1 128 1 1 1 false, .pushm 1 1 1 128 1 1 false,
      .pushm 1 1 1 1 64 1 false, .pushm 1 1 1 1 1 8 false, .pushm 1 1 1 1 1 0 false, .storeb 128 1 1 1 1 false,
      .storeb 1 128 1 1 1 false, .storeb 1 1 128 1 1 false, .storeb 1 1 1 64 1 false, .storeb 1 1 1 1 8 false,
      .storeb 1 1 1 1 0 false, .gather 65536 1 1 1 1 1 false false, .gather 1 128 1 1 1 1 false false,
      .gather 1 1 128 1 1 1 false false, .gather 1 1 1 128 1 1 false false, .gather 1 1 1 1 64 1 false false,
      .gather 1 1 1 1 1 8 false false, .gather 1 1 1 1 1 0 false false, .scatter 65536 1 1 1 1 1 false false false,
      .scatter 1 128 1 1 1 1 false false false, .scatter 1 1 128 1 1 1 false false false,
      .scatter 1 1 1 128 1 1 false false false, .scatter 1 1 1 1 64 1 false false false,
      .scatter 1 1 1 1 1 8 false false false, .scatter 1 1 1 1 1 0 false false false, .fabred 65536 1 1 1 1 1 false,
      .fabred 1 128 1 1 1 1 false, .fabred 1 1 128 1 1 1 false, .fabred 1 1 1 128 1 1 false, .fabred 1 1 1 1 64 1 false,
      .fabred 1 1 1 1 1 8 false, .fabred 1 1 1 1 1 0 false, .donate 65536 1 1 1 1 false, .donate 1 128 1 1 1 false,
      .donate 1 1 128 1 1 false, .donate 1 1 1 64 1 false, .donate 1 1 1 1 8 false, .donate 1 1 1 1 0 false, .mclaimClaim 128,
      .mclaimRelease 128, .ldw 65536 1 1, .ldw 1 128 1, .ldw 1 1 7, .mma 65536 1 1 1 1 false, .mma 1 128 1 1 1 false,
      .mma 1 1 128 1 1 false, .mma 1 1 1 1 7 false, .mma 1 1 1 8 1 false, .mchain 128 1 1 false, .mchain 1 1 7 false,
      .mchain 1 8 1 false, .munchain 128, .mova 32 1 1, .mova 1 128 1, .mova 1 1 8, .msta 65536 1 1 1, .msta 1 128 1 1,
      .msta 1 1 128 1, .msta 1 1 1 8, .mlda 65536 1 1 1, .mlda 1 128 1 1, .mlda 1 1 128 1, .mlda 1 1 1 8, .mzero 8,
      .msel 128 1 1, .msel 1 128 1] : List Instr).any wellFormed = false := by decide +kernel

/-- Each of these breaks one check of its constructor and no other (R61 to R71), part 8. -/
theorem test_wellFormed_refuses8 : ([
      .msel 1 1 8, .mscale 128 1 2, .mscale 1 128 2, .mscale 1 1 0, .mstat 128 1, .mstat 1 2] : List Instr).any wellFormed = false := by decide +kernel

/-- Events that name a unit the module does not have. -/
theorem test_wellFormed_refuses_events : ([
      .divideComplete 262144, .retryParkExpiry 262144, .parkTimeout 262144, .hotWindowEnd 4096, .redirectInstall 1024 0,
      .helperEvictReport 0 1024, .bridgeFlitReceive 8, .bridgeAckReceive 8 0, .bridgeRetrain 8, .bridgeRetrainDone 8,
      .bridgeFailTimeout 8, .relayFrameReceive 16 0 [], .relayPortTimeout 16, .hubAllocate 4096, .stealSweep 4096,
      .stealRestExpiry 4096, .stealHubAck 4096, .stealArrival 4096, .tcbDecrement 131072 0, .taskRetire 131072 0,
      .dequeRefillArrival 262144, .landingQueueTake 4096, .landnRaiseComplete 4096, .vectorStep 4096, .vectorPendingWrite 4096,
      .matrixArraySelect 1024, .matrixOpStart 4096, .matrixOpRetire 4096, .accAccessAttempt 4096, .strideSpillReturn 1024,
      .donationReceive 4096 0 1 0 [], .donationReceive 1 0 65536 0 [], .donationDrain 65536 0, .handlerOwedStart 256,
      .eventDelivery 65536 0 0 0, .preemptDecision 256, .preemptRequestArrival 262144, .preemptSaveComplete 262144,
      .threadStale 262144, .levelChange 1024, .clockRestart 1024, .shutterUpdate 4096 0, .billingReceive 65536 0,
      .pacerAnnounce 31 0, .leaderAnnounceHandle 4096 1 0 false, .leaderAnnounceHandle 1 31 0 false, .hardDrop 31,
      .proposalChange 31, .memberSilence 4096, .regctlHalt hdr 65536, .regctlResume hdr 65536, .regctlEnd hdr 65536,
      .setobj hdr 65536 0 [], .energyrd hdr 65536, .groupJoin hdr 4294967296, .groupLeave hdr 4294967296,
      .wqcfg hdr 0 340282366920938463463374607431768211456 1, .wqcfg hdr 0 1 65536, .caprd hdr 65536 0 0,
      .discoveryFloodReceive 4096 0, .discoveryAnswer 4096 0, .relayLinkRetrain 16, .relayLinkRetrainDone 16,
      .replayExternalInput 65536 (.pacer msg)] : List Instr).any wellFormed = false := by decide +kernel

/-! ## Decoding: words written out from the encodings of chapter 05 -/

/-- Whether the words of every row decode to its instruction. -/
def decodesTo (l : List (Nat × Nat × Instr)) : Bool := l.all fun r => (decode r.1 r.2.1).toOption == some r.2.2

/-- Words of majors 0x01, field by field as R60 and R64 to R71 lay them out. -/
theorem test_decode_integer :
    decodesTo [
      (0b000001_1010101_0101010_1100111_00000, 0, .add 85 42 103),
      (0b000001_1010101_0101010_1100111_00001, 0, .sub 85 42 103),
      (0b000001_1010101_0101010_1100111_00010, 0, .mul 85 42 103),
      (0b000001_1010101_0101010_1100111_00011, 0, .mulh 85 42 103),
      (0b000001_1010101_0101010_1100111_00100, 0, .mulhn 85 42 103),
      (0b000001_1010101_0101010_1100111_00101, 0, .div 85 42 103),
      (0b000001_1010101_0101010_1100111_00110, 0, .divn 85 42 103),
      (0b000001_1010101_0101010_1100111_00111, 0, .rem 85 42 103),
      (0b000001_1010101_0101010_1100111_01000, 0, .remn 85 42 103),
      (0b000001_1010101_0101010_1100111_01001, 0, .min 85 42 103),
      (0b000001_1010101_0101010_1100111_01010, 0, .max 85 42 103),
      (0b000001_1010101_0101010_1100111_01011, 0, .minn 85 42 103),
      (0b000001_1010101_0101010_1100111_01100, 0, .maxn 85 42 103),
      (0b000001_1010101_0101010_0000000_01101, 0, .abs 85 42),
      (0b000001_1010101_0101010_1100111_01110, 0, .and 85 42 103),
      (0b000001_1010101_0101010_1100111_01111, 0, .or 85 42 103),
      (0b000001_1010101_0101010_1100111_10000, 0, .xor 85 42 103),
      (0b000001_1010101_0101010_1100111_10001, 0, .andn 85 42 103),
      (0b000001_1010101_0101010_1100111_10010, 0, .orn 85 42 103),
      (0b000001_1010101_0101010_1100111_10011, 0, .xnor 85 42 103),
      (0b000001_1010101_0101010_1100111_10100, 0, .shl 85 42 103),
      (0b000001_1010101_0101010_1100111_10101, 0, .shr 85 42 103),
      (0b000001_1010101_0101010_1100111_10110, 0, .sar 85 42 103),
      (0b000001_1010101_0101010_1100111_10111, 0, .rol 85 42 103),
      (0b000001_1010101_0101010_1100111_11000, 0, .ror 85 42 103)] = true := by
  decide +kernel

/-- Words of majors 0x02, 0x03, field by field as R60 and R64 to R71 lay them out. -/
theorem test_decode_bit_and_packed :
    decodesTo [
      (0b000010_1010101_0101010_0000000_00000, 0, .popc 85 42),
      (0b000010_1010101_0101010_0000000_00001, 0, .clz 85 42),
      (0b000010_1010101_0101010_0000000_00010, 0, .ctz 85 42),
      (0b000010_1010101_0101010_0000000_00011, 0, .brev 85 42),
      (0b000010_1010101_0101010_0000000_00100, 0, .bswap 85 42),
      (0b000010_1010101_0101010_1100111_00101, 0, .bext 85 42 103),
      (0b000010_1010101_0101010_1100111_00110, 0, .bdep 85 42 103),
      (0b000010_1010101_0101010_0000000_00111, 0, .sextS8 85 42),
      (0b000010_1010101_0101010_0000000_01000, 0, .sextS16 85 42),
      (0b000010_1010101_0101010_0000000_01001, 0, .sextS32 85 42),
      (0b000010_1010101_0101010_0000000_01010, 0, .zextN8 85 42),
      (0b000010_1010101_0101010_0000000_01011, 0, .zextN16 85 42),
      (0b000010_1010101_0101010_0000000_01100, 0, .zextN32 85 42),
      (0b000011_1010101_0101010_1100111_00000, 0, .padd 85 42 103 0),
      (0b000011_1010101_0101010_1100111_00011, 0, .psub 85 42 103 1),
      (0b000011_1010101_0101010_1100111_00100, 0, .paddsS 85 42 103 0),
      (0b000011_1010101_0101010_1100111_00111, 0, .paddsN 85 42 103 1),
      (0b000011_1010101_0101010_1100111_01000, 0, .psubsS 85 42 103 0),
      (0b000011_1010101_0101010_1100111_01011, 0, .psubsN 85 42 103 1),
      (0b000011_1010101_0101010_1100111_01100, 0, .pmin 85 42 103 0),
      (0b000011_1010101_0101010_1100111_01111, 0, .pmax 85 42 103 1),
      (0b000011_1010101_0101010_1100111_10000, 0, .pminn 85 42 103 0),
      (0b000011_1010101_0101010_1100111_10011, 0, .pmaxn 85 42 103 1),
      (0b000011_1010101_0101010_1100111_10100, 0, .pshl 85 42 103 0),
      (0b000011_1010101_0101010_1100111_10111, 0, .pshr 85 42 103 1),
      (0b000011_1010101_0101010_1100111_11000, 0, .psar 85 42 103 0),
      (0b000011_1010101_0101010_1100111_11011, 0, .pshlV 85 42 103 1),
      (0b000011_1010101_0101010_1100111_11100, 0, .pshrV 85 42 103 0),
      (0b000011_1010101_0101010_1100111_11111, 0, .psarV 85 42 103 1)] = true := by
  decide +kernel

/-- Words of majors 0x04, 0x05, 0x06, 0x07, 0x08, 0x09, 0x0A, 0x0B, 0x0C, 0x0D, 0x0E, 0x0F, field by field as R60 and R64 to R71 lay them out. -/
theorem test_decode_moves_and_immediates :
    decodesTo [
      (0b000100_1010101_0101010_1100111_01011, 0, .pcmp 85 42 103 5 1),
      (0b000100_1010101_0101010_1100111_00100, 0, .pcmp 85 42 103 2 0),
      (0b000100_1010101_0101010_0000000_01100, 0, .mov 85 42),
      (0b000100_1010101_0000000_0000000_01101, 0, .pmovToG 85),
      (0b000100_0000000_0101010_0000000_01110, 0, .pmovToPw 42),
      (0b000101_1010101_0101010_1100111_11001, 0, .sel 85 42 103 1 9),
      (0b000101_1010101_0101010_1100111_00110, 0, .sel 85 42 103 0 6),
      (0b000110_1010101_0101010_101001010011, 0, .addi 85 42 2643),
      (0b000111_1010101_0101010_101001010011, 0, .andi 85 42 2643),
      (0b001000_1010101_0101010_101001010011, 0, .ori 85 42 2643),
      (0b001001_1010101_0101010_101001010011, 0, .xori 85 42 2643),
      (0b001010_1010101_0101010_000011000101, 0, .shli 85 42 197),
      (0b001010_1010101_0101010_000111000101, 0, .shri 85 42 197),
      (0b001010_1010101_0101010_001011000101, 0, .sari 85 42 197),
      (0b001010_1010101_0101010_001111000101, 0, .rori 85 42 197),
      (0b001011_1010101_0101010_100101011010, 0, .bfx 85 42 37 26),
      (0b001100_1010101_0101010_100101011010, 0, .bfi 85 42 37 26),
      (0b001101_1010101_1001010010111000011, 0, .lim 85 304579),
      (0b001110_1010101_0111010010111000011, 0, .limH 85 3 42435),
      (0b001111_1010101_1001010010111000011, 0, .addpc 85 304579)] = true := by
  decide +kernel

/-- Words of majors 0x10, 0x11, 0x12, 0x13, 0x14, 0x15, 0x16, field by field as R60 and R64 to R71 lay them out. -/
theorem test_decode_predicates_and_control :
    decodesTo [
      (0b010000_1001_0101_0101010_1100111_0010, 0, .cmp 9 5 42 103 2),
      (0b010001_1001_1011_0101010_10110100011, 0, .cmpi 9 11 42 1443),
      (0b010010_1001_0110_000_1101_000_0011_0000, 0, .plog 9 6 13 3),
      (0b010011_1_0110_101011010010110100101, 0, .b 1 6 1418661),
      (0b010100_10101001011010010110100101, 0, .j 44410277),
      (0b010101_10101001011010010110100101, 0, .call 44410277),
      (0b010110_0000000_0101010_0000000_00000, 0, .callr 42),
      (0b010110_0000000_0101010_0000000_00001, 0, .jr 42),
      (0b010110_0000000_0000000_0000000_00010, 0, .ret),
      (0b010110_0000000_0101010_1100111_00011, 0, .objset 42 103)] = true := by
  decide +kernel

/-- Words of majors 0x17, field by field as R60 and R64 to R71 lay them out. -/
theorem test_decode_system :
    decodesTo [
      (0b010111_1010101_000000100100_0000000, 0, .mfs 85 36),
      (0b010111_1010101_000000100001_0000001, 0, .mts 85 33),
      (0b010111_1010101_000000000011_0000001, 0, .mtsPortmap 85),
      (0b010111_1010101_000000001000_0000001, 0, .mtsVl 85),
      (0b010111_1010101_000000000110_0000001, 0, .mtsFpstat 85),
      (0b010111_1010101_000000000111_0000001, 0, .mtsRndseed 85),
      (0b010111_1010101_000000100000_0000001, 0, .mtsCarve 85),
      (0b010111_1010101_000000100010_0000001, 0, .mtsLandn 85),
      (0b010111_0000000_101001010011_0000010, 0, .trap 2643),
      (0b010111_0000000_101001010011_0000011, 0, .svc 2643),
      (0b010111_0000000_000000000001_0000011, 0, .svcSetCarve),
      (0b010111_0000000_000000000010_0000011, 0, .svcSetVgroup),
      (0b010111_0000000_000000000011_0000011, 0, .svcSetLandn),
      (0b010111_0000000_000000000100_0000011, 0, .svcSetAccmap),
      (0b010111_0000000_000100000000_0000011, 0, .svcLaunch),
      (0b010111_1010101_000000000000_0000100, 0, .eret 85),
      (0b010111_0000000_000000000000_0000101, 0, .yield),
      (0b010111_0000000_000000000000_0000110, 0, .park),
      (0b010111_1010101_101001010011_1100101, 0, .hint 85 2643 37)] = true := by
  decide +kernel

/-- Words of majors 0x18, 0x19, 0x1A, 0x1B, 0x1C, 0x1D, 0x1E, 0x1F, field by field as R60 and R64 to R71 lay them out. -/
theorem test_decode_memory :
    decodesTo [
      (0b011000_1010101_0101010_001_101010011, 0, .ldD 85 42 1 339),
      (0b011001_1010101_0101010_001_101010011, 0, .stD 85 42 1 339),
      (0b011010_1010101_0101010_1100111_00100, 0, .ldx 85 42 103 4),
      (0b011010_1010101_0101010_1100111_01011, 0, .ld 85 42 103 3),
      (0b011010_1010101_0101010_1100111_10001, 0, .stx 85 42 103 1),
      (0b011010_1010101_0101010_1100111_11110, 0, .st 85 42 103 6),
      (0b011011_1010101_0101010_0000111_00000, 0, .ldm 85 42 7),
      (0b011011_1010101_0101010_0000111_00001, 0, .stm 85 42 7),
      (0b011100_1010101_0101010_101_000100101, 0, .ldfe 85 42 5 37),
      (0b011100_1010101_0101010_101_001100101, 0, .ldff 85 42 5 37),
      (0b011100_1010101_0101010_101_010100101, 0, .stfe 85 42 5 37),
      (0b011100_1010101_0101010_101_011100101, 0, .stf 85 42 5 37),
      (0b011100_0000000_0101010_101_100100101, 0, .sete 42 5 37),
      (0b011100_1010101_0101010_101_101100101, 0, .feq 85 42 5 37),
      (0b011100_1010101_0101010_000_000000000, 0, .ldfeStrand 85 42),
      (0b011100_1010101_0101010_000_001000000, 0, .ldffStrand 85 42),
      (0b011100_1010101_0000000_000_100000000, 0, .seteStrand 85),
      (0b011100_1010101_0101010_000_101000000, 0, .feqStrand 85 42),
      (0b011101_0000000_0000000_101_000000000, 0, .fence 5),
      (0b011101_0000001_0101010_011_101010011, 0, .discard 42 3 339),
      (0b011101_0000010_0101010_011_101010011, 0, .flush 42 3 339),
      (0b011101_0000011_0101010_011_101010011, 0, .inval 42 3 339),
      (0b011101_0000100_0101010_011_101010011, 0, .pref 42 3 339),
      (0b011101_0000101_0101010_011_000000000, 0, .tlbinvPage 42 3),
      (0b011101_0000101_0000000_011_000000001, 0, .tlbinvRegion 3),
      (0b011101_0000110_0101010_000_101010011, 0, .hop 42 339),
      (0b011110_1010101_0101010_101_001100111, 0, .sendr 85 42 5 103),
      (0b011111_1010101_0101010_101_000100101, 0, .arrive 85 42 5 37),
      (0b011111_1010101_0101010_101_001100101, 0, .arriveRelaxed 85 42 5 37),
      (0b011111_1010101_0101010_101_010100101, 0, .hwait 85 42 5 37),
      (0b011111_1010101_0101010_101_011100101, 0, .htest 85 42 5 37)] = true := by
  decide +kernel

/-- Words of majors 0x20, 0x21, 0x22, field by field as R60 and R64 to R71 lay them out. -/
theorem test_decode_tasks_and_tags :
    decodesTo [
      (0b100000_0000000_0101010_0000000_00000, 0, .pubf 42),
      (0b100000_0000000_0101010_0000000_00001, 0, .sync 42),
      (0b100000_0000000_0000000_0000000_00010, 0, .done),
      (0b100000_1010101_0101010_0000000_00011, 0, .tcbnew 85 42),
      (0b100000_0000000_0101010_1100111_00100, 0, .tcbsucc 42 103),
      (0b100000_0000000_0101010_1100111_00101, 0, .tcbpred 42 103),
      (0b100001_1010101_1001010010111000011, 0, .spawn 85 304579),
      (0b100010_0000000_0101010_0000000_00000, 0, .waitt 42),
      (0b100010_0000000_0101010_0000000_00001, 0, .waita 42),
      (0b100010_1010101_0000000_0000000_00010, 0, .tfirst 85),
      (0b100010_0000000_0101010_0000000_00011, 0, .tclr 42),
      (0b100010_0000000_0101010_1100111_00100, 0, .cwait 42 103),
      (0b100010_1010101_0101010_0000000_00101, 0, .cread 85 42),
      (0b100010_1010101_0000000_0000000_00110, 0, .rdpace 85)] = true := by
  decide +kernel

/-- Words of majors 0x28, 0x29, 0x2A, 0x2B, field by field as R60 and R64 to R71 lay them out. -/
theorem test_decode_vector_memory_and_control :
    decodesTo [
      (0b101000_000000000100101_1010101_0000, 0, .vclaim 37 85),
      (0b101000_000000000000000_0000000_0001, 0, .vfree),
      (0b101000_000000100111011_1010101_0010, 0, .repf 19 11 85),
      (0b101000_000000000000000_0000000_0011, 0, .vwait),
      (0b101001_10101_01010_00000_1010101_0010, 0, .vld 21 10 85 2),
      (0b101001_10101_01010_11001_1010101_0101, 0, .vlds 21 10 25 85 1),
      (0b101001_10101_01010_11001_1010101_1010, 0, .vldx 21 10 25 85 2),
      (0b101001_10101_01010_00000_1010101_1101, 0, .vldPostinc 21 10 85 1),
      (0b101010_10101_01010_00000_1010101_0010, 0, .vst 21 10 85 2),
      (0b101010_10101_01010_11001_1010101_0101, 0, .vsts 21 10 25 85 1),
      (0b101010_10101_01010_11001_1010101_1010, 0, .vstx 21 10 25 85 2),
      (0b101010_10101_01010_00000_1010101_1101, 0, .vstPostinc 21 10 85 1),
      (0b101011_10101_00000_11001_1010101_0000, 0, .vbcast 21 25 85),
      (0b101011_10101_01010_00000_0100101_0001, 0, .vmovg 21 10 37),
      (0b101011_10101_00000_11001_0100101_0010, 0, .vmovl 21 25 37),
      (0b101011_10101_00000_00000_1010101_0011, 0, .viota 21 85)] = true := by
  decide +kernel

/-- Words of majors 0x2C, 0x2D, 0x31, 0x32, field by field as R60 and R64 to R71 lay them out. -/
theorem test_decode_vector_float :
    decodesTo [
      (0b101100_10101_01010_11001_1010101_0000, 0, .vfadd 21 10 25 85),
      (0b101100_10101_01010_11001_1010101_0001, 0, .vfsub 21 10 25 85),
      (0b101100_10101_01010_11001_1010101_0010, 0, .vfmul 21 10 25 85),
      (0b101100_10101_01010_11001_1010101_0011, 0, .vfma 21 10 25 85),
      (0b101100_10101_01010_11001_1010101_0100, 0, .vfnma 21 10 25 85),
      (0b101100_10101_01010_11001_1010101_0101, 0, .vfmin 21 10 25 85),
      (0b101100_10101_01010_11001_1010101_0110, 0, .vfmax 21 10 25 85),
      (0b101100_10101_01010_00000_1010101_0111, 0, .vfabs 21 10 85),
      (0b101100_10101_01010_00000_1010101_1000, 0, .vfneg 21 10 85),
      (0b101101_10101_01010_11001_1010101_0110, 0, .vfcmp 21 10 25 85 6),
      (0b110001_10101_01010_1_1001_1010101_101_1, 0, .vcvt 21 10 1 9 85 5 1),
      (0b110010_10101_01010_00000_1010101_0000, 0, .vexp2 21 10 85),
      (0b110010_10101_01010_00000_1010101_0001, 0, .vlog2 21 10 85),
      (0b110010_10101_01010_00000_1010101_0010, 0, .vrcp 21 10 85),
      (0b110010_10101_01010_00000_1010101_0011, 0, .vrsq 21 10 85),
      (0b110010_10101_01010_00000_1010101_0100, 0, .vsqrt 21 10 85),
      (0b110010_10101_01010_00000_1010101_0101, 0, .vtanh 21 10 85)] = true := by
  decide +kernel

/-- Words of majors 0x2E, 0x2F, 0x30, field by field as R60 and R64 to R71 lay them out. -/
theorem test_decode_vector_integer :
    decodesTo [
      (0b101110_10101_01010_11001_1010101_0000, 0, .vadd 21 10 25 85),
      (0b101110_10101_01010_11001_1010101_0001, 0, .vsub 21 10 25 85),
      (0b101110_10101_01010_11001_1010101_0010, 0, .vmul 21 10 25 85),
      (0b101110_10101_01010_11001_1010101_0011, 0, .vmulh 21 10 25 85),
      (0b101110_10101_01010_11001_1010101_0100, 0, .vmulhn 21 10 25 85),
      (0b101110_10101_01010_11001_1010101_0101, 0, .vand 21 10 25 85),
      (0b101110_10101_01010_11001_1010101_0110, 0, .vor 21 10 25 85),
      (0b101110_10101_01010_11001_1010101_0111, 0, .vxor 21 10 25 85),
      (0b101110_10101_01010_11001_1010101_1000, 0, .vandn 21 10 25 85),
      (0b101110_10101_01010_11001_1010101_1001, 0, .vshl 21 10 25 85),
      (0b101110_10101_01010_11001_1010101_1010, 0, .vshr 21 10 25 85),
      (0b101110_10101_01010_11001_1010101_1011, 0, .vsar 21 10 25 85),
      (0b101110_10101_01010_11001_1010101_1100, 0, .vrol 21 10 25 85),
      (0b101110_10101_01010_11001_1010101_1101, 0, .vmin 21 10 25 85),
      (0b101110_10101_01010_11001_1010101_1110, 0, .vmax 21 10 25 85),
      (0b101110_10101_01010_11001_1010101_1111, 0, .vminn 21 10 25 85),
      (0b101111_10101_01010_11001_1010101_0000, 0, .vmaxn 21 10 25 85),
      (0b101111_10101_01010_11001_1010101_0001, 0, .vsel 21 10 25 85),
      (0b101111_10101_01010_11001_1010101_0011, 0, .vpadd 21 10 25 85 1),
      (0b101111_10101_01010_11001_1010101_0100, 0, .vpshl 21 10 25 85 0),
      (0b101111_10101_01010_11001_1010101_0111, 0, .vpshr 21 10 25 85 1),
      (0b110000_10101_01010_11001_1010101_0011, 0, .vcmp 21 10 25 85 3)] = true := by
  decide +kernel

/-- Words of majors 0x33, 0x34, field by field as R60 and R64 to R71 lay them out. -/
theorem test_decode_vector_reduce_and_permute :
    decodesTo [
      (0b110011_10101_01010_00000_1010101_0000, 0, .vredaddF32 21 10 85),
      (0b110011_10101_01010_00000_1010101_0001, 0, .vredaddS32 21 10 85),
      (0b110011_10101_01010_00000_1010101_0010, 0, .vredminF32 21 10 85),
      (0b110011_10101_01010_00000_1010101_0011, 0, .vredminS32 21 10 85),
      (0b110011_10101_01010_00000_1010101_0100, 0, .vredminN32 21 10 85),
      (0b110011_10101_01010_00000_1010101_0101, 0, .vredmaxF32 21 10 85),
      (0b110011_10101_01010_00000_1010101_0110, 0, .vredmaxS32 21 10 85),
      (0b110011_10101_01010_00000_1010101_0111, 0, .vredmaxN32 21 10 85),
      (0b110100_10101_01010_11001_1010101_0000, 0, .vperm 21 10 25 85),
      (0b110100_10101_01010_11001_1010101_0001, 0, .vslide 21 10 25 85),
      (0b110100_10101_01010_00000_1010101_0010, 0, .vcompress 21 10 85),
      (0b110100_10101_01010_00000_1010101_0011, 0, .vexpand 21 10 85)] = true := by
  decide +kernel

/-- Words of majors 0x38, field by field as R60 and R64 to R71 lay them out. -/
theorem test_decode_atomics :
    decodesTo [
      (0b111000_1010101_0101010_1100111_00000, 0b0000000000000000_000000_101_0001000, .aadd 85 42 103 5 0 2),
      (0b111000_1010101_0101010_1100111_00001, 0b0000000000000000_000000_101_0001101, .afadd 85 42 103 5 1 3),
      (0b111000_1010101_0101010_1100111_00010, 0b0000000000000000_000000_101_0000110, .amin 85 42 103 5 2 1),
      (0b111000_1010101_0101010_1100111_00011, 0b0000000000000000_000000_101_0000011, .amax 85 42 103 5 3 0),
      (0b111000_1010101_0101010_1100111_00100, 0b0000000000000000_000000_101_0001000, .aminn 85 42 103 5 0 2),
      (0b111000_1010101_0101010_1100111_00101, 0b0000000000000000_000000_101_0001001, .amaxn 85 42 103 5 1 2),
      (0b111000_1010101_0101010_1100111_00110, 0b0000000000000000_000000_101_0000110, .aand 85 42 103 5 2 1),
      (0b111000_1010101_0101010_1100111_00111, 0b0000000000000000_000000_101_0001011, .aor 85 42 103 5 3 2),
      (0b111000_1010101_0101010_1100111_01000, 0b0000000000000000_000000_101_0000000, .axor 85 42 103 5 0 0),
      (0b111000_1010101_0101010_1100111_01001, 0b0000000000000000_000000_101_0000101, .aswp 85 42 103 5 1 1),
      (0b111000_1010101_0101010_1100111_01010, 0b0000000000000000_000000_101_0001010, .acas 85 42 103 5 2 2),
      (0b111000_1010101_0101010_1100111_01011, 0b0000000000000000_000000_101_0000111, .cadd 85 42 103 5 3 1)] = true := by
  decide +kernel

/-- Words of majors 0x39, field by field as R60 and R64 to R71 lay them out. -/
theorem test_decode_engines :
    decodesTo [
      (0b111001_1010101_0101010_1100111_00000, 0b0000000000000000_101011_101_0000100, .fetch 85 42 103 43 5 true),
      (0b111001_1010101_0101010_1100111_00001, 0b0000000000000000_101011_101_0000000, .push 85 42 103 43 5 false),
      (0b111001_1010101_0101010_1100111_00001, 0b1010010111000011_101011_101_0001100, .pushX 42435 85 42 103 43 5 true),
      (0b111001_1010101_0101010_1100111_00010, 0b1010010111000011_101011_101_0000000, .pushm 42435 85 42 103 43 5 false),
      (0b111001_1010101_0101010_1100111_00011, 0b0000000000000000_101011_101_0000100, .storeb 85 42 103 43 5 true),
      (0b111001_1010101_0101010_1100111_00100, 0b1010010111000011_101011_101_0000001, .gather 42435 85 42 103 43 5 true false),
      (0b111001_1010101_0101010_1100111_00101, 0b1010010111000011_101011_101_0000010, .scatter 42435 85 42 103 43 5 false true false),
      (0b111001_1010101_0101010_1100111_00110, 0b1010010111000011_101011_101_0000100, .fabred 42435 85 42 103 43 5 true),
      (0b111001_1010101_0101010_0000000_00111, 0b1010010111000011_101011_101_0000100, .donate 42435 85 42 43 5 true)] = true := by
  decide +kernel

/-- Words of majors 0x3A, field by field as R60 and R64 to R71 lay them out. -/
theorem test_decode_matrix :
    decodesTo [
      (0b111010_1010101_0000001_0000000_00000, 0, .mclaimClaim 85),
      (0b111010_1010101_0000000_0000000_00000, 0, .mclaimRelease 85),
      (0b111010_1010101_0000000_0000000_00001, 0b1010010111000011_000000_000_0001010, .ldw 42435 85 5),
      (0b111010_0000000_0000000_0000000_00010, 0, .swpw),
      (0b111010_1010101_0101010_0000101_00011, 0b1010010111000011_000000_000_0000111, .mma 42435 85 42 5 3 true),
      (0b111010_0000000_0101010_0000101_00100, 0b0000000000000000_000000_000_0001100, .mchain 42 5 6 false),
      (0b111010_1010101_0000000_0000000_00101, 0, .munchain 85),
      (0b111010_0010101_0101010_0000101_00110, 0, .mova 21 42 5),
      (0b111010_1010101_0101010_0000101_00111, 0b1010010111000011_000000_000_0000000, .msta 42435 85 42 5),
      (0b111010_1010101_0101010_0000101_01000, 0b1010010111000011_000000_000_0000000, .mlda 42435 85 42 5),
      (0b111010_0000000_0000000_0000101_01001, 0, .mzero 5),
      (0b111010_1010101_0101010_0000101_01010, 0, .msel 85 42 5),
      (0b111010_1010101_0101010_0000000_01011, 0b0000000000000000_000000_000_0000110, .mscale 85 42 3),
      (0b111010_1010101_0000001_0000000_01100, 0, .mstat 85 1)] = true := by
  decide +kernel

/-- R63 step 2: words that are no instruction, with the reason of each. -/
theorem test_decode_refuses :
    decode 0 0 = .error .allZeros ∧ decode 0xFFFFFFFF 0 = .error .allOnes ∧
    decode 0b000000_0000000_0000000_0000000_00001 0 = .error .majorUnassigned ∧
    decode 0b100011_0000000_0000000_0000000_00000 0 = .error .majorUnassigned ∧
    decode 0b110101_00000_00000_00000_0000000_0000 0 = .error .majorUnassigned ∧
    decode 0b111011_0000000_0000000_0000000_00000 0 = .error .majorUnassigned ∧
    decode 0b000001_0000101_0000110_0000111_11001 0 = .error .fnUnassigned ∧
    decode 0b111000_0000101_0000110_0000111_01100 0b0000000000000000_000000_001_0000000 = .error .fnUnassigned ∧
    decode 0b000001_0000101_0000110_0000111_01101 0 = .error .unusedField ∧
    decode 0b111000_0000101_0000110_0000111_00000 0b0000000000000001_000000_001_0000000 = .error .unusedField ∧
    decode 0b011010_0000101_0000110_0000111_00111 0 = .error .badCode ∧
    decode 0b010011_1_1111_000000000000000000000 0 = .error .badCode ∧
    decode 0b111000_0000101_0000110_0000111_00001 0b0000000000000000_000000_001_0000000 = .error .badCode := by
  refine ⟨rfl, rfl, rfl, rfl, rfl, rfl, rfl, rfl, rfl, rfl, rfl, rfl, rfl⟩

/-- R60, R71: the two examples of chapter 05, as they are stored; a wide word 0 alone is no instruction, and the bytes after an
instruction are left. -/
theorem test_decode_examples :
    decodeBytes [0xE0, 0x60, 0x28, 0x04, 0x77] = .ok (.add 5 6 7, [0x77]) ∧
    decodeBytes [0xC0, 0x50, 0x20, 0xE0, 0x82, 0x01, 0x00, 0x00] = .ok (.aadd 4 5 6 3 2 0, []) ∧
    decodeBytes [0xC0, 0x50, 0x20, 0xE0] = .error .truncated ∧
    encode (.add 5 6 7) = [0x042860E0] ∧ encode (.aadd 4 5 6 3 2 0) = [0xE02050C0, 0x00000182] := by
  refine ⟨rfl, rfl, rfl, rfl, rfl⟩

/-! ## Single steps -/

/-- A region with every cluster of the module, and a scratchpad partition at the bottom of each of its cores. -/
def region1 : Region :=
  { coreset := BitVec.allOnes 256, evq := 0, fltq := 0, dqbase := 0, scrbase := 0, acct := 7, energy := 0, dqlog := 0, strq := 0,
    scrbytes := 65536, minslots := 0, maxslots := 16, handler := 0, objcount := 8, objbase := 0, ptroot := 0, rcb := 0, parent := none,
    prio := 0, fdom := false, depth := 0, age := 1 }

/-- A ready thread of the region with a window of 128 registers. -/
def thread : Slot := { st := .ready, pc := 0x1000, region := 1, wclass := 7 }

/-- The module with that region and that thread, in slot 4 of core 0. -/
def world : State :=
  { State.reset with cur := 4, slots := [(4, thread)], regions := [(1, region1)], agenda := [],
                     host := { State.reset.host with stage := 3, mapped := true } }

/-- Values in general registers of the thread that issues. -/
def State.withRegs (s : State) (l : List (Nat × Nat)) : State := l.foldl (fun s p => s.setG p.1 (BitVec.ofNat 64 p.2)) s

/-- The address of a place in core 0's scratchpad. -/
def scr (off : Nat) : Nat := 2 ^ 56 + off

/-- Words of 8 bytes in memory. -/
def State.withWords (s : State) (l : List (Nat × Nat)) : State :=
  { s with mem := l.foldl (fun m p => writeBytes m p.1 (leBytes 8 p.2)) s.mem }

/-- A value of the next state, where there is one. -/
def after (o : Host.Outcome State Fault Refusal) (f : State → α) : Option α :=
  match o with
  | .next t => some (f t)
  | _ => none

/-- The number in a register of the issuing thread after an instruction at `world` with some registers. -/
def result (l : List (Nat × Nat)) (i : Instr) (r : Nat) : Option Nat := after (exec i (State.withRegs world l)) fun t => (t.g r).toNat

/-- R102: the high halves of signed and unsigned products, and a quotient of the most negative number. -/
theorem test_products :
    result [(1, 2 ^ 64 - 1), (2, 2 ^ 64 - 1)] (.mul 3 1 2) 3 = some 1 ∧ result [(1, 2 ^ 64 - 1), (2, 2 ^ 64 - 1)] (.mulh 3 1 2) 3 = some 0 ∧
    result [(1, 2 ^ 64 - 1), (2, 2 ^ 64 - 1)] (.mulhn 3 1 2) 3 = some (2 ^ 64 - 2) := by decide +kernel

/-- R102: division by zero and the overflow of a signed division; the thread waits with its result. -/
theorem test_divides :
    (after (exec (.div 3 1 2) (State.withRegs world [(1, 2 ^ 63), (2, 2 ^ 64 - 1)])) fun t => t.me.wait) = some (.divide 3 (BitVec.ofNat 64 (2 ^ 63)) 40 none) ∧
    (after (exec (.remn 3 1 2) (State.withRegs world [(1, 77)])) fun t => t.me.wait) = some (.divide 3 77 40 none) := by decide +kernel

/-- R103: wrap-around of the sum and of the absolute value, signed and unsigned minima. -/
theorem test_integer :
    result [(1, 2 ^ 64 - 1), (2, 1)] (.add 1 1 2) 1 = some 0 ∧ result [(1, 2 ^ 63)] (.abs 2 1) 2 = some (2 ^ 63) ∧
    result [(1, 2 ^ 64 - 1), (2, 1)] (.min 3 1 2) 3 = some (2 ^ 64 - 1) ∧ result [(1, 2 ^ 64 - 1), (2, 1)] (.minn 3 1 2) 3 = some 1 ∧
    result [(1, 12), (2, 10)] (.andn 3 1 2) 3 = some 4 ∧ result [(1, 5)] (.addi 2 1 0xFFF) 2 = some 4 := by decide +kernel

/-- R85, R104: shifts by the width and more, and rotates by the amount modulo 64. -/
theorem test_shifts :
    result [(1, 3), (2, 64)] (.shl 3 1 2) 3 = some 0 ∧ result [(1, 2 ^ 63), (2, 255)] (.sar 3 1 2) 3 = some (2 ^ 64 - 1) ∧
    result [(1, 2 ^ 63), (2, 255)] (.shr 3 1 2) 3 = some 0 ∧ result [(1, 1), (2, 65)] (.ror 3 1 2) 3 = some (2 ^ 63) ∧
    result [(1, 2 ^ 63), (2, 257)] (.rol 3 1 2) 3 = some 1 := by decide +kernel

/-- R105: counts of zeros at a zero word, extraction and deposit under a mask. -/
theorem test_bits :
    result [] (.clz 3 1) 3 = some 64 ∧ result [(1, 8)] (.ctz 3 1) 3 = some 3 ∧ result [(1, 0xF0F0), (2, 0xFF00)] (.bext 3 1 2) 3 = some 0xF0 ∧
    result [(1, 0b101), (2, 0b11010000)] (.bdep 3 1 2) 3 = some 0b10010000 ∧ result [(1, 0x0102)] (.bswap 3 1) 3 = some 0x0201000000000000 ∧
    result [(1, 0x80)] (.sextS8 3 1) 3 = some (2 ^ 64 - 128) ∧ result [(1, 0xFFFF)] (.zextN8 3 1) 3 = some 255 := by decide +kernel

/-- R107, R108: sums of bytes that wrap and that saturate, and a shift whose amount every element shares. -/
theorem test_packed :
    result [(1, 0x80FF), (2, 0x8001)] (.padd 3 1 2 0) 3 = some 0 ∧ result [(1, 0x80FF), (2, 0x8001)] (.paddsN 3 1 2 0) 3 = some 0xFFFF ∧
    result [(1, 0x80FF), (2, 0x8001)] (.paddsS 3 1 2 0) 3 = some 0x8000 ∧ result [(1, 0x0101), (2, 7)] (.pshl 3 1 2 0) 3 = some 0x8080 ∧
    result [(1, 0x0101), (2, 7)] (.pshlV 3 1 2 0) 3 = some 0x0180 ∧
    result [(1, 0x00FF), (2, 0x0001)] (.pcmp 3 1 2 2 0) 3 = some 0x00FF := by decide +kernel

/-- R106, R109, R110: bit fields, halves and the address of an instruction. -/
theorem test_fields :
    result [(1, 0xABCD)] (.bfx 3 1 4 7) 3 = some 0xBC ∧ result [(1, 0xF), (3, 0xFFFF)] (.bfi 3 1 4 7) 3 = some 0xF0FF ∧
    result [(3, 2 ^ 64 - 1)] (.limH 3 1 0) 3 = some 0xFFFFFFFF0000FFFF ∧ result [] (.lim 3 0x7FFFF) 3 = some (2 ^ 64 - 1) ∧
    result [] (.addpc 3 0x7FFFC) 3 = some 0xFFC := by decide +kernel

/-- R111 to R113: a compare at 8 bits, one with an immediate, and that p15 stays true. -/
theorem test_predicates :
    (after (exec (.cmp 2 2 1 3 0) (State.withRegs world [(1, 0x1FF), (3, 1)])) fun t => t.me.p 2) = some true ∧
    (after (exec (.cmpi 2 4 1 0x7FF) (State.withRegs world [(1, 5)])) fun t => t.me.p 2) = some true ∧
    (after (exec (.plog 15 2 15 15) world) fun t => t.me.p 15) = some true := by decide +kernel

/-- R114, R115: a branch that is not taken, a call and its link, and a misaligned jump. -/
theorem test_jumps :
    (after (exec (.b 1 0 5) (State.withRegs world [])) fun t => t.me.pc) = some 0x1014 ∧
    (after (exec (.b 0 0 5) world) fun t => t.me.pc) = some 0x1004 ∧
    (after (exec (.call 0x3FFFFFF) world) fun t => (t.me.pc, t.g 2)) = some (0xFFC, 0x1004) ∧
    (after (exec (.jr 1) (State.withRegs world [(1, 0x2002)])) fun t => (t.me.st, t.me.xaddr)) = some (.halted, 0x2002) := by decide +kernel

/-- R117, R122: `PARKINT` is held between 64 and 65,536; a region slot may not write `VGROUP`. -/
theorem test_system_registers :
    (after (exec (.mts 1 5) (State.withRegs world [(1, 3)])) fun t => t.me.parkint) = some 64 ∧
    (after (exec (.mts 1 5) (State.withRegs world [(1, 0x1FFFF)])) fun t => t.me.parkint) = some 65536 ∧
    (after (exec (.mts 1 0x21) world) fun t => (t.me.st, t.me.xcause.toNat % 256)) = some (.halted, causeCode .rights) := by decide +kernel

/-- R123, R285: `TRAP` leaves its code and resumes at the next instruction. -/
theorem test_trap :
    (after (exec (.trap 0xABC) world) fun t => (t.me.st, t.me.xpc, t.me.xinfo, t.me.resume)) = some (.halted, 0x1000, 0xABC, 0x1004) := by decide +kernel

/-- R134: loads of a byte and of a half word of the own scratchpad are extended by their type. -/
theorem test_loads :
    let s := State.withWords (State.withRegs world [(1, scr 64)]) [(scr 64, 0x80C0)]
    (after (exec (.ld 2 1 1 0) s) fun t => (t.g 2).toNat) = some (2 ^ 64 - 128) ∧
    (after (exec (.ld 2 1 0 3) s) fun t => (t.g 2).toNat) = some 0x80C0 ∧
    (after (exec (.ldD 2 1 0 1) s) fun t => (t.g 2).toNat) = some 0 ∧
    (after (exec (.ld 2 1 1 2) (State.withRegs s [(1, scr 65)])) fun t => (t.me.st, t.me.xaddr.toNat)) = some (.halted, scr 67) := by decide +kernel

/-- R134: a store of a half word leaves the bytes beside it. -/
theorem test_stores :
    let s := State.withWords (State.withRegs world [(1, scr 64), (2, 0xABCDEF)]) [(scr 64, 0x1122334455667788)]
    (after (exec (.st 2 1 1 3) s) fun t => leNat (readBytes t.mem (scr 64) 8)) = some 0x11223344CDEF7788 := by decide +kernel

/-- R136: `LDM` of two words; R137: `LDFE` empties a word, and parks at an empty one. -/
theorem test_multiple_and_full_empty :
    let s := State.withWords (State.withRegs world [(1, scr 64)]) [(scr 64, 5), (scr 72, 6)]
    (after (exec (.ldm 4 1 1) s) fun t => (t.g 4, t.g 5)) = some (5, 6) ∧
    (after (exec (.ldfe 2 1 1 1) s) fun t => (t.g 2, t.feRaw (scr 72))) = some (6, false) ∧
    (after (exec (.ldfe 2 1 1 1) (s.setFeRaw (scr 72) false)) fun t => (t.me.st, t.me.pc)) = some (.parked, 0x1000) := by decide +kernel

/-- R140: an atomic answers the old value at its width; `CADD` saturates. -/
theorem test_atomics :
    let s := State.withWords (State.withRegs world [(1, scr 64), (2, 0x80000001)]) [(scr 64, 0xFFFFFFFF00000005), (scr 72, 2 ^ 64 - 2)]
    (after (exec (.amin 3 1 2 1 0 1) s) fun t => ((t.g 3).toNat, leNat (readBytes t.mem (scr 64) 8))) = some (5, 0xFFFFFFFF80000001) ∧
    (after (exec (.cadd 3 4 2 1 0 0) (State.withRegs s [(4, scr 72)])) fun t => (leNat (readBytes t.mem (scr 72) 8))) = some (2 ^ 64 - 1) := by
  decide +kernel

/-- R148: the last arrival at a hurdle begins its next phase. -/
theorem test_hurdle :
    let s := State.withWords (State.withRegs world [(1, scr 64)]) [(scr 64, 9 * 2 ^ 32 + 2 * 2 ^ 16 + 1)]
    (after (exec (.arrive 2 1 1 0) s) fun t => (t.g 2, leNat (readBytes t.mem (scr 64) 8))) = some (9, 10 * 2 ^ 32 + 2 * 2 ^ 16) := by decide +kernel

/-- R163, R174: a vector sum under a mask, from its issue to the step of the sequencer. -/
theorem test_vector :
    let s := ((((world.modCore 0 fun c => { c with vowner := some 4 }).modTile 0 fun t =>
        { t with groups := [some 0, some 0, some 0, some 0, some 0, some 0, some 0, some 0] }).modMe fun m => { m with vl := 64 }).setLane 0 2 1 7).setLane 0 3 1 8
    ((after (exec (.vadd 1 2 3 5) (State.withRegs s [(5, 2)])) fun t => t).bind fun t =>
      after (exec (.vectorStep 0) t) fun u => (u.lane 0 1 1, u.lane 0 1 0)) = some (15, 0) := by decide +kernel

/-- R188: the first claim of the matrix context answers 1 and clears the arrays; another thread's answers 0. -/
theorem test_matrix_claim :
    (after (exec (.mclaimClaim 1) (world.setAcc 0 0 3 4 9)) fun t => (t.g 1, t.acc 0 0 3 4)) = some (1, 0) ∧
    (after (exec (.mclaimClaim 1) (world.modCore 0 fun c => { c with mclaim := some 5 })) fun t => (t.g 1, t.me.pc)) = some (0, 0x1008) := by
  decide +kernel

/-- R45, R59, R63, R345: from the state with a word placed, the first step runs it: it goes on at the next instruction. -/
theorem test_step_runs_word :
    (after (step (State.reset.withFetchWord 32 0b010000_0000_0000_0000000_0000000_0011)) fun t => (t.slot 1).pc) = some 0x1004 ∧
    (after (step (State.reset.withFetchWord 32 0b001101_0000101_0000000000000101010)) fun t => (t.greg 1 5).val) = some 42 := by decide +kernel

/-- R69, R346: words of the boot program as the listing gives their encodings. -/
theorem test_boot_words :
    encode (.shr 6 26 4) = [0x0431A095] ∧ encode (.cmp 1 2 24 27 3) = [0x4048C1B3] ∧ encode (.objset 13 9) = [0x5800D123] ∧
    encode (.pushm 0 14 16 15 0 5 false) = [0xE47101E2, 0x00000280] ∧ encode (.waitt 17) = [0x88011000] ∧ bootProgram.all wellFormed = true := by
  decide +kernel


/-! ## States that meet the hypotheses of the statements -/

/-- An answer with a value that a test accepts. -/
theorem got {r : Except α β × State} (P : β → State → Prop) [∀ x t, Decidable (P x t)]
    (h : (match r with | (.ok x, t) => decide (P x t) | _ => false) = true) : ∃ x t, r = (.ok x, t) ∧ P x t := by
  obtain ⟨_ | x, t⟩ := r
  · simp at h
  · exact ⟨x, t, rfl, of_decide_eq_true h⟩

/-- An answer with a value, and the state beside it. -/
theorem okOf {r : Except α β × State} {x : β} (h : r.1.toOption = some x) : r = (.ok x, r.2) := by
  obtain ⟨_ | y, t⟩ := r
  · simp [Except.toOption] at h
  · simp only [Except.toOption, Option.some.injEq] at h
    rw [h]

/-- An optional answer with a value that a test accepts. -/
theorem gotSome {r : Option β × State} (P : β → State → Prop) [∀ x t, Decidable (P x t)]
    (h : (match r with | (some x, t) => decide (P x t) | _ => false) = true) : ∃ x t, r = (some x, t) ∧ P x t := by
  obtain ⟨_ | x, t⟩ := r
  · simp at h
  · exact ⟨x, t, rfl, of_decide_eq_true h⟩

/-- A target found, that a test accepts. -/
theorem gotSite {r : Aimed} (P : Site → State → Prop) [∀ x t, Decidable (P x t)]
    (h : (match r with | .ok x t => decide (P x t) | _ => false) = true) : ∃ x t, r = .ok x t ∧ P x t := by
  cases r with
  | ok x t => exact ⟨x, t, rfl, of_decide_eq_true h⟩
  | fault => simp at h
  | miss => simp at h

/-- A translation made, that a test accepts. -/
theorem gotPlace {r : Xlated} (P : Trans → State → Prop) [∀ x t, Decidable (P x t)]
    (h : (match r with | .ok x t => decide (P x t) | _ => false) = true) : ∃ x t, r = .ok x t ∧ P x t := by
  cases r with
  | ok x t => exact ⟨x, t, rfl, of_decide_eq_true h⟩
  | fault => simp at h
  | miss => simp at h

/-- The world with a page tree of one gibibyte that maps to itself, and its leaf in the TLBs of core 0 and tile 0. -/
def paged : State :=
  { State.withWords { world with regions := [(1, { region1 with ptroot := 0x10000, objbase := 0x20000 })] }
      [(0x10000, 0x11001), (0x11000, 0x3F)] with
    tlb := [{ holder := 0, region := 1, level := 3, page := 0, pte := 0x3F }, { holder := 4096, region := 1, level := 3, page := 0, pte := 0x3F }] }

/-- The world with its thread in system slot 0. -/
def system : State := { world with cur := 0, slots := [(0, thread)] }

/-- The world with g6 bound to queue 3, which holds a word. -/
def bound : State := (world.modMe fun m => { m with portmap := 0x8306 }).setQueue 0 3 [.word 5]

theorem witness_IntegerResults :
    (∃ R, IntRule (.bfi 3 1 4 59) (some 1) (some 3) 3 R ∧ wellFormed (.bfi 3 1 4 59) = true ∧ admits (.bfi 3 1 4 59) (some 1) (some 3) (some 3) world = true) ∧
    (∃ R, IntRule (.add 127 6 0) (some 6) (some 0) 127 R ∧ wellFormed (.add 127 6 0) = true ∧ admits (.add 127 6 0) (some 6) (some 0) (some 127) bound = true) :=
  ⟨⟨_, .bfi 3 1 4 59, by decide +kernel, by decide +kernel⟩, ⟨_, .add 127 6 0, by decide +kernel, by decide +kernel⟩⟩

theorem witness_BitResults :
    ∃ R, BitRule (.shli 3 1 255) (some 1) none 3 R ∧ wellFormed (.shli 3 1 255) = true ∧ admits (.shli 3 1 255) (some 1) none (some 3) world = true :=
  ⟨_, .shli 3 1 255, by decide +kernel, by decide +kernel⟩

theorem witness_PackedResults :
    ∃ f, PackedRule (.pcmp 3 1 2 5 1) 3 1 2 1 f ∧ wellFormed (.pcmp 3 1 2 5 1) = true ∧ admits (.pcmp 3 1 2 5 1) (some 1) (some 2) (some 3) world = true :=
  ⟨_, .pcmp 3 1 2 5 1, by decide +kernel, by decide +kernel⟩

/-- The world with its thread waiting for a divide that is due. -/
def dividing : State := world.modMe fun m => { m with st := .waiting, wait := .divide 3 7 0 none }

theorem witness_Divides :
    (DivideForm (.rem 3 1 2) 3 1 2 true true ∧ wellFormed (.rem 3 1 2) = true ∧ admits (.rem 3 1 2) (some 1) (some 2) (some 3) world = true) ∧
    ((dividing.slot 4).st = .waiting ∧ (dividing.slot 4).wait = .divide 3 7 0 none ∧ 0 ≤ dividing.cycle (coreOf 4)) :=
  ⟨⟨.rem 3 1 2, by decide +kernel, by decide +kernel⟩, by decide +kernel⟩

theorem witness_Predicates :
    (∃ f, PredForm (.cmpi 15 11 1 0x7FF) (some 1) none 15 f ∧ wellFormed (.cmpi 15 11 1 0x7FF) = true ∧ admits (.cmpi 15 11 1 0x7FF) (some 1) none none world = true) ∧
    (wellFormed (.pmovToPw 1) = true ∧ admits (.pmovToPw 1) (some 1) none none world = true) :=
  ⟨⟨_, .cmpi 15 11 1 0x7FF, by decide +kernel, by decide +kernel⟩, by decide +kernel⟩

theorem witness_ControlTransfers :
    (∃ T, JumpForm (.jr 1) true T ∧ wellFormed (.jr 1) = true ∧ admits (.jr 1) none none none (State.withRegs world [(1, 0x2000)]) = true ∧
      (T (State.withRegs world [(1, 0x2000)])).toNat % 4 = 0) ∧
    (∃ T, JumpForm (.jr 1) true T ∧ wellFormed (.jr 1) = true ∧ admits (.jr 1) none none none (State.withRegs world [(1, 0x2001)]) = true ∧
      (T (State.withRegs world [(1, 0x2001)])).toNat % 4 ≠ 0) ∧
    (∃ T, JumpForm (.b 0 15 0x100000) false T ∧ wellFormed (.b 0 15 0x100000) = true ∧ admits (.b 0 15 0x100000) none none none world = true) :=
  ⟨⟨_, .jr 1, by decide +kernel⟩, ⟨_, .jr 1, by decide +kernel⟩, ⟨_, .b 0 15 0x100000, by decide +kernel⟩⟩

theorem witness_ControlTransfers_hint : (0x5FFFFFFF < 2 ^ 32 ∧ bits 0x5FFFFFFF 26 6 = 0x17 ∧ bits 0x5FFFFFFF 6 1 = 1) ∧
    wellFormed (.hint 127 4095 63) = true ∧ admits (.hint 127 4095 63) none none none world = true := by decide +kernel

theorem witness_PipelineFrame :
    PipelineForm (.add 6 6 6) (some 6) (some 6) 6 ∧ admits (.add 6 6 6) (some 6) (some 6) (some 6)
        (bound.setQueue 0 3 [.word 5, .word 9]) = true ∧
      ∃ t, exec (.add 6 6 6) (bound.setQueue 0 3 [.word 5, .word 9]) = .next t :=
  ⟨.inl ⟨_, .add 6 6 6⟩, by decide +kernel, _, rfl⟩

theorem witness_Traps :
    (world.cur < 2 ^ 20 ∧ world.me.st = .ready) ∧
    (wellFormed (.trap 4095) = true ∧ world.cur < 2 ^ 20 ∧ admits (.trap 4095) none none none world = true) := by decide +kernel

theorem witness_SystemRegisterReads :
    wellFormed (.mfs 3 6) = true ∧ admits (.mfs 3 6) none none (some 3) world = true ∧
    (6 = 0x006 ∨ 6 = 0x007 → world.vecQuiet world.cur = true) ∧ world.captureOf world.me.region = none := by decide +kernel

theorem witness_SystemRegisterReads_pace :
    admits (.mfs 3 0x30) none none (some 3) world = true ∧ paceFits world (world.tile (tileOf (coreOf world.cur))).level := by decide +kernel

theorem witness_SystemRegisterWrites :
    wellFormed (.mts 1 0x24) = true ∧ throughSvc 0x24 = false ∧ admits (.mts 1 0x24) (some 1) none none world = true := by decide +kernel

/-- The world with `PORTMAP` values in registers: g1 holds a binding of g5 to queue 3, g2 a vector length. -/
def ports : State := State.withRegs world [(1, 0x8305), (2, 64)]

theorem witness_ThreadRegisterWrites :
    (admits (.mtsPortmap 1) (some 1) none none ports = true ∧ portmapIllegal (srcA (some 1) ports).toNat = false ∧
      (∀ j < 4, bit (srcA (some 1) ports).toNat (16 * j + 15) = true → bits (srcA (some 1) ports).toNat (16 * j) 7 < ports.me.size) ∧
      ports.queueTaken ports.cur (boundQueues (srcA (some 1) ports).toNat) = false) ∧
    admits (.mtsVl 2) (some 2) none none ports = true ∧
    (admits (.mtsFpstat 1) (some 1) none none ports = true ∧ ports.vecQuiet ports.cur = true) ∧
    (admits (.mtsRndseed 1) (some 1) none none ports = true ∧ ports.vecQuiet ports.cur = true) := by decide +kernel

/-- A core with a raise of its landing slots to 1 that is not complete. -/
def raising : State := world.modCore 0 fun c => { c with landnTo := some 1 }

theorem witness_CoreRegisters :
    (isSystem world.cur = false ∧ admits (.mts 1 0x021) (some 1) none none world = true ∧ admits (.mts 1 0x023) (some 1) none none world = true ∧
      admits (.mtsCarve 1) (some 1) none none world = true ∧ admits (.mtsLandn 1) (some 1) none none world = true) ∧
    (isSystem system.cur = true ∧ admits (.mts 1 0x021) (some 1) none none system = true ∧ admits (.mts 1 0x023) (some 1) none none system = true ∧
      admits (.mtsCarve 1) (some 1) none none system = true ∧ admits (.mtsLandn 1) (some 1) none none system = true ∧
      Nat.min (bits (srcA (some 1) system).toNat 0 5) 16 ≤ (system.core system.myCore).landn) ∧
    ((raising.core 0).landnTo = some 1 ∧ (raising.setLandn 0 1).isSome = true) := by decide +kernel

/-- The world with a service's argument in g4. -/
def service (v : Nat) : State := State.withRegs world [(4, v)]

theorem witness_ServiceCalls :
    (wellFormed (.svc 5) = true ∧ admits (.svc 5) none none none world = true) ∧
    admits .svcSetCarve none none none (service 3) = true ∧ admits .svcSetVgroup none none none (service 0xFFFF) = true ∧
    (admits .svcSetLandn none none none (service 17) = true ∧ 16 < bits ((service 17).g 4).toNat 0 5) ∧
    (admits .svcSetLandn none none none (service 0) = true ∧
      ¬ (bits ((service 0).g 4).toNat 5 59 ≠ 0 ∨ 16 < bits ((service 0).g 4).toNat 0 5 ∨ refusedHere (service 0) = true) ∧
      bits ((service 0).g 4).toNat 0 5 ≤ ((service 0).core (service 0).myCore).landn) ∧
    (admits .svcSetAccmap none none none (service 4) = true ∧
      (service 4).accmapRefused (service 4).myCore (service 4).me.region (bits ((service 4).g 4).toNat 0 8) = true) ∧
    (admits .svcSetAccmap none none none (service 1) = true ∧ bits ((service 1).g 4).toNat 8 56 = 0 ∧ refusedHere (service 1) = false ∧
      (service 1).accmapRefused (service 1).myCore (service 1).me.region (bits ((service 1).g 4).toNat 0 8) = false ∧
      (service 1).arraysFree (tileOf (service 1).myCore)
        ((range' 0 8).filter fun j => bit ((service 1).g 4).toNat j != ((service 1).ownedArrays (service 1).myCore).contains j) = true) ∧
    (admits .svcLaunch none none none world = true ∧ quiet world) := by decide +kernel

/-- A thread parked until a cycle that has come. -/
def parked : State := world.modMe fun m => { m with st := .parked, wait := .park 0 }

theorem witness_YieldAndPark :
    admits .yield none none none world = true ∧ admits .park none none none world = true ∧
    ((parked.slot 4).st = .parked ∧ (parked.slot 4).wait = .park 0 ∧ 0 ≤ parked.cycle (coreOf 4)) := by decide +kernel


/-- The paged world with a pending fault record at 0x30040, its address in g1, a resume PC, and the thread of slot 5 that it names. -/
def recorded (resume : Nat) : State :=
  State.withRegs (State.withWords
    { paged with regions := [(1, { region1 with ptroot := 0x10000, fltq := 0x30000 })],
                 slots := paged.slots ++ [(5, { thread with st := .halted, wait := .record (some 5), base := 128 })] }
    [(0x30078, 2 ^ 63 + 5), (0x30068, resume), (0x30070, 5 * 2 ^ 16 + 1)]) [(1, 0x30040)]

/-- A record is found for `ERET` at g1, and pending, with a resume PC that passes a test. -/
def foundRecord (s : State) (f : Nat → Bool) : Bool :=
  match (s.findRecord (s.g 1).toNat [1]).1, ((s.findRecord (s.g 1).toNat [1]).2.pendingRecord 1 (s.g 1).toNat).1 with
  | some (1, _), some l => f (l.getD 5 0).toNat && decide (quiet (s.findRecord (s.g 1).toNat [1]).2) &&
      ((range' 0 64).map (64 * bits (l.getD 6 0).toNat 32 12 + ·)).find? (fun k =>
        namedBy (bits (l.getD 6 0).toNat 32 12) (bits (l.getD 6 0).toNat 0 16) ((l.getD 7 0).toNat % 2 ^ 63)
          (bits (l.getD 6 0).toNat 32 12) (s.slot k) (s.slot k).waits) == some 5
  | _, _ => false

theorem witness_ReturnFromTrap :
    (wellFormed (.eret 1) = true ∧ admits (.eret 1) none none none (State.withRegs world [(1, scr 0)]) = true ∧
      bits ((State.withRegs world [(1, scr 0)]).g 1).toNat 56 8 ≠ 0) ∧
    (admits (.eret 1) none none none world = true ∧ bits (world.g 1).toNat 56 8 = 0 ∧ (world.findRecord (world.g 1).toNat [1]).1 = none) ∧
    (isSystem (recorded 0x2000).cur = false ∧ (recorded 0x2000).me.region = 1 ∧ admits (.eret 1) none none none (recorded 0x2000) = true ∧
      bits ((recorded 0x2000).g 1).toNat 56 8 = 0 ∧ foundRecord (recorded 0x2000) (· % 4 == 0) = true ∧ (recorded 0x2000).me.wait = .none ∧
      ((recorded 0x2000).slot 5).frozen = false ∧ (∀ g, (recorded 0x2000).region? 1 = some g → g.recq = []) ∧
      foundRecord (recorded 0x2002) (· % 4 != 0) = true ∧ admits (.eret 1) none none none (recorded 0x2002) = true) :=
  ⟨by decide +kernel, by decide +kernel, by decide +kernel, by decide +kernel, by decide +kernel, by decide +kernel, by decide +kernel,
    by decide +kernel, by decide +kernel, fun g h => by cases h; rfl, by decide +kernel, by decide +kernel⟩

/-- The paged world with a fault queue of 16 records at 0x30000 of which the first is free, or pending, and a handler template. -/
def faulty (pending : Bool) : State :=
  State.withWords { paged with regions := [(1, { region1 with ptroot := 0x10000, fltq := 0x30000, handler := 2 ^ 31 })],
                               tcbs := [(0, { state := 1, region := 1, pc := 0x6000, prio := 9 })] }
    ([(0x30000, 4)] ++ if pending then [(0x30078, 2 ^ 63)] else [])

/-- What a trap at a state reads of its fault queue: whether it is handled, the queue's words, and the last word of the record. -/
def queueRead (s : State) : Option (Bool × Nat × Bool) :=
  let u := s.haltWith s.cur .align 0 0 s.me.pc 0 0 0 s.me.pc
  match u.devReads 1 0x30000 4 with
  | (.ok [q, dlv, _, _], v) =>
    match v.devRead 1 (recordAddr 0x30000 (q.toNat % 16) dlv.toNat + 56) with
    | (.ok w, x) =>
      match x.devWrites 1 (recordAddr 0x30000 (q.toNat % 16) dlv.toNat) (faultRecord s.me.pc (xcauseOf .align 0 0) 0 0 0 s.me.pc (s.nameOf s.cur) 0) with
      | (.ok (), y) => match y.devWrite 1 0x30008 (dlv + 1) with | (.ok (), _) => some (u.unhandled s.cur, q.toNat, w.getLsbD 63) | _ => none
      | _ => none
    | _ => none
  | _ => none

theorem witness_Traps_record :
    ((faulty false).cur < 2 ^ 20 ∧ (faulty false).me.st = .ready ∧ ((faulty false).region? 1).map Region.fltq = some 0x30000) ∧
    queueRead (faulty false) = some (false, 4, false) ∧ queueRead (faulty true) = some (false, 4, true) := by decide +kernel

/-- R287, R288, R290: the record of a trap stands in the queue, `delivered` counts it, and a handler is created of the template. -/
theorem test_trap_record :
    ((fun t => (t.homeNum 0x30040 8, t.homeNum 0x30070 8 % 65536, t.homeNum 0x30078 8, t.homeNum 0x30008 8, (t.tcb 1).pc, t.me.wait))
      ((faulty false).trapAt .align 0 0 0 0 0)) = (0x1000, 1, 2 ^ 63, 1, 0x6000, .record (some 0)) := by decide +kernel

theorem witness_Traps_device :
    ∃ x u, paged.xlate 1 0x50000 .w = (.ok x, u) ∧ (isHbm x.pa = true ∧ x.pa % 8 = 0 ∧ (paged.devWrite 1 0x50000 7).1.toOption = some ()) :=
  got _ (by decide +kernel)

/-- The paged world with the address of an entry of type 3 in g2, for the object 7 of g1. -/
def entry : State := State.withRegs (State.withWords paged [(0x40038, 3 * 2 ^ 56)]) [(1, 7), (2, 0x40000)]


theorem witness_ObjectSet :
    ∃ l u, entry.threadReads entry.cur (entry.g 2).toNat 8 = (.ok l, u) ∧
      ∃ x w, u.xlate 1 (({ region1 with ptroot := 0x10000, objbase := 0x20000 } : Region).objAddr (entry.g 1).toNat) .r = (.ok x, w) ∧
        (wellFormed (.objset 1 2) = true ∧ admits (.objset 1 2) none none none entry = true ∧ (entry.g 2).toNat % 64 = 0 ∧
          bits (entry.g 2).toNat 56 8 = 0 ∧ entry.readBehind entry.cur (entry.g 2).toNat 8 = none ∧ u.region? entry.me.region = some { region1 with ptroot := 0x10000, objbase := 0x20000 } ∧
          (entry.g 1).toNat < 8 ∧ (w.purgeAround w.myCore x.pa).unitLost x.pa x.key = false ∧ objType (wordsNum l) < 4 ∧
          (let v := ((w.purgeAround w.myCore x.pa).unitHome x.pa x.key true).correct (x.pa + 56);
            v.homeBad (x.pa + 56) = false ∧ objReserved v.host.modid (wordsNum l) = false ∧ objType (v.homeNum x.pa 64) < 4) ∧
          isHbm x.pa = true ∧ x.pa % 64 = 0) :=
  ⟨_, _, rfl, got _ (by decide +kernel)⟩

/-- The same behind a remote store of the core to the home of the entry. -/
def behind : State :=
  { entry with reqs := [{ id := 9, src := 4, region := 1, op := .store 8, addr := 0x40000, place := 0x40000, dest := .ack }] }

theorem witness_ObjectSet_behind : wellFormed (.objset 1 2) = true ∧ admits (.objset 1 2) none none none behind = true ∧
    (behind.g 2).toNat % 64 = 0 ∧ bits (behind.g 2).toNat 56 8 = 0 ∧ (behind.readBehind behind.cur (behind.g 2).toNat 8).isSome = true := by
  decide +kernel

/-- The world with a scratchpad address in g1, and words there. -/
def scratch : State := State.withWords (State.withRegs world [(1, scr 0), (2, 7), (4, scr 1), (5, scr 0x1FFF8)]) [(scr 0, 2 ^ 16 * 5)]

theorem witness_OwnScratchLoadsAndStores :
    (∃ a, LoadForm (.ld 3 5 7 1) 3 1 a ∧ wellFormed (.ld 3 5 7 1) = true ∧ admits (.ld 3 5 7 1) none none (some 3) scratch = true ∧
      (a scratch).toNat % typeBytes 1 = 0 ∧ ownPlace scratch (a scratch) = some (scr 0x1FFFF) ∧ atRest scratch (scr 0x1FFFF)) ∧
    (∃ a, StoreForm (.stD 2 1 0 0) 2 6 a ∧ wellFormed (.stD 2 1 0 0) = true ∧ admits (.stD 2 1 0 0) (some 2) none none scratch = true ∧
      (a scratch).toNat % typeBytes 6 = 0 ∧ ownPlace scratch (a scratch) = some (scr 0) ∧ atRest scratch (scr 0)) :=
  ⟨⟨_, .ld 3 5 7 1, by decide +kernel⟩, ⟨_, .stD 2 1 0 0, by decide +kernel⟩⟩

/-- The paged world with the address of HBM in g1. -/
def remote : State := State.withRegs paged [(1, 0x50000)]

theorem witness_RemoteLoadsAndStores :
    (∃ a, LoadForm (.ld 3 1 0 6) 3 6 a ∧ ∃ site u, remote.aim remote.cur (a remote) .r 2 0 = .ok site u ∧
      (wellFormed (.ld 3 1 0 6) = true ∧ admits (.ld 3 1 0 6) none none (some 3) remote = true ∧ (a remote).toNat % typeBytes 6 = 0 ∧
        remote.cur < 2 ^ 20 ∧ u.cur = remote.cur ∧ staysFor remote (a remote) (goes (.ld 3 1 0 6)) ∧ u.isOwn u.myCore site = false) ∧
      ∀ l, ¬ l1Holds u site l) ∧
    (∃ a, StoreForm (.st 3 1 0 6) 3 6 a ∧ ∃ site u, remote.aim remote.cur (a remote) .w 3 0 = .ok site u ∧
      (wellFormed (.st 3 1 0 6) = true ∧ admits (.st 3 1 0 6) (some 3) none none remote = true ∧ (a remote).toNat % typeBytes 6 = 0 ∧
        u.cur = remote.cur ∧ staysFor remote (a remote) (goes (.st 3 1 0 6)) ∧ u.isOwn u.myCore site = false ∧ u.me.unack < 2 ^ 32 - 1) ∧
      ∀ l, ¬ l1Owns u site l) := by
  refine ⟨⟨_, .ld 3 1 0 6, ?_⟩, ⟨_, .st 3 1 0 6, ?_⟩⟩
  · obtain ⟨site, u, h, hw, hn⟩ := gotSite (r := remote.aim remote.cur (wrap64 ((remote.g 1).toInt + 0 * typeBytes 6)) .r 2 0)
      (fun site u => (wellFormed (.ld 3 1 0 6) = true ∧ admits (.ld 3 1 0 6) none none (some 3) remote = true ∧
        (wrap64 ((remote.g 1).toInt + 0 * typeBytes 6)).toNat % typeBytes 6 = 0 ∧ remote.cur < 2 ^ 20 ∧ u.cur = remote.cur ∧
        staysFor remote (wrap64 ((remote.g 1).toInt + 0 * typeBytes 6)) (goes (.ld 3 1 0 6)) ∧ u.isOwn u.myCore site = false) ∧
        u.l1Hit u.myCore (site.place / 128) = none) (by decide +kernel)
    exact ⟨site, u, h, hw, fun l hl => by simp [l1Holds, hn] at hl⟩
  · obtain ⟨site, u, h, hw, hn⟩ := gotSite (r := remote.aim remote.cur (wrap64 ((remote.g 1).toInt + 0 * typeBytes 6)) .w 3 0)
      (fun site u => (wellFormed (.st 3 1 0 6) = true ∧ admits (.st 3 1 0 6) (some 3) none none remote = true ∧
        (wrap64 ((remote.g 1).toInt + 0 * typeBytes 6)).toNat % typeBytes 6 = 0 ∧ u.cur = remote.cur ∧
        staysFor remote (wrap64 ((remote.g 1).toInt + 0 * typeBytes 6)) (goes (.st 3 1 0 6)) ∧ u.isOwn u.myCore site = false ∧
        u.me.unack < 2 ^ 32 - 1) ∧ u.writable u.myCore (site.place / 128) = false) (by decide +kernel)
    exact ⟨site, u, h, hw, fun l hl => by simp [l1Owns, hn] at hl⟩

/-- The remote world with the line of 0x50000 in core 0's L1. -/
def holding : State := { remote with cache := { remote.cache with l1 := [(l1Key 0 0xA00, {})] } }

theorem witness_RemoteLoadsAndStores_l1 :
    (∃ site u, holding.aim holding.cur 0x50000 .r 2 0 = .ok site u ∧ (u.cur = holding.cur ∧ u.isOwn u.myCore site = false ∧
      (site.cached = true ∧ isHbm site.place = true ∧ u.l1Hit u.myCore (site.place / 128) = some {} ∧ ({} : Line).key = site.key) ∧
      ({} : Line).badWord (site.place % 128 / 8) = false)) ∧
    (∃ site u, holding.aim holding.cur 0x50000 .w 3 0 = .ok site u ∧ (u.cur = holding.cur ∧ u.isOwn u.myCore site = false ∧
      (site.cached = true ∧ isHbm site.place = true ∧ u.writable u.myCore (site.place / 128) = true ∧
        u.l1 u.myCore (site.place / 128) = some {} ∧ ({} : Line).key = site.key) ∧
      ({} : Line).poison.getLsbD (site.place % 128 / 64) = false ∧ site.place % 8 = 0)) ∧
    wrap64 ((holding.g 1).toInt + 0 * typeBytes 6) = 0x50000 :=
  ⟨gotSite _ (by decide +kernel), gotSite _ (by decide +kernel), by decide +kernel⟩

theorem witness_AlignmentTraps :
    (∃ a, LoadForm (.ldx 3 4 2 2) 3 2 a ∧ wellFormed (.ldx 3 4 2 2) = true ∧ admits (.ldx 3 4 2 2) none none (some 3) scratch = true ∧
      (a scratch).toNat % typeBytes 2 ≠ 0) ∧
    (∃ a, StoreForm (.st 3 4 0 6) 3 6 a ∧ wellFormed (.st 3 4 0 6) = true ∧ admits (.st 3 4 0 6) (some 3) none none scratch = true ∧
      (a scratch).toNat % typeBytes 6 ≠ 0) ∧
    (∃ op a v1 v2, AccessForm (.ldfe 3 4 1 63) op 8 1 false none (some 3) true a v1 v2 ∧ wellFormed (.ldfe 3 4 1 63) = true ∧
      admits (.ldfe 3 4 1 63) none none (some 3) scratch = true ∧ (a scratch).toNat % 8 ≠ 0) :=
  ⟨⟨_, .ldx 3 4 2 2, by decide +kernel⟩, ⟨_, .st 3 4 0 6, by decide +kernel⟩, ⟨_, _, _, _, .ldfe 3 4 1 63, by decide +kernel⟩⟩

/-- The scratchpad with a hurdle of four at its second word, at its third arrival, and an empty third word. -/
def meeting : State := (State.withWords scratch [(scr 8, 9 * 2 ^ 32 + 4 * 2 ^ 16 + 3)]).setFeRaw (scr 16) false

theorem witness_OwnScratchAccesses :
    (∃ op a v1 v2 ans new f, AccessForm (.arrive 3 1 7 1) op 8 7 true none (some 3) false a v1 v2 ∧ wellFormed (.arrive 3 1 7 1) = true ∧
      admits (.arrive 3 1 7 1) none none none meeting = true ∧ (a meeting).toNat % 8 = 0 ∧ ownPlace meeting (a meeting) = some (scr 8) ∧
      atRest meeting (scr 8) ∧ quiet meeting ∧ meeting.vecQuiet meeting.cur = true ∧ WordRule op (v1 meeting) (v2 meeting) (numAt meeting (scr 8) 8) (fullAt meeting (scr 8)) ans new f) ∧
    (∃ op a v1 v2 ans new f, AccessForm (.stfe 2 1 1 2) op 8 1 true (some 2) none true a v1 v2 ∧ wellFormed (.stfe 2 1 1 2) = true ∧
      admits (.stfe 2 1 1 2) (some 2) none none meeting = true ∧ (a meeting).toNat % 8 = 0 ∧ ownPlace meeting (a meeting) = some (scr 16) ∧
      atRest meeting (scr 16) ∧ WordRule op (v1 meeting) (v2 meeting) (numAt meeting (scr 16) 8) (fullAt meeting (scr 16)) ans new f) := by
  have hb : fullAt meeting (scr 16) = false := by decide +kernel
  refine ⟨⟨_, _, _, _, _, _, _, .arrive 3 1 7 1, by decide +kernel, by decide +kernel, by decide +kernel, by decide +kernel, by decide +kernel,
    by decide +kernel, by decide +kernel, .arrive _ _ _ _ (by decide +kernel)⟩, ⟨_, _, _, _, 0, some (srcA (some 2) meeting).toNat, true, .stfe 2 1 1 2, by decide +kernel, by decide +kernel,
    by decide +kernel, by decide +kernel, by decide +kernel, by rw [hb]; exact .stfe _ _ _⟩⟩

theorem witness_DeferredAccesses :
    (∃ op a v1 v2, AccessForm (.ldff 3 1 1 2) op 8 1 false none (some 3) true a v1 v2 ∧ wellFormed (.ldff 3 1 1 2) = true ∧
      admits (.ldff 3 1 1 2) none none (some 3) meeting = true ∧ (a meeting).toNat % 8 = 0 ∧ ownPlace meeting (a meeting) = some (scr 16) ∧
      atRest meeting (scr 16) ∧ meeting.vecQuiet meeting.cur = true ∧ WaitRule op (v1 meeting) (numAt meeting (scr 16) 8) (fullAt meeting (scr 16)) ∧
      (meeting.deferred.filter fun r => (deferBuf r.place).1 == (deferBuf (scr 16)).1).length < 16) := by
  have hb : fullAt meeting (scr 16) = false := by decide +kernel
  exact ⟨_, _, _, _, .ldff 3 1 1 2, by decide +kernel, by decide +kernel, by decide +kernel, by decide +kernel, by decide +kernel,
    by decide +kernel, by rw [hb]; exact .ldff _ _, by decide +kernel⟩

theorem witness_MultipleTransfers :
    (scratch.g 1).toNat % 8 = 0 ∧ scratch.me.xprog = 0 ∧
    (∀ k ≤ 2, ownPlace scratch (scratch.g 1 + BitVec.ofNat 64 (8 * k)) = some (scr 0 + 8 * k) ∧ atRest scratch (scr 0 + 8 * k)) ∧
    (wellFormed (.ldm 125 1 2) = true ∧ admits (.ldm 125 1 2) none none none scratch = true) ∧
    (wellFormed (.stm 1 1 2) = true ∧ admits (.stm 1 1 2) none none none scratch = true) := by decide +kernel

/-- The world whose thread has a vector load in the sequencer. -/
def busy : State := world.modCore 0 fun c =>
  { c with vowner := some 4, seq := [{ id := 2, ins := .vld 1 1 127 0, slot := 4, pc := 0x1000, mask := 5, vl := 64, rm := 0 }] }

/-- The ports with a thread of region 2 in slot 5 that binds queue 3; g3 holds two bindings of one register, g4 a reserved bit, g5 a binding of
g127. -/
def clashing : State :=
  State.withRegs { ports with slots := ports.slots ++ [(5, { thread with region := 2, portmap := 0x8305, base := 128 })] }
    [(3, 0x8305 + 0x8405 * 2 ^ 16), (4, 0x80), (5, 0x837F)]

theorem witness_ThreadRegisterWrites_traps :
    (portmapClash (srcA (some 3) clashing) ∧ portmapClash (srcA (some 4) clashing) ∧ admits (.mtsPortmap 3) (some 3) none none clashing = true) ∧
    (let s := clashing.modMe fun m => { m with wclass := 0 };
      ¬ portmapClash (srcA (some 5) s) ∧ (∃ j < 4, (srcA (some 5) s).getLsbD (16 * j + 15) = true ∧
        s.me.size ≤ ((srcA (some 5) s).extractLsb' (16 * j) 7).toNat) ∧ admits (.mtsPortmap 5) (some 5) none none s = true) ∧
    ¬ portmapClash (srcA (some 1) clashing) ∧
      (∀ j < 4, (srcA (some 1) clashing).getLsbD (16 * j + 15) = true → ((srcA (some 1) clashing).extractLsb' (16 * j) 7).toNat < clashing.me.size) ∧
    (admits (.mtsRndseed 1) (some 1) none none busy = true ∧ busy.vecQuiet busy.cur = false) := by
  unfold portmapClash
  decide +kernel

theorem witness_ThreadRegisterWrites_rights : queueClash clashing (srcA (some 1) clashing) ∧ ¬ queueClash ports (srcA (some 1) ports) := by
  unfold queueClash bindsQueue
  refine ⟨⟨5, by decide, 3, by decide +kernel⟩, fun ⟨i, hi, q, h, _, hr, _⟩ => ?_⟩
  have : ∀ i < 64, (ports.slot (64 * ports.myCore + i)).st = .empty ∨ (ports.slot (64 * ports.myCore + i)).region = ports.me.region := by
    decide +kernel
  exact (this i hi).elim h hr

/-- The world with g6 empty. -/
def emptied : State := world.setGreg 4 6 { val := 1, full := false }

theorem witness_StrandForms :
    (admits (.ldfeStrand 3 5) none none none world = true ∧ (world.greg world.cur 5).full = true) ∧
    admits (.ldffStrand 3 5) none none none world = true ∧ admits (.seteStrand 3) none none none world = true ∧
    admits (.feqStrand 3 5) none none none world = true ∧ world.vecQuiet world.cur = true ∧
    (admits (.ldfeStrand 3 6) none none none emptied = true ∧ (emptied.greg emptied.cur 6).full = false) ∧
    (admits (.ldffStrand 3 5) none none none busy = true ∧ (busy.greg busy.cur 5).full = true ∧ busy.vecQuiet busy.cur = false) := by decide +kernel

/-- A request of slot 4 at the line of 0x50000. -/
def waiting0 (op : HomeOp) : Req := { id := 8, src := 4, region := 1, op := op, addr := 0x50000, place := 0x50000, scope := 5, dest := .reg 3 6 none }

theorem bridges_up {u : State} (h : u.bridges = []) (d : Nat) : (u.bridge d).st ≠ .failed := by
  simp [State.bridge, h, find]

theorem no_l1 {u : State} (h : u.cache.l1 = []) (k line : Nat) : u.l1 k line = none := by
  simp [State.l1, h, find]

/-- The remote world with a dirty line of core 0 at 0x50000. -/
def dirtied : State := { remote with cache := { remote.cache with l1 := [(l1Key 0 0xA00, { dirty := 1 })] } }

theorem witness_CacheForms :
    (wellFormed (.fence 7) = true ∧ admits (.fence 7) none none none world = true ∧ world.me.unack = 0 ∧ world.me.failStore = none ∧
      world.vecQuiet world.cur = true ∧ world.me.relMark = none ∧ world.l1Settled world.myCore = true) ∧
    (admits (.fence 7) none none none dirtied = true ∧ dirtied.me.unack = 0 ∧ dirtied.me.failStore = none ∧
      dirtied.vecQuiet dirtied.cur = true ∧ dirtied.me.relMark = none ∧ dirtied.l1Settled dirtied.myCore = false) ∧
    (wellFormed (.pref 1 5 0) = true ∧ admits (.pref 1 5 0) none none none remote = true) ∧
    (∃ tr u, remote.xlateFor remote.cur (remote.g 1 + sext 0x1FF 9 * 64).toNat .rw 2 0 = .ok tr u ∧
      (LineForm (.discard 1 5 0x1FF) .discard .rw 1 5 0x1FF ∧ wellFormed (.discard 1 5 0x1FF) = true ∧
        admits (.discard 1 5 0x1FF) none none none remote = true ∧ bits (remote.g 1 + sext 0x1FF 9 * 64).toNat 56 8 = 0 ∧ isHbm tr.pa = true ∧
        u.homeWithin 5 tr = true ∧ (∀ d, (u.bridge d).st ≠ .failed) ∧ u.homeWithin 1 tr = false ∧ wellFormed (.discard 1 1 0x1FF) = true ∧
        admits (.discard 1 1 0x1FF) none none none remote = true)) ∧
    (∃ tr u, dirtied.xlateFor dirtied.cur (dirtied.g 1 + sext 0 9 * 64).toNat .r 2 0 = .ok tr u ∧
      (isHbm tr.pa = true ∧ u.homeWithin 1 tr = false ∧ 0 < 4096 ∧ within 1 dirtied.myCore 0 = true ∧
        u.l1 0 (tr.pa / 128) = some { dirty := 1 } ∧ (1 : BitVec 128) ≠ 0 ∧ dirtied.me.relMark = none ∧
        wellFormed (.flush 1 1 0) = true ∧ admits (.flush 1 1 0) none none none dirtied = true)) ∧
    (∃ tr u, remote.xlateFor remote.cur (remote.g 1 + sext 0 9 * 64).toNat .r 2 0 = .ok tr u ∧
      (bits (remote.g 1 + sext 0 9 * 64).toNat 56 8 = 0 ∧ isHbm tr.pa = true ∧ u.homeWithin 1 tr = false ∧ u.homeWithin 5 tr = true ∧
        (∀ k l, within 1 remote.myCore k = true → u.l1 k (tr.pa / 128) = some l → l.dirty = 0) ∧
        (u.backs fun q => q.place / 128 == tr.pa / 128 && within 1 remote.myCore (srcCore q.src)) = false ∧
        LineForm (.flush 1 5 0) .flush .r 1 5 0 ∧ LineForm (.inval 1 5 0) .inval .r 1 5 0 ∧
        wellFormed (.flush 1 1 0) = true ∧ admits (.flush 1 1 0) none none none remote = true ∧ wellFormed (.inval 1 1 0) = true ∧
        admits (.inval 1 1 0) none none none remote = true)) ∧
    (waiting0 .discard).place < 2 ^ 39 ∧ (waiting0 .discard).op = .discard ∧ (waiting0 .flush).op = .flush := by
  refine ⟨by decide +kernel, by decide +kernel, by decide +kernel, ?_, gotPlace _ (by decide +kernel), ?_, by decide +kernel⟩
  · obtain ⟨tr, u, h, h1, h2, h3⟩ : ∃ tr u, remote.xlateFor remote.cur (remote.g 1 + sext 0x1FF 9 * 64).toNat .rw 2 0 = .ok tr u ∧
        (isHbm tr.pa = true ∧ u.bridges = [] ∧ u.homeWithin 5 tr = true ∧ u.homeWithin 1 tr = false) := gotPlace _ (by decide +kernel)
    exact ⟨tr, u, h, .discard .., by decide +kernel, by decide +kernel, by decide +kernel, h1, h3.1, bridges_up h2, h3.2, by decide +kernel,
      by decide +kernel⟩
  · obtain ⟨tr, u, h, h1, h2, h3, h4, h5⟩ : ∃ tr u, remote.xlateFor remote.cur (remote.g 1 + sext 0 9 * 64).toNat .r 2 0 = .ok tr u ∧
        (isHbm tr.pa = true ∧ u.cache.l1 = [] ∧ u.homeWithin 1 tr = false ∧ u.homeWithin 5 tr = true ∧
          (u.backs fun q => q.place / 128 == tr.pa / 128 && within 1 remote.myCore (srcCore q.src)) = false) := gotPlace _ (by decide +kernel)
    exact ⟨tr, u, h, by decide +kernel, h1, h3, h4, fun k l _ hl => by simp [no_l1 h2] at hl, h5, .flush .., .inval .., by decide +kernel,
      by decide +kernel, by decide +kernel, by decide +kernel⟩

/-- The remote world with an element of a `GATHER` of the region under way in tile 0. -/
def gatherUnderWay : State :=
  { remote with engs := [{ id := 3, kind := .gather, slot := 4, tile := 0, region := 1, a := 0, b := 0, c := 0, ent := 0, tag := 9, scope := 1,
                           begun := [{ idx := 0, places := [] }] }] }

theorem witness_TlbInvalidation :
    (quiet remote ∧ wellFormed (.tlbinvPage 1 5) = true ∧ admits (.tlbinvPage 1 5) none none none remote = true ∧ bits (remote.g 1).toNat 56 8 = 0 ∧
      wellFormed (.tlbinvRegion 2) = true ∧ admits (.tlbinvRegion 2) none none none remote = true ∧
      remote.elemsQuiet remote.myCore 5 remote.me.region = true) ∧
    (quiet gatherUnderWay ∧ admits (.tlbinvPage 1 5) none none none gatherUnderWay = true ∧ bits (gatherUnderWay.g 1).toNat 56 8 = 0 ∧
      admits (.tlbinvRegion 2) none none none gatherUnderWay = true ∧
      gatherUnderWay.elemsQuiet gatherUnderWay.myCore 5 gatherUnderWay.me.region = false) := by decide +kernel

/-- The world with a strand in slot 4, the scratchpad of core 1 in g1, its own in g2, and slot 5 of core 1 of this module in g3. -/
def strand : State :=
  State.withRegs (world.modMe fun m => { m with wclass := 2 }) [(1, 2 ^ 56 + 2 ^ 32), (2, scr 0), (3, 2 ^ 56 + 2 ^ 32 + 5)]

/-- A delivery of g2 := 7 from slot 4 to slot 5 of core 0, whose g2 is empty. -/
def delivering : State :=
  { ((world.modSlot 5 fun _ => thread).modSlot 4 fun m => { m with st := .waiting }).setGreg 5 2 { val := 0, full := false } with
    slots := [(4, { thread with st := .waiting }), (5, { thread with base := 128 })], regs := [(130, { val := 0, full := false })],
    sendrs := [{ id := 9, src := 4, target := 5, reg := 2, val := 7, scope := 1, addr := 0 }] }

theorem witness_HopAndSendr :
    (wellFormed (.hop 1 0) = true ∧ admits (.hop 1 0) none none none strand = true ∧ strand.me.strand = true ∧
      strand.scratchOwner (strand.g 1 + sext 0 9 * 8) = some 1 ∧ 1 ≠ strand.myCore ∧ strand.grants strand.me.region (clusterOf 1) = true ∧
      strand.stuck strand.cur = false ∧ quiet strand ∧ strand.me.inflight = 0 ∧ strand.me.tags = 0) ∧
    (wellFormed (.hop 2 3) = true ∧ admits (.hop 2 3) none none none strand = true ∧
      strand.scratchOwner (strand.g 2 + sext 3 9 * 8) = some strand.myCore) ∧
    (wellFormed (.sendr 2 3 1 0) = true ∧ admits (.sendr 2 3 1 0) none none none strand = true ∧ quiet strand ∧
      bits (strand.g 3).toNat 56 8 = 1 ∧ bits (strand.g 3).toNat 44 12 = strand.host.modid ∧ bits (strand.g 3).toNat 6 26 = 0 ∧
      strand.grants strand.me.region (clusterOf (bits (strand.g 3).toNat 32 12)) = true) ∧
    (∃ m, delivering.sendrs.find? (·.id == m.id) = some m ∧ delivering.retired (coreOf m.target) = false ∧ (delivering.slot m.target).st = .ready ∧
      m.src ≠ m.target ∧ m.reg < (delivering.slot m.target).size ∧ (delivering.greg m.target m.reg).full = false ∧
      (delivering.greg m.target m.reg).pend = false ∧ delivering.behindPair (coreOf m.src) (coreOf m.target) m.at_ = false ∧
      (delivering.slot m.src).st = .waiting) :=
  ⟨by decide +kernel, by decide +kernel, by decide +kernel,
    ⟨{ id := 9, src := 4, target := 5, reg := 2, val := 7, scope := 1, addr := 0 }, by decide +kernel⟩⟩


/-- The world with two TCBs: key 0 a running task, key 1 a dormant one with a count of 2; their references in g1 and g2. -/
def tasks : State :=
  { State.withRegs world [(1, 2 ^ 31), (2, 2 ^ 31 + 1), (3, 2), (4, 2 ^ 32 - 1)] with
    tcbs := [(0, { state := 3, region := 1, pc := 0x1000 }), (1, { state := 1, count := 2, region := 1, pc := 0x2000 })] }

theorem witness_PublishAndSpawn :
    (∃ g, wellFormed (.pubf 1) = true ∧ admits (.pubf 1) none none none (State.withRegs world [(1, 2 ^ 24 + 15)]) = true ∧
      quiet (State.withRegs world [(1, 2 ^ 24 + 15)]) ∧ (State.withRegs world [(1, 2 ^ 24 + 15)]).region? 1 = some g ∧
      bits ((State.withRegs world [(1, 2 ^ 24 + 15)]).g 1).toNat 28 36 = 0 ∧ tilesOutside ((State.withRegs world [(1, 2 ^ 24 + 15)]).g 1).toNat g = false) ∧
    (∃ g, (State.withRegs world [(1, 2 ^ 24 + 16)]).region? 1 = some g ∧ admits (.pubf 1) none none none (State.withRegs world [(1, 2 ^ 24 + 16)]) = true ∧
      tilesOutside ((State.withRegs world [(1, 2 ^ 24 + 16)]).g 1).toNat g = true) ∧
    (wellFormed (.spawn 1 0x7FFFF) = true ∧ admits (.spawn 1 0x7FFFF) none none none tasks = true ∧ refOk (tasks.g 1) = true ∧
      (tasks.core tasks.myCore).deque.length < 32) ∧
    (admits (.spawn 3 0) none none none tasks = true ∧ refOk (tasks.g 3) = false) :=
  ⟨⟨region1, by decide +kernel⟩, ⟨region1, by decide +kernel⟩, by decide +kernel, by decide +kernel⟩

/-- The tasks with a record of slot 4 in the deque. -/
def pushed : State := tasks.modCore 0 fun c => { c with deque := [{ owner := 4, rcd := { pc := 0x3000, fp := 9 } }] }

/-- The paged world with a record spilled to the ring of slot 4. -/
def spilled : State :=
  State.withWords ({ paged with regions := [(1, { region1 with ptroot := 0x10000, dqbase := 0x60000, dqlog := 1 })] }.modMe fun m =>
    { m with ringAges := [0], ring := 4 }) [(0x60000 + 4 * 64, 0x3000), (0x60008 + 4 * 64, 9)]

/-- The same while the thread waits for the record. -/
def refilling : State := spilled.modMe fun m => { m with st := .waiting, wait := .refill }

theorem witness_DoneAndRefill :
    (∃ e, admits .done none none none pushed = true ∧ pushed.tailClaimed pushed.cur = false ∧ pushed.tailRec pushed.cur = some e) ∧
    (admits .done none none none spilled = true ∧ spilled.tailClaimed spilled.cur = false ∧ spilled.tailRec spilled.cur = none ∧
      spilled.me.ringAges ≠ []) ∧
    (admits .done none none none tasks = true ∧ tasks.tailClaimed tasks.cur = false ∧ tasks.tailRec tasks.cur = none ∧ tasks.me.ringAges = [] ∧
      settled tasks) ∧
    ((refilling.slot 4).st = .waiting ∧ (refilling.slot 4).wait = .refill ∧ (refilling.slot 4).ringAges ≠ [] ∧
      ∃ l u, refilling.ringRead 4 (refilling.ringAddr 4 (((refilling.slot 4).ringHead + (refilling.slot 4).ringAges.length - 1) %
        Nat.max 1 (refilling.ringSize 4))) = (.ok l, u) ∧ l.getD 0 0 = 0x3000) :=
  ⟨⟨{ owner := 4, rcd := { pc := 0x3000, fp := 9 } }, by decide +kernel⟩, by decide +kernel, by decide +kernel, by decide +kernel,
    by decide +kernel, by decide +kernel, got _ (by decide +kernel)⟩

/-- The tasks with the running task's count at 1. -/
def joined : State := tasks.modTcb 0 fun t => { t with count := 1 }

theorem witness_SyncResults :
    (wellFormed (.sync 1) = true ∧ admits (.sync 1) none none none tasks = true ∧ namesTcb (tasks.g 1) 0 ∧ settled tasks ∧
      (tasks.tcb 0).state = 3 ∧ (tasks.tcb 0).count = 0) ∧
    (admits (.sync 1) none none none joined = true ∧ namesTcb (joined.g 1) 0 ∧ settled joined ∧ (joined.tcb 0).state = 3 ∧
      (joined.tcb 0).count ≠ 0 ∧ joined.dequeEmpty joined.cur = true) ∧
    (reachesHub tasks 0 ∧ reachesHub tasks 1 ∧ reachesHub joined 0) ∧
    (let s : State := { tasks with agenda := [{ ev := .tcbDecrement 0 0 }] };
      admits (.sync 1) none none none s = true ∧ settled s ∧ s.homePast s.myCore (2 ^ 17 + 0 / 512) = false) := by
  unfold reachesHub
  decide +kernel

/-- The paged world with the image of a task with a count of 3 at 0x70000. -/
def imaged : State := State.withRegs (State.withWords paged [(0x70000, 3 * 2 ^ 32), (0x70008, 0x4000)]) [(1, 0x70000)]

theorem witness_Tcbs :
    (∃ l u, imaged.threadReads imaged.cur (imaged.g 1).toNat 8 = (.ok l, u) ∧
      (wellFormed (.tcbnew 3 1) = true ∧ admits (.tcbnew 3 1) none none none imaged = true ∧ (imaged.g 1).toNat % 64 = 0 ∧
        bits (imaged.g 1).toNat 56 8 = 0 ∧ imaged.readBehind imaged.cur (imaged.g 1).toNat 8 = none ∧ imageOk l = true ∧ quiet u ∧ u.freeTcb? (clusterOf imaged.myCore) = some 0)) ∧
    (namesTcb (tasks.g 1) 0 ∧ namesTcb (tasks.g 2) 1 ∧ admits (.tcbsucc 1 2) none none none tasks = true ∧ (tasks.tcb 1).state = 1 ∧
      (tasks.tcb 1).count ≠ BitVec.allOnes 32 ∧ 0 ≠ 1 ∧ (tasks.tcb 0).state ≠ 0 ∧ refValid (tasks.tcb 0).succ0 = false) ∧
    (admits (.tcbpred 2 5) none none none tasks = true ∧ sextInt ((tasks.g 5).toNat % 2 ^ 32) 32 = 0) ∧
    (admits (.tcbpred 2 3) none none none tasks = true ∧ 0 < sextInt ((tasks.g 3).toNat % 2 ^ 32) 32 ∧ (tasks.tcb 1).state ≠ 0 ∧
      (tasks.tcb 1).state ≠ 2 ∧ (tasks.tcb 1).count.toNat + (sextInt ((tasks.g 3).toNat % 2 ^ 32) 32).toNat < 2 ^ 32) ∧
    (admits (.tcbpred 2 4) none none none tasks = true ∧ sextInt ((tasks.g 4).toNat % 2 ^ 32) 32 < 0 ∧ quiet tasks ∧ (tasks.tcb 1).state ≠ 0 ∧
      (sextInt ((tasks.g 4).toNat % 2 ^ 32) 32).natAbs < (tasks.tcb 1).count.toNat) :=
  ⟨got _ (by decide +kernel), by decide +kernel, by decide +kernel, by decide +kernel, by decide +kernel⟩

/-- The paged world with the 512 TCBs of its hub all in use. -/
def crowded : State := { imaged with tcbs := (range' 0 512).map fun k => (k, { state := 3 }) }

theorem find_map_range (v : α) (x : Nat) : ∀ n a, a ≤ x → x < a + n → find ((range' a n).map fun k => (k, v)) x = some v
  | 0, a, h, h' => by omega
  | n + 1, a, h, h' => by
    simp only [range', List.map_cons, find]
    split
    · rfl
    · exact find_map_range v x n (a + 1) (by omega) (by omega)

theorem mem_range : ∀ n a x, x ∈ range' a n → a ≤ x ∧ x < a + n
  | 0, a, x, h => by simp [range'] at h
  | n + 1, a, x, h => by
    simp only [range', List.mem_cons] at h
    rcases h with rfl | h
    · omega
    · have := mem_range n (a + 1) x h
      omega

theorem witness_Tcbs_none_free : crowded.freeTcb? (clusterOf crowded.myCore) = none ∧ admits (.tcbnew 3 1) none none none crowded = true := by
  have h0 : clusterOf crowded.myCore = 0 := by decide +kernel
  refine ⟨?_, by decide +kernel⟩
  rw [h0, State.freeTcb?, List.find?_eq_none]
  intro x hx
  have := mem_range _ _ _ hx
  have h : crowded.tcb x = { state := 3 } := by
    unfold State.tcb crowded
    rw [find_map_range _ _ _ _ (by omega) (by omega)]
    rfl
  rw [h]
  decide

theorem witness_TaskEvents :
    ((tasks.tcb 1).state ≠ 0 ∧ 1 < (tasks.tcb 1).count.toNat) ∧
    ((tasks.modTcb 1 fun t => { t with count := 1 }).tcb 1).state = 1 ∧ ((tasks.modTcb 1 fun t => { t with count := 1 }).tcb 1).count = 1 ∧
      ((tasks.modTcb 1 fun t => { t with count := 1 }).tcb 1).orphan = false ∧ ((tasks.modTcb 1 fun t => { t with count := 1 }).tcb 1).pin = none ∧
      ((tasks.modTcb 1 fun t => { t with count := 1 }).tcb 1).pc ≠ 0 ∧
    ((tasks.tcb 0).state ≠ 0 ∧ (tasks.tcb 0).ovf = 0 ∧ (tasks.tcb 0).handlerOf = false ∧
      ∀ p ∈ [(0, (tasks.tcb 0).succ0), (1, (tasks.tcb 0).succ1), (2, (tasks.tcb 0).succ2)], 0 ≤ p.1 → refValid p.2 = false) ∧
    (let s := tasks.modTcb 0 fun t => { t with succ1 := BitVec.ofNat 32 (2 ^ 31 + 1) };
      (s.tcb 0).state ≠ 0 ∧ ([(0, (s.tcb 0).succ0), (1, (s.tcb 0).succ1), (2, (s.tcb 0).succ2)].find? fun p => 0 ≤ p.1 && refValid p.2) =
        some (1, BitVec.ofNat 32 (2 ^ 31 + 1)) ∧ (s.tcb (refKey (BitVec.ofNat 32 (2 ^ 31 + 1)))).state ≠ 0 ∧
        1 < (s.tcb (refKey (BitVec.ofNat 32 (2 ^ 31 + 1)))).count.toNat) := by decide +kernel

/-- The world with tag 63 set, by an operation that wrote global memory, and tag 0 in flight; g1 names tag 63, g2 both. -/
def tagged : State := State.withRegs (world.modMe fun m => { m with tags := BitVec.ofNat 64 (2 ^ 63), gtags := BitVec.ofNat 64 (2 ^ 63), inflight := 1 }) [(1, 2 ^ 63), (2, 2 ^ 63 + 1)]

theorem witness_TagInstructions :
    (wellFormed (.waitt 1) = true ∧ admits (.waitt 1) none none none tagged = true ∧ tagged.me.failed = [] ∧
      tagged.g 1 &&& ~~~tagged.me.tags = 0 ∧ tagged.vecQuiet tagged.cur = true ∧ tagged.me.gtags &&& tagged.g 1 ≠ 0) ∧
    (wellFormed (.waitt 2) = true ∧ admits (.waitt 2) none none none tagged = true ∧
      tagged.g 2 &&& ~~~(tagged.me.tags ||| tagged.me.inflight) = 0 ∧ tagged.g 2 &&& ~~~tagged.me.tags ≠ 0) ∧
    (wellFormed (.waita 2) = true ∧ admits (.waita 2) none none none tagged = true ∧ tagged.g 2 &&& tagged.me.tags ≠ 0 ∧
      tagged.me.gtags &&& (tagged.me.tags &&& tagged.g 2) ≠ 0) ∧
    (wellFormed (.tfirst 3) = true ∧ admits (.tfirst 3) none none (some 3) tagged = true) ∧
    (wellFormed (.tclr 1) = true ∧ admits (.tclr 1) none none none tagged = true) ∧
    (wellFormed (.rdpace 3) = true ∧ admits (.rdpace 3) none none (some 3) world = true ∧ world.captureOf world.me.region = none ∧
      world.pacer.ceiling < 32 ∧ world.pacer.slack < 32 ∧ world.pacer.limit < 32 ∧ (world.tile (tileOf world.myCore)).level < 32) := by decide +kernel

/-- An entry of the object table. -/
def State.withObj (s : State) (i e : Nat) : State := { s with mem := writeBytes s.mem (0x20000 + 64 * i) (leBytes 64 e) }

/-- Operands of engines: g1 the scratchpad, g2 HBM, g3 a length of 64 KiB, g4 an export window of chip 1, g5 a core-1 scratchpad, g6 a
length of 8 with the counter at 8, g7 a vault control word. Object 1 is an export of chip 1, object 2 an address group, object 3 a tensor, object 4 a
donation queue of chip 1. -/
def engines : State :=
  State.withObj (State.withObj (State.withObj (State.withObj
    (State.withRegs paged [(1, scr 0), (2, 0x80000), (3, 65536), (4, 2 * 2 ^ 56 + 2 ^ 44 + 2 ^ 40), (5, 2 ^ 56 + 2 ^ 32), (6, 8 * 2 ^ 32 + 8), (7, 1),
      (8, 64)])
    1 (6 * 2 ^ 504 + 3 * 2 ^ 496 + 2 ^ 476 + 2 ^ 43 * 2 ^ 384 + 2 ^ 451 + 15 * 2 ^ 384))
    2 (2 * 2 ^ 504 + 2 ^ 497 + 2 ^ 500 + 1 * 2 ^ 472 + 0x90000))
    3 (1 * 2 ^ 504 + 31 * 2 ^ 496 + 4 * 2 ^ 484 + 1 * 2 ^ 481 + 100 * 2 ^ 64 + 2 ^ 88 + 0xA0000))
    4 (4 * 2 ^ 504 + 2 ^ 476)


theorem witness_Copies :
    (CopyForm (.fetch 1 2 3 0 1 false) .fetch 1 2 3 0 1 false ∧ wellFormed (.fetch 1 2 3 0 1 false) = true ∧
      admits (.fetch 1 2 3 0 1 false) none none none engines = true ∧ tagFree engines 0 ∧ copyLegal engines (engines.g 1) (engines.g 2) (engines.g 3) false ∧
      copyRights engines .fetch (engines.g 1) (engines.g 2) (bits (engines.g 3).toNat 0 32) ∧ engines.entryFree (tileOf engines.myCore) = true) ∧
    (CopyForm (.push 5 1 6 63 7 true) .push 5 1 6 63 7 true ∧ wellFormed (.push 5 1 6 63 7 true) = true ∧
      admits (.push 5 1 6 63 7 true) none none none engines = true ∧ tagFree engines 63 ∧
      copyLegal engines (engines.g 5) (engines.g 1) (engines.g 6) true ∧
      copyRights engines .push (engines.g 5) (engines.g 1) (bits (engines.g 6).toNat 0 32)) ∧
    (∃ e u, engines.objFor engines.me.region 1 6 = (.ok e, u) ∧
      (bits (engines.g 8).toNat 0 32 ≤ 262144 ∧ (engines.g 4).toNat % 8 = 0 ∧ (engines.g 1).toNat % 8 = 0 ∧ bits (engines.g 8).toNat 0 32 % 8 = 0 ∧
        tagFree engines 5 ∧ u.inPart u.myCore engines.me.region (engines.g 1).toNat ((engines.g 1).toNat + bits (engines.g 8).toNat 0 32 : Nat) = true ∧
        u.entryFree (tileOf engines.myCore) = true ∧ u.cur = engines.cur ∧ u.me = engines.me ∧ wellFormed (.pushX 1 4 1 8 5 6 false) = true ∧
        admits (.pushX 1 4 1 8 5 6 false) none none none engines = true ∧ bit e 497 = true ∧ isWindow (engines.g 4) = true ∧
        bits (engines.g 4).toNat 44 12 ≠ u.host.modid ∧ exGrants e (engines.g 4) = true ∧
        exGrants e (lastByte (engines.g 4) (bits (engines.g 8).toNat 0 32)) = true ∧ bits (engines.g 8).toNat 32 32 = 0)) ∧
    (∃ e u, engines.objFor engines.me.region 2 2 = (.ok e, u) ∧
      (wellFormed (.pushm 2 0 1 8 5 6 false) = true ∧ admits (.pushm 2 0 1 8 5 6 false) none none none engines = true ∧ (engines.g 0).toNat % 8 = 0 ∧
        bit e 497 = true ∧ groupCount e ≤ 4096 ∧ (groupBase e).toNat % 8 = 0 ∧ bits e 56 8 = 0 ∧ bits (engines.g 8).toNat 32 32 = 0 ∧ u.cur = engines.cur ∧ u.me = engines.me ∧
        u.inPart u.myCore engines.me.region (engines.g 1).toNat ((engines.g 1).toNat + bits (engines.g 8).toNat 0 32 : Nat) = true ∧
        u.entryFree (tileOf engines.myCore) = true)) := by
  refine ⟨⟨.fetch .., by decide +kernel, by decide +kernel, by decide +kernel, ?_, ?_, by decide +kernel⟩,
    ⟨.push .., by decide +kernel, by decide +kernel, by decide +kernel, ?_, ?_⟩, got _ (by decide +kernel), got _ (by decide +kernel)⟩
  · simp only [copyLegal, Bool.false_eq_true, if_false]
    decide +kernel
  · simp only [copyRights]
    decide +kernel
  · simp only [copyLegal, if_true]
    decide +kernel
  · simp only [copyRights]
    decide +kernel

/-- The operation of a `GATHER` of object 3 by the operands of g1, g1 and g7. -/
def gathering (e : Nat) (cnt : Bool) (ctr : Word) : EngOp :=
  { engines.newOp .gather (engines.g 1) (engines.g 1) (engines.g 7) 9 5 cnt with t := false, add := false, ent := BitVec.ofNat 512 e, counter := ctr }

/-- The engines with the address of a counter in the completion record at the start of the scratchpad. -/
def counting : State := State.withWords engines [(scr 24, scr 8)]

/-- What a `GATHER` or `SCATTER` of a tensor `e` asks of the operands of g1, g1 and g7, after its object is read. -/
def vaultLegal (s u : State) (e : Nat) : Prop :=
  tagFree s 9 ∧ bit e 498 = true ∧ bit e 499 = true ∧ bit e 500 = true ∧ 4 ≤ tFmt e ∧ tFmt e ≤ 9 ∧
  bits (s.g 7).toNat 14 14 = 0 ∧ bits (s.g 7).toNat 0 13 ≤ 4096 ∧ vaultTensor e = true ∧ e < 2 ^ 512 ∧
  (s.g 1).toNat % (fmtBits (tFmt e) / 8) = 0 ∧ (s.g 1).toNat % indexBytes (s.g 7) = 0 ∧
  bits (s.g 7).toNat 46 18 % 8 = 0 ∧ bits (s.g 7).toNat 28 18 % 8 = 0 ∧
  u.inPart u.myCore s.me.region (s.g 1).toNat ((s.g 1).toNat + bits (s.g 7).toNat 0 13 * (gathering e false 0).rowBytes : Nat) = true ∧
  u.inPart u.myCore s.me.region (s.g 1).toNat ((s.g 1).toNat + bits (s.g 7).toNat 0 13 * indexBytes (s.g 7) : Nat) = true ∧
  u.inPart u.myCore s.me.region (u.partAddr u.myCore (bits (s.g 7).toNat 46 18)).toNat
    ((u.partAddr u.myCore (bits (s.g 7).toNat 46 18)).toNat + 8 * ((bits (s.g 7).toNat 0 13 + 63) / 64) : Nat) = true ∧
  u.inPart u.myCore s.me.region (u.partAddr u.myCore (bits (s.g 7).toNat 28 18)).toNat
    ((u.partAddr u.myCore (bits (s.g 7).toNat 28 18)).toNat + 32 : Nat) = true ∧
  s.host.modid = u.host.modid ∧ u.cur = s.cur ∧ u.me = s.me

theorem witness_VaultAccepted :
    ∃ e u, engines.objFor engines.me.region 3 1 = (.ok e, u) ∧
      (wellFormed (.gather 3 1 1 7 9 5 false false) = true ∧ admits (.gather 3 1 1 7 9 5 false false) none none none engines = true ∧
        wellFormed (.scatter 3 1 1 7 9 5 false true false) = true ∧ admits (.scatter 3 1 1 7 9 5 false true false) none none none engines = true ∧
        vaultLegal engines u e) ∧
      countedAt u u u engines.me.region (gathering e false 0) (bits (engines.g 7).toNat 28 18) := by
  obtain ⟨e, u, h, h'⟩ : ∃ e u, engines.objFor engines.me.region 3 1 = (.ok e, u) ∧
      (wellFormed (.gather 3 1 1 7 9 5 false false) = true ∧ admits (.gather 3 1 1 7 9 5 false false) none none none engines = true ∧
        wellFormed (.scatter 3 1 1 7 9 5 false true false) = true ∧ admits (.scatter 3 1 1 7 9 5 false true false) none none none engines = true ∧
        vaultLegal engines u e) := by
    unfold vaultLegal
    exact got _ (by decide +kernel)
  exact ⟨e, u, h, h', rfl, rfl, rfl⟩

theorem counted_of {u : State} {region rec : Nat} {o : EngOp} (h : o.cnt = true)
    (h1 : (u.recordCounter u.myCore region rec).1.toOption = some o.counter) (h2 : o.counter.toNat % 8 = 0)
    (h3 : ((u.recordCounter u.myCore region rec).2.counterFits o o.counter).1 = true) :
    countedAt u (u.recordCounter u.myCore region rec).2 ((u.recordCounter u.myCore region rec).2.counterFits o o.counter).2 region o rec := by
  unfold countedAt
  rw [if_pos h]
  exact ⟨okOf h1, h2, Prod.ext h3 rfl⟩

theorem witness_VaultAccepted_counted :
    ∃ e u v w, counting.objFor counting.me.region 3 1 = (.ok e, u) ∧
      wellFormed (.gather 3 1 1 7 9 5 false true) = true ∧ admits (.gather 3 1 1 7 9 5 false true) none none none counting = true ∧
      vaultLegal counting u e ∧
      countedAt u v w counting.me.region (gathering e true (BitVec.ofNat 64 (scr 8))) (bits (counting.g 7).toNat 28 18) ∧
      w.cur = counting.cur ∧ w.me = counting.me := by
  obtain ⟨e, u, h, h1, h2, h3, h4, h5, h6, h7, h8⟩ : ∃ e u, counting.objFor counting.me.region 3 1 = (.ok e, u) ∧
      (wellFormed (.gather 3 1 1 7 9 5 false true) = true ∧ admits (.gather 3 1 1 7 9 5 false true) none none none counting = true ∧
        vaultLegal counting u e ∧
        (u.recordCounter u.myCore counting.me.region (bits (counting.g 7).toNat 28 18)).1.toOption = some (BitVec.ofNat 64 (scr 8)) ∧
        scr 8 % 8 = 0 ∧ ((u.recordCounter u.myCore counting.me.region (bits (counting.g 7).toNat 28 18)).2.counterFits
          (gathering e true (BitVec.ofNat 64 (scr 8))) (BitVec.ofNat 64 (scr 8))).1 = true ∧
        ((u.recordCounter u.myCore counting.me.region (bits (counting.g 7).toNat 28 18)).2.counterFits
          (gathering e true (BitVec.ofNat 64 (scr 8))) (BitVec.ofNat 64 (scr 8))).2.cur = counting.cur ∧
        ((u.recordCounter u.myCore counting.me.region (bits (counting.g 7).toNat 28 18)).2.counterFits
          (gathering e true (BitVec.ofNat 64 (scr 8))) (BitVec.ofNat 64 (scr 8))).2.me = counting.me) := by
    unfold vaultLegal
    exact got _ (by decide +kernel)
  exact ⟨e, u, _, _, h, h1, h2, h3, counted_of rfl h4 (show (BitVec.ofNat 64 (scr 8)).toNat % 8 = 0 by decide +kernel) h6, h7, h8⟩

/-- The operation of a `FABRED` of object 2 by the operands of g1, g0 and g7. -/
def reducing (e : Nat) : EngOp := { engines.newOp .fabred (engines.g 1) (engines.g 0) (engines.g 7) 9 5 false with ent := BitVec.ofNat 512 e, counter := 0 }

theorem witness_VaultAccepted_fabred :
    ∃ e u, engines.objFor engines.me.region 2 2 = (.ok e, u) ∧
      (wellFormed (.fabred 2 1 0 7 9 5 false) = true ∧ admits (.fabred 2 1 0 7 9 5 false) none none none engines = true ∧ tagFree engines 9 ∧
        u.cur = engines.cur ∧ u.me = engines.me ∧ engines.host.modid = u.host.modid ∧ bit e 500 = true ∧ groupCount e ≤ 4096 ∧
        (groupBase e).toNat % 8 = 0 ∧ bits e 56 8 = 0 ∧
        bits (engines.g 7).toNat 15 13 = 0 ∧ bits (engines.g 7).toNat 46 18 = 0 ∧ bits (engines.g 7).toNat 0 15 ≤ 16384 ∧
        (engines.g 1).toNat % 4 = 0 ∧ (engines.g 0).toNat % 8 = 0 ∧ bits (engines.g 7).toNat 28 18 % 8 = 0 ∧
        u.inPart u.myCore engines.me.region (engines.g 1).toNat ((engines.g 1).toNat + 4 * bits (engines.g 7).toNat 0 15 : Nat) = true ∧
        u.inPart u.myCore engines.me.region (u.partAddr u.myCore (bits (engines.g 7).toNat 28 18)).toNat
          ((u.partAddr u.myCore (bits (engines.g 7).toNat 28 18)).toNat + 32 : Nat) = true) ∧
      countedAt u u u engines.me.region (reducing e) (bits (engines.g 7).toNat 28 18) := by
  obtain ⟨e, u, h, h'⟩ : ∃ e u, engines.objFor engines.me.region 2 2 = (.ok e, u) ∧
      (wellFormed (.fabred 2 1 0 7 9 5 false) = true ∧ admits (.fabred 2 1 0 7 9 5 false) none none none engines = true ∧ tagFree engines 9 ∧
        u.cur = engines.cur ∧ u.me = engines.me ∧ engines.host.modid = u.host.modid ∧ bit e 500 = true ∧ groupCount e ≤ 4096 ∧
        (groupBase e).toNat % 8 = 0 ∧ bits e 56 8 = 0 ∧
        bits (engines.g 7).toNat 15 13 = 0 ∧ bits (engines.g 7).toNat 46 18 = 0 ∧ bits (engines.g 7).toNat 0 15 ≤ 16384 ∧
        (engines.g 1).toNat % 4 = 0 ∧ (engines.g 0).toNat % 8 = 0 ∧ bits (engines.g 7).toNat 28 18 % 8 = 0 ∧
        u.inPart u.myCore engines.me.region (engines.g 1).toNat ((engines.g 1).toNat + 4 * bits (engines.g 7).toNat 0 15 : Nat) = true ∧
        u.inPart u.myCore engines.me.region (u.partAddr u.myCore (bits (engines.g 7).toNat 28 18)).toNat
          ((u.partAddr u.myCore (bits (engines.g 7).toNat 28 18)).toNat + 32 : Nat) = true) := got _ (by decide +kernel)
  exact ⟨e, u, h, h', rfl, rfl, rfl⟩

/-- The operation of a `DONATE` through object 4 by the operands of g2 and g1. -/
def donating (cnt : Bool) : EngOp :=
  { engines.newOp .donate (engines.g 2) (engines.g 1) 0 9 5 cnt with ent := BitVec.ofNat 512 (4 * 2 ^ 504 + 2 ^ 476) }

/-- The engines with the address of a counter beside the status word of a donation. -/
def donor : State := State.withWords engines [(scr 8, scr 16)]

/-- The states that a `DONATE` at `s` passes: after its object, its counter, its image and its status address. -/
def don1 (s : State) : State := (s.objFor s.me.region 4 4).2
def don2 (s : State) (c : Bool) : State := ((don1 s).donateCounter (donating c)).2
def don3 (s : State) (c : Bool) : State := ((don2 s c).threadReads s.cur (s.g 2).toNat 8).2
def don4 (s : State) (c : Bool) : State := ((don3 s c).aimEng (donating c).xlateNow (donating c) (s.g 1) .w).2

/-- What a `DONATE` at `s` asks, besides what its counter does. -/
def donLegal (s : State) (c : Bool) : Prop :=
  wellFormed (.donate 4 2 1 9 5 c) = true ∧ admits (.donate 4 2 1 9 5 c) none none none s = true ∧ tagFree s 9 ∧
  (s.objFor s.me.region 4 4).1.toOption = some (4 * 2 ^ 504 + 2 ^ 476) ∧ (don1 s).cur = s.cur ∧ (don1 s).me = s.me ∧
  s.host.modid = (don1 s).host.modid ∧ (don1 s).counterBehind (donating c) = none ∧ bits (4 * 2 ^ 504 + 2 ^ 476) 476 12 ≠ (don1 s).host.modid ∧
  (s.g 2).toNat % 64 = 0 ∧ (s.g 1).toNat % 8 = 0 ∧ bits (s.g 2).toNat 56 8 = 0 ∧
  ((don1 s).donateCounter (donating c)).1.toOption = some (if c then scr 16 else 0) ∧ scr 16 % 8 = 0 ∧ (don2 s c).cur = s.cur ∧
  (don2 s c).readBehind s.cur (s.g 2).toNat 8 = none ∧
  ((don2 s c).threadReads s.cur (s.g 2).toNat 8).1.toOption = some (List.replicate 8 0) ∧ imageOk (List.replicate 8 0) = true ∧
  ((don3 s c).aimEng (donating c).xlateNow (donating c) (s.g 1) .w).1.toOption.isSome = true

theorem witness_VaultAccepted_donate :
    donLegal engines false ∧ (don4 engines false).cur = engines.cur ∧ (don4 engines false).me = engines.me ∧ (don4 engines false).engs = [] := by
  unfold donLegal
  decide +kernel

/-- The check of the donor's counter. -/
def donChecked : Bool × State :=
  (don4 donor true).counterFits { donating true with counter := BitVec.ofNat 64 (scr 16), image8 := List.replicate 8 0 } (BitVec.ofNat 64 (scr 16))

theorem witness_VaultAccepted_donate_counted :
    donLegal donor true ∧ donChecked.1 = true ∧ donChecked.2.cur = donor.cur ∧ donChecked.2.me = donor.me ∧ donChecked.2.engs = [] ∧
      (don4 donor true).nextId = donChecked.2.nextId := by
  unfold donLegal
  decide +kernel

/-- The world of the engines with a receiving donation queue, object 5, of `2 ^ n` entries, that holds an image, and a donation that has
arrived from chip 1. -/
def donated (n : Nat) : State :=
  { State.withObj engines 5 (4 * 2 ^ 504 + n * 2 ^ 432) with
    rings := [(65536 + 5, (0, [[0, 0x4000, 0, 0, 0, 0, 0, 0]]))],
    donations := [{ chip := 1, id := 3, tregion := 1, tobj := 5, image := [0, 0x4000, 0, 0, 0, 0, 0, 0] }] }

theorem witness_Donations :
    (donated 0).donations.head? = some { chip := 1, id := 3, tregion := 1, tobj := 5, image := [0, 0x4000, 0, 0, 0, 0, 0, 0] } ∧
    (find (donated 0).rings (1 * 65536 + 5) = some (0, [[0, 0x4000, 0, 0, 0, 0, 0, 0]])) ∧ donImageOk [0, 0x4000, 0, 0, 0, 0, 0, 0] = true ∧
    donImageOk [2 ^ 32, 0x4000, 0, 0, 0, 0, 0, 0] = false ∧ ((donated 0).donQueue 1 6).1 = none ∧
    (∃ e u, { donated 0 with donations := [] }.donQueue 1 5 = (some e, u) ∧ 2 ^ bits e 432 4 = 1) ∧
    (∃ e u, { donated 1 with donations := [] }.donQueue 1 5 = (some e, u) ∧ 2 ^ bits e 432 4 = 2) ∧
    ∃ e u, (donated 0).donQueue 1 5 = (some e, u) ∧ (donated 0).freeTcb? (64 * bits e 436 2 + bits e 438 6) = some 0 :=
  ⟨by decide +kernel, by decide +kernel, by decide +kernel, by decide +kernel, by decide +kernel, gotSome _ (by decide +kernel),
    gotSome _ (by decide +kernel), gotSome _ (by decide +kernel)⟩

/-- The module at a time. -/
def State.atTime (s : State) (ns : Nat) : State := { s with timeBefore := ns * nsUnit }

/-- An operation of an engine of tile 0, of slot 4. -/
def engOp (k : EngKind) : EngOp := { id := 3, kind := k, slot := 4, tile := 0, region := 1, a := 0, b := 0, c := 0, ent := 0, tag := 9, scope := 1 }

/-- A copy whose one member is served, a spilled one, one that asked another module, and a reduction that has read nothing. -/
def opPushM : EngOp := { engOp .pushM with members := [0] }
def opSpilled : EngOp := { engOp .fetch with spilled := some 0 }
def opAsked : EngOp := { engOp .pushX with asked := [(1, 0, 0)] }
def opFabred : EngOp := { engOp .fabred with c := 1, members := [0] }

/-- The world with one operation in an engine. -/
def engaged (o : EngOp) : State := { world with engs := [o], nextId := 7 }

/-- A copy with a completion record whose steps are made but for its tag, one that waits at the counter of its first member. -/
def opClosing : EngOp := { engOp .fetch with cnt := true, closing := true, counted := true }
def opCounting : EngOp := { opPushM with cnt := true, scope := 5 }

theorem witness_EngineEvents :
    ((engaged (engOp .fetch)).engs.find? (·.id == 3) = some (engOp .fetch) ∧ (engOp .fetch).closing = false ∧
      (engaged (engOp .fetch)).engReady (engOp .fetch) = true ∧ (engaged (engOp .fetch)).engMoves (engOp .fetch) = [] ∧
      (engaged (engOp .fetch)).movesDone (engOp .fetch) = true ∧ (engOp .fetch).cnt = false ∧ (engOp .fetch).relMark = none ∧
      (engOp .fetch).image = none ∧ (engOp .fetch).slot < 2 ^ 20 ∧ (engOp .fetch).tag < 64) ∧
    ((engaged opClosing).engs.find? (·.id == 3) = some opClosing ∧ opClosing.closing = true ∧ opClosing.counted = true ∧ opClosing.asked = [] ∧
      opClosing.trips = [] ∧ opClosing.relMark = none ∧ opClosing.image = none ∧ opClosing.slot < 2 ^ 20 ∧ opClosing.tag < 64) ∧
    (opPushM.members.length = 1 ∧ opPushM.served 0 = true ∧ 0 ∉ opPushM.acks ∧ opPushM.cnt = false) ∧
    (opCounting.cnt = true ∧ opCounting.served 0 = true ∧ 0 ∉ opCounting.acks ∧ opCounting.relMark = none ∧
      (engaged opCounting).l1Settled (coreOf opCounting.slot) = true) ∧
    ((engaged opSpilled).engs.find? (fun p => p.tile == opSpilled.tile && p.spilled.isSome) = some opSpilled ∧
      (engaged opSpilled).strideEntries opSpilled.tile false < 32) ∧
    (opAsked.asked ≠ [] ∧ opAsked.closing = false ∧ opAsked.sentAt + 1000000 ≤ (State.atTime (engaged opAsked) 1000000).time) ∧
    (0 < opFabred.members.length ∧ opFabred.rankOver 0 = false ∧ 0 < fabWords opFabred.c ∧ ∀ v ∈ opFabred.vals, (v.1, v.2.1) ≠ (0, 0)) ∧
    ((engOp .donate).kind = .donate ∧ (engOp .donate).status = none) := by decide +kernel


/-- The world whose thread owns the vector context with 64 lanes. -/
def owner : State :=
  ((State.withRegs world [(1, scr 2)]).modCore 0 fun c => { c with vowner := some 4 }).modTile 0 fun t =>
    { t with groups := (range' 0 8).map fun _ => some 0 }

theorem witness_VectorClaims :
    (wellFormed (.vclaim 64 3) = true ∧ admits (.vclaim 64 3) none none none world = true ∧ (world.core world.myCore).vowner = none ∧
      (world.tile (tileOf world.myCore)).groups.length = 8) ∧
    (admits (.vclaim 1 3) none none none owner = true ∧ (owner.core owner.myCore).vowner = some owner.cur ∧ owner.vecQuiet owner.cur = true) ∧
    (let s := world.modCore 0 fun c => { c with vowner := some 5 };
      admits (.vclaim 64 3) none none none s = true ∧ (s.core s.myCore).vowner = some 5 ∧ 5 ≠ s.cur) ∧
    (admits .vwait none none none owner = true ∧ admits .vfree none none none owner = true) ∧
    (wellFormed (.repf 31 15 3) = true ∧ admits (.repf 31 15 3) none none none owner = true ∧ (owner.core owner.myCore).seq = [] ∧
      (owner.core owner.myCore).frame = none) ∧
    (OwnerForm (.vld 1 1 127 0) ∧ world.cur < 2 ^ 20 ∧ admits (.vld 1 1 127 0) none none none world = true ∧
      (world.core world.myCore).vowner ≠ some world.cur) :=
  ⟨by decide +kernel, by decide +kernel, by decide +kernel, by decide +kernel, by decide +kernel,
    .inr (.inr (.inr ⟨_, _, _, _, _, .vld 1 1 127 0⟩)), by decide +kernel, by decide +kernel, by decide +kernel⟩

/-- The owner in the capture of a repeat frame of two entries. -/
def framed : State := owner.modCore 0 fun c => { c with frame := some { slot := 4, pc := 0x1000, len := 2, stagger := 0, count := 3 } }

theorem witness_VectorCapture :
    (VecForm (.vldPostinc 1 1 127 1) 127 none (some 1) none (some (1, 2)) ∧ wellFormed (.vldPostinc 1 1 127 1) = true ∧
      admits (.vldPostinc 1 1 127 1) none none none framed = true ∧ (framed.core framed.myCore).vowner = some framed.cur ∧ framed.capturing = true) ∧
    (VecForm (.vcmp 2 3 4 5 1) 5 (some 2) none none none ∧ wellFormed (.vcmp 2 3 4 5 1) = true ∧
      admits (.vcmp 2 3 4 5 1) none none none owner = true ∧ (owner.core owner.myCore).vowner = some owner.cur ∧
      (owner.core owner.myCore).frame = none ∧ (owner.core owner.myCore).seq.length < 16) :=
  ⟨⟨.vldPostinc 1 1 127 1, by decide +kernel⟩, ⟨.vcmp 2 3 4 5 1, by decide +kernel⟩⟩

/-- An entry of the sequencer of the owner. -/
def seqEnt (i : Instr) : SeqEnt := { id := 2, ins := i, slot := 4, pc := 0x1000, mask := 5, vl := 64, rm := 0, x := BitVec.ofNat 64 (scr 2) }

/-- The owner with one entry in its sequencer. -/
def sequenced (i : Instr) : State := { owner.modCore 0 fun c => { c with seq := [seqEnt i] } with nextId := 7 }

theorem witness_VectorSteps :
    (∀ i ∈ [.vsar 1 2 3 127, .vfma 1 2 3 127, .vsel 1 2 3 127, .vredaddF32 1 2 127, .vpadd 1 2 3 127 1],
      wellFormed i = true ∧ vmemOf i = none ∧ stepping (sequenced i) 0 4 ∧ ((sequenced i).core 0).seq = [seqEnt i] ∧
        ((sequenced i).core 0).frame = none ∧ (seqEnt i).sent = false ∧ (seqEnt i).vl ≤ 64) ∧
    (∃ R, LaneRule (.vpadd 1 2 3 127 1) 1 2 3 R) ∧ (∃ f, FloatRule (fun _ _ => 0) { mode := 0 } 0 (.vfma 1 2 3 127) 1 f) ∧
    (∃ f, MoveRule (sequenced (.vsel 1 2 3 127)) 0 (seqEnt (.vsel 1 2 3 127)) (.vsel 1 2 3 127) 1 f) ∧
    (∃ R, ScalarRule (sequenced (.vredaddF32 1 2 127)) 0 (seqEnt (.vredaddF32 1 2 127)) (.vredaddF32 1 2 127) 1 R) :=
  ⟨by decide +kernel, ⟨_, .vpadd 1 2 3 127 1⟩, ⟨_, .vfma 1 2 3 127⟩, ⟨_, .vsel 1 2 3 127⟩, ⟨_, .vredaddF32 1 2 127⟩⟩

/-- The owner with 1.5 and 2.25 in lane 2 of registers 2 and 3, 7 in lane 1 of register 3 and 1 in lane 0 of register 2, at an instruction. -/
def lanes (i : Instr) : State :=
  ((((sequenced i).setLane 0 2 2 0x3FC00000).setLane 0 3 2 0x40100000).setLane 0 3 1 7).setLane 0 2 0 1

/-- R172, R176, R177: a floating sum of lanes, a select inside and outside the mask, and a compare of unsigned lanes. -/
theorem test_vector_steps :
    (after (exec (.vectorStep 0) (lanes (.vfadd 1 2 3 127))) fun t => (t.lane 0 1 2, t.lane 0 1 1)) = some (0x40700000, 0) ∧
    (after (exec (.vectorStep 0) (lanes (.vsel 1 2 3 127))) fun t => (t.lane 0 1 0, t.lane 0 1 1)) = some (1, 7) ∧
    (after (exec (.vectorStep 0) (lanes (.vcmp 7 2 3 127 4))) fun t => (t.core 0).vpend.map fun p => (p.reg, p.val)) = some [(7, 4)] := by
  decide +kernel

/-- An answer to the element of lane 1 of the entry. -/
def lanePart (op : HomeOp) (v : Word) : Rep :=
  { req := { id := 8, src := 4, region := 1, op := op, addr := 0, place := 2 ^ 56, dest := .lane 0 2 0 1 }, ans := .ok v }

theorem witness_VectorEvents :
    (let s := sequenced (.vld 1 1 127 0);
      stepping s 0 4 ∧ (s.core 0).nextStep = some (0, 0, seqEnt (.vld 1 1 127 0)) ∧ (s.core 0).frame = none ∧ s.stalled = false ∧
        (activeLanes 5 (Nat.min 64 (s.grantOf 0))).find? (0 ≤ ·) = some 0 ∧
        ((seqEnt (.vld 1 1 127 0)).x + BitVec.ofNat 64 (0 * vecBytes 0)).toNat % vecBytes 0 ≠ 0) ∧
    ((owner.modCore 0 fun c => { c with vpend := [{ slot := 4, reg := 3, val := 9 }] }).core 0).vpend = { slot := 4, reg := 3, val := 9 } :: [] ∧
    (let s := { sequenced (.vld 1 1 127 0) with reps := [lanePart (.load 4) 5] };
      s.arrived 8 = some (lanePart (.load 4) 5) ∧ s.repWaits (lanePart (.load 4) 5) = false ∧ (s.core 0).frame = none ∧
        (s.core 0).seq.find? (·.id == 2) = some (seqEnt (.vld 1 1 127 0))) ∧
    (let r : Rep := { lanePart (.load 4) 5 with ans := .line 5 0xFFFF 0 0 };
      let s := { sequenced (.vld 1 1 127 0) with reps := [r] };
      s.arrived 8 = some r ∧ s.repWaits r = false ∧ (s.core 0).frame = none ∧
        (s.core 0).seq.find? (·.id == 2) = some (seqEnt (.vld 1 1 127 0))) := by decide +kernel

/-- The world whose thread holds the matrix claim of core 0, with operands: g1 a mask of a shape of 32 rows, 32 columns and 32 terms. -/
def holder : State :=
  (State.withRegs engines [(1, scr 0), (2, 32 + 32 * 2 ^ 16 + 32 * 2 ^ 32), (3, 0), (4, 32 + 32 * 2 ^ 16)]).modCore 0 fun c => { c with mclaim := some 4 }


/-- Object 6: a matrix of 64 by 64 halves in the scratchpad, with every right. -/
def matrixObj : Nat :=
  1 * 2 ^ 504 + 63 * 2 ^ 496 + 8 * 2 ^ 484 + 2 * 2 ^ 481 + 64 * 2 ^ 64 + 2 ^ 88 + 64 * 2 ^ 128 + 64 * 2 ^ 152 + scr 0

/-- The holder with that object. -/
def matrices : State := State.withObj holder 6 matrixObj

theorem witness_MatrixClaims :
    (wellFormed (.mclaimClaim 1) = true ∧ admits (.mclaimClaim 1) none none none world = true ∧ (world.core world.myCore).mclaim = none ∧
      (world.core world.myCore).mlast ≠ some world.me.region) ∧
    (admits (.mclaimClaim 1) none none none holder = true ∧ (holder.core holder.myCore).mclaim = some 4) ∧
    (wellFormed (.mclaimRelease 1) = true ∧ admits (.mclaimRelease 1) none none none world = true ∧
      (world.core world.myCore).mclaim ≠ some world.cur) ∧
    (admits (.mclaimRelease 1) none none none holder = true ∧ (holder.core holder.myCore).mclaim = some holder.cur ∧
      (holder.core holder.myCore).mq = []) ∧
    (wellFormed (.munchain 1) = true ∧ admits (.munchain 1) none none none holder = true) ∧
    (HolderForm (.mzero 0) ∧ HolderForm (.munchain 3) ∧ world.cur < 2 ^ 20 ∧ admits (.mzero 0) none none none world = true) :=
  ⟨by decide +kernel, by decide +kernel, by decide +kernel, by decide +kernel, by decide +kernel,
    .inr (.inr ⟨world, world, .mzero, [0], .mzero 0 [0] rfl (by decide +kernel)⟩), .inl ⟨3, rfl⟩, by decide +kernel, by decide +kernel⟩

theorem tensorFits_matrix :
    ∃ u, tensorFits matrices u 6 matrixObj [8] (matrices.g 3) 32 32 0 ∧ tensorFits matrices u 6 matrixObj [14, 15, 7, 8, 9, 10, 11, 12, 5, 3, 1] (matrices.g 3) 32 32 1 := by
  have h : ∃ e u, matrices.objFor matrices.me.region 6 1 = (.ok e, u) ∧ (e = matrixObj ∧ u.cur = matrices.cur ∧ u.me = matrices.me ∧
      u.core matrices.myCore = matrices.core matrices.myCore ∧
      (∀ b ∈ (blockSpan matrixObj (originRow (matrices.g 3)) (originCol (matrices.g 3)) 32 32).toList, u.inPart matrices.myCore matrices.me.region b.1 b.2 = true)) :=
    got _ (by decide +kernel)
  obtain ⟨e, u, h, rfl, h1, h2, h3, h4⟩ := h
  have hb : ∀ lo hi, blockSpan matrixObj (originRow (matrices.g 3)) (originCol (matrices.g 3)) 32 32 = some (lo, hi) →
      u.inPart matrices.myCore matrices.me.region lo hi = true := fun lo hi hs => h4 (lo, hi) (by simp [hs])
  exact ⟨u, ⟨h, h1, h2, h3, by decide +kernel, by decide +kernel, by decide +kernel, by decide +kernel, by decide +kernel, by decide +kernel, hb⟩,
    ⟨h, h1, h2, h3, by decide +kernel, by decide +kernel, by decide +kernel, by decide +kernel, by decide +kernel, by decide +kernel, hb⟩⟩

theorem witness_MatrixIssue :
    (∃ u, QueueForm matrices u (.mma 6 3 2 0 0 true) (.mma 0 true (BitVec.ofNat 512 matrixObj) (matrices.g 3) (matrices.g 2) (shapeEast (matrices.g 2)) [0]) ∧
      wellFormed (.mma 6 3 2 0 0 true) = true ∧ admits (.mma 6 3 2 0 0 true) none none none matrices = true ∧
      (matrices.core matrices.myCore).mclaim = some matrices.cur ∧ (matrices.core matrices.myCore).mq.length < 2) ∧
    (∃ u, QueueForm matrices u (.ldw 6 3 0) (.ldw 0 (BitVec.ofNat 512 matrixObj) (matrices.g 3)) ∧ admits (.ldw 6 3 0) none none none matrices = true) ∧
    QueueForm matrices matrices .swpw .swpw ∧ admits .swpw none none none matrices = true ∧
    QueueForm matrices matrices (.mscale 3 3 2) (.mscale 2 0 (matrices.g 3)) ∧
    QueueForm matrices matrices (.mscale 1 1 4) (.mscale 4 (matrices.g 1) (matrices.g 1)) ∧
    QueueForm matrices matrices (.mchain 2 1 0 false) (.mchain 0 false (matrices.g 2) (shapeEast (matrices.g 2)) [1]) ∧
    (∃ u, ArrayForm matrices u (.msta 6 3 4 1) (.msta (BitVec.ofNat 512 matrixObj) (matrices.g 3) (matrices.g 4)) [1] ∧
      wellFormed (.msta 6 3 4 1) = true ∧ admits (.msta 6 3 4 1) none none none matrices = true) ∧
    ArrayForm matrices matrices (.mzero 1) .mzero [1] ∧ ArrayForm matrices matrices (.mstat 3 1) (.mstat 3 true) [] ∧
    ArrayForm matrices matrices (.msel 1 4 0) (.msel (matrices.g 1) (matrices.g 4)) [0] := by
  obtain ⟨u, hu, hw⟩ := tensorFits_matrix
  have d1 : 32 = shapeM (matrices.g 2) := by decide +kernel
  have d2 : 32 = shapeK (matrices.g 2) := by decide +kernel
  have d3 : 32 = ctlM (matrices.g 4) := by decide +kernel
  have d4 : 32 = ctlN (matrices.g 4) := by decide +kernel
  refine ⟨⟨u, .mma _ _ _ _ _ _ _ _ (by decide +kernel) (by decide +kernel) (by decide +kernel) ?_, by decide +kernel, by decide +kernel, by decide +kernel, by decide +kernel⟩,
    ⟨u, .ldw _ _ _ _ hu, by decide +kernel⟩, .swpw rfl, by decide +kernel, .scaleOff _ _ _ rfl (by decide +kernel),
    .scaleOn _ _ _ rfl (by decide +kernel) (.inr (by decide +kernel)) (.inr (by decide +kernel)),
    .mchain _ _ _ _ _ rfl (by decide +kernel) (by decide +kernel) (by decide +kernel) (by decide +kernel) (by decide +kernel),
    ⟨u, .msta _ _ _ _ _ _ (by decide +kernel) (by decide +kernel) ?_, by decide +kernel, by decide +kernel⟩,
    .mzero _ _ rfl (by decide +kernel), .mstat _ _ rfl, .msel _ _ _ _ rfl (by decide +kernel) (by decide +kernel) (by decide +kernel) (.inr (by decide +kernel))⟩
  · rw [← d1, ← d2]; exact hu
  · rw [← d3, ← d4]; exact hw

/-- The holder with one operation in its dispatch queue. -/
def queued (o : MatOp) : State := holder.modCore 0 fun c => { c with mq := [o], stype := some 0 }

/-- A product of 32 rows, not started; started and done; started with 8 rows done. -/
def product : MatOp := { kind := .mma 0 true (BitVec.ofNat 512 matrixObj) 0 (BitVec.ofNat 64 (32 + 32 * 2 ^ 16 + 32 * 2 ^ 32)) false [0], slot := 4 }

theorem witness_MatrixEvents :
    (∃ i < 2, (queued { kind := .swpw, slot := 4 }).matStarts 0 i = true) ∧
    (((queued product).tile 0).arrayBusy = none ∧ ∃ c ∈ tileCores 0, (queued product).selectable c = true) ∧
    (let o := { product with started := true, rowsDone := 32 };
      let s := queued o;
      (s.core 0).mq = o :: [] ∧ o.started = true ∧ (s.core 0).arrayRows o ≤ o.rowsDone ∧ o.due ≤ s.cycle 0 ∧ (s.slot 4).wait = .none) ∧
    (let o := { product with started := true, rowsDone := 24 };
      let s := queued o;
      (s.core 0).mq = o :: [] ∧ o.rowsDone < (s.core 0).arrayRows o ∧
        o.due + Nat.min (o.rowsDone + 8) ((s.core 0).arrayRows o) ≤ s.cycle 0 + 64 + (s.core 0).arrayRows o) ∧
    (let s := (queued product).modCore 0 fun c => { c with acc := some { kind := .mzero, slot := 4, arrays := [1] } };
      (s.core 0).acc = some { kind := .mzero, slot := 4, arrays := [1] } ∧ s.vecQuiet 4 = true ∧ ∀ o ∈ (s.core 0).mq, ∀ j ∈ o.kind.arrays, j ∉ [1]) ∧
    (let s := holder.modCore 0 fun c => { c with acc := some { kind := .mstat 3 true, slot := 4, arrays := [] } };
      (s.core 0).acc = some { kind := .mstat 3 true, slot := 4, arrays := [] } ∧ (s.core 0).mq = []) ∧
    (let s := holder.modCore 0 fun c => { c with acc := some { kind := .msel 0 0, slot := 4, arrays := [] } };
      (s.core 0).acc = some { kind := .msel 0 0, slot := 4, arrays := [] } ∧ s.vecQuiet 4 = true ∧ s.reqs = [] ∧ (s.core 0).mq = []) := by
  decide +kernel

/-- A load of the shadow plane that is done, and the holder with an accumulator access under way. -/
def loading : MatOp := { kind := .ldw 0 (BitVec.ofNat 512 matrixObj) 0, slot := 4, started := true }
def accessing (k : AccKind) (l : List Nat) : State := holder.modCore 0 fun c => { c with acc := some { kind := k, slot := 4, arrays := l } }

/-- The shape of the product; the control words of 2 rows and 2 columns, and of a selection of 1 of 2 rows in 1 column. -/
def cube : Word := BitVec.ofNat 64 (32 + 32 * 2 ^ 16 + 32 * 2 ^ 32)
def small : Word := BitVec.ofNat 64 (2 + 2 * 2 ^ 16)
def chosen : Word := BitVec.ofNat 64 (2 + 1 * 2 ^ 16 + 1 * 2 ^ 32)

/-- An accumulator access of the holder may be made. -/
def accReady (s : State) (k : AccKind) (l : List Nat) : Prop :=
  (s.core 0).acc = some { kind := k, slot := 4, arrays := l } ∧ s.vecQuiet 4 = true ∧ s.reqs = [] ∧ s.heldReqs = [] ∧ (s.core 0).mq = []

theorem witness_MatrixEvents_rows :
    arrayOp product.kind 0 true cube [0] ∧ shapeOk 0 cube = true ∧ 0 < 7 ∧ spanFits [0] (shapeM cube) ∧
    ((queued product).core 0).mismatch product.kind = false ∧ shapeM cube ≠ 0 ∧ shapeN cube ≠ 0 ∧ shapeK cube ≠ 0 ∧
    ((queued loading).core 0).mq = [loading] ∧ ((queued loading).core 0).arrayRows loading ≤ loading.rowsDone ∧
    loading.due ≤ (queued loading).cycle 0 :=
  ⟨.inl ⟨_, _, _, rfl⟩, by decide +kernel⟩

theorem witness_MatrixEvents_accesses :
    accReady (accessing (.mova 3 0) [0]) (.mova 3 0) [0] ∧
    (accReady (accessing (.mlda (BitVec.ofNat 512 matrixObj) 0 small) [0]) (.mlda (BitVec.ofNat 512 matrixObj) 0 small) [0] ∧
      ctlN small ≤ 32 ∧ spanFits [0] (ctlM small)) ∧
    (let e := matrixObj;
      accReady (accessing (.msta (BitVec.ofNat 512 e) 0 small) [0]) (.msta (BitVec.ofNat 512 e) 0 small) [0] ∧
      padQuiet (accessing (.msta (BitVec.ofNat 512 e) 0 small) [0]) 0 ∧
      (∀ m < ctlM small, ∀ n < ctlN small, inExtent e (originRow 0 + m) (originCol 0 + n) = true →
        padHolds (accessing (.msta (BitVec.ofNat 512 e) 0 small) [0]) 0 (elemByte e (elemIndex e (originRow 0 + m) (originCol 0 + n))) (elemLen e)) ∧
      ∀ m < ctlM small, ∀ n < ctlN small, ∀ m' < ctlM small, ∀ n' < ctlN small, (m, n) ≠ (m', n') →
        elemIndex e (originRow 0 + m) (originCol 0 + n) ≠ elemIndex e (originRow 0 + m') (originCol 0 + n')) ∧
    (accReady (accessing (.msel (BitVec.ofNat 64 (scr 0)) chosen) [0]) (.msel (BitVec.ofNat 64 (scr 0)) chosen) [0] ∧ ctlOk .msel chosen = true ∧
      padQuiet (accessing (.msel (BitVec.ofNat 64 (scr 0)) chosen) [0]) 0 ∧
      padHolds (accessing (.msel (BitVec.ofNat 64 (scr 0)) chosen) [0]) 0 (BitVec.ofNat 64 (scr 0)).toNat (mselBytes chosen)) := by
  unfold accReady
  refine ⟨by decide +kernel, by decide +kernel, ⟨by decide +kernel, by decide +kernel, fun m hm n hn _ => ?_,
      fun m hm n hn m' hm' n' hn' hne he => ?_⟩,
    by decide +kernel, by decide +kernel, by decide +kernel, 0, by decide +kernel⟩
  · have h : ∀ m < ctlM small, ∀ n < ctlN small, elemByte matrixObj (elemIndex matrixObj (originRow 0 + m) (originCol 0 + n)) =
      (2 ^ 56 + 0 * 2 ^ 44 + 0 * 2 ^ 32 + (128 * m + 2 * n) : Nat) ∧ 128 * m + 2 * n + elemLen matrixObj ≤ 65536 := by decide +kernel
    have hs : 65536 ≤ (accessing (.msta (BitVec.ofNat 512 matrixObj) 0 small) [0]).scratchSize 0 := by decide +kernel
    exact ⟨_, (h m hm n hn).1, Nat.le_trans (h m hm n hn).2 hs⟩
  · have h : ∀ m < ctlM small, ∀ n < ctlN small, elemIndex matrixObj (originRow 0 + m) (originCol 0 + n) = 64 * m + n := by decide +kernel
    have h2 : ctlN small = 2 := by decide +kernel
    rw [h m hm n hn, h m' hm' n' hn'] at he
    rw [h2] at hn hn'
    exact hne (by simp only [Prod.mk.injEq]; omega)



/-- The paged world with what the commands name: a launch descriptor at 0xB0000 with one entry, export 5 of region 1 (object 7), two chip ids, a
memory key slot, a capture and a group of this module alone. -/
def desk : State :=
  { State.withObj (State.withWords paged [(0xB0000, 1), (0xB0030, 0xC0000), (0xB0038, 0xD0000), (0xC0008, 0xE0000), (0xD0000, 16383 * 2 ^ 48),
      (0xD0060, 1)]) 7 (6 * 2 ^ 504 + 3 * 2 ^ 496 + 5 * 2 ^ 452 + 16 * 2 ^ 384 + 0x90000) with
    host := { paged.host with stage := 4, chipSet := true, exports := [(5, (1, 7))], sem := some 0,
                              captures := [{ region := 3, base := 0xF0000, len := 4096 }] } }

/-- The same while boot code has not run. -/
def early : State := { desk with host := { desk.host with stage := 3 } }

/-- The same with the semaphore free, the region halted and the module in a group of its own. -/
def desk' : State :=
  { desk with host := { desk.host with sem := none, chipSet := false }, regions := desk.regions.map fun p => (p.1, { p.2 with halted := true }),
              pacer := { desk.pacer with group := some 9, leader := 0, members := [0] } }

theorem witness_CommandRule :
    (∃ r x v, CommandRule desk hdr (.launch hdr 0xB0000 1 0 0) 1 [0xB0000, 1, 0, 0] 0 [BitVec.ofNat 64 r] v ∧ r = 2 ∧ x = 1) ∧
    (∃ v, CommandRule desk' hdr (.launch hdr 0 0 0 0) 1 [0, 0, 0, 0] 7 [] v) ∧
    (∃ v, CommandRule early hdr (.launch hdr 0 0 0 0) 1 [0, 0, 0, 0] 8 [] v) ∧
    (∃ l v, CommandRule desk hdr (.memrd hdr (2 ^ 39 - 8) 8) 2 [2 ^ 39 - 8, 8] 0 l v) ∧
    (∃ v, CommandRule desk hdr (.memwr hdr 0x100 (List.replicate 8 1)) 3 ([0x100] ++ byteNums (List.replicate 8 1)) 0 [] v) ∧
    (∃ l v, CommandRule desk hdr (.exrd hdr 5 0xFFF8 8) 4 [5, 0xFFF8, 8] 0 l v) ∧
    (∃ v, CommandRule desk hdr (.exwr hdr 5 0 [1, 2]) 5 ([5, 0] ++ byteNums [1, 2]) 0 [] v) ∧
    (∃ v, CommandRule desk hdr (.regctlHalt hdr 2) 6 [2, 0] 6 [] v) ∧ (∃ v, CommandRule desk hdr (.regctlHalt hdr 1) 6 [1, 0] 0 [] v) ∧
    (∃ v, CommandRule desk' hdr (.regctlResume hdr 1) 6 [1, 1] 0 [] v) ∧ (∃ v, CommandRule desk' hdr (.regctlEnd hdr 1) 6 [1, 2] 0 [] v) ∧
    (∃ v, CommandRule desk hdr (.setobj hdr 1 0 (List.replicate 8 0)) 7 ([1, 0] ++ (List.replicate 8 (0 : Word)).map BitVec.toNat) 0 [] v) ∧
    (∃ l v, CommandRule desk hdr (.logrd hdr) 8 [] 0 l v) ∧ (∃ l v, CommandRule desk hdr (.energyrd hdr 0) 9 [0] 0 l v) ∧
    (∃ l v, CommandRule desk hdr (.energyrd hdr 1) 9 [1] 0 l v) ∧ (∃ l v, CommandRule desk hdr (.hkrd hdr 0x3F8) 10 [0x3F8] 0 l v) ∧
    (∃ v, CommandRule desk hdr (.semtake hdr) 11 [] 2 [] v) ∧ (∃ v, CommandRule desk' hdr (.semtake hdr) 11 [] 0 [] v) ∧
    (∃ v, CommandRule desk hdr (.semgive hdr) 12 [] 0 [] v) ∧ (∃ v, CommandRule desk' hdr (.semgive hdr) 12 [] 2 [] v) ∧
    (∃ v, CommandRule desk hdr (.keyloadClear hdr 255) 13 [255, 0] 0 [] v) ∧
    (∃ st v, CommandRule desk hdr (.keyloadLoad hdr 1 1 (List.replicate 72 0)) 13 ([1, 1, 1] ++ byteNums (List.replicate 72 0)) st [] v) ∧
    (∃ st v, CommandRule desk hdr (.fwupd hdr [1]) 14 (byteNums [1]) st [] v) ∧ (∃ v, CommandRule world hdr (.setchip hdr 4095) 16 [4095] 8 [] v) ∧
    (∃ v, CommandRule State.reset hdr (.setchip hdr 4095) 16 [4095] 0 [] v) ∧ (∃ v, CommandRule desk' hdr (.groupJoin hdr 1) 17 [0, 1] 8 [] v) ∧
    (∃ v, CommandRule desk hdr (.groupLeave hdr 9) 17 [1, 9] 8 [] v) ∧ (∃ v, CommandRule desk' hdr (.groupLeave hdr 9) 17 [1, 9] 0 [] v) ∧
    (∃ v, CommandRule desk hdr (.route hdr 4095 65535) 18 [4095, 65535] 0 [] v) ∧ (∃ v, CommandRule desk hdr (.wqcfg hdr 3 1 2) 19 [3, 1, 2] 0 [] v) ∧
    (∃ l v, CommandRule desk hdr (.caprd hdr 3 4088 8) 20 [3, 4088, 8] 0 l v) ∧
    (∃ l v, CommandRule desk hdr (.attest hdr (List.replicate 32 0)) 21 (byteNums (List.replicate 32 0)) 0 l v) ∧
    (∃ v, CommandRule desk hdr (.controlBadcmd hdr 22) 22 [] 4 [] v) ∧ (∃ v, CommandRule desk hdr (.controlBadcmd hdr 0) 0 [] 4 [] v) := by
  have hr : ∀ r ∈ [desk, desk'], ∃ g, r.region? 1 = some g := fun r h => by
    simp only [List.mem_cons, List.not_mem_nil, or_false] at h
    rcases h with rfl | rfl <;> exact Option.isSome_iff_exists.mp (by decide +kernel)
  obtain ⟨g, hg⟩ := hr desk (by simp)
  obtain ⟨g', hg'⟩ := hr desk' (by simp)
  have hl : ((desk.launch true none 0xB0000 fun g => { g with collective := 1 == 1, capture := false, replay := false }).1 = (0, 2, 1)) := by decide +kernel
  have hx : ∃ l v, desk.windowRead 5 0xFFF8 8 = (.ok l, v) ∧ True := got _ (by decide +kernel)
  have hw : ∃ p v, desk.windowAt (2 ^ 40 + 5 * 2 ^ 34 + 0) = (some p, v) ∧ p = (1, 0x90000) := gotSome _ (by decide +kernel)
  have hs : ∃ v, desk.windowWrite 5 0 [1, 2] = some v := Option.isSome_iff_exists.mp (by decide +kernel)
  have hp : ∃ x v, desk.xlate 1 (0x20000 + 64 * 0) .r = (.ok x, v) ∧ (objReserved v.host.modid (wordsNum (List.replicate 8 0)) = false ∧
      v.objRefused 1 0 (wordsNum (List.replicate 8 0)) = false) := got _ (by decide +kernel)
  have hf : ∃ st v, CommandRule desk hdr (.fwupd hdr [1]) 14 (byteNums [1]) st [] v := by
    cases h : Config.chunksRejected (desk.host.fwStaged ++ [1])
    · exact ⟨_, _, .fwupd _ (by decide) h⟩
    · exact ⟨_, _, .fwupdRejected _ (by decide) h⟩
  have hgo : desk.region? 1 = some { region1 with ptroot := 0x10000, objbase := 0x20000 } := by decide +kernel
  obtain ⟨l, v, hx, -⟩ := hx
  obtain ⟨p, u, hw, rfl⟩ := hw
  obtain ⟨w, hs⟩ := hs
  obtain ⟨x, y, hp, hq, hq'⟩ := hp
  refine ⟨⟨2, 1, _, .launch _ _ _ _ 2 1 _ (by decide +kernel) (by decide +kernel) (by decide) (Prod.ext hl rfl), rfl, rfl⟩, ⟨_, .launchNoChip _ _ _ _ (by decide +kernel)⟩, ⟨_, .launchEarly _ _ _ _ (by decide +kernel) (by decide +kernel)⟩,
    ⟨_, _, .memrd _ _ (by decide)⟩, ⟨_, .memwr _ _ (by decide)⟩, ⟨_, _, .exrd _ _ _ _ _ (by decide) (by decide) (by decide) hx⟩,
    ⟨_, .exwr _ _ _ _ _ _ _ (by decide) (by decide) (by decide) (by decide +kernel) hw (by decide +kernel) hs⟩,
    ⟨_, .haltNone _ (by decide +kernel)⟩, ⟨_, .halt _ _ hg⟩, ⟨_, .resume _ _ hg'⟩, ⟨_, .end_ _ _ hg'⟩,
    ⟨_, .setobj _ _ _ _ _ _ hgo (by decide) (by decide) hp (by decide +kernel) hq hq'⟩,
    ⟨_, _, .logrd (by decide +kernel)⟩, ⟨_, _, .energyrdDevice⟩, ⟨_, _, .energyrd _ _ (by decide) hg⟩, ⟨_, _, .hkrd _ (by decide) (by decide)⟩,
    ⟨_, .semtakeHeld 0 (by decide +kernel) fun h => absurd h (by decide)⟩,
    ⟨_, .semtake (by decide +kernel) fun h => absurd h (by decide)⟩, ⟨_, .semgive (by decide +kernel)⟩, ⟨_, .semgiveOther (by decide +kernel)⟩,
    ⟨_, .keyClear _ (by decide) (by decide)⟩, ⟨_, _, .keyLoad _ _ _ _ (by decide) (by decide) (by decide) (by decide +kernel) hgo rfl⟩,
    hf, ⟨_, .setchipLate _ (by decide) (by decide +kernel)⟩, ⟨_, .setchip _ (by decide) (by decide +kernel)⟩,
    ⟨_, .joinTwice _ (by decide +kernel)⟩, ⟨_, .leaveOther _ (by decide +kernel)⟩,
    ⟨_, .leaveAlone _ (by decide +kernel) (by decide +kernel) (by decide +kernel)⟩, ⟨_, .route _ _ (by decide) (by decide) (by decide +kernel)⟩,
    ⟨_, .wqcfg _ _ _ (by decide)⟩, ⟨_, _, .caprd _ _ _ { region := 3, base := 0xF0000, len := 4096 } (by decide +kernel) (by decide) (by decide +kernel) (by decide) (by decide) (by decide)⟩,
    ⟨_, _, .attest _ (by decide)⟩, ⟨_, .badcmd _ (by decide)⟩, ⟨_, .badcmd _ (by decide)⟩⟩

theorem witness_HostCommands :
    (∃ v, CommandRule (heard desk hdr.ep) hdr (.logrd hdr) 8 [] 0 ((heard desk hdr.ep).host.log.flatMap logWords ++
      List.replicate (256 - 4 * (heard desk hdr.ep).host.log.length) 0 ++ [BitVec.ofNat 64 (heard desk hdr.ep).host.logCount]) v) ∧
    hdr.ep ≤ 1 ∧ desk.host.stage ≠ 0 ∧ hdr.seq = ((desk.endpoint hdr.ep).last + 1) % 2 ^ 64 ∧ hdr.illFormed = false ∧ hdr.len ≤ 8960 :=
  ⟨⟨_, .logrd (by decide +kernel)⟩, by decide +kernel⟩

/-- The desk after a command with number 1, and a header that repeats it. -/
def repeated : State := desk.setEndpoint 0 { last := 1, reply := some (0, []) }

theorem witness_HostSequence :
    ((∃ v, CommandRule (heard repeated hdr.ep) hdr (.hkrd hdr 0) 10 [0] 0 [(heard repeated hdr.ep).hkWord 0] v) ∧ hdr.ep ≤ 1 ∧
      repeated.host.stage ≠ 0 ∧ hdr.seq ≠ ((repeated.endpoint hdr.ep).last + 1) % 2 ^ 64 ∧ (repeated.endpoint hdr.ep).reply = some (0, [])) ∧
    (hdr.ep ≤ 1 ∧ 2 ≤ desk.host.stage ∧ hdr.seq = ((desk.endpoint hdr.ep).last + 1) % 2 ^ 64 ∧ hdr.illFormed = false ∧ hdr.len ≤ 8960 ∧
      desk.pacer.group = none ∧ (heard desk hdr.ep).host.sem = some hdr.ep) :=
  ⟨⟨⟨_, .hkrd _ (by decide) (by decide)⟩, by decide +kernel⟩, by decide +kernel⟩

/-- A request of slot 4 for the word at 0x50000, and an answer to it. -/
def request (id : Nat) : Req :=
  { id := id, src := 4, region := 1, op := .atomic .add .d, addr := 0x50000, place := 0x50000, v1 := 1, dest := .reg 3 6 none, scope := 5, len := 8 }
def answerTo (q : Req) (a : HomeAns) : Rep := { req := q, ans := a }

/-- The world whose thread waits for answer 8, with some requests and answers under way. -/
def waiting (qs : List Req) (rs : List Rep) : State :=
  { world.modMe fun m => { m with st := .waiting, wait := .reply 8, unack := 1 } with reqs := qs, reps := rs, nextId := 20 }

theorem witness_AnswersAndRequests :
    ((waiting [] [answerTo (request 8) (.ok 5)]).arrived 8 = some (answerTo (request 8) (.ok 5)) ∧
      (waiting [] [answerTo (request 8) (.ok 5)]).repWaits (answerTo (request 8) (.ok 5)) = false ∧ (request 8).src = 4 ∧ 4 < 2 ^ 20 ∧
      (request 8).acq = false ∧ (request 8).dest = .reg 3 6 none) ∧
    (let r := answerTo { request 8 with dest := .ack } (.err .rights);
      (waiting [] [r]).arrived 8 = some r ∧ (waiting [] [r]).repWaits r = false ∧ ((waiting [] [r]).slot 4).failStore = none) ∧
    (let r := answerTo (request 8) .nack;
      (waiting [] [r]).arrived 8 = some r ∧ (waiting [] [r]).repWaits r = false ∧ ((waiting [] [r]).slot 4).frozen = false ∧
        ((waiting [] [r]).slot 4).nacks < ((waiting [] [r]).slot 4).retry.toNat) ∧
    (let s := (waiting [] [answerTo (request 8) .nack]).modMe fun m => { m with nacks := 16 };
      (s.slot 4).frozen = false ∧ ¬ (s.slot 4).nacks < (s.slot 4).retry.toNat) ∧
    (let s := (waiting [request 8] []).modMe fun m => { m with st := .parked, wait := .retry 8 0 };
      (s.slot 4).st = .parked ∧ (s.slot 4).wait = .retry 8 0 ∧ 0 ≤ s.cycle (coreOf 4) ∧ s.reqs.find? (·.id == 8) = some (request 8)) ∧
    ((waiting [{ request 8 with miss := true }] []).reqs.find? (·.id == 8) = some { request 8 with miss := true } ∧ (request 8).src < 2 ^ 20 ∧
      ((waiting [{ request 8 with miss := true }] []).slot 4).frozen = false) ∧
    (let s := waiting [request 8] [];
      atItsHome s (request 8) ∧ isHbm (request 8).place = true ∧ s.portShut (homeBank (request 8).place) = false ∧
        s.lockHeld ((request 8).place / 128) = false ∧ (∀ p ∈ s.cache.conflict, p.1 ≠ (request 8).place / 128) ∧
        s.hotOf ((request 8).place / 128) = none ∧ find s.cache.l2 ((request 8).place / 128) = none ∧ (request 8).op ≠ .touch ∧
        stackOf ((request 8).place / 128) / 2 ≠ homeBank (128 * ((request 8).place / 128)) / 1024) ∧
    (let q := { request 8 with place := 0x50400 };
      atItsHome (waiting [q] []) q ∧ stackOf (q.place / 128) / 2 = homeBank (128 * (q.place / 128)) / 1024) ∧
    (let s := { waiting [request 8] [] with cache := { l2 := [(0xA00, {})] } };
      atItsHome s (request 8) ∧ s.portShut (homeBank (request 8).place) = false ∧ s.lockHeld 0xA00 = false ∧ s.hotOf 0xA00 = none ∧
        find s.cache.l2 ((request 8).place / 128) = some {} ∧ ({} : Line).key = (request 8).key) ∧
    (let s := { waiting [request 8] [] with cache := { locks := [(0xA00, 9)] } };
      atItsHome s (request 8) ∧ s.portShut (homeBank (request 8).place) = false ∧ s.lockHeld ((request 8).place / 128) = true) ∧
    (atItsHome (waiting [{ request 8 with place := 2 ^ 56 }] []) { request 8 with place := 2 ^ 56 } ∧ isHbm (2 ^ 56) = false) ∧
    ({ waiting [] [] with heldReqs := [request 8] }.heldReqs.find? (·.id == 8) = some (request 8) ∧
      { waiting [] [] with heldReqs := [request 8] }.early (request 8) = false) := by
  refine ⟨?_, ?_, ?_, ?_, ?_, ?_, ?_, ?_, ?_, ?_, ?_, ?_⟩ <;> decide +kernel

/-- Two requests of slots of neighbouring tiles that may combine, and the answer of a combined one. -/
def twin : Req := { request 9 with src := 64 * 2 + 4 }

theorem witness_Combining :
    (let s := waiting [request 8, twin] [];
      s.reqs.find? (·.id == 8) = some (request 8) ∧ s.reqs.find? (·.id == 9) = some twin ∧ s.combines (request 8) twin = true ∧
        s.inRetry (request 8) = false ∧ s.inRetry twin = false) ∧
    (let c : Rep := answerTo { request 7 with src := splitSrc } (.ok 5);
      let s := { waiting [] [c] with splits := [{ id := 7, first := request 8, second := twin }] };
      s.reps.find? (fun r => r.req.id == 7 && r.req.src == splitSrc) = some c ∧
        s.splits.find? (·.id == 7) = some { id := 7, first := request 8, second := twin } ∧ (request 8).op = .atomic .add .d ∧
        (request 8).src ≠ foreignSrc ∧ twin.src ≠ foreignSrc) := by decide +kernel

/-- The world with cached lines, a held lock, a queued request and hot lines. -/
def caching : State :=
  { waiting [request 8] [] with cache := {
      l1 := [(0xA00, {})], l2 := [(0xA00, {})], msc := [(0xA00, {})], ic := [(0xA00, {})], locks := [(0xB00, 8)], conflict := [(0xA00, 9)],
      hot := [{ line := 0xC00, tiles := [1] }, { line := 0xC01, tiles := [1], copied := true, acked := true },
        { line := 0xC02, tiles := [1], recalling := some [.ni 1] }, { line := 0xC03, tiles := [1], recalling := some [] },
        { line := 0xC04, tiles := [1], copied := true }], replicas := [(5 * 2 ^ 32 + 0xC00, {})] } }

theorem pigeonhole : ∀ (n : Nat) (f : Nat → Nat), (∀ x ≤ n, f x < n) → ∃ a b, a < b ∧ b ≤ n ∧ f a = f b
  | 0, f, h => absurd (h 0 (Nat.le_refl 0)) (Nat.not_lt_zero _)
  | n + 1, f, h => by
    by_cases hv : ∃ a ≤ n, f a = f (n + 1)
    · obtain ⟨a, ha, hf⟩ := hv
      exact ⟨a, n + 1, by omega, Nat.le_refl _, hf⟩
    · have hg : ∀ a ≤ n, f a ≠ f (n + 1) := fun a ha hf => hv ⟨a, ha, hf⟩
      obtain ⟨a, b, hab, hb, he⟩ := pigeonhole n (fun x => if f x = n then f (n + 1) else f x) fun x hx => by
        have h1 := h x (by omega)
        have h2 := h (n + 1) (Nat.le_refl _)
        have h3 := hg x hx
        split <;> omega
      refine ⟨a, b, hab, by omega, ?_⟩
      have h1 := hg a (by omega)
      have h2 := hg b hb
      split at he <;> split at he <;> first | omega | exact absurd he.symm h2 | exact absurd he h1

/-- A bank with a set that is full of locked lines `x`, while line `y` is to be filled. -/
def crammed (x y : Nat) : State :=
  { waiting [request 8] [] with cache := { l2 := List.replicate 16 (x, {}), locks := [(y, 8), (x, 9)] } }

theorem witness_CachesAndWalks_crammed :
    ∃ x y, let s := crammed x y;
      s.cache.locks.find? (·.1 == y) = some (y, 8) ∧ s.hotOf y = none ∧ s.reqs.find? (·.id == 8) = some (request 8) ∧
        find s.cache.l2 y = none ∧ s.setHasRoom (homeBank (128 * y)) y = false ∧ s.setIdle (homeBank (128 * y)) y = [] := by
  obtain ⟨a, b, hab, hb, h⟩ := pigeonhole 128 (fun k => l2Set (k * 4097)) fun _ _ => Nat.mod_lt _ (by decide)
  have bank : ∀ k < 129, homeBank (128 * (k * 4097)) = 0 := by decide +kernel
  have hx := bank a (by omega)
  have hy := bank b (by omega)
  have hne : a * 4097 ≠ b * 4097 := by omega
  have hl : (crammed (a * 4097) (b * 4097)).setLines 0 (b * 4097) = List.replicate 16 (a * 4097) := by
    simp [State.setLines, crammed, hx, hne, h]
  refine ⟨a * 4097, b * 4097, ?_, rfl, rfl, ?_, ?_, ?_⟩
  · simp [crammed]
  · simp [crammed, List.replicate, find, Ne.symm hne]
  · simp [State.setHasRoom, hy, hl]
  · rw [hy, State.setIdle, hl]
    simp [crammed]

theorem witness_CachesAndWalks :
    (caching.cache.locks.find? (·.1 == 0xB00) = some (0xB00, 8) ∧ caching.hotOf 0xB00 = none ∧ caching.reqs.find? (·.id == 8) = some (request 8) ∧
      find { caching with cache := { caching.cache with l2 := [(0xB00, {})] } }.cache.l2 0xB00 ≠ none) ∧
    (caching.lockHeld 0xA00 = false ∧ caching.cache.conflict.find? (·.1 == 0xA00) = some (0xA00, 9) ∧ caching.reqs.find? (·.id == 9) = none) ∧
    (caching.l1 0 0xA00 ≠ none ∧ find caching.cache.ic (l1Key 0 0xA00) ≠ none ∧ find caching.cache.l2 0xA00 ≠ none ∧ caching.hotOf 0xA00 = none ∧
      find caching.cache.msc 0xA00 ≠ none) ∧
    (caching.hotOf 0xC00 = some { line := 0xC00, tiles := [1] } ∧ caching.lockHeld 0xC00 = false ∧
      find caching.cache.replicas (5 * 2 ^ 32 + 0xC00) ≠ none) ∧
    (caching.hotOf 0xC01 = some { line := 0xC01, tiles := [1], copied := true, acked := true } ∧ 1 ∈ [1] ∧ 1 ∉ ([] : List Nat)) ∧
    (caching.hotOf 0xC02 = some { line := 0xC02, tiles := [1], recalling := some [.ni 1] }) ∧
    (caching.hotOf 0xC03 = some { line := 0xC03, tiles := [1], recalling := some [] } ∧ caching.cache.locks.find? (·.1 == 0xC03) = none) ∧
    (caching.hotOf 0xC04 = some { line := 0xC04, tiles := [1], copied := true }) ∧
    (let s := waiting [{ request 8 with drain := true }] [];
      s.reqs.find? (·.id == 8) = some { request 8 with drain := true } ∧
        s.follows (tileOf (srcCore (request 8).src)) ((request 8).place / 128) = false ∧ (request 8).rel = false) := by decide +kernel

/-- A pending translation of tile 0. -/
def walk (begun stale : Bool) : Walk :=
  { id := 3, tile := 0, core := 0, slot := 4, region := 1, va := 0x50000, need := .r, source := 2, begun := begun, stale := stale }

theorem witness_Walks :
    (({ paged with walks := [walk false false] } : State).walks.find? (·.id == 3) = some (walk false false) ∧
      (({ paged with walks := [walk false false] } : State).walks.filter fun v => v.tile == 0 && v.begun).length < 4) ∧
    ((walk true true).begun = true ∧ (walk true true).stale = true) ∧
    ((State.walk { paged with walks := [] } 1 (0x50000 % 2 ^ 56) .r).1 = .leaf 0x3F 3 0x11000) := by decide +kernel

/-- A flit with a sequence number, and one with the only or the first part of a request. -/
def flit (n : Nat) : Flit := { seq := n, parts := [] }
def flitOf (n : Nat) (last : Bool) : Flit := { seq := n, parts := [{ ref := .req 8, first := true, last := last }] }

/-- The world with flits on bridge 0, bridge 2 retraining since 0, port 1 retraining since 0, and a Wicket entry that is full. -/
def linked (f : Flit) : State :=
  { world with
    bridges := [(0, { wire := [f, flit 7], replay := [f, flit 7] }), (2, { st := .retraining 0 })],
    ports := [(1, { st := .retraining 0 })], flips := (range' 0 8).map fun i => wicketEntry 0 0 + 8 * i,
    host := { world.host with wqcfg := [(0, (1, 2))] } }

theorem witness_Links :
    (∀ f ∈ [flit 0, flitOf 0 true, flitOf 0 false], ((linked f).bridge 0).st = .up ∧ ((linked f).bridge 0).wire = f :: [flit 7] ∧
      f.seq = (((linked f).bridge 0).accepted + 1) % 4096) ∧
    ((flit 0).parts = [] ∧ (∀ p, (flitOf 0 true).parts.getLast? = some p → p.last = true) ∧
      (flitOf 0 false).parts.getLast? = some { ref := .req 8, first := true, last := false }) ∧
    (flit 0 ∈ ((linked (flit 0)).bridge 0).replay ∧ ((linked (flit 0)).bridge 0).offered = [] ∧ ((linked (flit 0)).bridge 0).part = none) ∧
    ((linked (flit 7)).bridge 0).wire = flit 7 :: [flit 7] ∧ (flit 7).seq ≠ (((linked (flit 7)).bridge 0).accepted + 1) % 4096 ∧
    (let s := linked (flit 0);
      (s.bridge 2).st = .retraining 0 ∧ s.time < 0 + 1000000 ∧ (s.bridge 2).offered = [] ∧ (s.bridge 2).part = none) ∧
    (let s := State.atTime (linked (flit 0)) 1000000;
      (s.bridge 2).st = .retraining 0 ∧ 0 + 1000000 ≤ s.time ∧ (s.bridge (2 * (2 / 2))).holds = [] ∧ (s.bridge (2 * (2 / 2) + 1)).holds = [] ∧
        (s.port 1).st = .retraining 0 ∧ (s.port 1).replay = [] ∧ (s.port 1).held = []) ∧
    (let s := linked (flit 0);
      (s.port 0).st = .up ∧ 0 = ((s.port 0).accepted + 1) % 4096 ∧ 1 ≠ ((s.port 0).accepted + 1) % 4096 ∧
        seqAfter (s.port 0).accepted 1 = true ∧ seqAfter (s.port 0).accepted 4095 = false ∧ (s.port 1).st = .retraining 0 ∧
        s.time < 0 + 1000000) ∧
    (let s := linked (flit 0);
      find s.host.wqcfg 0 = some (1, 2) ∧ s.feRaw (wicketEntry 0 ((find s.host.egress 0).getD 0)) = true ∧
        s.feRaw (wicketEntry 0 ((find s.host.egress 0).getD 0) + 56) = true ∧ s.deferred = []) := by
  refine ⟨by decide +kernel, ⟨by decide +kernel, fun p h => ?_, by decide +kernel⟩, by decide +kernel⟩
  cases h
  rfl

/-- Core 0 with a READY task at its hub. -/
def offering : State :=
  { world with tcbs := [(0, { state := 2, region := 1, pc := 0x4000, wclass := 0 })], hubs := [(0, { ready := [(0, 0)] })],
               agenda := [{ ev := .hubAllocate 0 }] }

/-- A record claimed from slot 4 of core 1 by core 0, and then on its way. -/
def stealing (ph : StealPh) : State :=
  { world with
    slots := [(4, thread), (68, thread)], tcbs := [(0, { state := 3, region := 1 })],
    cores := [(0, { steal := ph }), (1, { deque := [{ owner := 4, rcd := { pc := 0x3000, join := BitVec.ofNat 32 (2 ^ 31), region := 1 }, claimed := true }] })] }

/-- A strand from slot 4 of core 0 to core 1. -/
def mig : MigMsg :=
  { id := 3, src := 4, target := 1, regs := [], pc := 0x1004, pw := 0, region := 1, fpstat := 0, amig := false, task := 0, slink := 0, hop := true,
    home := 0x1000, addr := 2 ^ 56 + 2 ^ 32 }

/-- The world with that strand on its way, and n landing slots on core 1. -/
def flying (m : MigMsg) (n : Nat) : State :=
  { world.modMe fun t => { t with st := .held, wclass := 2 } with migs := [m], cores := [(1, { landn := n })] }

theorem offering_asks : ∀ c, offering.asks c = true → c = 0 := fun c h => by
  simp only [State.asks, offering, List.any_cons, List.any_nil, Bool.or_false, Bool.and_eq_true, beq_iff_eq] at h
  exact h.2.symm

theorem witness_HubsAndStrands :
    (offering.freeSlot? 0 ≠ none ∧ 
      ((offering.modHub (clusterOf 0) fun h => { h with lastServed := coreIdx 0 }).allocate 0).isSome = true) ∧
    (((world.modHub (clusterOf 0) fun h => { h with lastServed := coreIdx 0 }).allocate 0).isNone = true) ∧
    ((offering.core 0).steal = .idle ∧ ((world.modCore 0 fun c => { c with refused := true }).core 0).refused = true ∧ world.busySlots 0 < 4) ∧
    (((stealing (.resting 0)).core 0).steal = .resting 0 ∧ 0 ≤ (stealing (.resting 0)).cycle 0) ∧
    (let r : Rec := { pc := 0x3000, join := BitVec.ofNat 32 (2 ^ 31), region := 1 };
      let s := stealing (.claimed 68 r 5);
      (s.core 0).steal = .claimed 68 r 5 ∧ (∃ h ∈ s.heads (coreOf 68), h.1 = 68 ∧ h.2.2.2 = true) ∧
        (s.tcb (refKey r.join)).count ≠ BitVec.allOnes 32) ∧
    ((stealing (.travelling 68 {} 0 5)).core 0).steal = .travelling 68 {} 0 5 ∧
    ((flying mig 1).migs.find? (·.id == 3) = some mig ∧ mig.landed = false ∧ mig.bounce = false ∧ ((flying mig 1).core mig.target).landq = [] ∧
      (flying mig 1).retired mig.target = false ∧ (flying mig 1).landingSlot mig.target = some (64 + 63)) ∧
    (let s := (flying mig 1).modSlot 127 fun _ => thread;
      (s.core mig.target).landq = [] ∧ s.landingSlot mig.target = none ∧ (s.core mig.target).landn ≠ 0) ∧
    ((flying mig 0).landingSlot mig.target = none ∧ ((flying mig 0).core mig.target).landn = 0) ∧
    ((flying { mig with landed := true } 1).migs.find? (·.id == 3) = some { mig with landed := true }) ∧
    ((flying { mig with bounce := true } 1).migs.find? (·.id == 3) = some { mig with bounce := true }) ∧
    (let s := (flying mig 1).modCore 1 fun c => { c with landq := [mig] };
      (s.core 1).landq = mig :: [] ∧ s.landingSlot 1 = some 127) ∧
    (((world.modHub 0 fun h => { h with owed := [1] }).hub 0).owed = 1 :: [] ∧ (world.modHub 0 fun h => { h with owed := [1] }).freeTcb? 0 = some 0) ∧
    (∀ p ∈ world.regions, p.2.evq = 0) := by decide +kernel

/-- The world whose core 0 has been refused by its hub. -/
def sweeping : State := world.modCore 0 fun c => { c with refused := true }

theorem witness_HubsAndStrands_sweep : (sweeping.core 0).steal = .idle ∧ (sweeping.core 0).refused = true ∧ sweeping.freeSlot? 0 ≠ none ∧
    sweeping.busySlots 0 < 4 ∧ (∀ c, sweeping.heads c = []) ∧ sweeping.captureCore 0 = false := by
  refine ⟨by decide +kernel, by decide +kernel, by decide +kernel, by decide +kernel, fun c => ?_, by decide +kernel⟩
  have hr : ∀ k, (sweeping.slot k).ringAges = [] := fun k => by
    show ((find [(4, thread)] k).getD {}).ringAges = []
    unfold find
    split <;> rfl
  have hd : (sweeping.core c).deque = [] := by
    show ((find [(0, { refused := true : CoreRec })] c).getD {}).deque = []
    unfold find
    split <;> rfl
  simp [State.heads, hr, hd]

theorem witness_HubsAndStrands_start :
    ∃ k b, let u := offering.modHub (clusterOf 0) fun h => { h with lastServed := coreIdx 0 };
      (u.hub (clusterOf 0)).pinned.filter (·.core == 0) = [] ∧ (u.hub (clusterOf 0)).ready = [(0, 0)] ∧ 0 / 512 = clusterOf 0 ∧
        u.reserveOk (u.tcb 0).region (clusterOf 0) = true ∧ u.startSlot 0 (u.tcb 0).region = some k ∧ u.freeBase 0 (u.tcb 0).wclass = some b ∧
        u.admissible (u.tcb 0).region = true ∧ (flying mig 1).behindPair (coreOf mig.src) mig.target mig.id = false :=
  ⟨2, 128, by decide +kernel⟩

/-- The paged world with an event queue of 16 records at 0x30000, with so many undelivered. -/
def telling (undelivered : Nat) : State :=
  State.withWords { paged with regions := [(1, { region1 with ptroot := 0x10000, evq := 0x30000 })] } [(0x30000, 4), (0x30008, undelivered)]

/-- What a delivery reads of the event queue, and whether its record can be written. -/
def eventRead (s : State) : Option (Nat × Nat) :=
  match s.devReads 1 0x30000 4 with
  | (.ok [q, dlv, seen, _], v) =>
    match v.devWrites 1 (recordAddr 0x30000 (q.toNat % 16) dlv.toNat) [3, BitVec.ofNat 64 s.time, 1, 2, 0, 0, 0, 0] with
    | (.ok (), y) => match y.devWrite 1 0x30008 (dlv + 1) with | (.ok (), _) => some (q.toNat, (dlv - seen).toNat) | _ => none
    | _ => none
  | _ => none

theorem witness_HubsAndStrands_events :
    ((telling 15).region? 1).map Region.evq = some 0x30000 ∧ (telling 15).told = [] ∧ eventRead (telling 15) = some (4, 15) ∧
      eventRead (telling 16) = some (4, 16) := by decide +kernel

/-- R287, R292: the record of an event, and the count of those that a full queue drops. -/
theorem test_event_record :
    (after (exec (.eventDelivery 1 3 1 2) (telling 15)) fun t => (t.homeNum (0x30040 + 64 * 15) 8, t.homeNum 0x30008 8, t.homeNum 0x30018 8)) =
      some (3, 16, 0) ∧
    (after (exec (.eventDelivery 1 3 1 2) (telling 16)) fun t => (t.homeNum 0x30040 8, t.homeNum 0x30008 8, t.homeNum 0x30018 8)) =
      some (0, 16, 1) := by decide +kernel

/-- The same in a region in capture, where the core is in the middle of a sweep. -/
def probing : State :=
  { world.modCore 0 fun c => { c with refused := true, steal := .probing [1, 2] } with regions := [(1, { region1 with capture := true })] }

theorem witness_HubsAndStrands_probing : (probing.core 0).steal = .probing [1, 2] ∧ (probing.core 0).refused = true ∧
    probing.freeSlot? 0 ≠ none ∧ probing.busySlots 0 < 4 ∧ (∀ c, probing.heads c = []) ∧ probing.captureCore 0 = true := by
  refine ⟨by decide +kernel, by decide +kernel, by decide +kernel, by decide +kernel, fun c => ?_, by decide +kernel⟩
  have hr : ∀ k, (probing.slot k).ringAges = [] := fun k => by
    show ((find [(4, thread)] k).getD {}).ringAges = []
    unfold find
    split <;> rfl
  have hd : (probing.core c).deque = [] := by
    show ((find [(0, { refused := true, steal := .probing [1, 2] : CoreRec })] c).getD {}).deque = []
    unfold find
    split <;> rfl
  simp [State.heads, hr, hd]

/-- Core 0, the one live core of its cluster, filled by 16 threads of region 2, and a READY task of region 1, which has priority and a reserve. -/
def needy : State :=
  { world with
    slots := (range' 0 16).map fun i => (4 + i, { thread with region := 2, base := 128 * i }),
    regions := [(1, { region1 with coreset := 1, minslots := 4, prio := 5 }), (2, { region1 with coreset := 1, held := 16, maxslots := 64, age := 2 })],
    tcbs := [(0, { state := 2, region := 1, pc := 0x4000, prio := 5 })], hubs := [(0, { ready := [(5, 0)] })],
    host := { world.host with retired := (clusterCores 0).filter (· != 0) } }

/-- The world with its thread halted for a save, at an instruction that completes on a condition. -/
def saving (w : Option Cond) : State :=
  world.modMe fun m => { m with st := .halted, wait := .preempt false, completes := w.isSome, bwait := (w.map Wait.reissue).getD .none }

/-- An image of the thread whose restore has been given slot 5, before and after the step that writes it there. -/
def image (written : Bool) : Image :=
  { id := 3, core := 0, origin := 4, slot := { thread with st := .halted, before := .ready }, regs := [{ val := 7 }], into := some 5, written := written }

/-- The world with an image. -/
def restoring (m : Image) : State :=
  { world with images := [m], slots := [(5, { st := .halted, wait := .restore, before := .ready, region := 1, wclass := 7, base := 128 })] }

theorem witness_Preemption :
    (needy.preempting 0 = false ∧ needy.preemption 0 = some (1, [19]) ∧ needy.images.length + needy.departing.length + 1 ≤ 16384) ∧
    (let s := parked.modTile 0 fun t => { t with cycle := 262144 };
      (s.slot 4).st = .parked ∧ (s.slot 4).stale = false ∧ (s.slot 4).parkedSince + 262144 ≤ s.cycle (coreOf 4)) ∧
    ((world.slot 4).st ≠ .held ∧ (world.slot 4).st ≠ .empty ∧ (world.slot 4).leaving = false ∧ (world.slot 4).wait ≠ .restore ∧
      (world.slot 4).st = .ready ∧ (world.slot 4).wait = .none ∧ (world.slot 4).earlier = [] ∧ (world.core (coreOf 4)).frame = none) ∧
    ((flying mig 1).slot 4).st = .held ∧ (∃ m ∈ (flying mig 1).migs, m.src = 4 ∧ m.landed = false ∧ m.preempt = false) ∧
    (((saving none).slot 4).leaving = true ∧ (saving none).saveReady 4 = true ∧ ((saving none).slot 4).completes = false) ∧
    (let s := saving (some (.lineDone 1 0xA00 false));
      (s.slot 4).leaving = true ∧ s.saveReady 4 = true ∧ (s.slot 4).completes = true ∧ (s.endForm 4).map Prod.fst = some true) ∧
    (let s := { saving (some .wbDone) with cache := dirtied.cache };
      (s.slot 4).leaving = true ∧ s.saveReady 4 = true ∧ (s.slot 4).completes = true ∧ (s.endForm 4).map Prod.fst = some false) ∧
    ((restoring (image false)).images.find? (·.id == 3) = some (image false) ∧ (image false).into = some 5 ∧ (image false).written = false ∧
      (restoring (image false)).queuesFree (image false) = true ∧ (image false).deque = []) ∧
    (let m := { image true with vector := some { regs := [], seq := [], frame := none, vpend := [], lanes := 8 } };
      (restoring m).images.find? (·.id == 3) = some m ∧ m.written = true ∧ ((restoring m).core m.core).vowner = none) ∧
    (let m := { image true with matrix := some { splane := [], hplane := [], stype := none, htype := none, scale := {}, mflags := 0, mq := [], accs := [] } };
      (restoring m).images.find? (·.id == 3) = some m ∧ m.written = true ∧ m.vector = none ∧ ((restoring m).core m.core).mclaim = none ∧
        ((restoring m).core m.core).mq = []) ∧
    ((restoring (image true)).images.find? (·.id == 3) = some (image true) ∧ (image true).written = true ∧ (image true).vector = none ∧
      (image true).matrix = none ∧ ((restoring (image true)).slot 5).inflight = 0 ∧
      (restoring (image true)).halted ((restoring (image true)).slot 5).region = false) := by
  refine ⟨?_, ?_, ?_, ?_, ?_, ?_, ?_, ?_, ?_, ?_, ?_, ?_⟩ <;> decide +kernel

/-- The module as the leader of a group with chip 1, with a lower limit announced. -/
def pacing : State :=
  { world with
    timeBefore := 20000000 * nsUnit, pacer := { world.pacer with group := some 9, leader := 0, members := [0, 1], ceiling := 20, proposals := [(0, 30), (1, 30)], announced := some 10, pend := none, lastHeard := [(1, 0)], limit := 25 } }

/-- The same under the lead of chip 1. -/
def led : State := { pacing with pacer := { pacing.pacer with leader := 1, members := [0, 1, 2], lastHeard := [(1, 0), (2, 0)] } }

theorem witness_PacerEvents :
    (pacing.pacer.group = some 9 ∧ pacing.host.modid ∈ pacing.pacer.members) ∧
    (let s : State := { pacing with pacer := { pacing.pacer with pend := some (5, 20000000) } };
      s.pacer.pend = some (5, 20000000) ∧ 20000000 ≤ s.time) ∧
    (24 < pacing.pacer.limit ∧ world.pacer.group = none ∧ 24 < world.pacer.limit) ∧
    (pacing.pacer.group ≠ none ∧ pacing.pacer.announced = some 10) ∧
    (pacing.leads = true ∧ 0 ∈ pacing.pacer.members ∧ 0 ∉ pacing.pacer.joining ∧ 20199999 < pacing.time + 200000 ∧ 0 = pacing.host.modid) ∧
    (200000 ≤ 200000 ∧ pacing.pacer.pend = none ∧ pacing.pacer.lastChange + 10000000 ≤ pacing.time ∧ pacing.pacer.ceiling < 30 ∧
      (∀ c ∈ pacing.pacer.members, pacing.pacer.ceiling + 2 ≤ (find pacing.pacer.proposals c).getD 0) ∧ pacing.pacer.joining = [] ∧
      pacing.pacer.leaving = []) ∧
    (pacing.pacer.limit < 30 ∧ 30 ≤ 30) ∧
    (led.silentNow 1 = true ∧ 1 = led.pacer.leader) ∧ (led.silentNow 2 = true ∧ led.leads = false ∧ 2 ≠ led.pacer.leader) := by decide +kernel

theorem witness_PowerAndBoot :
    (let s := world.modMe fun m => { m with opreq := 12 };
      (s.tile 0).stopped = false ∧ s.levelTarget 0 ≠ (s.tile 0).level ∧ s.atLap 0 = true) ∧
    ((world.modTile 0 fun t => { t with stopped := true }).tile 0).stopped = true ∧ (48 ≤ 48 ∧ world.cycle 0 % 64 = 0) ∧
    (5 ≠ 0 ∧ world.region? 5 = none) ∧ (∃ g, 1 ≠ 0 ∧ world.region? 1 = some g) ∧
    (let s := State.atTime desk 1000000000;
      s.host.sem ≠ none ∧ s.host.semSeen + 1000000000 ≤ s.time) ∧
    State.reset.host.stage = 0 ∧
    (let s := State.atTime { world with host := { world.host with stage := 2, flooded := [0], answered := [] } } 1000000;
      s.host.stage = 2 ∧ 1 ∉ s.host.flooded ∧ (∃ c ∈ beside 1, c ∈ s.host.flooded) ∧ 0 ∈ s.host.flooded ∧ 0 ∉ s.host.answered ∧
        s.host.discoveryBegan + 1000000 ≤ s.time) ∧
    (let c : Capture := { region := 1, base := 0, len := 64, replay := true, recs := [.input (.pacer msg)] };
      let s : State := { world with host := { world.host with captures := [c] } };
      s.host.captures.find? (fun c => c.region == 1 && c.replay) = some c ∧ CapRec.input (.pacer msg) ∈ c.recs ∧ c.due (.pacer msg) = true) := by
  have h : world.region? 1 = some region1 := by decide +kernel
  refine ⟨by decide +kernel, by decide +kernel, by decide +kernel, by decide +kernel, ⟨_, by decide, h⟩, by decide +kernel, by decide +kernel,
    by decide +kernel, by decide +kernel⟩

theorem witness_DecodeEncode :
    wellFormed (.scatter 65535 127 127 127 63 7 true true true) = true ∧ (Instr.scatter 65535 127 127 127 63 7 true true true).isWord = true := by
  decide +kernel

theorem witness_DecodedWordsReencode : decode 0x5C000040 7 = .ok (.hint 0 0 0) ∧ decode 0xE02050C0 0x182 = .ok (.aadd 4 5 6 3 2 0) := ⟨rfl, rfl⟩

/-- The state after reset with `NOP`, a wide instruction, or no instruction placed where the boot thread fetches. -/
def placed (nbits w : Nat) : State := State.reset.withFetchWord nbits w



/-- A fetch that gives words. -/
theorem gotWords {r : Except State (Nat × Nat × State)} (w x : Nat)
    (h : (match r with | .ok (a, b, _) => a == w && b == x | _ => false) = true) : ∃ t, r = .ok (w, x, t) := by
  obtain _ | ⟨a, b, t⟩ := r
  · simp at h
  · simp only [Bool.and_eq_true, beq_iff_eq] at h
    exact ⟨t, by rw [h.1, h.2]⟩

/-- A fetch that takes a fault. -/
theorem gotFault {r : Except State (Nat × Nat × State)} (h : (match r with | .error _ => true | _ => false) = true) : ∃ t, r = .error t := by
  obtain t | x := r
  · exact ⟨t, rfl⟩
  · simp at h

/-- The thread that the first issue cycle of a placed word prepares. -/
def prepared (s : State) : State := { (s.beginCycle 0).prepare 1 with work := some (threadWork 1) }

/-- The line of code at 0x1000 in core 0's instruction cache. -/
def bootLine (nbits w : Nat) : Line := (find (placed nbits w).cache.ic (l1Key 0 32)).getD {}

/-- A fault of a vector element at 0x1000, of step 0. -/
def elementFault : EarlierFault := { cause := .align, xpc := 0x1000, xaddr := 1, xprog := 0, source := 2, level := 0 }

/-- The instruction `ADD g5, g6, g7` of chapter 05, and a word of all zeros. -/
theorem witness_StepRunsDecoded :
    ((placed 32 0x042860E0).nextMove = .issue 0 ∧ (placed 32 0x042860E0).atNewLap 0 = false ∧
      ((placed 32 0x042860E0).beginCycle 0).issuer 0 = some 1 ∧ (∃ t, (prepared (placed 32 0x042860E0)).fetch 1 = .ok (0x042860E0, 0, t)) ∧
      (prepared (placed 32 0x042860E0)).dueFault 1 = none ∧ decode 0x042860E0 0 = .ok (.add 5 6 7)) ∧
    ((placed 32 0).nextMove = .issue 0 ∧ (placed 32 0).atNewLap 0 = false ∧ ((placed 32 0).beginCycle 0).issuer 0 = some 1 ∧
      (∃ t, (prepared (placed 32 0)).fetch 1 = .ok (0, 0, t)) ∧ (prepared (placed 32 0)).dueFault 1 = none ∧ decode 0 0 = .error .allZeros) ∧
    (let s := (placed 32 0x042860E0).modSlot 1 fun m => { m with earlier := [elementFault] };
      s.nextMove = .issue 0 ∧ s.atNewLap 0 = false ∧ (s.beginCycle 0).issuer 0 = some 1 ∧ (∃ t, (prepared s).fetch 1 = .ok (0x042860E0, 0, t)) ∧
        (prepared s).dueFault 1 = some elementFault) ∧
    (let s := (placed 32 0).modSlot 1 fun m => { m with pc := BitVec.ofNat 64 (2 ^ 60) };
      s.nextMove = .issue 0 ∧ s.atNewLap 0 = false ∧ (s.beginCycle 0).issuer 0 = some 1 ∧ (∃ t, (prepared s).fetch 1 = .error t) ∧
        (prepared s).dueFault 1 = none) := by
  refine ⟨⟨by decide +kernel, by decide +kernel, by decide +kernel, gotWords _ _ (by decide +kernel), by decide +kernel, rfl⟩,
    ⟨by decide +kernel, by decide +kernel, by decide +kernel, gotWords _ _ (by decide +kernel), by decide +kernel, rfl⟩,
    ⟨by decide +kernel, by decide +kernel, by decide +kernel, gotWords _ _ (by decide +kernel), by decide +kernel⟩,
    ⟨by decide +kernel, by decide +kernel, by decide +kernel, gotFault (by decide +kernel), by decide +kernel⟩⟩

theorem witness_StepRunsDecoded_laps :
    (let s := (placed 32 0).modCore 0 fun c => { c with stopIssue := true };
      s.nextMove = .issue 0 ∧ s.atNewLap 0 = false ∧ (s.beginCycle 0).issuer 0 = none) ∧
    (let s : State := { placed 32 0 with now := 63 * period 30 };
      s.nextMove = .issue 0 ∧ s.atNewLap 0 = true) := by decide +kernel

theorem witness_StepRunsDecoded_code :
    (codeAt (placed 32 0x042860E0) 1 ((placed 32 0x042860E0).slot 1).pc bootTlb (bootLine 32 0x042860E0) ∧
      isWide (codeWord ((placed 32 0x042860E0).slot 1).pc bootTlb (bootLine 32 0x042860E0)) = false) ∧
    (codeAt (placed 64 0x182E02050C0) 1 ((placed 64 0x182E02050C0).slot 1).pc bootTlb (bootLine 64 0x182E02050C0) ∧
      isWide (codeWord ((placed 64 0x182E02050C0).slot 1).pc bootTlb (bootLine 64 0x182E02050C0)) = true ∧
      codeAt (placed 64 0x182E02050C0) 1 (((placed 64 0x182E02050C0).slot 1).pc + 4) bootTlb (bootLine 64 0x182E02050C0)) := by
  unfold codeAt
  decide +kernel

theorem witness_StepRunsDecoded_cycles :
    ({ State.reset with agenda := [] } : State).nextMove = .idle ∧ (∃ t, endCycle 0 true (.next world) = .next t) ∧
    (∀ c ∈ world.tileTurns (tileOf 0), c ∈ (world.tile (tileOf 0)).turned ++ [0]) ∧
    (let s := world.modSlot 68 fun _ => thread; ∃ c ∈ s.tileTurns (tileOf 0), c ∉ (s.tile (tileOf 0)).turned ++ [0]) :=
  ⟨by decide +kernel, ⟨_, rfl⟩, by decide +kernel, by decide +kernel⟩

/-- The module after reset with one event due. -/
def due (e : Ev) : State := { State.reset with agenda := [{ ev := e, at_ := .time 0 }] }

theorem due_moves {s : State} {e : Ev} (ha : s.agenda = [{ ev := e, at_ := .time 0 }]) (hc : s.clockOf e = none) : s.nextMove = .event 0 := by
  have r : s.ripe { ev := e, at_ := .time 0 } = true := by
    unfold State.ripe
    rw [hc]
    simp
  have m : s.nextMove = .event ([0].getD (Config.order s.tick % 1) 0) := by simp [State.nextMove, ha, r, range', pickEvent]
  rw [m, Nat.mod_one]
  rfl

/-- An event that happens, and one that cannot happen any more. -/
theorem witness_EventsRunTheirRows :
    (EventRow (.patrolScrub 8) (.patrolScrub 8) ∧ (due (.patrolScrub 8)).nextMove = .event 0 ∧
      (due (.patrolScrub 8)).agenda[0]? = some { ev := .patrolScrub 8, at_ := .time 0 } ∧
      (∃ t, runEvent (.patrolScrub 8) ((due (.patrolScrub 8)).takeDue 0) = .next t)) ∧
    ((due (.homeAccess 5)).nextMove = .event 0 ∧ (due (.homeAccess 5)).agenda[0]? = some { ev := .homeAccess 5, at_ := .time 0 } ∧
      runEvent (.homeAccess 5) ((due (.homeAccess 5)).takeDue 0) = .fault .notEnabled) :=
  ⟨⟨.patrolScrub 8, due_moves rfl rfl, rfl, _, rfl⟩, ⟨due_moves rfl rfl, rfl, rfl⟩⟩

/-- A delivery to an event queue whose line is not at hand. -/
def away : State := { telling 15 with agenda := [{ ev := .eventDelivery 1 3 1 2, at_ := .time 0 }] }

theorem witness_EventsRunTheirRows_stalled :
    away.nextMove = .event 0 ∧
      (after (runEvent (.eventDelivery 1 3 1 2) { away.takeDue 0 with work := some (away.workOf (.eventDelivery 1 3 1 2)) }) fun t => t.stalled) = some true :=
  ⟨due_moves rfl rfl, by decide +kernel⟩

theorem witness_StepKeepsMemory : Memory.wf (placed 32 0x042860E0).mem = true ∧ (after (step (placed 32 0x042860E0)) fun _ => ()).isSome = true := by
  decide +kernel

end Sys2Proof.Tests
end

section
/-! PROOFS. Requests, answers and messages on their way, and the power and boot of the module (chapters 01, 21, 27 and 29). -/

namespace Sys2Proof.Machine

/-! ## What sending changes

A unit that sends a request, an answer or another message touches the lists of what is on its way, the caches it cleans first, the links
and the agenda; the agenda and the parcels only grow, and no bridge fails by it. -/

theorem setsOut_near {s : State} {e : Ev} {a b : Nat} (h : bridgePath a b = []) : setsOut s e a b ↔ planned s e := by
  simp only [setsOut, h]

theorem setsOut_far {s : State} {e : Ev} {a b d : Nat} {r : List Nat} (h : bridgePath a b = d :: r) : setsOut s e a b ↔
    if (s.bridge d).st = .failed then planned s (failEvent e) else ∃ p ∈ s.parcels, p.ev = e ∧ p.hops = d :: r := by
  simp only [setsOut, h]

/-- Only what is on its way, the L1s and the redirects, the links, the agenda and the device error log differ. -/
structure SendFrame (s t : State) : Prop where
  eq : t = { s with reqs := t.reqs, reps := t.reps, deferred := t.deferred, heldReqs := t.heldReqs, parcels := t.parcels,
                    cache := { s.cache with l1 := t.cache.l1, redirects := t.cache.redirects }, bridges := t.bridges, ports := t.ports, agenda := t.agenda, out := t.out, nextId := t.nextId,
                    host := { s.host with log := t.host.log, logCount := t.host.logCount } }
  agenda : s.agenda ⊆ t.agenda
  parcels : s.parcels ⊆ t.parcels
  links : ∀ d, (t.bridge d).st = (s.bridge d).st
  nextId : s.nextId ≤ t.nextId

namespace SendFrame

theorem refl (s : State) : SendFrame s s := ⟨rfl, List.Subset.refl _, List.Subset.refl _, fun _ => rfl, Nat.le_refl _⟩

theorem trans {s t u : State} (h : SendFrame s t) (k : SendFrame t u) : SendFrame s u :=
  ⟨by rw [k.eq, h.eq], List.Subset.trans h.agenda k.agenda, List.Subset.trans h.parcels k.parcels, fun d => (k.links d).trans (h.links d),
    Nat.le_trans h.nextId k.nextId⟩

theorem ite {s t u : State} {c : Prop} [Decidable c] (h : SendFrame s t) (k : SendFrame s u) : SendFrame s (if c then t else u) := by
  split <;> assumption

theorem foldl {α : Type} (f : State → α → State) (h : ∀ s a, SendFrame s (f s a)) (l : List α) (s : State) :
    SendFrame s (l.foldl f s) := by
  induction l generalizing s with
  | nil => exact refl s
  | cons a r ih => exact (h s a).trans (ih (f s a))

theorem slots {s t : State} (h : SendFrame s t) : t.slots = s.slots := by rw [h.eq]
theorem regs {s t : State} (h : SendFrame s t) : t.regs = s.regs := by rw [h.eq]
theorem mem {s t : State} (h : SendFrame s t) : t.mem = s.mem := by rw [h.eq]
theorem slot {s t : State} (h : SendFrame s t) (k : Nat) : t.slot k = s.slot k := by rw [h.eq]; rfl
theorem bytes {s t : State} (h : SendFrame s t) : sameBytes s t := fun p => by rw [h.mem]
theorem time {s t : State} (h : SendFrame s t) : t.time = s.time := by rw [h.eq]; rfl
theorem locks {s t : State} (h : SendFrame s t) : t.cache.locks = s.cache.locks := by rw [h.eq]
theorem flooded {s t : State} (h : SendFrame s t) : t.host.flooded = s.host.flooded := by rw [h.eq]

/-- What is due stays due. -/
theorem planned {s t : State} (h : SendFrame s t) {e : Ev} : planned s e → planned t e
  | ⟨d, hd, he⟩ => ⟨d, h.agenda hd, he⟩

/-- A message that has set out is still on its way. -/
theorem setsOut {s t : State} (h : SendFrame s t) {e : Ev} {a b : Nat} (hs : setsOut s e a b) : setsOut t e a b := by
  cases hp : bridgePath a b with
  | nil => exact (setsOut_near hp).2 (h.planned ((setsOut_near hp).1 hs))
  | cons d r =>
    rw [setsOut_far hp] at hs ⊢
    rw [h.links]
    split at hs
    · next hf => exact (if_pos hf).symm ▸ h.planned hs
    · next hf =>
      obtain ⟨p, hp, hp'⟩ := hs
      exact (if_neg hf).symm ▸ ⟨p, h.parcels hp, hp'⟩

end SendFrame

/-! ### The agenda -/

theorem later_send (s : State) (e : Ev) (w : When) : SendFrame s (s.later e w) :=
  ⟨rfl, List.subset_append_left _ _, List.Subset.refl _, fun _ => rfl, Nat.le_refl _⟩

theorem laters_send (s : State) (l : List Ev) : SendFrame s (s.laters l) :=
  ⟨rfl, List.subset_append_left _ _, List.Subset.refl _, fun _ => rfl, Nat.le_refl _⟩

theorem ask_send (s : State) (e : Ev) : SendFrame s (s.ask e) := (SendFrame.refl s).ite (later_send s e .any)

theorem askMatrix_send (s : State) (core : Nat) : SendFrame s (s.askMatrix core) :=
  (SendFrame.foldl State.ask ask_send _ s).ite (.refl s)

theorem planned_later (s : State) (e : Ev) : planned (s.later e) e := due_of_later s e .any

/-! ### Links -/

/-- A change of a bridge's buffers leaves its link as it is. -/
theorem modBridge_send (s : State) (d : Nat) (f : Bridge → Bridge) (hf : ∀ b, (f b).st = b.st) : SendFrame s (s.modBridge d f) := by
  refine ⟨rfl, List.Subset.refl _, List.Subset.refl _, fun d' => ?_, Nat.le_refl _⟩
  rw [State.bridge, State.modBridge, find_put]
  split
  · next h => rw [Option.getD_some, hf, h]
  · rfl

theorem pump_send (d n : Nat) : ∀ s : State, SendFrame s (s.pump d n) := by
  induction n with
  | zero => exact .refl
  | succ n ih =>
    intro s
    unfold State.pump
    simp only
    split
    · refine SendFrame.trans (SendFrame.trans (modBridge_send s d _ ?_) (later_send _ _ .any)) (ih _)
      exact fun _ => rfl
    · exact .refl s

theorem offer_send (s : State) (d : Nat) (ref : PktRef) (cls bytes : Nat) : SendFrame s (s.offer d ref cls bytes) :=
  SendFrame.trans (modBridge_send s d (fun b => { b with offered := b.offered ++ [{ ref := ref, cls := cls, bytes := bytes }] })
    fun _ => rfl) (pump_send d 64 _)

theorem launchParcel_send (s : State) (e : Ev) (d : Nat) (r : List Nat) (cls bytes : Nat) :
    SendFrame s (s.launchParcel e d r cls bytes) :=
  SendFrame.trans (t := { s with nextId := s.nextId + 1,
                                 parcels := s.parcels ++ [{ id := s.nextId, ev := e, hops := d :: r, cls := cls, bytes := bytes }] })
    ⟨rfl, List.Subset.refl _, List.subset_append_left _ _, fun _ => rfl, Nat.le_succ _⟩ (offer_send _ d _ cls bytes)

theorem launchParcel_parcel (s : State) (e : Ev) (d : Nat) (r : List Nat) (cls bytes : Nat) :
    ∃ p ∈ (s.launchParcel e d r cls bytes).parcels, p.ev = e ∧ p.hops = d :: r :=
  ⟨_, (offer_send _ d _ cls bytes).parcels (List.mem_append_right _ (List.mem_singleton_self _)), rfl, rfl⟩

theorem travel_send (s : State) (e : Ev) (a b cls bytes : Nat) : SendFrame s (s.travel e a b cls bytes) := by
  unfold State.travel
  split
  · exact later_send s e .any
  · exact (later_send s _ .any).ite
      ((SendFrame.foldl _ (fun t _ => launchParcel_send t _ _ _ _ _) _ s).trans (launchParcel_send _ _ _ _ _ _))

/-- A message that is sent has set out. -/
theorem travel_setsOut (s : State) (e : Ev) (a b cls bytes : Nat) : setsOut (s.travel e a b cls bytes) e a b := by
  cases h : bridgePath a b with
  | nil => simpa only [setsOut_near h, State.travel, h] using planned_later s e
  | cons d r =>
    rw [setsOut_far h, (travel_send s e a b cls bytes).links]
    by_cases hf : (s.bridge d).st = .failed
    · simpa only [State.travel, h, hf, if_true] using planned_later s (failEvent e)
    · simpa only [State.travel, h, hf, if_false] using launchParcel_parcel _ e d r cls _

/-! ### Relay -/

theorem portPump_send (s : State) (p : Nat) : SendFrame s (s.portPump p) := by
  have sent (ports : Tab Port) (out : List OutFrame) : SendFrame s { s with ports := ports, out := out } :=
    ⟨rfl, List.Subset.refl _, List.Subset.refl _, fun _ => rfl, Nat.le_refl _⟩
  exact (SendFrame.refl s).ite ((sent _ _).ite ((sent _ _).trans (later_send _ _ .any)))

theorem portSend_send (s : State) (p : Nat) (pkts : List RelayPkt) : SendFrame s (s.portSend p pkts) :=
  SendFrame.trans (t := { s with ports := put s.ports p { s.port p with
      next := ((s.port p).next + 1) % 4096, held := (s.port p).held ++ [((s.port p).next, pkts)] } })
    ⟨rfl, List.Subset.refl _, List.Subset.refl _, fun _ => rfl, Nat.le_refl _⟩ (portPump_send _ p)

theorem relaySend_send {s t : State} {chip tregion : Nat} {body : RelayBody} (h : s.relaySend chip tregion body = some t) :
    SendFrame s t := by
  obtain ⟨p, -, rfl⟩ := Option.map_eq_some_iff.1 h
  exact portSend_send s p _

theorem relaySend_getD_send (s : State) (chip tregion : Nat) (body : RelayBody) :
    SendFrame s ((s.relaySend chip tregion body).getD s) := by
  cases h : s.relaySend chip tregion body with
  | none => exact .refl s
  | some t => exact relaySend_send h

/-! ### Requests and answers -/

theorem logReq_send (s : State) (q : Req) (kind : Nat) : SendFrame s (s.logReq q kind) :=
  ⟨rfl, List.Subset.refl _, List.Subset.refl _, fun _ => rfl, Nat.le_refl _⟩

/-- The lists of what is on its way, changed. -/
theorem lists_send (s : State) (reqs deferred heldReqs : List Req) (reps : List Rep) :
    SendFrame s { s with reqs := reqs, deferred := deferred, heldReqs := heldReqs, reps := reps } :=
  ⟨rfl, List.Subset.refl _, List.Subset.refl _, fun _ => rfl, Nat.le_refl _⟩

/-- L1 lines and redirects, changed. -/
theorem withL1_send (s : State) (l1 : Tab Line) (redirects : List Redirect) :
    SendFrame s { s with cache := { s.cache with l1 := l1, redirects := redirects } } :=
  ⟨rfl, List.Subset.refl _, List.Subset.refl _, fun _ => rfl, Nat.le_refl _⟩

theorem sendRep_send (s : State) (r : Rep) : SendFrame s (s.sendRep r) := by
  unfold State.sendRep
  split
  · exact later_send s _ .any
  · exact offer_send s _ _ _ _

theorem answer_send (s : State) (q : Req) (a : HomeAns) : SendFrame s (s.answer q a) := by
  have gone := lists_send s (s.reqs.filter (·.id != q.id)) (s.deferred.filter (·.id != q.id)) (s.heldReqs.filter (·.id != q.id)) s.reps
  exact (gone.trans (relaySend_getD_send _ _ _ _)).ite ((gone.trans (lists_send _ _ _ _ _)).trans (sendRep_send _ _))

theorem refuse_send (s : State) (q : Req) (c : Cause) (kind : Nat) : SendFrame s (s.refuse q c kind) :=
  (logReq_send s q kind).trans (answer_send _ q _)

theorem mayCombine_send (s : State) (q : Req) : SendFrame s (s.mayCombine q) := (laters_send s _).ite (.refl s)

theorem setOutReq_send (s : State) (q : Req) : SendFrame s (s.setOutReq q) := by
  unfold State.setOutReq
  split
  · exact later_send s _ .any
  · split
    · exact (later_send s _ .any).trans (mayCombine_send _ q)
    · exact (refuse_send s q _ 1).ite (offer_send s _ _ _ _)

theorem send_send (s : State) (q : Req) : SendFrame s (s.send q) := (lists_send s _ _ _ _).trans (setOutReq_send _ q)

theorem holdBack_send (s : State) (q : Req) : SendFrame s (s.holdBack q) := (lists_send s _ _ _ _).trans (later_send _ _ .any)

theorem dispatch_send (s : State) (q : Req) : SendFrame s (s.dispatch q) := by
  unfold State.dispatch
  simp only
  refine (send_send s q).ite (SendFrame.ite ?_ (SendFrame.ite ?_ (send_send s q)))
  · split
    · exact (send_send s _).ite (send_send s q)
    · exact send_send s q
  · exact (withL1_send s _ _).trans ((holdBack_send _ q).ite (send_send _ q))

/-! ### Write-backs before a request -/

theorem writeBack_send (s : State) (core line : Nat) : SendFrame s (s.writeBack core line) := by
  unfold State.writeBack
  split
  · exact .refl s
  · next l _ =>
    refine (SendFrame.refl s).ite (SendFrame.trans (t := { s with
      nextId := s.nextId + 1, cache := { s.cache with l1 := put s.cache.l1 (l1Key core line) l.cleaned } }) ?_ (dispatch_send _ _))
    exact ⟨rfl, List.Subset.refl _, List.Subset.refl _, fun _ => rfl, Nat.le_succ _⟩

theorem noFills_send (s : State) (f : Nat → Nat → Bool) : SendFrame s (s.noFills f) := lists_send s _ _ _ _

theorem purge_send (s : State) (cl line : Nat) : SendFrame s (s.purge cl line) :=
  (SendFrame.foldl _ (fun t c => (writeBack_send t c line).trans (withL1_send _ _ _)) _ s).trans (noFills_send _ _)

theorem backOthers_send (s : State) (core line : Nat) : SendFrame s (s.backOthers core line) :=
  SendFrame.foldl _ (fun t c => (SendFrame.refl t).ite (writeBack_send t c line)) _ s

theorem writeBackAll_send (s : State) (core : Nat) : SendFrame s (s.writeBackAll core) :=
  SendFrame.foldl _ (fun t l => writeBack_send t core l) _ s

theorem widenRelease_send (s : State) (core scope : Nat) : SendFrame s (s.widenRelease core scope) :=
  (writeBackAll_send s core).ite (.refl s)

/-- A request is sent behind the write-backs and purges of its line, which are sends as well (R235). -/
theorem emit_eq_dispatch (s : State) (q : Req) : ∃ t, SendFrame s t ∧ s.emit q = t.dispatch q := by
  unfold State.emit
  simp only
  split
  · exact ⟨s, .refl s, rfl⟩
  · split
    · exact ⟨_, purge_send s _ _, rfl⟩
    · split
      · exact ⟨_, backOthers_send s _ _, rfl⟩
      · exact ⟨_, backOthers_send s _ _, rfl⟩
      · exact ⟨s, .refl s, rfl⟩

theorem emit_send (s : State) (q : Req) : SendFrame s (s.emit q) := by
  obtain ⟨t, ht, e⟩ := emit_eq_dispatch s q
  rw [e]
  exact ht.trans (dispatch_send t q)

end Sys2Proof.Machine
end

section
namespace Sys2Proof.Machine

/-! ## Requests and answers under way -/

/-- A request is on its way to its home, or its answer is on its way back. -/
def underWay (t : State) (q : Req) : Prop := (∃ p ∈ t.reqs, sameReq q p) ∨ ∃ r ∈ t.reps, r.req.id = q.id

theorem sameReq_refl (q : Req) : sameReq q q := rfl

/-- What has become of a request on its way keeps its number, its scope and whether it misses it. -/
theorem sameReq_keeps {q p : Req} (h : sameReq q p) : p.id = q.id ∧ p.scope = q.scope ∧ p.miss = q.miss := by
  rw [h]
  exact ⟨rfl, rfl, rfl⟩

theorem underWay_of_mem {t : State} {q p : Req} (hp : p ∈ t.reqs) (h : sameReq q p) : underWay t q := .inl ⟨p, hp, h⟩

/-- A request that goes on in another direction is the same one. -/
theorem underWay_of_sameReq {t : State} {q p : Req} (h : sameReq q p) : underWay t p → underWay t q
  | .inl ⟨x, hx, e⟩ => .inl ⟨x, hx, by rw [sameReq, e, h]⟩
  | .inr ⟨r, hr, e⟩ => .inr ⟨r, hr, by rw [e, h]⟩

/-! ### What sending leaves of the lists -/

theorem pump_eq (d n : Nat) : ∀ s : State, s.pump d n = { s with bridges := (s.pump d n).bridges, agenda := (s.pump d n).agenda } := by
  induction n with
  | zero => intro s; rfl
  | succ n ih =>
    intro s
    unfold State.pump
    simp only
    split
    · rw [ih]; rfl
    · rfl

theorem offer_eq (s : State) (d : Nat) (ref : PktRef) (cls bytes : Nat) : s.offer d ref cls bytes =
    { s with bridges := (s.offer d ref cls bytes).bridges, agenda := (s.offer d ref cls bytes).agenda } := by
  unfold State.offer
  rw [pump_eq]
  rfl

@[simp] theorem offer_reqs (s : State) (d : Nat) (ref : PktRef) (cls bytes : Nat) : (s.offer d ref cls bytes).reqs = s.reqs := by
  rw [offer_eq]

@[simp] theorem offer_reps (s : State) (d : Nat) (ref : PktRef) (cls bytes : Nat) : (s.offer d ref cls bytes).reps = s.reps := by
  rw [offer_eq]

@[simp] theorem sendRep_reps (s : State) (r : Rep) : (s.sendRep r).reps = s.reps := by
  unfold State.sendRep
  split
  · rfl
  · exact offer_reps s _ _ _ _

@[simp] theorem mayCombine_reqs (s : State) (q : Req) : (s.mayCombine q).reqs = s.reqs := by
  unfold State.mayCombine
  split <;> rfl

@[simp] theorem mayCombine_splits (s : State) (q : Req) : (s.mayCombine q).splits = s.splits := by
  rw [(mayCombine_send s q).eq]

/-- Looking afresh at something only puts events on the agenda. -/
theorem askAll_only (l : List Ev) : ∀ s : State, ∃ a, s.askAll l = { s with agenda := a } := by
  induction l with
  | nil => exact fun s => ⟨s.agenda, rfl⟩
  | cons e l ih =>
    intro s
    obtain ⟨a, h⟩ := ih (s.ask e)
    refine ⟨a, h.trans ?_⟩
    unfold State.ask
    split <;> rfl

theorem askMatrix_only (s : State) (core : Nat) : ∃ a, s.askMatrix core = { s with agenda := a } := by
  unfold State.askMatrix
  dsimp only
  generalize (if tileOf core % 16 = 0 then [] else [tileOf core - 1]) = west
  split
  · exact askAll_only _ s
  · exact ⟨s.agenda, rfl⟩

/-- The answer to a request of this module is one of those on their way. -/
theorem answer_rep {s : State} {q : Req} (a : HomeAns) (h : q.src ≠ foreignSrc) : ∃ r ∈ (s.answer q a).reps, r.req.id = q.id := by
  simp only [State.answer, h, if_false, sendRep_reps]
  exact ⟨_, List.mem_append_right _ (List.mem_singleton_self _), rfl⟩

/-! ### Sent requests -/

theorem setOutReq_underWay {s : State} {q : Req} (hq : q ∈ s.reqs) (h : q.src ≠ foreignSrc) : underWay (s.setOutReq q) q := by
  unfold State.setOutReq
  split
  · exact underWay_of_mem hq (sameReq_refl q)
  · split
    · exact underWay_of_mem (by rwa [mayCombine_reqs]) (sameReq_refl q)
    · split
      · exact .inr (answer_rep _ h)
      · exact underWay_of_mem (by rwa [offer_reqs]) (sameReq_refl q)

theorem send_underWay {q : Req} (s : State) (h : q.src ≠ foreignSrc) : underWay (s.send q) q :=
  setOutReq_underWay (List.mem_append_right _ (List.mem_singleton_self q)) h

theorem holdBack_underWay (s : State) (q : Req) : underWay (s.holdBack q) q :=
  underWay_of_mem (List.mem_append_right _ (List.mem_singleton_self { q with drain := true })) (by rfl)

theorem dispatch_underWay {q : Req} (s : State) (h : q.src ≠ foreignSrc) : underWay (s.dispatch q) q := by
  unfold State.dispatch
  simp only
  split
  · exact send_underWay s h
  · split
    · split
      · split
        · exact underWay_of_sameReq (by rfl) (send_underWay s h)
        · exact send_underWay s h
      · exact send_underWay s h
    · split
      · split
        · exact holdBack_underWay _ q
        · exact send_underWay _ h
      · exact send_underWay s h

/-- A request that is sent is on its way, or has the answer of a failed bridge (R131, R266). -/
theorem emit_underWay {q : Req} (s : State) (h : q.src ≠ foreignSrc) : underWay (s.emit q) q := by
  obtain ⟨t, -, e⟩ := emit_eq_dispatch s q
  rw [e]
  exact dispatch_underWay t h

/-! ## Threads that wait for an answer -/

theorem modThread_of_slot (s : State) {k : Nat} (f : Slot → Slot) (h : k < 2 ^ 20) : s.modThread k f = s.modSlot k f := if_pos h

theorem slot_ne_foreign {k : Nat} (h : k < 2 ^ 20) : k ≠ foreignSrc := by
  unfold foreignSrc
  omega

@[simp] theorem become_pc (sl : Slot) (st : SlotSt) (w : Wait) : (sl.become st w).pc = sl.pc := by unfold Slot.become; split <;> rfl
@[simp] theorem become_base (sl : Slot) (st : SlotSt) (w : Wait) : (sl.become st w).base = sl.base := by unfold Slot.become; split <;> rfl
@[simp] theorem become_nacks (sl : Slot) (st : SlotSt) (w : Wait) : (sl.become st w).nacks = sl.nacks := by unfold Slot.become; split <;> rfl
@[simp] theorem become_scopemiss (sl : Slot) (st : SlotSt) (w : Wait) : (sl.become st w).scopemiss = sl.scopemiss := by
  unfold Slot.become; split <;> rfl

/-- A thread that is not halted takes on the state and the wait themselves. -/
theorem become_of_running {sl : Slot} (st : SlotSt) (w : Wait) (h : sl.frozen = false) : sl.become st w = { sl with st := st, wait := w } := by
  simp [Slot.become, h]

/-! ### Answers at their sources (R131, R28, R139) -/

variable {s : State} {id k : Nat} {r : Rep} {q : Req}

/-- R131: the value of an answer is written to the register that its instruction named, and the thread goes on. -/
theorem replyArrival_writes {v : Word} {rg ext : Nat} (ha : s.arrived id = some r) (hw : s.repWaits r = false) (hk : r.req.src = k)
    (hv : r.ans = .ok v) (hq : r.req.acq = false) (hd : r.req.dest = .reg rg ext none) :
    ∃ t, exec (.replyArrival id) s = .next t ∧ t.reps = s.reps.erase r ∧ (t.greg k rg).val = extend ext v.toNat ∧
      (t.slot k).pc = (s.slot k).pc + BitVec.ofNat 64 r.req.len ∧ (t.slot k).nacks = 0 ∧ sameBytes s t := by
  let u := (s.takeRep r).modSlot k fun sl => { sl with nacks := 0 }
  let t := ((u.setGreg k rg { val := extend ext v.toNat }).advance k r.req.len).modSlot k Slot.settle
  have he : exec (.replyArrival id) s = .next t := by
    simp only [exec_replyArrival, execReplyArrival, ha, hw, hv, hd, hk, State.land, hq, State.landValue, State.landDst]
    rfl
  have hs : t.slot k = ((u.setGreg k rg { val := extend ext v.toNat }).advance k r.req.len |>.slot k).settle := slot_modSlot_same _ k _
  have hu : u.slot k = { s.slot k with nacks := 0 } := slot_modSlot_same _ k _
  rw [slot_advance_same, setGreg_slot, hu] at hs
  refine ⟨t, he, rfl, ?_, by rw [hs, Slot.settle, become_pc], by rw [hs, Slot.settle, become_nacks], fun _ => rfl⟩
  have hg : t.greg k rg = (u.setGreg k rg { val := extend ext v.toNat }).greg k rg := by
    have hb : (t.slot k).base = (u.slot k).base := by rw [hs, Slot.settle, become_base, hu]
    show t.rf _ _ = State.rf _ _ _
    rw [hb]
    rfl
  rw [hg, greg_setGreg_same]

/-- R28: what the acknowledgement of a remote store does to its thread's slot. -/
theorem remoteStoreAck_step (ha : s.arrived id = some r) (hw : s.repWaits r = false) (hlt : r.req.src < 2 ^ 20) (hd : r.req.dest = .ack) :
    ∃ f : Slot → Slot, exec (.remoteStoreAck id) s = .next (((s.takeRep r).modSlot r.req.src f).askMatrix (srcCore r.req.src)) ∧
      ∀ sl, (f sl).unack = sl.unack - 1 ∧ (∀ v, r.ans = .ok v → (f sl).failStore = sl.failStore) ∧
        ∀ c, r.ans = .err c → sl.failStore = none → (f sl).failStore = some (id, errAddr r.req c, c) := by
  have he := exec_remoteStoreAck id s
  simp only [execRemoteStoreAck, ha, hw, hd, bne_self_eq_false, Bool.false_eq_true, if_false, modThread_of_slot _ _ hlt] at he
  refine ⟨_, he, fun sl => ⟨?_, fun v hv => ?_, fun c hc hn => ?_⟩⟩
  · split
    · exact (apply_ite Slot.unack _ _ _).trans (ite_self _)
    · rfl
  · simp only [hv]
  · simp only [hc, hn, if_true]

/-- R28: the acknowledgement of a remote store lowers `UNACK`, and an error response is kept as that of the earliest failing store. -/
theorem remoteStoreAck_counts (ha : s.arrived id = some r) (hw : s.repWaits r = false) (hk : r.req.src = k) (hlt : k < 2 ^ 20)
    (hd : r.req.dest = .ack) :
    ∃ t, exec (.remoteStoreAck id) s = .next t ∧ (t.slot k).unack = (s.slot k).unack - 1 ∧
      (∀ v, r.ans = .ok v → (t.slot k).failStore = (s.slot k).failStore) ∧
      (∀ c, r.ans = .err c → (s.slot k).failStore = none → (t.slot k).failStore = some (id, errAddr r.req c, c)) ∧
      t.reps = s.reps.erase r ∧ t.regs = s.regs ∧ sameBytes s t := by
  subst hk
  obtain ⟨f, he, hf⟩ := remoteStoreAck_step ha hw hlt hd
  obtain ⟨a, hm⟩ := askMatrix_only ((s.takeRep r).modSlot r.req.src f) (srcCore r.req.src)
  rw [hm] at he
  obtain ⟨hu, hok, herr⟩ := hf (s.slot r.req.src)
  have hs : State.slot { (s.takeRep r).modSlot r.req.src f with agenda := a } r.req.src = f (s.slot r.req.src) := slot_modSlot_same _ _ f
  refine ⟨_, he, ?_, ?_, ?_, rfl, rfl, fun _ => rfl⟩
  · rw [hs, hu]
  · rw [hs]; exact hok
  · rw [hs]; exact herr

/-- R139: a refused request of a running thread is sent again at once under a new number while the retry count lasts. -/
theorem nacked_retries (hz : (s.slot q.src).frozen = false) (hn : (s.slot q.src).nacks < (s.slot q.src).retry.toNat) :
    ((s.nacked q).slot q.src).st = .waiting ∧ ((s.nacked q).slot q.src).wait = .reply s.nextId ∧
      ((s.nacked q).slot q.src).nacks = (s.slot q.src).nacks + 1 := by
  have he : ∃ p, s.nacked q = (({ s with nextId := s.nextId + 1 } : State).modSlot q.src fun sl =>
      { sl.become .waiting (.reply s.nextId) with nacks := (s.slot q.src).nacks + 1 }).emit p := by
    simp only [State.nacked, hz, State.fresh, hn, Bool.false_eq_true, if_false, if_true]
    exact ⟨_, rfl⟩
  obtain ⟨p, he⟩ := he
  have hs : ({ s with nextId := s.nextId + 1 } : State).slot q.src = s.slot q.src := rfl
  rw [he, (emit_send _ p).slot, slot_modSlot_same, hs, become_of_running _ _ hz]
  exact ⟨rfl, rfl, rfl⟩

/-- R139: once the retry count is used up, the thread parks and the request is sent again after `PARKINT` cycles. -/
theorem nacked_parks (hz : (s.slot q.src).frozen = false) (hn : ¬ (s.slot q.src).nacks < (s.slot q.src).retry.toNat) :
    ((s.nacked q).slot q.src).st = .parked ∧
      ((s.nacked q).slot q.src).wait = .retry s.nextId (s.cycle (coreOf q.src) + (s.slot q.src).parkint.toNat) := by
  have he : (s.nacked q).slot q.src = (s.modSlot q.src fun sl =>
      { sl.become .parked (.retry s.nextId (s.cycle (coreOf q.src) + (s.slot q.src).parkint.toNat)) with
        parkedSince := s.cycle (coreOf q.src), stale := false }).slot q.src := by
    simp only [State.nacked, hz, State.fresh, hn, Bool.false_eq_true, if_false]
    rfl
  rw [he, slot_modSlot_same, become_of_running _ _ hz]
  exact ⟨rfl, rfl⟩

theorem execNackReceived_eq (ha : s.arrived id = some r) (hw : s.repWaits r = false) (hn : r.ans = .nack) :
    exec (.nackReceived id) s = .next ((s.takeRep r).nacked r.req) := by
  simp only [exec_nackReceived, execNackReceived, ha, hw, hn, bne_self_eq_false, Bool.false_eq_true, if_false]

/-- R139: a parked request whose time has come is sent again, and its thread waits for the answer. -/
theorem retryParkExpiry_resends {due : Nat} (hst : (s.slot k).st = .parked) (hwt : (s.slot k).wait = .retry id due)
    (hdue : due ≤ s.cycle (coreOf k)) (hf : s.reqs.find? (·.id == id) = some q) :
    ∃ t, exec (.retryParkExpiry k) s = .next t ∧ (t.slot k).st = .waiting ∧ (t.slot k).wait = .reply id ∧ t.regs = s.regs := by
  have he := exec_retryParkExpiry k s
  simp only [execRetryParkExpiry, hst, hwt, Nat.not_lt.2 hdue, if_false, hf] at he
  have send := emit_send ((s.dropReq id).modSlot k fun sl => { sl with st := .waiting, wait := .reply id }) q
  have hs := (send.slot k).trans (slot_modSlot_same _ k _)
  exact ⟨_, he, by rw [hs], by rw [hs], send.regs⟩

/-! ### Scope misses (R243) -/

/-- The state in which a scope miss has been counted at its thread, and the write-backs of a widened release have set out. -/
def State.missCounted (s : State) (q : Req) : State :=
  let u := (s.countMiss q.src).dropReq q.id
  if q.rel then u.widenRelease (coreOf q.src) (s.narrowOf (coreOf q.src) q) else u

/-- The request as it is sent again, under a new number and at the widened scope. -/
def Req.widened (q : Req) (id scope : Nat) : Req := { q with id := id, scope := scope, miss := false }

theorem missCounted_send (s : State) (q : Req) : SendFrame ((s.countMiss q.src).dropReq q.id) (s.missCounted q) :=
  (widenRelease_send _ _ _).ite (.refl _)

theorem missCounted_slot (hk : q.src < 2 ^ 20) : (s.missCounted q).slot q.src =
    { s.slot q.src with scopemiss := Nat.min ((s.slot q.src).scopemiss + 1) (2 ^ 32 - 1) } := by
  rw [(missCounted_send s q).slot]
  show (s.countMiss q.src).slot q.src = _
  rw [State.countMiss, modThread_of_slot _ _ hk, slot_modSlot_same]

theorem countMiss_nextId (hk : k < 2 ^ 20) : (s.countMiss k).nextId = s.nextId := by
  rw [State.countMiss, modThread_of_slot _ _ hk, modSlot_nextId]

theorem missCounted_nextId_le (hk : q.src < 2 ^ 20) : s.nextId ≤ (s.missCounted q).nextId := by
  rw [← countMiss_nextId hk]
  exact (missCounted_send s q).nextId

theorem missCounted_nextId (hk : q.src < 2 ^ 20) (hr : q.rel = false) : (s.missCounted q).nextId = s.nextId := by
  simp only [State.missCounted, hr, Bool.false_eq_true, if_false]
  exact countMiss_nextId hk

/-- R243: a request that missed its scope is held back or sent in the state in which the miss is counted and its thread waits for it. -/
theorem scopeMissReturn_step (hf : s.reqs.find? (·.id == id) = some q) (hm : q.miss = true) (hk : q.src < 2 ^ 20) :
    ∃ (u p : _) (c : Bool), u = ({ s.missCounted q with nextId := (s.missCounted q).nextId + 1 } : State).modSlot q.src
        (fun sl => sl.become .waiting (.reply (s.missCounted q).nextId)) ∧
      p = q.widened (s.missCounted q).nextId (s.narrowOf (coreOf q.src) q) ∧
      exec (.scopeMissReturn id) s = .next (if c then u.holdBack p else u.emit p) := by
  have hid : q.id = id := by simpa using List.find?_some hf
  subst hid
  have he := exec_scopeMissReturn q.id s
  simp only [execScopeMissReturn, hf, hm, Nat.not_le.2 hk, decide_false, Bool.not_true, Bool.or_self, Bool.false_eq_true, if_false] at he
  exact ⟨_, _, _, rfl, rfl, he⟩

/-- R243: a request that missed its scope is counted at its thread, which waits for it under its new number, and is under way again at the
narrowest scope that contains its home. -/
theorem scopeMissReturn_widens (hf : s.reqs.find? (·.id == id) = some q) (hm : q.miss = true) (hk : q.src < 2 ^ 20)
    (hz : (s.slot q.src).frozen = false) :
    ∃ t n, exec (.scopeMissReturn id) s = .next t ∧ (t.slot q.src).wait = .reply n ∧ s.nextId ≤ n ∧ (q.rel = false → n = s.nextId) ∧
      (t.slot q.src).scopemiss = Nat.min ((s.slot q.src).scopemiss + 1) (2 ^ 32 - 1) ∧
      ((∃ p ∈ t.reqs, p.id = n ∧ p.scope = s.narrowOf (coreOf q.src) q ∧ p.miss = false) ∨ ∃ r ∈ t.reps, r.req.id = n) := by
  obtain ⟨u, p, c, hu, hp, he⟩ := scopeMissReturn_step hf hm hk
  have send : SendFrame u (if c then u.holdBack p else u.emit p) := (holdBack_send u p).ite (emit_send u p)
  have way : underWay (if c then u.holdBack p else u.emit p) p := by
    have hsrc : p.src ≠ foreignSrc := by rw [hp]; exact slot_ne_foreign hk
    split
    · exact holdBack_underWay u p
    · exact emit_underWay u hsrc
  have hslot : u.slot q.src = ((s.missCounted q).slot q.src).become .waiting (.reply (s.missCounted q).nextId) := by
    rw [hu, slot_modSlot_same]
    rfl
  rw [missCounted_slot hk, become_of_running (h := by exact hz)] at hslot
  refine ⟨_, (s.missCounted q).nextId, he, ?_, missCounted_nextId_le hk, missCounted_nextId hk, ?_, ?_⟩
  · rw [send.slot, hslot]
  · rw [send.slot, hslot]
  · refine way.imp (fun ⟨x, hx, same⟩ => ⟨x, hx, ?_⟩) fun ⟨x, hx, same⟩ => ⟨x, hx, same.trans (by rw [hp]; rfl)⟩
    obtain ⟨hid, hscope, hmiss⟩ := sameReq_keeps same
    rw [hid, hscope, hmiss, hp]
    exact ⟨rfl, rfl, rfl⟩

/-! ## Requests at their homes (R234, R259, R336) -/

/-- The lookup by number gives a request of that number. -/
theorem id_of_find {l : List Req} (h : l.find? (·.id == id) = some q) : q.id = id := by simpa using List.find?_some h

/-- Where nothing holds a request up, its arrival goes on at the bank or at the other home of its place. -/
theorem homeAccess_step (hf : s.reqs.find? (·.id == id) = some q) (hq : atItsHome s q) :
    (isHbm q.place = false → exec (.homeAccess id) s = .next (s.perform q)) ∧
      (isHbm q.place = true → ∀ t, s.atBank q = some t → exec (.homeAccess id) s = .next t) := by
  obtain ⟨hmiss, hdrain, hlock, hhops, hretry, hconf, hover, haway, hvia, hearly, hpair⟩ := hq
  have hconf' : (s.cache.conflict.any (·.2 == id)) = false := by
    simpa [List.any_eq_false, id_of_find hf] using hconf
  have hpair' : (ofCore q.src && homeUnit q.place / 2 ^ 16 == 1 && s.behindPair (srcCore q.src) (homeUnit q.place % 2 ^ 16) q.id) = false := by
    by_cases h : homeUnit q.place / 2 ^ 16 = 1 ∧ ofCore q.src = true
    · rw [hpair h.1 h.2, Bool.and_false]
    · have : (ofCore q.src && homeUnit q.place / 2 ^ 16 == 1) = false := by simpa [and_comm, imp_not_comm] using h
      rw [this, Bool.false_and]
  have he := exec_homeAccess id s
  simp only [execHomeAccess, hf, hmiss, hdrain, hlock, hhops, hretry, hconf', hover, hpair', haway, hvia, hearly, bne_self_eq_false,
    Bool.or_self, Bool.false_eq_true, if_false] at he
  refine ⟨fun h => ?_, fun h t ht => ?_⟩
  · simpa only [h, Bool.false_eq_true, if_false] using he
  · simpa only [h, ht, if_true] using he

/-- A bank takes a request to a line that is free and that nothing waits for (R259). -/
theorem atBank_of_free (hp : s.portShut (homeBank q.place) = false) (hl : s.lockHeld (q.place / 128) = false)
    (hc : ∀ p ∈ s.cache.conflict, p.1 ≠ q.place / 128) : s.atBank q = some (s.lockFree q) := by
  have hc' : (s.cache.conflict.any (·.1 == q.place / 128)) = false := by simpa [List.any_eq_false] using hc
  simp only [State.atBank, hp, hl, hc', Bool.or_self, Bool.false_eq_true, if_false]

/-- A request to a locked line enters the conflict queue (R259). -/
theorem atBank_of_locked (hp : s.portShut (homeBank q.place) = false) (hl : s.lockHeld (q.place / 128) = true) :
    s.atBank q = some { s with cache := { s.cache with conflict := s.cache.conflict ++ [(q.place / 128, q.id)] } } := by
  simp only [State.atBank, hp, hl, Bool.true_or, Bool.false_eq_true, if_false, if_true]

/-- A request that finds its line at the bank is performed, unless a write has to recall a hot line first (R259, R263). -/
theorem lockFree_of_hit {l : Line} (hl : find s.cache.l2 (q.place / 128) = some l) (hk : l.key = q.key)
    (hh : s.changes q = true → s.hotOf (q.place / 128) = none) : s.lockFree q = s.perform q := by
  have has : s.l2Has (q.place / 128) q.key = true := by simp [State.l2Has, hl, hk]
  have cold : ((s.hotOf (q.place / 128)).isSome && s.changes q) = false := by
    cases hc : s.changes q with
    | false => simp
    | true => simp [hh hc]
  simp only [State.lockFree, has, Bool.not_true, Bool.or_false, cold, Bool.false_eq_true, if_false, if_true]

/-- A request that misses takes the line lock and asks the line's stack (R259, R253). -/
theorem lockFree_of_miss (hl : find s.cache.l2 (q.place / 128) = none) (hh : s.hotOf (q.place / 128) = none)
    (ht : q.op = .touch → q.scope ≠ 5) : s.lockFree q = State.askStack
      { s.modReq q.id (fun p => { p with locked := true }) with
        cache := { s.cache with locks := s.cache.locks ++ [(q.place / 128, q.id)] } } (q.place / 128) := by
  have has : s.l2Has (q.place / 128) q.key = false := by simp [State.l2Has, hl]
  have touch : (q.op = .touch && q.scope = 5) = false := by simpa using ht
  simp only [State.lockFree, has, hh, touch, Option.isSome_none, Bool.false_and, Bool.false_eq_true, if_false]
  rfl

theorem askStack_send (s : State) (line : Nat) : SendFrame s (s.askStack line) := (later_send s _ .any).ite (travel_send s _ _ _ _ _)

/-- The miss of a bank is on its way to the line's stack, and its fill at once where the stack stands at the same die (R253). -/
theorem askStack_asks (s : State) (line : Nat) :
    if stackOf line / 2 = homeBank (128 * line) / 1024 then planned (s.askStack line) (.bankMissFill line)
    else setsOut (s.askStack line) (.stackRead line) (homeBank (128 * line) / 1024) (stackOf line / 2) := by
  unfold State.askStack
  dsimp only
  split
  · exact planned_later s _
  · exact travel_setsOut s _ _ _ _ _

/-- R259: a request that misses in its bank waits under its line's lock for the fill. -/
theorem homeAccess_of_miss (hf : s.reqs.find? (·.id == id) = some q) (hq : atItsHome s q) (hb : isHbm q.place = true)
    (hp : s.portShut (homeBank q.place) = false) (hl : s.lockHeld (q.place / 128) = false) (hc : ∀ p ∈ s.cache.conflict, p.1 ≠ q.place / 128)
    (hm : find s.cache.l2 (q.place / 128) = none) (hh : s.hotOf (q.place / 128) = none) (ht : q.op = .touch → q.scope ≠ 5) :
    ∃ t, exec (.homeAccess id) s = .next t ∧ (q.place / 128, id) ∈ t.cache.locks ∧ sameBytes s t ∧
      if stackOf (q.place / 128) / 2 = homeBank (128 * (q.place / 128)) / 1024 then planned t (.bankMissFill (q.place / 128))
      else setsOut t (.stackRead (q.place / 128)) (homeBank (128 * (q.place / 128)) / 1024) (stackOf (q.place / 128) / 2) := by
  refine ⟨_, (homeAccess_step hf hq).2 hb _ (atBank_of_free hp hl hc), ?_⟩
  rw [lockFree_of_miss hm hh ht, id_of_find hf]
  have send := askStack_send { s.modReq id (fun p => { p with locked := true }) with
    cache := { s.cache with locks := s.cache.locks ++ [(q.place / 128, id)] } } (q.place / 128)
  refine ⟨?_, send.bytes, askStack_asks _ _⟩
  rw [send.locks]
  exact List.mem_append_right _ (List.mem_singleton_self _)

/-- R336: a held access whose turn has come goes on to its home. -/
theorem replayHeldAccess_releases (hf : s.heldReqs.find? (·.id == id) = some q) (hq : s.early q = false) :
    ∃ t, exec (.replayHeldAccess id) s = .next t ∧ q ∈ t.reqs ∧ (∀ p ∈ t.heldReqs, p.id ≠ id) ∧ planned t (.homeAccess id) := by
  have he := exec_replayHeldAccess id s
  simp only [execReplayHeldAccess, hf, hq, Bool.false_eq_true, if_false] at he
  refine ⟨_, he, List.mem_append_right _ (List.mem_singleton_self q), fun p hp => ?_, planned_later _ _⟩
  simpa using (List.mem_filter.1 hp).2

/-! ## Combined requests (R256, R250) -/

theorem mem_dropReq {p : Req} : p ∈ (s.dropReq id).reqs ↔ p ∈ s.reqs ∧ p.id ≠ id := by
  simp [State.dropReq]

/-- The request that stands for two combined ones (R256). -/
def State.joined (s : State) (p q : Req) : Req :=
  { p with id := s.nextId, src := splitSrc, who := if p.src < foreignSrc then s.threadName p.src else p.who,
           v1 := combinedOperand p.op p.v1 q.v1, dest := .discard }

/-- The answer that one part of a combined request gets, given with the combined one's (R256, R257). -/
def State.partRep (s : State) (q : Req) (a : HomeAns) (since : Nat) : Rep :=
  let die := if ofCore q.src then dieOf (srcCore q.src) else 0
  { s.repFor q a (homeDie q.place die) die with since := since }

/-- R256: two requests that meet are replaced by one, which stands for both and carries the sum of their operands. -/
theorem omegaCombine_joins {i j : Nat} {p q : Req} (hp : s.reqs.find? (·.id == i) = some p) (hq : s.reqs.find? (·.id == j) = some q)
    (hc : s.combines p q = true) (hrp : s.inRetry p = false) (hrq : s.inRetry q = false) :
    ∃ t c, exec (.omegaCombine i j) s = .next t ∧ c ∈ t.reqs ∧ c.id = s.nextId ∧ c.place = p.place ∧ c.region = p.region ∧
      (∀ w, p.op = .atomic .add w → c.op = p.op ∧ c.v1 = p.v1 + q.v1) ∧
      (∃ x ∈ t.splits, x.id = s.nextId ∧ x.first = p ∧ x.second = q) ∧
      (s.nextId ≠ i → s.nextId ≠ j → ∀ r ∈ t.reqs, r.id ≠ i ∧ r.id ≠ j) := by
  have he := exec_omegaCombine i j s
  simp only [execOmegaCombine, hp, hq, hc, hrp, hrq, Bool.not_true, Bool.or_self, Bool.false_eq_true, if_false] at he
  refine ⟨_, s.joined p q, he, ?_, rfl, rfl, rfl, fun w hw => ⟨rfl, ?_⟩, ?_, fun hi hj r hr => ?_⟩
  · rw [mayCombine_reqs]
    exact List.mem_append_right _ (List.mem_singleton_self _)
  · simp only [State.joined, hw, combinedOperand]
  · rw [mayCombine_splits]
    exact ⟨_, List.mem_append_right _ (List.mem_singleton_self _), rfl, rfl, rfl⟩
  · rw [mayCombine_reqs] at hr
    rcases List.mem_append.1 hr with hr | hr
    · obtain ⟨hr, hrj⟩ := mem_dropReq.1 hr
      exact ⟨(mem_dropReq.1 hr).2, hrj⟩
    · rw [List.mem_singleton.1 hr]
      exact ⟨hi, hj⟩

/-- R256: the answer to a combined addition goes to its first part as it is, and to the second raised by the first's operand. -/
theorem combinedReplySplit_answers {p : Split} {v : Word} (hr : s.reps.find? (fun r => r.req.id == id && r.req.src == splitSrc) = some r)
    (hp : s.splits.find? (·.id == id) = some p) (hv : r.ans = .ok v) (hop : p.first.op = .atomic .add .d) :
    ∃ t a b, exec (.combinedReplySplit id) s = .next t ∧ a ∈ t.reps ∧ a.req.id = p.first.id ∧ a.ans = .ok v ∧
      b ∈ t.reps ∧ b.req.id = p.second.id ∧ b.ans = .ok (v + p.first.v1) := by
  have he := exec_combinedReplySplit id s
  simp only [execCombinedReplySplit, hr, hp, hv, splitAnswers, hop] at he
  have pair (x y : Rep) (z : Rep) (hz : z ∈ [x, y]) : z ∈ s.reps.flatMap fun z => if z = r then [x, y] else [z] :=
    List.mem_flatMap.2 ⟨r, List.mem_of_find?_eq_some hr, by rwa [if_pos rfl]⟩
  refine ⟨_, s.partRep p.first (.ok v) r.since, s.partRep p.second (.ok (v + p.first.v1)) r.since, he, ?_, rfl, rfl, ?_, rfl, rfl⟩
  · rw [sendRep_reps, sendRep_reps]
    exact pair _ _ _ List.mem_cons_self
  · rw [sendRep_reps, sendRep_reps]
    exact pair _ _ _ (List.mem_cons_of_mem _ List.mem_cons_self)

end Sys2Proof.Machine
end

section
namespace Sys2Proof.Machine

/-- Settles O46: each clause is the law of its event: an answer at its source, a retry, a scope miss, the arrival at a home, a combination and
its split. -/
theorem answersAndRequests : Obligations.AnswersAndRequests := by
  unfold Obligations.AnswersAndRequests
  refine ⟨fun s id k r ha hw hk hlt => ⟨fun v rg ext hv hq hd => replyArrival_writes ha hw hk hv hq hd,
      fun hd => remoteStoreAck_counts ha hw hk hlt hd, fun hn hz => ⟨_, execNackReceived_eq ha hw hn, ?_⟩⟩,
    fun s k id due q hst hwt hdue hf => retryParkExpiry_resends hst hwt hdue hf,
    fun s id q hf => ⟨fun hm hk hz => scopeMissReturn_widens hf hm hk hz, fun hq => ⟨(homeAccess_step hf hq).1, ?_, ?_⟩⟩,
    fun s id q hf hq => replayHeldAccess_releases hf hq,
    fun s i j p q hp hq hc hrp hrq => omegaCombine_joins hp hq hc hrp hrq,
    fun s id r p v hr hp hv hop _ _ => combinedReplySplit_answers hr hp hv hop⟩
  · subst hk
    split
    · next hn => exact nacked_retries (s := s.takeRep r) hz hn
    · next hn => exact nacked_parks (s := s.takeRep r) hz hn
  · intro hb hp hl hc hh
    refine ⟨fun l hm hk => ?_, fun hm hcold ht => homeAccess_of_miss hf hq hb hp hl hc hm hcold ht⟩
    rw [← lockFree_of_hit hm hk hh]
    exact (homeAccess_step hf hq).2 hb _ (atBank_of_free hp hl hc)
  · intro hb hp hl
    refine ⟨_, (homeAccess_step hf hq).2 hb _ (atBank_of_locked hp hl), ?_, fun _ => rfl⟩
    rw [id_of_find hf]

end Sys2Proof.Machine
end

section
namespace Sys2Proof.Machine

/-! ## Energy (R314, R315) -/

/-- Energy added to a counter touches the regions' counters and region 0's alone. -/
theorem credit_only (s : State) (region nj : Nat) : ∃ g n, s.credit region nj = { s with regions := g, host := { s.host with spent0 := n } } := by
  unfold State.credit
  split
  · exact ⟨_, s.host.spent0, rfl⟩
  · exact ⟨s.regions, _, rfl⟩

/-- A charge touches remainders, energy counters and bills alone. -/
theorem chargeTag_only (s : State) (unit tag amount : Nat) : ∃ m g n b, s.chargeTag unit tag amount =
    { s with rems := m, regions := g, host := { s.host with spent0 := n, bills := b } } := by
  unfold State.chargeTag
  dsimp only
  generalize (find s.rems (unit * 2 ^ 28 + tag)).getD 0 + amount = sum
  generalize put s.rems (unit * 2 ^ 28 + tag) (sum % 1024) = m
  split
  · obtain ⟨g, n, h⟩ := credit_only { s with rems := m } (tag % 65536) (sum / 1024)
    exact ⟨m, g, n, s.host.bills, h⟩
  · exact ⟨m, s.regions, s.host.spent0, _, rfl⟩

theorem charge_only (s : State) (unit region amount : Nat) : ∃ m g n b, s.charge unit region amount =
    { s with rems := m, regions := g, host := { s.host with spent0 := n, bills := b } } := chargeTag_only s unit _ amount

variable {s : State}

/-- R315: a charge for region 0, or for a region that has ended, goes to region 0. -/
theorem credit_device {region : Nat} (nj : Nat) (h : region = 0 ∨ s.region? region = none) :
    (s.credit region nj).host.spent0 = sat64 (s.host.spent0 + nj) := by
  have hn : (if region = 0 then none else find s.regions region) = none := by
    split
    · rfl
    · next h0 => exact h.resolve_left h0
  simp only [State.credit, hn]

/-- R314: a charge for a live region is added to its counter, which is held at its greatest value. -/
theorem credit_region {region : Nat} {g : Region} (nj : Nat) (h0 : region ≠ 0) (hg : s.region? region = some g) :
    ((s.credit region nj).region? region).map Region.spent = some (sat64 (g.spent + nj)) := by
  have hs : (if region = 0 then none else find s.regions region) = some g := by rwa [if_neg h0]
  simp only [State.credit, hs, State.region?, find_put_same, Option.map_some]

theorem billingReceive_credits (region nj : Nat) : ∃ t, exec (.billingReceive region nj) s = .next t ∧ t.slots = s.slots ∧ sameBytes s t ∧
    (region = 0 ∨ s.region? region = none → t.host.spent0 = sat64 (s.host.spent0 + nj)) ∧
    ∀ g, region ≠ 0 → s.region? region = some g → (t.region? region).map Region.spent = some (sat64 (g.spent + nj)) := by
  obtain ⟨g, n, h⟩ := credit_only s region nj
  refine ⟨s.credit region nj, exec_billingReceive region nj s, ?_, ?_, credit_device nj, fun g h0 hg => credit_region nj h0 hg⟩
  · rw [h]
  · rw [h]; exact fun _ => rfl

/-- A bill that is sent, or stays, takes no time. -/
theorem sendBill_time (s : State) (tag nj : Nat) : (s.sendBill tag nj).time = s.time := by
  unfold State.sendBill
  split
  · next t h => exact (relaySend_send h).time
  · rfl

theorem sendBills_time (l : Tab Nat) : ∀ s : State, (l.foldl (fun t p => t.sendBill p.1 p.2) s).time = s.time := by
  induction l with
  | nil => exact fun _ => rfl
  | cons p l ih => exact fun s => (ih _).trans (sendBill_time s p.1 p.2)

/-- R314: a billing period ends, and the next one with it. -/
theorem billingSend_repeats : ∃ t, exec .billingSend s = .next t ∧ t.host.lastBill = s.time ∧ plannedAt t .billingSend (s.time + 10000) := by
  obtain ⟨m, g, n, b, h⟩ := charge_only s deviceWork 0 (s.cost 7)
  have he := exec_billingSend s
  simp only [execBillingSend, h] at he
  have ht := sendBills_time b { s with rems := m, regions := g, host := { s.host with spent0 := n, bills := b } }
  refine ⟨_, he, ht, ?_⟩
  rw [show s.time = _ from ht.symm]
  exact due_of_later _ _ _

/-! ## Levels (R310, R311) -/

/-- R311: at a cycle that is a multiple of 64 the clock of a tile stops for its new level, and restarts within 2 µs. -/
theorem levelChange_stops {tile : Nat} (hst : (s.tile tile).stopped = false) (ht : s.levelTarget tile ≠ (s.tile tile).level)
    (hl : s.atLap tile = true) :
    ∃ t, exec (.levelChange tile) s = .next t ∧ (t.tile tile).stopped = true ∧ (t.tile tile).target = some (s.levelTarget tile) ∧
      ∃ n ≤ s.time + 2000, s.time ≤ n ∧ plannedAt t (.clockRestart tile) n := by
  obtain ⟨m, g, n, b, h⟩ := charge_only s deviceWork 0 (s.cost 6)
  have he := exec_levelChange tile s
  simp only [execLevelChange, hst, ht, hl, h, decide_false, Bool.or_self, Bool.not_true, Bool.false_eq_true, if_false] at he
  refine ⟨_, he, ?_, ?_, s.time + Config.freeNat s.tick % 2001, by omega, Nat.le_add_right _ _, due_of_later _ _ _⟩
  · rw [later_tile, tile_modTile_same]
  · rw [later_tile, tile_modTile_same]
    rfl

/-- R311: a stopped clock runs again, at the cycle at which it stopped and at its new level. -/
theorem clockRestart_runs {tile : Nat} (hst : (s.tile tile).stopped = true) :
    ∃ t, exec (.clockRestart tile) s = .next t ∧ (t.tile tile).stopped = false ∧ (t.tile tile).edge = s.now ∧
      (t.tile tile).cycle = (s.tile tile).cycle ∧ (t.tile tile).level = (s.tile tile).target.getD (s.tile tile).level := by
  have he := exec_clockRestart tile s
  simp only [execClockRestart, hst, Bool.not_true, Bool.false_eq_true, if_false] at he
  refine ⟨_, he, ?_⟩
  rw [tile_modTile_same]
  exact ⟨rfl, rfl, rfl, rfl⟩

/-! ## The semaphore (R327) -/

theorem ctlsemTimeout_frees (hs : s.host.sem ≠ none) (ht : s.host.semSeen + 1000000000 ≤ s.time) :
    ∃ t, exec .ctlsemTimeout s = .next t ∧ t.host.sem = none := by
  have held : s.host.sem.isNone = false := Option.isNone_eq_false_iff.2 (Option.isSome_iff_ne_none.2 hs)
  have he := exec_ctlsemTimeout s
  simp only [execCtlsemTimeout, held, Nat.not_lt.2 ht, decide_false, Bool.or_self, Bool.false_eq_true, if_false] at he
  exact ⟨_, he, rfl⟩

end Sys2Proof.Machine
end

section
namespace Sys2Proof.Machine

/-! ## Power-on and discovery (R18, R339, R344) -/

theorem mem_insertNat {l : List Nat} {a c : Nat} : c ∈ insertNat l a ↔ c = a ∨ c ∈ l := by
  induction l with
  | nil => simp [insertNat]
  | cons b r ih =>
    unfold insertNat
    split
    · exact List.mem_cons
    · split
      · next h => simp [h]
      · simp only [List.mem_cons, ih]
        exact or_left_comm

theorem range'_eq (n : Nat) : ∀ lo, range' lo n = List.range' lo n := by
  induction n with
  | zero => exact fun _ => rfl
  | succ n ih => exact fun lo => congrArg (lo :: ·) (ih (lo + 1))

variable {s : State}

/-- The firmware image that power-on verifies: a staged one first (R339). -/
def State.bootFirmware (s : State) : List Byte := if s.host.fwStaged = [] then s.host.firmware.getD Config.firmware else s.host.fwStaged

/-- R339: firmware that fails leaves the module in recovery. -/
theorem powerOnReset_recovers (h0 : s.host.stage = 0) (hok : Config.firmwareOk s.bootFirmware = false) :
    exec .powerOnReset s = .next { s with host := { s.host with stage := 1, fwStaged := [] } } := by
  unfold State.bootFirmware at hok
  have he := exec_powerOnReset s
  simp only [execPowerOnReset, h0, hok, bne_self_eq_false, Bool.not_false, Bool.false_eq_true, if_false, if_true] at he
  exact he

/-! What a charge leaves as it is. -/

theorem charge_stage (u : State) (unit region amount : Nat) : (u.charge unit region amount).host.stage = u.host.stage := by
  obtain ⟨m, g, n, b, h⟩ := charge_only u unit region amount
  rw [h]

theorem charge_retired (u : State) (unit region amount : Nat) : (u.charge unit region amount).host.retired = u.host.retired := by
  obtain ⟨m, g, n, b, h⟩ := charge_only u unit region amount
  rw [h]

theorem charge_core (u : State) (unit region amount core : Nat) : (u.charge unit region amount).core core = u.core core := by
  obtain ⟨m, g, n, b, h⟩ := charge_only u unit region amount
  rw [h]
  rfl

theorem charge_time (u : State) (unit region amount : Nat) : (u.charge unit region amount).time = u.time := by
  obtain ⟨m, g, n, b, h⟩ := charge_only u unit region amount
  rw [h]
  rfl

/-- From stage 2 on core (0,0) of Q0 is released, unless its control word says otherwise (R339). -/
theorem released_zero {t : State} (ht : t.host.stage = 2) (hr : (t.core 0).released = none) : t.released 0 = true := by
  simp only [State.released, hr, ht, if_true, Nat.le_refl, decide_true]

theorem plannedAt_later (s : State) (e f : Ev) (w : When) {n m : Nat} (h : n = m) : plannedAt ((s.later e (.time n)).later f w) e m := by
  subst h
  obtain ⟨d, hd, he⟩ := due_of_later s e (.time n)
  exact ⟨d, (later_send _ f w).agenda hd, he⟩

/-- R339, R344: verified firmware releases core (0,0) of Q0, and discovery begins. -/
theorem powerOnReset_discovers (h0 : s.host.stage = 0) (hok : Config.firmwareOk s.bootFirmware = true) :
    ∃ t, exec .powerOnReset s = .next t ∧ t.host.stage = 2 ∧ t.host.retired = bootRetired ∧
      ((s.core 0).released = none → t.released 0 = true) ∧
      planned t (.discoveryFloodReceive 0 ((s.host.round + 1) % 65536)) ∧ plannedAt t .discoveryTimeout (s.time + 1000000) := by
  unfold State.bootFirmware at hok
  have he := exec_powerOnReset s
  simp only [execPowerOnReset, h0, hok, bne_self_eq_false, Bool.not_true, Bool.false_eq_true, if_false] at he
  refine ⟨_, he, ?_, ?_, fun hr => released_zero ?_ ?_, ?_, ?_⟩
  · simp only [later_host, charge_stage]
  · simp only [later_host, charge_retired]
  · simp only [later_host, charge_stage]
  · simp only [later_core, charge_core]
    exact hr
  · exact (later_send _ _ _).planned ((later_send _ _ _).planned (planned_later _ _))
  · refine plannedAt_later _ _ _ _ ?_
    rw [charge_time]
    rfl

/-! ### Discovery -/

/-- Every position to which a flood goes on has its packet set out. -/
theorem floods_setOut {core round c : Nat} {l : List Nat} (hc : c ∈ l) (s : State) :
    setsOut (l.foldl (fun t c => t.floodTo core round c) s) (.discoveryFloodReceive c round) (dieOf core) (dieOf c) := by
  induction l generalizing s with
  | nil => cases hc
  | cons a l ih =>
    rcases List.mem_cons.1 hc with rfl | hc
    · exact (SendFrame.foldl (fun t c => t.floodTo core round c) (fun t a => travel_send t _ _ _ _ _) l _).setsOut (travel_setsOut s _ _ _ _ _)
    · exact ih hc _

/-- R344: the first copy of a round goes on to the positions beside, and the position answers core (0,0) of Q0. -/
theorem discoveryFloodReceive_floods {core : Nat} (h2 : s.host.stage = 2) (hc : core < 4096) (hf : core ∉ s.host.flooded)
    (hb : core = 0 ∨ ∃ c ∈ beside core, c ∈ s.host.flooded) :
    ∃ t, exec (.discoveryFloodReceive core s.host.round) s = .next t ∧ core ∈ t.host.flooded ∧
      setsOut t (.discoveryAnswer core s.host.round) (dieOf core) 0 ∧
      ∀ c ∈ beside core, c ∉ s.host.flooded → c ≠ core → setsOut t (.discoveryFloodReceive c s.host.round) (dieOf core) (dieOf c) := by
  have near : (core == 0 || (beside core).any s.host.flooded.contains) = true := by simpa using hb
  have new : s.host.flooded.contains core = false := by simpa using hf
  have he := exec_discoveryFloodReceive core s.host.round s
  simp only [execDiscoveryFloodReceive, h2, near, new, Nat.not_le.2 hc, bne_self_eq_false, decide_false, Bool.not_true, Bool.or_self,
    Bool.false_eq_true, if_false] at he
  have flood (l : List Nat) (u : State) : SendFrame u (l.foldl (fun t c => t.floodTo core s.host.round c) u) :=
    SendFrame.foldl _ (fun t a => travel_send t _ _ _ _ _) l u
  refine ⟨_, he, ?_, travel_setsOut _ _ _ _ _ _, fun c hc hcf hne => ?_⟩
  · rw [(travel_send _ _ _ _ _ _).flooded, (flood _ _).flooded]
    exact mem_insertNat.2 (.inl rfl)
  · refine (travel_send _ _ _ _ _ _).setsOut (floods_setOut (List.mem_filter.2 ⟨hc, ?_⟩) _)
    simpa [mem_insertNat] using ⟨hne, hcf⟩

/-- Lines written back and dropped change caches and storage alone. -/
theorem uncache_frame (s : State) (l : List Nat) : HomeFrame s (s.uncache l) :=
  HomeFrame.foldl _ (fun t a => (((cleanL2_frame t a).trans (dropL2_frame _ a)).trans (cleanMsc_frame _ a)).trans (dropMsc_frame _ a)) l s

/-- Placing the boot thread leaves the host interface as it is, but for what the caches log. -/
theorem placeBoot_host (s : State) : ∃ l n e, s.placeBoot.host = { s.host with log := l, logCount := n, ecccnt := e } := by
  have h : s.placeBoot.host = (s.uncache bootLines).host := by
    simp only [State.placeBoot]
  rw [h, (uncache_frame s bootLines).eq]
  exact ⟨_, _, _, rfl⟩

theorem placeBoot_slot (s : State) : s.placeBoot.slot 1 = bootSlot := by
  simp only [State.placeBoot, State.slot, find_put_same, Option.getD_some]

/-- The refusals of discovery once a position has answered (R18). -/
def State.refusalsWith (s : State) (core : Nat) : List Nat := if s.retired core then insertNat s.host.refusals core else s.host.refusals

theorem mem_refusalsWith {core : Nat} : core ∈ s.refusalsWith core ↔ core ∈ s.host.refusals ∨ s.retired core = true := by
  unfold State.refusalsWith
  split
  · next h => simp [mem_insertNat, h]
  · next h => simp [h]

/-- R344, R339: an answer is noted, with the error response of a retired position; the last of 4,096 writes the live map and places the
boot thread. -/
theorem discoveryAnswer_notes {core : Nat} (h2 : s.host.stage = 2) (hf : core ∈ s.host.flooded) (ha : core ∉ s.host.answered) :
    ∃ t, exec (.discoveryAnswer core s.host.round) s = .next t ∧ core ∈ t.host.answered ∧
      (core ∈ t.host.refusals ↔ core ∈ s.host.refusals ∨ s.retired core = true) ∧
      if (insertNat s.host.answered core).length < 4096 then t.host.stage = 2 ∧ t.slots = s.slots
      else t.host.stage = 3 ∧ t.host.mapped = true ∧ t.slot 1 = bootSlot ∧ ∀ c, c ∈ t.host.logical ↔ c < 4096 ∧ c ∉ t.host.refusals := by
  have came : s.host.flooded.contains core = true := by simpa using hf
  have new : s.host.answered.contains core = false := by simpa using ha
  have he := exec_discoveryAnswer core s.host.round s
  simp only [execDiscoveryAnswer, h2, came, new, bne_self_eq_false, Bool.not_true, Bool.or_self, Bool.false_eq_true, if_false] at he
  rw [← State.refusalsWith] at he
  by_cases hl : (insertNat s.host.answered core).length < 4096
  · simp only [hl, if_true] at he ⊢
    exact ⟨_, he, mem_insertNat.2 (.inl rfl), mem_refusalsWith, rfl, rfl⟩
  · simp only [hl, if_false] at he ⊢
    obtain ⟨l, n, e, hh⟩ := placeBoot_host { s with host := { s.host with
      answered := insertNat s.host.answered core, refusals := s.refusalsWith core,
      logical := (range' 0 4096).filter fun c => !(s.refusalsWith core).contains c, mapped := true, stage := 3 } }
    refine ⟨_, he, ?_⟩
    rw [hh, placeBoot_slot]
    refine ⟨mem_insertNat.2 (.inl rfl), mem_refusalsWith, rfl, rfl, rfl, fun c => ?_⟩
    simp [range'_eq, List.mem_range'_1]

/-- R344: where discovery has not ended in time, boot stops at stage 1 and the log counts an entry. -/
theorem discoveryTimeout_stops (h2 : s.host.stage = 2) (ht : s.host.discoveryBegan + 1000000 ≤ s.time) :
    ∃ t, exec .discoveryTimeout s = .next t ∧ t.host.stage = 1 ∧ t.host.logCount = s.host.logCount + 1 := by
  have he := exec_discoveryTimeout s
  simp only [execDiscoveryTimeout, h2, Nat.not_lt.2 ht, bne_self_eq_false, Bool.false_eq_true, if_false] at he
  exact ⟨_, he, rfl, rfl⟩

/-! ## Replayed inputs (R336) -/

theorem tellAll_tells (s : State) {e : Told} {l : List Told} (h : e ∈ l) : tells (s.tellAll l) e :=
  ⟨⟨_, List.mem_append_right _ (List.mem_map_of_mem (List.mem_map_of_mem h)), rfl, rfl⟩, List.mem_append_right _ h⟩

/-- What an input of a replay does: where it is an epoch, each region under the replayed one is told of the change of pace. -/
theorem replayExternalInput_delivers {region : Nat} {input : ExtInput} {c : Capture}
    (hf : s.host.captures.find? (fun c => c.region == region && c.replay) = some c) (hm : CapRec.input input ∈ c.recs) (hd : c.due input = true) :
    ∃ t, exec (.replayExternalInput region input) s = .next t ∧
      ∀ m, input = .pacer m → ∀ p ∈ s.regions, s.isAbove region p.1 = true →
        tells t { region := p.1, code := 3, w1 := BitVec.ofNat 64 (m.pend.getD (m.ceiling, s.time)).1,
                  w2 := BitVec.ofNat 64 (m.pend.getD (m.ceiling, s.time)).2, time := s.time } := by
  have has : c.recs.contains (.input input) = true := by simpa using hm
  have he := exec_replayExternalInput region input s
  simp only [execReplayExternalInput, hf, has, hd, Bool.not_true, Bool.false_eq_true, if_false] at he
  cases input with
  | exwr exno off data => exact ⟨_, he, fun m h => nomatch h⟩
  | relay p => exact ⟨_, he, fun m h => nomatch h⟩
  | pacer m =>
    refine ⟨_, he, fun m' hm' p hp habove => ?_⟩
    cases hm'
    exact tellAll_tells _ (List.mem_map.2 ⟨p.1, List.mem_filter.2 ⟨List.mem_map_of_mem hp, habove⟩, rfl⟩)

end Sys2Proof.Machine
end

section
namespace Sys2Proof.Machine

/-! ## Shutters (R312) -/

variable {s : State} {core : Nat}

/-! ### The order of the positions that hold threads -/

theorem shutsBefore_iff {a b : Nat} : s.shutsBefore core a b = true ↔
    (regionRank s (64 * core + a)).1 < (regionRank s (64 * core + b)).1 ∨
      (regionRank s (64 * core + a)).1 = (regionRank s (64 * core + b)).1 ∧
        ((regionRank s (64 * core + b)).2 < (regionRank s (64 * core + a)).2 ∨
          (regionRank s (64 * core + a)).2 = (regionRank s (64 * core + b)).2 ∧ b < a) := by
  unfold State.shutsBefore regionRank
  cases ha : s.region? (s.slot (64 * core + a)).region <;> cases hb : s.region? (s.slot (64 * core + b)).region <;> simp [ha, hb]

theorem shutsBefore_trans {a b c : Nat} (h : s.shutsBefore core a b = true) (k : s.shutsBefore core b c = true) :
    s.shutsBefore core a c = true := by
  rw [shutsBefore_iff] at *
  omega

/-- Of two positions one is shuttered before the other. -/
theorem shutsBefore_total {a b : Nat} (hne : a ≠ b) (h : ¬ s.shutsBefore core a b = true) : s.shutsBefore core b a = true := by
  rw [shutsBefore_iff] at *
  omega

theorem shutRank_perm (i : Nat) (l : List Nat) : (s.shutRank core i l).Perm (i :: l) := by
  induction l with
  | nil => exact .refl _
  | cons a r ih =>
    unfold State.shutRank
    split
    · exact .refl _
    · exact (ih.cons a).trans (.swap i a r)

theorem shutRank_sorted {i : Nat} {l : List Nat} (hi : i ∉ l) (hl : l.Pairwise fun a b => s.shutsBefore core a b = true) :
    (s.shutRank core i l).Pairwise fun a b => s.shutsBefore core a b = true := by
  induction l with
  | nil => exact List.pairwise_singleton _ _
  | cons a r ih =>
    obtain ⟨ha, hr⟩ := List.pairwise_cons.1 hl
    obtain ⟨hia, hir⟩ := not_or.1 (mt List.mem_cons.2 hi)
    unfold State.shutRank
    split
    · next h => exact List.pairwise_cons.2 ⟨List.forall_mem_cons.2 ⟨h, fun b hb => shutsBefore_trans h (ha b hb)⟩, hl⟩
    · next h =>
      refine List.pairwise_cons.2 ⟨fun b hb => ?_, ih hir hr⟩
      rcases List.mem_cons.1 ((shutRank_perm i r).mem_iff.1 hb) with rfl | hb
      · exact shutsBefore_total hia h
      · exact ha b hb

/-- Positions put one after another into the order of shuttering: they are all there, and in order. -/
theorem foldl_shutRank (ps : List Nat) : ∀ l : List Nat, (ps ++ l).Nodup → (l.Pairwise fun a b => s.shutsBefore core a b = true) →
    (ps.foldl (fun l i => s.shutRank core i l) l).Perm (ps ++ l) ∧
      (ps.foldl (fun l i => s.shutRank core i l) l).Pairwise fun a b => s.shutsBefore core a b = true := by
  induction ps with
  | nil => exact fun l _ hl => ⟨.refl l, hl⟩
  | cons i ps ih =>
    intro l hn hl
    have moved : (ps ++ s.shutRank core i l).Perm (i :: ps ++ l) := ((shutRank_perm i l).append_left ps).trans List.perm_middle
    have hi : i ∉ l := fun h => (List.nodup_cons.1 hn).1 (List.mem_append_right ps h)
    obtain ⟨hp, hs⟩ := ih (s.shutRank core i l) (moved.nodup_iff.2 hn) (shutRank_sorted hi hl)
    exact ⟨hp.trans moved, hs⟩

/-! ### The order of all positions -/

/-- The positions of a core that may be shuttered, the highest first: those that are no system slots. -/
def shutPlaces (core : Nat) : List Nat := ((range' 0 64).filter fun i => !isSystem (64 * core + i)).reverse

theorem mem_shutPlaces {i : Nat} : i ∈ shutPlaces core ↔ i < 64 ∧ isSystem (64 * core + i) = false := by
  simp [shutPlaces, range'_eq, List.mem_range'_1]

theorem shutPlaces_sorted (core : Nat) : (shutPlaces core).Pairwise (· > ·) := by
  rw [shutPlaces, range'_eq]
  exact List.pairwise_reverse.2 ((List.pairwise_lt_range' (s := 0) (n := 64)).filter _)

theorem shutPlaces_nodup (core : Nat) : (shutPlaces core).Nodup := (shutPlaces_sorted core).imp Nat.ne_of_gt

/-- At most two positions of a core are system slots, so that 48 can be shuttered. -/
theorem shutPlaces_length (core : Nat) : 48 ≤ (shutPlaces core).length := by
  have sys : ∀ i ∈ List.range' 0 64, (!isSystem (64 * core + i)) = !(core % 1024 == 0 && decide (i < 2)) := by
    intro i hi
    have hi : i < 64 := by simpa [List.mem_range'_1] using hi
    rw [isSystem, coreOf, slotNo, show (64 * core + i) / 64 = core by omega, show (64 * core + i) % 64 = i by omega]
  rw [shutPlaces, range'_eq, List.length_reverse, List.filter_congr sys]
  cases core % 1024 == 0 <;> decide

/-- A position without a thread. -/
def State.idlePlace (s : State) (core i : Nat) : Bool := (s.slot (64 * core + i)).st == .empty || (s.slot (64 * core + i)).st == .held

/-- The positions of a core that hold threads, in the order of shuttering. -/
def State.busyOrder (s : State) (core : Nat) : List Nat :=
  ((shutPlaces core).filter fun i => !s.idlePlace core i).foldl (fun l i => s.shutRank core i l) []

theorem shutOrder_eq (s : State) (core : Nat) : s.shutOrder core = (shutPlaces core).filter (s.idlePlace core) ++ s.busyOrder core := rfl

theorem busyOrder_spec (s : State) (core : Nat) : (s.busyOrder core).Perm ((shutPlaces core).filter fun i => !s.idlePlace core i) ∧
    (s.busyOrder core).Pairwise fun a b => s.shutsBefore core a b = true := by
  have h := foldl_shutRank (s := s) (core := core) ((shutPlaces core).filter fun i => !s.idlePlace core i) []
  rw [List.append_nil] at h
  exact h ((shutPlaces_nodup core).filter _) .nil

theorem shutOrder_perm (s : State) (core : Nat) : (s.shutOrder core).Perm (shutPlaces core) := by
  rw [shutOrder_eq]
  exact ((busyOrder_spec s core).1.append_left _).trans (List.filter_append_perm (s.idlePlace core) (shutPlaces core))

theorem shutOrder_nodup (s : State) (core : Nat) : (s.shutOrder core).Nodup := (shutOrder_perm s core).nodup_iff.2 (shutPlaces_nodup core)

theorem mem_shutOrder {i : Nat} : i ∈ s.shutOrder core ↔ i < 64 ∧ isSystem (64 * core + i) = false :=
  (shutOrder_perm s core).mem_iff.trans mem_shutPlaces

theorem idlePlace_iff {i : Nat} : s.idlePlace core i = true ↔ (s.slot (64 * core + i)).st = .empty ∨ (s.slot (64 * core + i)).st = .held := by
  simp [State.idlePlace]

theorem shutFirst_of_idle {i j : Nat} (hi : s.idlePlace core i = true) (h : s.idlePlace core j = true → j < i) : shutFirst s core i j :=
  .inl ⟨idlePlace_iff.1 hi, fun hj => h (idlePlace_iff.2 hj)⟩

theorem shutFirst_of_busy {i j : Nat} (hi : s.idlePlace core i = false) (hj : s.idlePlace core j = false) (h : s.shutsBefore core i j = true) :
    shutFirst s core i j := by
  have busy {n : Nat} (hn : s.idlePlace core n = false) := mt idlePlace_iff.2 (Bool.eq_false_iff.1 hn)
  exact .inr ⟨busy hi, busy hj, (shutsBefore_iff.1 h).imp_right fun e => ⟨e.1, e.2.imp_right fun f => ⟨f.1.symm, f.2⟩⟩⟩

theorem busyOrder_busy {i : Nat} (h : i ∈ s.busyOrder core) : s.idlePlace core i = false := by
  simpa using (List.mem_filter.1 ((busyOrder_spec s core).1.mem_iff.1 h)).2

/-- R312: the positions of a core stand in the order in which they are to be shuttered. -/
theorem shutOrder_sorted (s : State) (core : Nat) : (s.shutOrder core).Pairwise (shutFirst s core) := by
  rw [shutOrder_eq]
  refine List.pairwise_append.2 ⟨?_, ?_, fun i hi j hj => ?_⟩
  · refine ((shutPlaces_sorted core).filter _).imp_of_mem fun hi _ h => ?_
    exact shutFirst_of_idle (List.mem_filter.1 hi).2 fun _ => h
  · exact (busyOrder_spec s core).2.imp_of_mem fun hi hj h => shutFirst_of_busy (busyOrder_busy hi) (busyOrder_busy hj) h
  · refine shutFirst_of_idle (List.mem_filter.1 hi).2 fun h => ?_
    rw [busyOrder_busy hj] at h
    cases h

/-! ### The mask of the shuttered positions -/

/-- The bits of a sum of distinct powers of 2 are the exponents. -/
theorem mask_getLsbD {l : List Nat} (hn : l.Nodup) (hl : ∀ i ∈ l, i < 64) (j : Nat) :
    (BitVec.ofNat 64 (l.map fun i => 2 ^ i).sum).getLsbD j = decide (j ∈ l) := by
  induction l generalizing j with
  | nil => simp
  | cons a l ih =>
    obtain ⟨ha, hn⟩ := List.nodup_cons.1 hn
    obtain ⟨ha64, hl⟩ := List.forall_mem_cons.1 hl
    have apart : BitVec.twoPow 64 a &&& BitVec.ofNat 64 (l.map fun i => 2 ^ i).sum = 0#64 := by
      refine BitVec.eq_of_getLsbD_eq fun j _ => ?_
      rw [BitVec.getLsbD_and, BitVec.getLsbD_twoPow, ih hn hl, BitVec.getLsbD_zero]
      grind
    have power : BitVec.ofNat 64 (2 ^ a) = BitVec.twoPow 64 a :=
      BitVec.eq_of_toNat_eq ((BitVec.toNat_ofNat _ _).trans (BitVec.toNat_twoPow _ _).symm)
    rw [List.map_cons, List.sum_cons, BitVec.ofNat_add, power, BitVec.add_eq_or_of_and_eq_zero _ _ apart, BitVec.getLsbD_or,
      BitVec.getLsbD_twoPow, ih hn hl]
    grind

/-- R312: at a cycle that is a multiple of 64 the positions of the mask are the first of the order. -/
theorem shutterUpdate_chooses {count : Nat} (hc : count ≤ 48) (hlap : s.cycle core % 64 = 0) :
    ∃ t, exec (.shutterUpdate core count) s = .next t ∧ t.slots = s.slots ∧
      ∀ i, (t.core core).shut.getLsbD i = decide (i ∈ (s.shutOrder core).take count) := by
  have he := exec_shutterUpdate core count s
  simp only [execShutterUpdate, Nat.not_lt.2 hc, hlap, bne_self_eq_false, Bool.false_eq_true, if_false] at he
  refine ⟨_, he, rfl, fun i => ?_⟩
  rw [core_modCore_same, ← List.sum_eq_foldl]
  exact mask_getLsbD ((shutOrder_nodup s core).sublist (List.take_sublist _ _)) (fun i hi => (mem_shutOrder.1 (List.mem_of_mem_take hi)).1) i

/-- As many positions are shuttered as the first of the order hold. -/
theorem length_filter_take {count : Nat} (hc : count ≤ 48) (s : State) (core : Nat) :
    ((List.range 64).filter fun i => decide (i ∈ (s.shutOrder core).take count)).length = count := by
  have hn : ((s.shutOrder core).take count).Nodup := (shutOrder_nodup s core).sublist (List.take_sublist _ _)
  have perm : ((List.range 64).filter fun i => decide (i ∈ (s.shutOrder core).take count)).Perm ((s.shutOrder core).take count) := by
    refine (List.perm_ext_iff_of_nodup (List.nodup_range.filter _) hn).2 fun i => ?_
    simpa using fun hi => (mem_shutOrder.1 (List.mem_of_mem_take hi)).1
  have long : 48 ≤ (s.shutOrder core).length := (shutOrder_perm s core).length_eq ▸ shutPlaces_length core
  rw [perm.length_eq, List.length_take]
  omega

/-- R312: a position among the first of the order goes before every position that is not among them. -/
theorem shutFirst_of_take {count i j : Nat} (hi : i ∈ (s.shutOrder core).take count) (hj : j ∉ (s.shutOrder core).take count)
    (h64 : j < 64) (hsys : isSystem (64 * core + j) = false) : shutFirst s core i j := by
  have sorted := shutOrder_sorted s core
  have there : j ∈ (s.shutOrder core).take count ++ (s.shutOrder core).drop count := by
    rw [List.take_append_drop]
    exact mem_shutOrder.2 ⟨h64, hsys⟩
  rw [← List.take_append_drop count (s.shutOrder core)] at sorted
  exact (List.pairwise_append.1 sorted).2.2 i hi j ((List.mem_append.1 there).resolve_left hj)

/-- R312: a shutter update shutters as many positions as it says, no system slot among them, in the order of R312. -/
theorem shutterUpdate_shutters {count : Nat} (hc : count ≤ 48) (hlap : s.cycle core % 64 = 0) :
    ∃ t, exec (.shutterUpdate core count) s = .next t ∧ t.slots = s.slots ∧
      ((List.range 64).filter fun i => (t.core core).shut.getLsbD i).length = count ∧
      (∀ i < 64, (t.core core).shut.getLsbD i = true → isSystem (64 * core + i) = false) ∧
      ∀ i < 64, ∀ j < 64, (t.core core).shut.getLsbD i = true → (t.core core).shut.getLsbD j = false → isSystem (64 * core + j) = false →
        shutFirst s core i j := by
  obtain ⟨t, he, hs, hm⟩ := shutterUpdate_chooses hc hlap
  refine ⟨t, he, hs, ?_⟩
  simp only [hm, decide_eq_true_eq, decide_eq_false_iff_not]
  exact ⟨length_filter_take hc s core, fun i _ hi => (mem_shutOrder.1 (List.mem_of_mem_take hi)).2,
    fun i _ j hj hi hj' hsys => shutFirst_of_take hi hj' hj hsys⟩

end Sys2Proof.Machine
end

section
namespace Sys2Proof.Machine

/-- Settles O52: levels, shutters, billing, the semaphore's limit, power-on, discovery and replayed inputs, each by its own law. -/
theorem powerAndBoot : Obligations.PowerAndBoot := by
  unfold Obligations.PowerAndBoot
  refine ⟨fun s tile => ⟨levelChange_stops, clockRestart_runs⟩, fun s core count => shutterUpdate_shutters, fun s => billingSend_repeats,
    fun s => billingReceive_credits, fun s => ctlsemTimeout_frees, fun s h0 => ?_,
    fun s core h2 => ⟨discoveryFloodReceive_floods h2, discoveryAnswer_notes h2, discoveryTimeout_stops h2⟩,
    fun s region input c => replayExternalInput_delivers⟩
  change ∃ t, _ ∧ if Config.firmwareOk s.bootFirmware = true then _ else _
  split
  · next hok => exact powerOnReset_discovers h0 hok
  · next hok => exact ⟨_, powerOnReset_recovers h0 (Bool.eq_false_iff.2 hok), rfl, rfl⟩

end Sys2Proof.Machine
end
